-- ==== Sys2Proof/Word.lean ====
section
/-! DEFINITION. The word types of the module: bytes and the widths registers have. -/

namespace Sys2Proof

/-- One byte. -/
abbrev Byte := BitVec 8
/-- A string of bytes, in memory order (lowest address first). -/
abbrev Bytes := List Byte
/-- A 32-bit register or instruction word. -/
abbrev W32 := BitVec 32
/-- A 64-bit register. -/
abbrev W64 := BitVec 64
/-- A yoke (tiller) number, R143. -/
abbrev YokeId := Fin 64
/-- A plot number, 03. -/
abbrev PlotId := Fin 1024
/-- A cipher lane number, R316. -/
abbrev LaneId := Fin 32
/-- A public-key engine number, R356. -/
abbrev EngId := Fin 32
/-- A job number of a transaction, R216. -/
abbrev JobIx := Fin 8
/-- A Reile port number, R528. -/
abbrev PortId := Fin 2

end Sys2Proof
end

