-- ==== Sys2Proof/Syntax.lean ====
section
/-! DEFINITION. The commands of the module: one constructor of `Instr` for each row of the table of
operations and events. The table gives its rows no operands; a command carries what comes from outside
the module and the number of the unit it concerns (log 1). -/

namespace Sys2Proof

/-- A hopper: hopper h of a plot's VF, or the admin hopper of PF0 (R39, R41). -/
inductive HopRef where
  | vf (p : PlotId) (h : Fin 16)
  | admin
  deriving DecidableEq, Repr

/-- A PCIe function: PF0, or the VF that serves plot p (R35). -/
inductive Fn where
  | pf0
  | vf (p : PlotId)
  deriving DecidableEq, Repr

/-- A host change of the MSI-X gates of R78: the enable, the function mask, one vector's mask. -/
inductive MsixField where
  | enable
  | fnMask
  | vector (v : Fin 17)
  deriving DecidableEq, Repr

/-- A host or vault read as it ends: refused or aborted (R57), or with its bytes. -/
inductive HostRead where
  | failed
  | data (bytes : Bytes)
  deriving DecidableEq, Repr

/-- Who asked for a descriptor read: the dispatcher for a yoke, or the steward for the admin hopper. -/
inductive ReadFor where
  | yoke (y : YokeId)
  | admin
  deriving DecidableEq, Repr

/-- The transaction whose deadline passes: one charged to a yoke, or the oldest accepted descriptor of a
hopper that is not dispatched yet, with the descriptor the module reads to end it (R81). -/
inductive DlTarget where
  | yoke (y : YokeId)
  | queued (p : PlotId) (h : Fin 16) (desc : Bytes)
  deriving DecidableEq, Repr

/-- A register space and the writer of a register write (R10, R42): the windows, the steward's registers, its RNG port
(R407), and the configuration space of a function (Table 2.1). -/
inductive Writer where
  | managerM
  | managerD
  | driver (p : PlotId)
  | steward
  | rngPort
  | config (f : Fn)
  deriving DecidableEq, Repr

/-- The core an instruction runs on: a tiller, or the steward (R185). -/
inductive CoreId where
  | tiller (y : YokeId)
  | steward
  deriving DecidableEq, Repr

/-- What the lockstep comparison and the error codes see while an instruction runs (R144, R146, R230); `tagFail`: the slot or body that a
PJOB names does not verify as it is read (R270, R362); and `word`: the word
fetched is no instruction, so that its major opcode traps in place of the row's effect (R162, R163). -/
inductive Hw where
  | ok
  | mismatch
  | benchUnc
  | fetchUnc
  | eccCorr
  | tagFail
  | word (major : Byte)
  deriving DecidableEq, Repr

/-- The fields of a format M instruction (Table 4.5) with its extension word. -/
structure Ins where
  e    : Bool := false
  mode : BitVec 3 := 0
  sz   : BitVec 2 := 3
  sub  : BitVec 2 := 0
  f16  : BitVec 16 := 0
  ext  : W32 := 0
  hw   : Hw := .ok
  deriving DecidableEq, Repr

/-- The fields of a format B instruction (Table 4.5). -/
structure InsB where
  e    : Bool := false
  cond : BitVec 4 := 0
  ofs  : BitVec 19 := 0
  hw   : Hw := .ok
  deriving DecidableEq, Repr

/-- The fields of a format L instruction (Table 4.5) with its extension word. -/
structure InsL where
  e    : Bool := false
  s    : Bool := false
  cnt  : BitVec 10 := 0
  ends : BitVec 12 := 0
  ext  : W32 := 0
  hw   : Hw := .ok
  deriving DecidableEq, Repr

/-- The fields of a format P instruction (Table 4.5); `mbz` is bits [21:8]. -/
structure InsP where
  e    : Bool := false
  s    : Bool := false
  mbz  : BitVec 14 := 0
  n1   : BitVec 8 := 0
  hw   : Hw := .ok
  deriving DecidableEq, Repr

/-- What a lane job meets beside its operands: nothing; a failure of an inverse check, of the kind LAN_LAST.KIND names (R322); another
job that has derived the same entry at once with other material, in the first or the second derivation (R295); a slot whose tag does not
match at its fetch, of HANDLE1, HANDLE2 or the first or second derived entry (R270); a corrected or an uncorrectable bit error of the bench
under its input (R146). -/
inductive LaneEv where
  | ok
  | encFail
  | decFail
  | derFail
  | race (second : Bool)
  | tagFail (key : Fin 4)
  | eccCorr
  | benchUnc
  deriving DecidableEq, Repr

/-- What an engine job meets beside its operands: nothing; the failure of an end-of-operation invariant, reason 16 + k (R375); a
corrected or an uncorrectable bit error of the bench under its input (R146). -/
inductive EngEv where
  | ok
  | invFail (k : Fin 5)
  | eccCorr
  | benchUnc
  deriving DecidableEq, Repr

/-- What the sweeper visits (R288, R299). -/
inductive SweepTarget where
  | kitBucket (b : Fin 131072)
  | kitOverflow
  | rplBucket (b : Fin 65536)
  | rplOverflow
  deriving DecidableEq, Repr

/-- A unit with its own clock gate and mask key (R609, R405). -/
inductive UnitId where
  | yoke (y : YokeId)
  | lane (l : LaneId)
  | engine (e : EngId)
  deriving DecidableEq, Repr

/-- The three registers of a hedgerow region, HDG_PERM as its two halves (R451, R573). -/
inductive HdgReg where
  | base
  | cfg
  | permLo
  | permHi
  deriving DecidableEq, Repr

/-- A debug master's fabric access under MEM (R457). -/
inductive DbgAccess where
  | read (len : Nat)
  | write (data : Bytes)
  | exec (len : Nat)
  deriving DecidableEq, Repr

/-- The RID association block of an IDE stream: the first and the last RID (R91). -/
structure IdeRids where
  first : Nat
  last  : Nat
  deriving DecidableEq, Repr

/-- The address association blocks of an IDE stream: up to two, each a base and a limit (R91). -/
structure IdeAddrs where
  block0 : Option (W64 × W64) := none
  block1 : Option (W64 × W64) := none
  deriving DecidableEq, Repr

/-- The pins as main power good asserts: the level of CON_LVL (R580), and VIN in mV (R584, R591). -/
structure PowerPins where
  conLvl : Bool
  vinMv  : BitVec 16
  deriving DecidableEq, Repr

/-- The pins as VIO returns: PWRGD (R593) and the SMBADR straps (R444). -/
structure VioPins where
  pwrgd  : Bool
  smbadr : BitVec 2
  deriving DecidableEq, Repr

/-- What a card answers (R475 steps 4 and 5). -/
inductive CardAnswer where
  | pinOk
  | pinRefused
  | signature (bytes : Bytes)
  deriving DecidableEq, Repr

/-- What a frame of the console's PED carries (R474, R479). -/
inductive ConsoleMsg where
  | pin
  | digits (hex : List (BitVec 4))
  | confirm
  | other
  deriving DecidableEq, Repr

/-- The outcomes of the tests and checks of a module start that come from the hardware (R498, R499). -/
structure StartEnv where
  katFail   : Option (BitVec 8) := none
  dramOk    : Bool := true
  vaultOk   : Bool := true
  imageOk   : Bool × Bool := (true, true)
  checkWord : Bool := true
  deriving DecidableEq, Repr

/-- The instance tests of step 11 of Table 13.2 (R498). -/
structure InstanceTests where
  yokes   : BitVec 64 := BitVec.allOnes 64
  lanes   : BitVec 32 := BitVec.allOnes 32
  engines : BitVec 32 := BitVec.allOnes 32
  /-- the most faults of one yoke during the start (R498) -/
  faults  : Nat := 0
  deriving DecidableEq, Repr

/-- A low pulse on MRST_N by its length (R595): at least 10 µs, between 1 µs and 10 µs, under 1 µs. -/
inductive MrstPulse where
  | long
  | middle
  | short
  deriving DecidableEq, Repr

/-- The header of a received Reile frame (Table 15.1) and whether its GCM tag verifies (R532). -/
structure Hdr where
  port   : PortId := 0
  src    : BitVec 12 := 0
  dst    : BitVec 12 := 0
  ver    : BitVec 8 := 2
  kph    : Bool := false
  ackReq : Bool := true
  seq    : W64 := 0
  tagOk  : Bool := true
  /-- codewords of the port that RS-FEC corrected, and could not correct, since the last frame (R567) -/
  corr   : Nat := 0
  unc    : Nat := 0
  deriving DecidableEq, Repr

/-- A shared-key update (R543). -/
structure ShareUpd where
  dtid     : W32
  name     : W64
  alg      : Byte
  attr     : W32
  len      : Byte
  expiry   : W32
  age      : BitVec 3
  kcv      : Bytes
  material : Bytes
  stamp    : BitVec 48
  origin   : BitVec 12
  deriving DecidableEq, Repr

/-- The home's answer to a claim (R549 step 4). -/
inductive ClaimAnswer where
  | granted
  | taken
  | status (code : BitVec 16)
  deriving DecidableEq, Repr

/-- A plot record of the active as the standby takes it over (R553 step 2, R496). -/
structure PlotCopy where
  id          : PlotId
  armed       : Bool
  acr         : Bytes
  active      : Bytes
  shadow      : Bytes
  shadowValid : Bool
  dtid        : W32
  signers     : List (W64 × Bytes)
  images      : List Bytes
  curves      : List (Nat × Bytes)
  deriving DecidableEq, Repr

/-- A KIT entry of the active with its key-cache slot (R553 step 4). -/
structure PairKey where
  place    : Nat
  slot     : Nat
  plot     : PlotId
  name     : W64
  stamp    : BitVec 16
  age      : BitVec 3
  pinned   : Bool
  derived  : Bool
  shared   : Bool
  vaulted  : Bool
  alg      : Byte
  len      : Byte
  attr     : W32
  expiry   : W32
  uses     : W32
  kcv      : Bytes
  material : Bytes
  asym     : Bool
  pset     : Nat
  body     : Bytes
  pair     : Option (BitVec 48 × BitVec 12)
  deriving DecidableEq, Repr

/-- A replay entry of the active (R553 step 4). -/
structure PairFp where
  place  : Nat
  plot   : PlotId
  fp     : BitVec 96
  stamp  : BitVec 16
  shared : Bool
  claim  : Bool
  deriving DecidableEq, Repr

/-- A vault record of the active (R553 steps 3 and 4). -/
structure PairRec where
  place    : Nat
  kind     : BitVec 2
  plot     : PlotId
  name     : W64
  orderHi  : W32
  orderLo  : W32
  attr     : W32
  alg      : Byte
  len      : Byte
  age      : BitVec 3
  pinned   : Bool
  expiry   : W32
  kcv      : Bytes
  material : Bytes
  pset     : Nat
  body     : Bytes
  nonce    : Bytes
  deriving DecidableEq, Repr

/-- What the active copies to the standby in steps 3 and 4 of Table 15.6: the key plane, the replay table, the vault with
its ORDER sequence, and for each plot its transaction counter and its drill's request count. -/
structure PairCopy where
  keys   : List PairKey := []
  fps    : List PairFp := []
  recs   : List PairRec := []
  vltSeq : W32 := 0
  plots  : List (PlotId × W64 × Nat) := []
  deriving DecidableEq, Repr

/-- What PAIR_STATE carries (R552, R553, R565): the sender's role and conditions, and its plot records. -/
structure PairInfo where
  role      : BitVec 2
  fw        : W32
  pke       : List W32
  swapBuf   : Bool
  plots     : List PlotCopy
  deriving DecidableEq, Repr

/-- A forwarded dispatch (R554): sequence, plot, hopper, descriptor and staged data. With an empty descriptor it carries the
bytes of a transaction's XFER with DIR 0, none where that read failed. -/
structure PairDispatch where
  seq    : W64
  plot   : PlotId
  hopper : Fin 16
  desc   : Bytes
  staged : Bytes
  deriving DecidableEq, Repr

/-- A forwarded admin outcome (R554): the command's code, its plot, its status and its descriptor. -/
structure PairOutcome where
  seq    : W64
  code   : BitVec 16
  plot   : PlotId
  ok     : Bool
  desc   : Bytes
  deriving DecidableEq, Repr

/-- The messages a version 2 packed frame may carry (R533): every type but the handshake's and PACKED. -/
inductive Msg where
  | heartbeat (lastSeq lastBatch : W64)
  | ack (seqs : List W64)
  | bind (dtids : List W32)
  | shareLearn (u : ShareUpd)
  | shareForget (dtid : W32) (name : W64) (stamp : BitVec 48) (origin : BitVec 12)
  | syncReq (dtid : W32)
  | claim (dtid : W32) (fp : BitVec 96)
  | claimReply (dtid : W32) (fp : BitVec 96) (a : ClaimAnswer)
  | rehome (dtid : W32) (fps : List (BitVec 96)) (last : Bool)
  | pairState (i : PairInfo)
  | pairStream (d : PairDispatch)
  | pairAdmin (o : PairOutcome)
  | pairAbort (seq boundaries : W64)
  | pairDigest (first : W64) (count : Nat) (digest : Bytes)
  | pairAck (first : W64) (count : Nat)
  | pairSwap
  deriving DecidableEq, Repr

/-- One constructor for each row of the table of operations and events. -/
inductive Instr where
  -- host link and hoppers (02, 16)
  | hopTailDb (r : HopRef) (value : W32) (aligned32 : Bool)
  | hopHeadDb (r : HopRef) (value : W32) (aligned32 : Bool)
  | hopperEnable (r : HopRef) (cfg : W32)
  | hopperDisable (r : HopRef) (cfg : W32)
  | registerWrite (w : Writer) (offset : Nat) (size : Nat) (value : W64)
  | dispatch
  | descriptorArrival (t : ReadFor) (r : HostRead)
  | stagingReadComplete (y : YokeId) (r : HostRead)
  | deadlineExpired (t : DlTarget)
  | tMarginReached (y : YokeId)
  | coalescingTimer (r : HopRef)
  | msixUnmask (f : Fn) (m : MsixField)
  | ideIntegrityFailure (k : Fin 2)
  | ideKmQuery (k : Fin 2)
  | ideKmKeyProg (k : Fin 2) (set : Fin 2) (rids : IdeRids) (addrs : IdeAddrs)
  | ideKmKSetGo (k : Fin 2) (set : Fin 2)
  | ideKmKSetStop (k : Fin 2) (set : Fin 2)
  | spdmGetCertificate (slot : Fin 8)
  | spdmChallenge (nonce : Bytes)
  | spdmGetMeasurements (index : Byte) (nonce : Bytes)
  | spdmKeyExchange (exchange : Bytes)
  | vfFlr (p : PlotId)
  | vfEnableClear
  | pf0Flr
  | perstN
  -- plots and drawers (03)
  | plotCreate
  | plotOpen
  | plotStop
  | plotStart
  | plotResize
  | plotReset
  | resetSequenceComplete (p : PlotId)
  | plotRemove
  | removalSequenceComplete (p : PlotId)
  | plotPolicyStage (r : HostRead)
  | plotPolicyCommit
  | plotQuery
  | drawerSend
  | drawerRecv
  | pltVopenGo (p : PlotId) (value : W32)
  | inValid (p : PlotId)
  | outAck (p : PlotId)
  | plotTick (p : PlotId)
  -- Swimomos instructions (04, 05)
  | add (c : CoreId) (i : Ins)
  | adc (c : CoreId) (i : Ins)
  | sub (c : CoreId) (i : Ins)
  | sbc (c : CoreId) (i : Ins)
  | cmp (c : CoreId) (i : Ins)
  | and (c : CoreId) (i : Ins)
  | or (c : CoreId) (i : Ins)
  | xor (c : CoreId) (i : Ins)
  | tst (c : CoreId) (i : Ins)
  | neg (c : CoreId) (i : Ins)
  | not (c : CoreId) (i : Ins)
  | lda (c : CoreId) (i : Ins)
  | ldx (c : CoreId) (i : Ins)
  | ldy (c : CoreId) (i : Ins)
  | ldsp (c : CoreId) (i : Ins)
  | sta (c : CoreId) (i : Ins)
  | stx (c : CoreId) (i : Ins)
  | sty (c : CoreId) (i : Ins)
  | push (c : CoreId) (i : Ins)
  | pop (c : CoreId) (i : Ins)
  | leax (c : CoreId) (i : Ins)
  | leay (c : CoreId) (i : Ins)
  | mul (c : CoreId) (i : Ins)
  | muls (c : CoreId) (i : Ins)
  | clrm (c : CoreId) (i : Ins)
  | macd (c : CoreId) (i : Ins)
  | macs (c : CoreId) (i : Ins)
  | macc (c : CoreId) (i : Ins)
  | divu (c : CoreId) (i : Ins)
  | divs (c : CoreId) (i : Ins)
  | shl (c : CoreId) (i : Ins)
  | shr (c : CoreId) (i : Ins)
  | sar (c : CoreId) (i : Ins)
  | rol (c : CoreId) (i : Ins)
  | ror (c : CoreId) (i : Ins)
  | bset (c : CoreId) (i : Ins)
  | bclr (c : CoreId) (i : Ins)
  | btst (c : CoreId) (i : Ins)
  | clz (c : CoreId) (i : Ins)
  | popc (c : CoreId) (i : Ins)
  | bswp (c : CoreId) (i : Ins)
  | bcond (c : CoreId) (i : InsB)
  | call (c : CoreId) (i : InsB)
  | ret (c : CoreId) (i : Ins)
  | jmp (c : CoreId) (i : Ins)
  | callr (c : CoreId) (i : Ins)
  | rte (c : CoreId) (i : Ins)
  | loop (c : CoreId) (i : InsL)
  | lpop (c : CoreId) (i : Ins)
  | rpt (c : CoreId) (i : InsP)
  | kfnd (c : CoreId) (i : Ins)
  | vaultReloadComplete (y : YokeId) (authOk : Bool)
  | ljob (c : CoreId) (i : Ins)
  | pjob (c : CoreId) (i : Ins)
  | wjob (c : CoreId) (i : Ins)
  | rand (c : CoreId) (i : Ins)
  | rply (c : CoreId) (i : Ins)
  | xfer (c : CoreId) (i : Ins)
  | xferReadComplete (y : YokeId) (r : HostRead)
  | done (c : CoreId) (i : Ins)
  | fail (c : CoreId) (i : Ins)
  | wait (c : CoreId) (i : Ins)
  | fence (c : CoreId) (i : Ins)
  | evack (c : CoreId) (i : Ins)
  | stewardEvent (k : Fin 16)
  | stewardWatchdog
  | yokeResetComplete (y : YokeId)
  -- program admin commands (06)
  | progSignerAdd (r : HostRead)
  | progSignerRemove
  | progInstall (r : HostRead)
  | progRemove
  | progList
  -- lane jobs (08)
  | pinXlate (y : YokeId) (j : JobIx) (ev : LaneEv)
  | pinOpen (y : YokeId) (j : JobIx) (ev : LaneEv)
  | pinReseal (y : YokeId) (j : JobIx) (ev : LaneEv)
  | pinVer3624 (y : YokeId) (j : JobIx) (ev : LaneEv)
  | pinVerPvv (y : YokeId) (j : JobIx) (ev : LaneEv)
  | cvv (y : YokeId) (j : JobIx) (ev : LaneEv)
  | arqcArpc (y : YokeId) (j : JobIx) (ev : LaneEv)
  | dukptDerive (y : YokeId) (j : JobIx) (ev : LaneEv)
  | kbUnwrap (y : YokeId) (j : JobIx) (ev : LaneEv)
  | kbWrap (y : YokeId) (j : JobIx) (ev : LaneEv)
  | cmac (y : YokeId) (j : JobIx) (ev : LaneEv)
  | mac9797 (y : YokeId) (j : JobIx) (ev : LaneEv)
  | hmac (y : YokeId) (j : JobIx) (ev : LaneEv)
  | gcmDec (y : YokeId) (j : JobIx) (ev : LaneEv)
  | ff1 (y : YokeId) (j : JobIx) (ev : LaneEv)
  | cipher (y : YokeId) (j : JobIx) (ev : LaneEv)
  | hash (y : YokeId) (j : JobIx) (ev : LaneEv)
  -- engine jobs (09)
  | rsaSign (y : YokeId) (j : JobIx) (ev : EngEv)
  | rsaVerify (y : YokeId) (j : JobIx) (ev : EngEv)
  | rsaDecrypt (y : YokeId) (j : JobIx) (ev : EngEv)
  | ecdsaSign (y : YokeId) (j : JobIx) (ev : EngEv)
  | ecdsaVerify (y : YokeId) (j : JobIx) (ev : EngEv)
  | ecdh (y : YokeId) (j : JobIx) (ev : EngEv)
  | ecKeyPairGeneration (y : YokeId) (j : JobIx) (ev : EngEv)
  | eddsaSign (y : YokeId) (j : JobIx) (ev : EngEv)
  | eddsaVerify (y : YokeId) (j : JobIx) (ev : EngEv)
  | x25519X448 (y : YokeId) (j : JobIx) (ev : EngEv)
  | mlkemEncapsulate (y : YokeId) (j : JobIx) (ev : EngEv)
  | mlkemDecapsulate (y : YokeId) (j : JobIx) (ev : EngEv)
  | mldsaSign (y : YokeId) (j : JobIx) (ev : EngEv)
  | mldsaVerify (y : YokeId) (j : JobIx) (ev : EngEv)
  | attach (y : YokeId) (j : JobIx)
  | validationWindowEnd (y : YokeId) (j : JobIx)
  | engineSquashComplete (e : EngId) (slot : Fin 2)
  | engineDetachComplete (e : EngId)
  -- multiply-accumulate commands (09)
  | zero (e : EngId)
  | copy (e : EngId)
  | mprep (e : EngId)
  | mmul (e : EngId)
  | madd (e : EngId)
  | msub (e : EngId)
  | mac (e : EngId)
  | ntt (e : EngId)
  | intt (e : EngId)
  | pwmul (e : EngId)
  | padd (e : EngId)
  -- curve and public-key admin commands (09)
  | pkeCurveLoad (r : HostRead)
  | pkeCurveClear
  | pkePubkeyLoad (r : HostRead)
  -- key plane (07)
  | kitRehash
  | rehashSweep
  | walkTokenTaken
  | sweeperVisit (t : SweepTarget)
  | vaultSave
  | vaultLoad (r : HostRead)
  -- noise sources and drills (10)
  | healthTestFailure (src : Fin 20) (samples : List Bool)
  | sourceRetestStart (src : Fin 20)
  | startupTestEnd (src : Fin 20) (samples : List Bool)
  | conditionerBlock
  | maskKeyRefresh (u : UnitId)
  | rngSctlPr
  | rngSctlSel (sel : BitVec 2)
  | rngDataRead
  | claimStartTimeout
  | rngRawCapture
  | rawCaptureEnd (samples : List Bool)
  -- keeper (11)
  | tamper (cause : Fin 15) (temp : BitVec 8)
  | logWindowClose
  | keeperPowerOn
  | keeperSourceSwitch (toBattery : Bool)
  | batLow
  | batLowClear
  | operatingMinute
  | kprVoltUpdate (kvbatMv : BitVec 16) (temp : BitVec 16)
  | tmpLoopSet
  | tmpRearm
  | smbusDeviceId
  | smbusKprStat
  | smbusTmpCause
  | smbusTmpLive
  | smbusKprOpmin
  | smbusKprPwrcyc
  | smbusKprStartfail
  | smbusKprVolt
  | smbusTmpLoopCfg
  | smbusKprStarts
  | smbusTmpLog (i : Fin 16)
  | smbusWrite
  -- hedgerow and debug (12)
  | holdSet
  | held
  | holdRelease
  | holdLong
  | hdgRegionWrite (r : Fin 256) (g : HdgReg) (value : W32)
  | debugMemAccess (addr : W32) (a : DbgAccess)
  | debugHalt (c : CoreId)
  | bypass
  | idcode
  | sample
  | extest
  | dbgChallenge (rights : BitVec 4)
  | dbgToken (token : Bytes)
  | challengeExpiry
  | dbgConsent
  -- custodians (12)
  | custEnrol
  | custRevoke
  | custSetM
  | custSessionOpen
  | custSessionEnd
  | keyCeremony
  | custCancel
  | pedEnrol (r : HostRead)
  | cardInsert (slot : Fin 2) (key : Bytes)
  | cardWithdraw (slot : Fin 2)
  | cardOvercurrent (slot : Fin 2)
  | cardResponse (slot : Fin 2) (a : CardAnswer)
  | consoleFrame (seq : W32) (tagOk : Bool) (m : ConsoleMsg)
  | authStepTimeout
  | assemblyTimeout
  | sessionExpiry (k : Fin 2)
  -- life cycle and start (13)
  | lcsAdvance
  | lcsStatus
  | fwLoad (r : HostRead)
  | fwActivate
  | startCntReset
  | fallowRequest
  | modReconfig
  | stopChangeRestartApply
  | moduleStart (env : StartEnv)
  | fullService (tests : InstanceTests)
  -- power and pins (01, 17)
  | mainPowerGood (p : PowerPins)
  | mainPowerLoss
  | mrstN (pulse : MrstPulse)
  | vioLoss
  | vioReturn (p : VioPins)
  | thermalShutdown
  | holdupStoreCharged
  | pllLock (pll : Fin 6)
  | dozeEntry
  | pwrPolicyWrite (value : W32)
  | unitGate (u : UnitId)
  -- event recorder (14)
  | evrExport
  | evrAck
  -- clusters and pairs (15)
  | cluJoin (r : HostRead)
  | cluMembers (r : HostRead)
  | cluLeave
  | cluPlotBind
  | cluPair
  | pairCopyDone (c : PairCopy)
  | cluUnpair
  | cluSwap
  | swapPlotsStopped (dmaOk : Bool)
  | cluPromote
  | portLinkChange (k : PortId) (up : Bool)
  | foreignFrame (k : PortId)
  | hello (h : Hdr) (domain : W32) (chain nodeCert : Bytes)
  | kex (h : Hdr) (kem point : Bytes)
  | kexReply (h : Hdr) (ct point sig : Bytes)
  | finish (h : Hdr) (sig : Bytes)
  | rekey (h : Hdr) (kem point : Bytes)
  | rekeyReply (h : Hdr) (ct point sig : Bytes)
  | rekeyThreshold (peer : BitVec 12)
  | phaseOverlapEnd (peer : BitVec 12)
  | heartbeat (h : Hdr) (lastSeq lastBatch : W64)
  | heartbeatSend (k : PortId)
  | ack (h : Hdr) (seqs : List W64)
  | resendTimer (peer : BitVec 12) (seq : W64)
  | bind (h : Hdr) (dtids : List W32)
  | shareLearn (h : Hdr) (u : ShareUpd)
  | shareForget (h : Hdr) (dtid : W32) (name : W64) (stamp : BitVec 48) (origin : BitVec 12)
  | syncReq (h : Hdr) (dtid : W32)
  | claim (h : Hdr) (dtid : W32) (fp : BitVec 96)
  | claimReply (h : Hdr) (dtid : W32) (fp : BitVec 96) (a : ClaimAnswer)
  | rehome (h : Hdr) (dtid : W32) (fps : List (BitVec 96)) (last : Bool)
  | pairState (h : Hdr) (i : PairInfo)
  | pairStream (h : Hdr) (d : PairDispatch)
  | pairAdmin (h : Hdr) (o : PairOutcome)
  | pairAbort (h : Hdr) (seq boundaries : W64)
  | pairDigest (h : Hdr) (first : W64) (count : Nat) (digest : Bytes)
  | pairAck (h : Hdr) (first : W64) (count : Nat)
  | pairSwap (h : Hdr)
  | packed (h : Hdr) (ms : List Msg)
  | batchClose
  | standbyTakeover
  | activeUnpair
  -- rows added at the table's end
  | keeperSupplyLoss
  | tamperConditionClear (cause : Fin 15)
  | debugResume (c : CoreId)
  | vfEnableSet (numVfs : Nat)
  | msixMask (f : Fn) (m : MsixField)
  | perstNRelease
  | ledActTimeout
  | adminBoundExpired
  deriving DecidableEq, Repr

end Sys2Proof
end

