-- ==== Sys2Proof/Decode.lean ====
section
/-! DEFINITION. Commands and the bits of the table: no row of the table of operations and events gives bits,
so no word spells a command. -/

namespace Sys2Proof

/-- The command that a word of `nbits` bits spells by the table's bits: none, since no row has any. -/
def decodeTableWord (_nbits _w : Nat) : Option Instr := none

end Sys2Proof
end

