-- ==== Sys2Proof/Config.lean ====
section
/-! DEFINITION. What an implementation fixes and what the spec leaves open. Every constant here is OPAQUE:
nothing can compute or prove a value of it, so a claim about the model holds for every value.
The cryptographic functions are those the spec names by their standards and does not restate (log 12);
the free values stand where the spec says a value is drawn at random or gives no value (log 3). -/

namespace Sys2Proof.Config

/-- The free value number n: a byte nobody fixes (random draws, open values), log 3. -/
opaque freeByte : Nat → Byte
/-- The free choice number n, where the spec allows either of two behaviours (R595), log 3. -/
opaque freeBool : Nat → Bool
/-- A free word number n, log 3. -/
opaque freeWord : Nat → W64
/-- The fused serial number (16, GLB_SERIAL). -/
opaque serial : W64
/-- The minimum SVN fused at VENDOR (R499). -/
opaque minSvn : BitVec 16
/-- Where the 10 MiB of secure general memory (Table 1.6) lie in the fabric; the spec gives no map, log 14. -/
opaque memPlace : Nat
/-- The page of 4 KiB at which they begin, so that they lie within the 4 GiB of R185. -/
def memPage : Nat := memPlace % 1046017
/-- Whether another address of the fabric has a decoded target (R454), log 14. -/
opaque otherTarget : Nat → Bool
/-- The fabric addresses that have a decoded target: the secure general memory and what else the map holds (R454). -/
def fabricTarget (a : Nat) : Bool :=
  (decide (4096 * memPage ≤ a) && decide (a < 4096 * memPage + 10 * 2 ^ 20)) || otherTarget a
/-- The address of the vendor library program of an ID in the program store, by the library (R228, Table 6.11). -/
opaque vendorEntry : Bytes → Nat → W32
/-- The identity chain of R88, as bytes. -/
opaque identityChain : Bytes
/-- The module's attestation public key (R88), which personalises its drills (R402). -/
opaque attestPublic : Bytes
/-- The fused base MAC address; port k's is this plus k (R529). -/
opaque baseMac : BitVec 48
/-- The fused Trirath keys: 1 the ECDSA P-384 firmware key, 2 the ML-DSA-87 firmware key, 3 the debug key (R464, R499). -/
opaque fwKey : Nat → Bytes
/-- The JTAG IDCODE of the TAP (R462); the spec gives no value. -/
opaque idcode : W32
/-- What a boundary scan captures (R462); the spec gives no scan register. -/
opaque boundary : Nat → Bytes
/-- The free part of the n-th IDE_KM answer: the spec gives its object's form no bytes (log 3). -/
opaque doeBody : Nat → Bytes

/-! ### Cryptographic functions named by standard -/

/-- AES of one 16-byte block under a key of 16, 24 or 32 bytes (Table 8.3). -/
opaque aesEnc : Bytes → Bytes → Bytes
/-- Inverse AES of one block. -/
opaque aesDec : Bytes → Bytes → Bytes
/-- Single DES of one 8-byte block under an 8-byte key (R348). -/
opaque desEnc : Bytes → Bytes → Bytes
/-- Inverse single DES of one block. -/
opaque desDec : Bytes → Bytes → Bytes
/-- CMAC (SP 800-38B); the first argument says whether the block cipher is AES. -/
opaque cmac : Bool → Bytes → Bytes → Bytes
/-- SHA-256, SHA-384, SHA-512, SHA3-256, SHA3-384, SHA3-512 as algorithms 1 to 6 of Table 8.8. -/
opaque hash : Nat → Bytes → Bytes
/-- HMAC-SHA-256. -/
opaque hmac256 : Bytes → Bytes → Bytes
/-- The bit that an external loop is driven with in a millisecond (R431). -/
opaque loopBit : Nat → Nat → Bool
/-- The key of the cabinet's check word, from CRK; the spec does not say how it derives (R425). -/
opaque checkKey : Bytes → Bytes
/-- HKDF-SHA-256 (RFC 5869): IKM, salt, info, length. -/
opaque hkdf256 : Bytes → Bytes → Bytes → Nat → Bytes
/-- HKDF-SHA-384 (R535). -/
opaque hkdf384 : Bytes → Bytes → Bytes → Nat → Bytes
/-- SipHash-2-4 of a message under a 16-byte key, as an unsigned integer (R275). -/
opaque siphash24 : Bytes → Bytes → Nat
/-- AES-GCM decryption: key, IV, AAD, ciphertext, tag; none where the tag fails (R350). -/
opaque gcmOpen : Bytes → Bytes → Bytes → Bytes → Bytes → Option Bytes
/-- FF1 (SP 800-38G): decrypt?, key, radix, tweak, numerals (R351). -/
opaque ff1 : Bool → Bytes → Nat → Bytes → Bytes → Bytes
/-- The DUKPT initial key of X9.24-3 (AES) or X9.24-1 (TDES): AES?, BDK, initial key ID (R345). -/
opaque dukptInitial : Bool → Bytes → Bytes → Bytes
/-- The DUKPT working key: AES?, initial key, KSN, USAGE (R345). -/
opaque dukptWorking : Bool → Bytes → Bytes → Nat → Bytes
/-- EMV Book 2 ICC master key, option A or the AES method: AES?, master key, PAN and PSN digits (R342). -/
opaque emvMaster : Bool → Bytes → Bytes → Bytes
/-- EMV common session key derivation: AES?, ICC master key, ATC (R342). -/
opaque emvSession : Bool → Bytes → Bytes → Bytes
/-- TR-31 authentication and decryption of a key block: version D?, KBPK, block; none where authentication
fails; otherwise the clear length field, key and padding (R261). -/
opaque kbOpen : Bool → Bytes → Bytes → Option Bytes
/-- TR-31 version D wrapping: KBPK, header with optional blocks, key, random padding number (R268). -/
opaque kbSeal : Bytes → Bytes → Bytes → Nat → Bytes
/-- The encrypted body length and bits of an asymmetric key carried by a key block: RSA modulus bits,
PSET, whether the key is private (R262). -/
opaque asymInfo : Bytes → Nat × Nat × Bool
/-- The SubjectPublicKeyInfo of an asymmetric key body (Table 7.1). -/
opaque spki : Bytes → Bytes
/-- AES-GCM encryption: key, IV, AAD, plaintext; the ciphertext with its tag behind it (R304). -/
opaque gcmSeal : Bytes → Bytes → Bytes → Bytes → Bytes
/-- The record key of a plot, from its root key; the spec does not say how it derives (R304). -/
opaque recordKey : Bytes → Bytes
/-- The tag of a key-cache slot: the key of the module start, bytes 0 to 55; the spec names no MAC (R270). -/
opaque slotTag : Bytes → Bytes → W64
/-- The 32 bytes that a sealed register shows of a running state: job type, key, PARAM, the message of the earlier parts (R250, R349). -/
opaque runState : Nat → Bytes → Bytes → Bytes → Bytes
/-- Signature verification: ECDSA P-384/SHA-384 (1), ML-DSA-87 (2), ECDSA P-256/SHA-256 (3): key, message,
signature (R232, R464, R475, R499, R535). -/
opaque sigVerify : Nat → Bytes → Bytes → Bytes → Bool
/-- ML-KEM-768 of R535: the encapsulation key of an ephemeral secret's number; ciphertext and shared secret from a key and a secret's
number; the shared secret from a secret's number and a ciphertext. -/
opaque kemPublic : Nat → Bytes
opaque kemEncaps : Bytes → Nat → Bytes × Bytes
opaque kemDecaps : Nat → Bytes → Bytes
/-- A signature under the attestation key over a message, with a random number's index (R88, R522). -/
opaque attestSign : Bytes → Nat → Bytes
/-- Whether a node certificate and a peer's identity chain are valid (R535): CA key, domain, node, chain,
certificate. -/
opaque certOk : Bytes → W32 → Nat → Bytes → Bytes → Bool
/-- The ephemeral ECDH over secp384r1 of R87 and R535: the module's point from a random number's index, and the shared secret with the
other side's point. -/
opaque dhePublic : Nat → Bytes
opaque dheShared : Bytes → Nat → Bytes
/-- The SPDM key schedule: the secret of a session from the DHE secret and the transcript (R87). -/
opaque spdmSchedule : Bytes → Bytes → Bytes
/-- The verify data of a responder: session secret, transcript. -/
opaque spdmVerify : Bytes → Bytes → Bytes
/-- A secured message (AES-256-GCM): session secret, sequence number, message (R87). -/
opaque spdmSeal : Bytes → Nat → Bytes → Bytes
/-- The vendor library that a firmware image carries: the words of program store addresses 0 to 0x2FFFF, with the library's
trap stub at 0 (R228, R231). -/
opaque vendorLibrary : Bytes → Bytes
/-- The strong Lucas test of R380. -/
opaque strongLucas : Nat → Bool
/-- The parameters of a built-in Weierstrass set of Table 9.1 from its standard, in the form of a curve record (Table 9.9). -/
opaque namedCurve : Nat → Bytes
/-- The modulus and public exponent of an RSA key body. -/
opaque rsaPublic : Bytes → Nat × Nat
/-- The point of a Weierstrass public key; none where it is the point at infinity. -/
opaque ecPublic : Bytes → Option (Nat × Nat)
/-- An Edwards encoding is canonical (RFC 8032), decodes to a point of the curve, is of small order: PSET, encoding. -/
opaque edCanonical : Nat → Bytes → Bool
opaque edOnCurve : Nat → Bytes → Bool
opaque edSmallOrder : Nat → Bytes → Bool
/-- The order L of an Edwards base point, and the scalar S an encoding spells. -/
opaque edOrder : Nat → Nat
opaque edScalar : Nat → Bytes → Nat
/-- The u an encoding spells, and whether it is on the small-order list of RFC 7748: PSET. -/
opaque montU : Nat → Bytes → Nat
opaque montListed : Nat → Nat → Bool
/-- The modulus check of FIPS 203 on an encapsulation key: PSET, key. -/
opaque kemModulus : Nat → Bytes → Bool
/-- An ML-DSA signature keeps the bound on z, and its hint is well formed: PSET, signature. -/
opaque dsaBound : Nat → Bytes → Bool
opaque dsaHint : Nat → Bytes → Bool
/-- Of several reasons that hold, the number of the one an engine counts: job type, inputs (R373). -/
opaque whichReason : Nat → Bytes → Nat
/-- The time in ns of an RSA set between 4,096 and 8,192 bits, of which Table 9.2 gives only bounds: job type, PSET. -/
opaque rsaTime : Nat → Nat → Nat
/-- Engine result: job type, PSET, key body, input, parameters, random bytes; the output bytes. -/
opaque pkeResult : Nat → Nat → Bytes → Bytes → Bytes → Bytes → Bytes
/-- Signature verification by an engine: PSET, key body, input, signature, parameters (R373, R374). -/
opaque pkeVerify : Nat → Bytes → Bytes → Bytes → Bytes → Bool
/-- OAEP decoding of an RSA decryption: key body, ciphertext; none where decoding fails (R365). -/
opaque oaepDecode : Bytes → Bytes → Option Bytes
/-- The private body of a generated key pair: PSET, curve record and random bytes (R364). -/
opaque pkeGenerate : Nat → Bytes → Bytes → Bytes
/-- The public key of a private body, in its standard's encoding: PSET, curve record, body (R364). -/
opaque pkePublic : Nat → Bytes → Bytes → Bytes
/-- What a shelf of a whole-operation slot holds where Table 9.11 names a value that the key's standard or the computation gives: job
type, PSET, key body, input, parameters, position. -/
opaque engShelf : Nat → Nat → Bytes → Bytes → Bytes → Nat → Bytes
/-- What a measurement block digests (Table 2.12), from the bytes of the state it covers: index, bytes. The hardware's own part
(revision, ROM) is in the function. -/
opaque measurement : Nat → Bytes → Bytes

end Sys2Proof.Config
end

