-- ==== Sys2Proof/Machine/State.lean ====
section
/-! DEFINITION. The state of the module: everything the spec gives it, as plain data, and the state right
after reset. INVENTORY.md lists every field with its rule and its reset value. Tables are sparse lists in
canonical form (keys strictly rising, no entry equal to the table's default). -/

namespace Sys2Proof.Machine

/-- A sparse table: pairs of key and value, keys rising; what is not listed holds the table's default. -/
abbrev Tbl (α : Type) := List (Nat × α)

/-- A byte-addressed memory: a table of bytes whose default is 0 (R150 for the bench). -/
abbrev Mem := List Host.Cell

/-- Why the module's model stops. -/
inductive Fault where
  /-- Raised by a command whose byte string has a length no interface of the module can carry (a descriptor read of other than
  128 bytes, a debug token of other than 160, an SPDM nonce of other than 32 or exchange data of other than 96 bytes, a startup
  test of other than 1,024 samples): such a command does not exist.
  SAFE: the model stops where the hardware has no such event. -/
  | malformed
  deriving DecidableEq, Repr

/-- Why a command has no meaning. -/
inductive Refusal where
  /-- Raised by an arm of `exec` whose command has no meaning yet. SAFE: nothing can be proved of it. -/
  | notModelled (mnemonic : String)
  deriving DecidableEq, Repr

/-! ### What leaves the module -/

/-- How the SPDM responder answers: with what was asked for, with ERROR Busy (R90), or with another error. -/
inductive DoeAnswer where
  | ok
  | busy
  | error
  deriving DecidableEq, Repr

/-- One thing that has left the module, in the order in which it was issued (log 4). -/
inductive Out where
  /-- a completion entry, one 32-byte write (R69) -/
  | completion (r : HopRef) (addr : W64) (entry : Bytes)
  /-- a posted write of result data (R70), and whether it carries Relaxed Ordering -/
  | write (addr : W64) (data : Bytes) (relaxed : Bool)
  /-- a memory read issued to the host (R60, R241, R221) -/
  | read (addr : W64) (len : Nat)
  /-- an MSI-X message (R77): the address and the data of the vector's table entry -/
  | msix (f : Fn) (v : Nat) (addr : W64) (data : W32)
  /-- an SMBus answer at a 7-bit address: the block's bytes, or a NACK, and the PEC that follows where the host clocks it
  (R444 to R446) -/
  | smbus (addr : BitVec 7) (block : Option (Bytes × Byte))
  /-- a DOE answer: SPDM or IDE_KM (R87, R91), the bytes where the spec gives them -/
  | doe (kind : DoeAnswer) (body : Bytes)
  /-- what a JTAG instruction shifts out (R462, R463) -/
  | jtag (body : Bytes)
  /-- a Reile frame to a peer (R531): port, peer, the header up to FLAGS, SEQ, the message its payload carries -/
  | frame (k : Nat) (peer : Nat) (head : Bytes) (seq : W64) (m : Msg)
  /-- a frame of a handshake or rekey (R535, R536): port, peer, the header up to FLAGS, SEQ, the content -/
  | handshake (k : Nat) (peer : Nat) (head : Bytes) (seq : W64) (body : Bytes)
  /-- what is shown on the PED (R475, R479) -/
  | ped (body : Bytes)
  /-- what is sent to the card in a slot (R475): a PIN to verify, or a challenge to sign -/
  | card (slot : Nat) (body : Bytes)
  /-- data returned to a debug master (R457) -/
  | debug (body : Bytes)
  deriving DecidableEq, Repr

/-! ### Hoppers (02) -/

/-- A hopper: its registers (R51), its ring state (R47, R62, R72, R74) and its coalescing state (R75). -/
structure Hopper where
  sqBase      : W64 := 0
  cqBase      : W64 := 0
  vector      : BitVec 4 := 0
  prio        : BitVec 2 := 0
  log2        : BitVec 5 := 0
  en          : Bool := false
  coalTime    : BitVec 10 := 0
  coalCount   : BitVec 8 := 1
  halted      : Bool := false
  enabled     : Bool := false
  headErr     : Bool := false
  fetchErr    : Bool := false
  cfgErr      : Bool := false
  dbRefused   : Bool := false
  tail        : Nat := 0
  fetchHead   : Nat := 0
  cqTail      : Nat := 0
  hostHead    : Nat := 0
  phase       : Bool := true
  dbrCnt      : W32 := 0
  cfgErrCnt   : W32 := 0
  fetchErrCnt : W32 := 0
  headErrCnt  : W32 := 0
  /-- completion entries since the last interrupt (R75) -/
  pendCnt     : Nat := 0
  /-- when the first pending entry was issued while a coalescing time ran, and when that time ends (R75, R85) -/
  coalAt      : Option Nat := none
  coalDue     : Option Nat := none
  /-- VECTOR as the last completion entry found it (R49) -/
  irqVec      : BitVec 4 := 0
  /-- the completion ring and the size that the last enable named (R46, R50) -/
  ringCq      : W64 := 0
  ringLog2    : BitVec 5 := 0
  /-- accepted descriptors not yet read: acceptance time and the default deadline then (R80, R134) -/
  acc         : List (Nat × Nat) := []
  /-- descriptor reads issued whose data has not arrived -/
  reads       : Nat := 0
  /-- transactions read and not ended -/
  inflight    : Nat := 0
  /-- the next descriptor was seen to carry FENCE and waits for the earlier ones (R53) -/
  fence       : Bool := false
  deriving DecidableEq, Repr

/-! ### Plots (03) -/

/-- Table 3.1. -/
inductive PlotSt where
  | absent | created | opened | stopping | stopped | resetting | removing
  deriving DecidableEq, Repr

/-- The acreage record (Table 3.5); an ABSENT plot's is all zeros (R104). -/
structure Acreage where
  hoppers   : Nat := 0
  guarYokes : Nat := 0
  weight    : Nat := 0
  pkeWeight : Nat := 0
  progSlots : Nat := 0
  kitQuota  : Nat := 0
  kcQuota   : Nat := 0
  rplQuota  : Nat := 0
  vltQuota  : Nat := 0
  depthLog2 : List Nat := List.replicate 16 0
  deriving DecidableEq, Repr

/-- An admin descriptor the steward has read (R40, Table 2.5). -/
structure Adm where
  code    : BitVec 16 := 0
  flags   : BitVec 16 := 0
  tag     : W32 := 0
  inlen   : Nat := 0
  inl     : Bytes := []
  extLen  : Nat := 0
  resLen  : Nat := 0
  resAddr : W64 := 0
  extAddr : W64 := 0
  /-- it finishes without a completion entry (R494, R510) -/
  silent  : Bool := false
  /-- the status and detail of R608 steps 1 and 2 that end it at its turn (R99) -/
  bad     : Option (BitVec 16 × Byte) := none
  deriving DecidableEq, Repr

/-- A seed drill (R401 to R406). -/
structure Drill where
  inst   : Bool := false
  /-- generate requests since the last reseed or instantiation -/
  c      : Nat := 0
  /-- no output before the next reseed (R403 limit, R406 mark, R414) -/
  must   : Bool := false
  /-- a reseed or instantiation is queued at the conditioner -/
  queued : Bool := false
  /-- the seed material of the last instantiation or reseed: entropy input, nonce, personalisation string (R402) -/
  seed   : Bytes := []
  /-- a privileged drill was reseeded for the key generation that waits (R404) -/
  fresh  : Bool := false
  deriving DecidableEq, Repr

/-- What the flash plot directory keeps of a plot (R496). -/
structure PlotRec where
  armed       : Bool := false
  acr         : Acreage := {}
  active      : Bytes := []
  shadow      : Bytes := []
  shadowValid : Bool := false
  progs       : List (Nat × Nat) := []
  signers     : List (W64 × Bytes) := []
  curves      : Tbl Bytes := []
  dtid        : W32 := 0
  deriving DecidableEq, Repr

/-- A plot: state and flags (R93, R94), Window V and plot control registers (R141), pools in use, the
dispatcher's and arbiter's numbers for it, its drill, programs and curves. -/
structure Plot where
  st          : PlotSt := .absent
  armed       : Bool := false
  openPend    : Bool := false
  maxver      : BitVec 16 := 0
  verCap      : BitVec 16 := 0
  version     : BitVec 16 := 0
  acr         : Acreage := {}
  active      : Bytes := []
  shadow      : Bytes := []
  shadowValid : Bool := false
  vevent      : BitVec 6 := 0
  veventCnt   : Tbl W32 := []
  drwIn       : Mem := []
  drwOut      : Bytes := []
  drwCopy     : Bytes := []
  inBusy      : Bool := false
  outValid    : Bool := false
  badVer      : Bool := false
  inRefused   : Bool := false
  badVerCnt   : W32 := 0
  inRefCnt    : W32 := 0
  outAcked    : Bool := false
  outAckCnt   : W32 := 0
  txcnt       : W64 := 0
  squashCnt   : W32 := 0
  kitUse      : Nat := 0
  kcUse       : Nat := 0
  rplUse      : Nat := 0
  vltUse      : Nat := 0
  busy        : Nat := 0
  deficit     : Nat := 0
  rr          : Tbl Nat := []
  hoppers     : Tbl Hopper := []
  tick        : BitVec 16 := 0
  tickPeriod  : Nat := 0
  tickDue     : Nat := 0
  drill       : Drill := {}
  pkeCredit   : Int := 0
  progs       : List (Nat × Nat) := []
  signers     : List (W64 × Bytes) := []
  curves      : Tbl Bytes := []
  dtid        : W32 := 0
  covered     : W32 := 0
  resetWait   : List Adm := []
  removeWait  : Option Adm := none
  /-- REMOVING has passed step 7 of Table 3.6 (R126) -/
  resetDone   : Bool := false
  /-- it was OPEN when a stop-change-restart or a swap stopped it (R509, R565) -/
  reopen      : Bool := false
  deriving DecidableEq, Repr

/-! ### Tillers and transactions (04, 05, 06) -/

/-- The flags of FL. -/
structure Flags where
  z  : Bool := false
  n  : Bool := false
  c  : Bool := false
  v  : Bool := false
  dz : Bool := false
  k  : Bool := false
  t  : Bool := false
  deriving DecidableEq, Repr

/-- One hardware loop level (R168). -/
structure LoopLvl where
  ls : W32 := 0
  le : W32 := 0
  lc : W32 := 0
  deriving DecidableEq, Repr

/-- The registers of a core (Table 4.1) with the fields of TC; the default is Table 4.2's program start but
for X, Y, SP and PC. -/
structure Core where
  a       : W64 := 0
  ah      : W64 := 0
  x       : W64 := 0
  y       : W64 := 0
  sp      : W64 := 0
  fl      : Flags := {}
  tmargin : BitVec 16 := 0
  rptleft : BitVec 9 := 0
  cause   : BitVec 5 := 0
  sfl     : BitVec 7 := 0
  lbase   : BitVec 2 := 0
  ie      : Bool := false
  ldepth  : BitVec 2 := 0
  intrap  : Bool := false
  priv    : Bool := false
  dztrap  : Bool := false
  tv      : W32 := 0
  epc     : W32 := 0
  pc      : W32 := 0
  lp      : Tbl LoopLvl := []
  /-- registers 10 to 15, the steward's -/
  xr      : Tbl W64 := []
  /-- repetitions of the following instruction still due; 0 = no repeat prefix -/
  rpt     : Nat := 0
  /-- a repetition of the current repeat has completed (R175 is checked before the first) -/
  rptOn   : Bool := false
  /-- issue cycles since program start (TX_CYC) and the cycle of the last multiply-accumulate -/
  cyc     : Nat := 0
  macAt   : Option Nat := none
  deriving DecidableEq, Repr

/-- A handle held by a transaction (R213, R273): the slot and the entry flags recorded with it. -/
structure Handle where
  slot    : Nat
  name    : W64
  pinned  : Bool
  derived : Bool
  shared  : Bool
  deriving DecidableEq, Repr

/-- Where a job of a transaction stands. -/
inductive JobSt where
  | waiting | running | windowed | learning | ended
  deriving DecidableEq, Repr

/-- A job (R214 to R216): the unit's copy of the descriptor, the unit, its outcome. For a lane job `unit` is
8 × lane + context; for an engine job 2 × engine + slot, and `unit2` the slot of the other half (R370). -/
structure Job where
  engine  : Bool
  desc    : Bytes
  st      : JobSt
  unit    : Nat := 0
  unit2   : Option Nat := none
  order   : Nat := 0
  status  : BitVec 16 := 0
  out     : Bytes := []
  /-- what the engine's invariants find, kept while the validation window runs (R373) -/
  ev      : EngEv := .ok
  /-- it waits for output of the plot's drill (R333, R366) -/
  noRand  : Bool := false
  /-- it holds a reserved slot of the event recorder (R520) -/
  reserved : Bool := false
  /-- the bytes of its input ranges that the program has overwritten since and that reach it as they were (R246) -/
  old      : Tbl (Option Byte) := []
  deriving DecidableEq, Repr

/-- What a waiting program waits for (R20, R210). -/
inductive WaitR where
  | none
  | rand
  | job (j : Nat)
  | anyJob
  | unit
  | engine (j : Nat)
  | hostRead (bench len : Nat)
  | vault (name : W64)
  | walk
  | claim (fp : BitVec 96)
  | replay (fp : BitVec 96)
  | port
  deriving DecidableEq, Repr

/-- The phase of a transaction charged to a yoke (R113, R241). -/
inductive TxPhase where
  | reading | staging | running
  deriving DecidableEq, Repr

/-- A transaction charged to a yoke. -/
structure Tx where
  plot     : Nat
  hop      : Nat
  phase    : TxPhase := .reading
  /-- the ring slot its descriptor was read from -/
  slotIx   : Nat := 0
  desc     : Bytes := []
  deadline : Nat := 0
  defDl    : Nat := 0
  policy   : Bytes := []
  version  : BitVec 16 := 0
  /-- the image of a customer program, none for the vendor library -/
  image    : Option Nat := none
  /-- the plot's program table as the dispatch found it, until the program is resolved (R238) -/
  progs    : List (Nat × Nat) := []
  hiwater  : Nat := 0
  handles  : List Handle := []
  jobs     : Tbl (Option Job) := []
  jobSeq   : Nat := 0
  plastJob : Nat := 0
  plastLen : Nat := 0
  ctx      : Option Nat := none
  eng      : Option Nat := none
  psel     : W64 := 0
  pquery   : W32 := 0
  wait     : WaitR := .none
  /-- the lookups of the waiting KFND that have ended: name, status and handle (R276, R307) -/
  got      : List (W64 × BitVec 16 × Nat) := []
  /-- the outcome of the waiting RPLY's claim (R549) -/
  claimGot : Option (BitVec 16) := none
  /-- the WJOB of the running program has its transfer complete (R221) -/
  xferDone : Bool := false
  /-- dispatch sequence and whether it runs forwarded on a standby (R554) -/
  seqNo    : W64 := 0
  fwd      : Bool := false
  /-- instruction boundaries passed (R556) -/
  bounds   : W64 := 0
  /-- the result buffer bytes written, in the order of the writes (R557) -/
  res      : Bytes := []
  /-- the transaction seed of a paired module has been drawn, and the number of its draw (R555) -/
  seeded   : Bool := false
  seed     : Nat := 0
  /-- draws so far of each job, and of RAND at 0xFF (R555) -/
  draws    : Tbl Nat := []
  /-- it has a number of the pair's dispatch sequence (R554) -/
  numbered : Bool := false
  /-- the boundary at which the standby stops its copy (R556) -/
  stopAt   : Option W64 := none
  /-- forwarded XFER data not yet taken (R554) -/
  feed     : List Bytes := []
  deriving DecidableEq, Repr

/-- A yoke: its core, its bench, its transaction, its fault history (R143, R187, R189). -/
structure Yoke where
  core     : Core := {}
  bench    : Mem := []
  tx       : Option Tx := none
  /-- a yoke fault stopped it and its reset is not complete (R187 step 6) -/
  faulted  : Bool := false
  /-- halted by a debugger (R469) -/
  halted   : Bool := false
  /-- the plot of the transaction that was last squashed here (R191) -/
  squashed : Option Nat := none
  faults   : List Nat := []
  faultCnt : W32 := 0
  eccCnt   : W32 := 0
  deriving DecidableEq, Repr

/-- The yoke registers of R190. -/
structure YokeRegs where
  live     : BitVec 64 := 0
  retired  : BitVec 64 := 0
  event    : BitVec 3 := 0
  eventCnt : Tbl W32 := []
  last     : W64 := 0
  deriving DecidableEq, Repr

/-- The steward's core, its fabric memory, its events and its private RNG port (R185, R186, R225, R407). -/
structure Steward where
  core        : Core := { priv := true }
  mem         : Mem := []
  events      : BitVec 16 := 0
  waiting     : Bool := false
  halted      : Bool := false
  /-- it trapped inside a handler: it runs nothing until its watchdog resets it (R186) -/
  dead        : Bool := false
  sel         : BitVec 2 := 0
  prPend      : Bool := false
  underrun    : Bool := false
  underrunCnt : W32 := 0
  buf         : Bytes := []
  /-- what the last read of RNG_DATA returned -/
  rngOut      : W64 := 0
  deriving DecidableEq, Repr

/-- An installed customer image (R234, R238): its granules, its code, and the transactions that run it. -/
structure Image where
  granule  : Nat := 0
  codeLen  : Nat := 0
  entry    : Nat := 0
  version  : W32 := 0
  signer   : W64 := 0
  code     : Bytes := []
  users    : Nat := 0
  named    : Bool := false
  deriving DecidableEq, Repr

/-- The program store (R228): the vendor library's words of the range 0 to 0x2FFFF, which the running firmware image brought
(R231), and the customer range. -/
structure ProgStore where
  lib    : Bytes := []
  images : Tbl Image := []
  next   : Nat := 0
  deriving DecidableEq, Repr

/-! ### Key plane, replay table, vault (07) -/

/-- A KIT entry (Table 7.6). -/
structure KitEntry where
  valid   : Bool := false
  name    : W64 := 0
  plot    : Nat := 0
  slot    : Nat := 0
  stamp   : BitVec 16 := 0
  age     : BitVec 3 := 0
  pinned  : Bool := false
  derived : Bool := false
  shared  : Bool := false
  vaulted : Bool := false
  deriving DecidableEq, Repr

/-- A key-cache slot (Table 7.5); `used` is false for a free slot. -/
structure Slot where
  used     : Bool := false
  material : Bytes := []
  attr     : W32 := 0
  alg      : Byte := 0
  len      : Byte := 0
  kcv      : Bytes := []
  entry    : Bool := false
  asym     : Bool := false
  vaulted  : Bool := false
  plot     : Nat := 0
  expiry   : W32 := 0
  uses     : W32 := 0
  held     : Nat := 0
  /-- TAG over bytes 0 to 55 (R270) -/
  tag      : W64 := 0
  /-- the parameter set of an asymmetric key (MATERIAL bytes 8-9), and its body as it stands decrypted from the vault's body
  area at the locator of MATERIAL bytes 0-7 -/
  pset     : Nat := 0
  body     : Bytes := []
  deriving DecidableEq, Repr

/-- Who waits for a learning to end (R277, R279). -/
inductive Learner where
  | laneJob (y j : Nat)
  | engineJob (y j : Nat)
  | reload (y : Nat) (name : W64)
  | admin (d : Adm)
  | ceremony
  | share (peer : Nat)
  /-- a derivation of a job of a type on a lane, which has gone on with its key (R294) -/
  | derived (lane ty : Nat)
  deriving DecidableEq, Repr

/-- A learning: the key, the slot content, and the entry's fields (R277). -/
structure Learn where
  plot    : Nat
  name    : W64
  derived : Bool := false
  slot    : Slot
  age     : BitVec 3 := 0
  pinned  : Bool := false
  shared  : Bool := false
  vaulted : Bool := false
  /-- it waits for the vault or for the nonce of its record, not for the walk token (R31, R403) -/
  parked  : Bool := false
  /-- the update pair a SHARED learning arrived with (R542, R544) -/
  pair    : Option (BitVec 48 × Nat) := none
  deriving DecidableEq, Repr

/-- The key plane (R257 to R296) with its registers (R313). Seeds are kept as the numbers of their draws. -/
structure KeyPlane where
  kit       : Tbl KitEntry := []
  ovf       : Tbl KitEntry := []
  slots     : Tbl Slot := []
  seed      : Nat := 0
  oldSeed   : Nat := 0
  /-- the key of the slot tags, drawn at module start (R270) -/
  tagKey    : Nat := 0
  /-- KIT_CTL.REHASH was written and waits for the draw of its seeds (R282, R411) -/
  rehash    : Bool := false
  run       : Bool := false
  req       : Bool := false
  sweep     : Nat := 0
  fullCnt   : W32 := 0
  rehashCnt : W32 := 0
  dskipCnt  : W32 := 0
  tagCnt    : W32 := 0
  kbRej     : Tbl W32 := []
  walkq     : List (Learn × Learner) := []
  /-- the update pairs of SHARED entries: plot, name, stamp, origin (R542) -/
  pairs     : List (Nat × W64 × BitVec 48 × Nat) := []
  deriving DecidableEq, Repr

/-- A replay entry (Table 7.8). -/
structure RplEntry where
  valid  : Bool := false
  fp     : BitVec 96 := 0
  plot   : Nat := 0
  stamp  : BitVec 16 := 0
  shared : Bool := false
  claim  : Bool := false
  deriving DecidableEq, Repr

/-- The replay table (R297 to R301). -/
structure Replay where
  tbl     : Tbl RplEntry := []
  ovf     : Tbl RplEntry := []
  seed    : Nat := 0
  fullCnt : W32 := 0
  deriving DecidableEq, Repr

/-- A vault record with its body (Table 7.10); `material` of a KIND 1 record begins with its body's locator, the first 128-byte
unit of the body area (Tables 7.5 and 7.9); `authentic` says whether its tags verify (R304). -/
structure VRec where
  used      : Bool := false
  kind      : BitVec 2 := 0
  plot      : Nat := 0
  name      : W64 := 0
  orderHi   : W32 := 0
  orderLo   : W32 := 0
  attr      : W32 := 0
  alg       : Byte := 0
  len       : Byte := 0
  age       : BitVec 3 := 0
  pinned    : Bool := false
  shared    : Bool := false
  expiry    : W32 := 0
  kcv       : Bytes := []
  material  : Bytes := []
  pset      : Nat := 0
  body      : Bytes := []
  /-- its NONCE and its body's (R303, R304) -/
  nonce     : Bytes := []
  authentic : Bool := true
  deriving DecidableEq, Repr

/-- The vault (R302 to R311): records at page × 32 + place, the ORDER sequence, the DRAM's state (R31). -/
structure Vault where
  recs        : Tbl VRec := []
  seq         : W32 := 0
  ready       : Bool := false
  selfRefresh : Bool := false
  fullCnt     : W32 := 0
  deriving DecidableEq, Repr

/-! ### Lanes (08) and engines (09) -/

/-- The tag of a sealed register (R250, R349). -/
inductive SealTag where
  | empty
  | pin (n : Nat)
  | key (alg : Byte) (attr : W32) (expiry : W32)
  | state (job : Nat) (slot : Nat) (key : Bytes) (param : Bytes)
  | other
  deriving DecidableEq, Repr

/-- A sealed register: tag and a value of at most 32 bytes (R250). Of a running state `parts` is the message of the earlier parts, of
which the value, their chaining value or hash state and the block held back are functions (R349, log 58). -/
structure Sealed where
  tag   : SealTag := .empty
  val   : Bytes := []
  parts : Bytes := []
  deriving DecidableEq, Repr

/-- Who a lane context is bound to (R249, R479). -/
inductive Bound where
  | free
  | tx (y : Nat)
  | ceremony
  deriving DecidableEq, Repr

/-- A lane context (R316, R317): the job it holds, its binding, its 16 sealed registers. -/
structure LaneCtx where
  job    : Option (Nat × Nat) := none
  bound  : Bound := .free
  seals  : Tbl Sealed := []
  deriving DecidableEq, Repr

/-- The lanes: contexts at 8 × lane + context, registers of R354, fault times, mask keys (R405). -/
structure Lanes where
  ctx      : Tbl LaneCtx := []
  live     : BitVec 32 := 0
  retired  : BitVec 32 := 0
  event    : BitVec 2 := 0
  eventCnt : Tbl W32 := []
  faultCnt : Tbl W32 := []
  last     : W64 := 0
  jobCnt   : Tbl W64 := []
  faults   : Tbl (List Nat) := []
  maskNo   : Tbl Nat := []
  deriving DecidableEq, Repr

/-- A whole-operation slot of an engine: the job it holds, whether it is being squashed, its half of the engine's shelves by position,
of which an unlisted one is zero (R367, R382, R391). -/
structure EngSlot where
  job     : Option (Nat × Nat) := none
  squash  : Bool := false
  shelves : Tbl Nat := []
  deriving DecidableEq, Repr

/-- An engine in multiply-accumulate mode (R384 to R390): attachment, shelves, modulus context, commands. -/
structure Mac where
  tx      : Option Nat := none
  detach  : Bool := false
  shelves : Tbl Nat := []
  /-- the M of the last MPREP written since the attach (R388) -/
  prepM   : Option Nat := none
  /-- the modulus of the context, none when MPREP set BADMOD (R389) -/
  modulus : Option Nat := none
  carry   : Bool := false
  badmod  : Bool := false
  /-- commands: the running one first, then those waiting (R387) -/
  queue   : List W64 := []
  deriving DecidableEq, Repr

/-- The public-key engines with the registers of R392 and the private counters of R376. -/
structure Engines where
  live     : BitVec 32 := 0
  retired  : BitVec 32 := 0
  event    : BitVec 2 := 0
  eventCnt : Tbl W32 := []
  cfg      : Tbl W32 := []
  cfgNext  : Tbl W32 := []
  rejCnt   : Tbl W32 := []
  invCnt   : Tbl W32 := []
  reasons  : Tbl W32 := []
  last     : W64 := 0
  faults   : Tbl (List Nat) := []
  maskNo   : Tbl Nat := []
  slots    : Tbl EngSlot := []
  mac      : Tbl Mac := []
  cursor   : Nat := 0
  /-- jobs that wait for a slot, oldest first: yoke and job number (R369) -/
  waitq    : List (Nat × Nat) := []
  /-- SPLIT jobs whose second half waits for an engine (R370) -/
  splitq   : List (Nat × Nat) := []
  deriving DecidableEq, Repr

/-! ### RNG (10) -/

/-- R396. -/
inductive SrcSt where
  | starting | live | excluded | dead
  deriving DecidableEq, Repr

/-- A noise source (R396, R415). -/
structure Src where
  st       : SrcSt := .starting
  lastTest : BitVec 2 := 0
  retests  : Nat := 0
  failCnt  : W32 := 0
  deriving DecidableEq, Repr

/-- Who waits for the conditioner (R400). -/
inductive SeedReq where
  | priv (d : Nat)
  | plot (p : Nat)
  deriving DecidableEq, Repr

/-- The RNG: sources, conditioner, privileged drills, request queue, registers (R394 to R415).
`halves` holds the 256-bit halves of the output blocks in the conditioner's buffer (R398, R400). -/
structure Rng where
  src      : Tbl Src := []
  halves   : List Bytes := []
  claim    : Bool := false
  started  : Bool := false
  raw      : Bool := false
  event    : BitVec 4 := 0
  eventCnt : Tbl W32 := []
  stallCnt : W32 := 0
  priv     : Tbl Drill := []
  /-- instantiations of each drill in the current module start: plot p's at p, Pk's at 1,024 + k (R402) -/
  insts    : Tbl W32 := []
  prWait   : BitVec 4 := 0
  reqs     : List SeedReq := []
  capture  : Option (Nat × Adm) := none
  /-- an admin command that waits for key generation (R411) -/
  keyWait  : Option Adm := none
  /-- requests that P0 has served of those the waiting command needs (R401) -/
  keyGot   : Nat := 0
  deriving DecidableEq, Repr

/-! ### Keeper (11) -/

/-- A tamper log record (Table 11.9). -/
structure LogRec where
  used    : Bool := false
  seq     : BitVec 16 := 0
  cause   : BitVec 16 := 0
  minutes : W32 := 0
  pwrcyc  : W32 := 0
  main    : Bool := false
  xfer    : Bool := false
  test    : Bool := false
  temp    : BitVec 8 := 0
  rep     : BitVec 16 := 0
  deriving DecidableEq, Repr

/-- The cabinet (Table 11.3): each secret as the number of its draw, 0 where zeroised. -/
structure Cabinet where
  crk       : Nat := 0
  vaultKey  : Nat := 0
  /-- the vault block tag key -/
  tagKey    : Nat := 0
  vaultSeed : Nat := 0
  domain    : Nat := 0
  plotSeed  : Tbl Nat := []
  /-- the 32-byte check word (R425) -/
  check     : Bytes := []
  deriving DecidableEq, Repr

/-- The keeper (R417 to R448). -/
structure Keeper where
  powered  : Bool := true
  kvbat    : Nat := 3000
  temp     : BitVec 16 := 250
  ksrc     : Bool := true
  batLow   : Bool := false
  tampered : Bool := true
  kpor     : Bool := true
  logLost  : Bool := false
  lcs      : BitVec 4 := 0xF
  opmin    : W32 := 0
  pwrcyc   : W32 := 0
  starts   : W32 := 0
  startfail : BitVec 8 := 0
  cause    : BitVec 16 := 0x8000
  live     : BitVec 16 := 0
  loopCfg  : BitVec 4 := 0xF
  log      : Tbl LogRec := []
  logSeq   : BitVec 16 := 0
  /-- the slot of the newest record, and whether its 1 ms window is open (R442) -/
  newest   : Option Nat := none
  window   : Bool := false
  event    : BitVec 3 := 0
  eventCnt : Tbl W32 := []
  fallowReq : Bool := false
  cab      : Cabinet := {}
  deriving DecidableEq, Repr

/-! ### Hedgerow, debug, custodians (12) -/

/-- The hedgerow table (R449 to R461) and the debug accesses a hold keeps waiting (R458). -/
structure Hedge where
  base     : Tbl W32 := []
  cfg      : Tbl W32 := []
  perm     : Tbl W64 := []
  hold     : Bool := false
  held     : Bool := false
  fault    : Bool := false
  long     : Bool := false
  cfgErr   : Bool := false
  faultReg : W64 := 0
  eventCnt : Tbl W32 := []
  waiting  : List (W32 × DbgAccess) := []
  /-- when the hold began -/
  since    : Nat := 0
  deriving DecidableEq, Repr

/-- Debug authorisation (R462 to R469). -/
structure Debug where
  rights    : BitVec 4 := 0
  granted   : Bool := false
  zeroised  : Bool := false
  failCnt   : W32 := 0
  /-- the challenge record that is valid, and the rights it asks for -/
  challenge : Option (Bytes × BitVec 4) := none
  consent   : Option (Bytes × BitVec 4) := none
  /-- rights whose grant waits for P0's new plot seeds, and the requests P0 has served for them (R401, R467 step 3) -/
  grant     : Option (BitVec 4) := none
  got       : Nat := 0
  deriving DecidableEq, Repr

/-- An enrolled card (R471). -/
structure Card where
  hash : Bytes
  role : Nat
  ix   : Nat
  deriving DecidableEq, Repr

/-- The registry of one scope (R471). -/
structure Registry where
  cards : List Card := []
  m     : Tbl Nat := []
  deriving DecidableEq, Repr

/-- What the custodians are doing (CUST_STAT.OP, R478). -/
inductive CustOp where
  | idle | enrol | assembly | ceremony
  deriving DecidableEq, Repr

/-- The step of the authentication under way (R475, R479). -/
inductive AuthStep where
  | card | pin | cardPin | sign | digits | confirm
  deriving DecidableEq, Repr

/-- A live quorum session (R476, R477). -/
structure Session where
  scope  : Nat
  role   : Nat
  slot   : Nat
  anchor : Bytes
  ends   : Nat
  deriving DecidableEq, Repr

/-- The custodian machinery (R470 to R481). -/
structure Cust where
  regs    : Tbl Registry := []
  ped     : Bytes := []
  last    : BitVec 4 := 0
  op      : CustOp := .idle
  need    : Nat := 0
  scope   : Nat := 0
  role    : Nat := 0
  /-- key hashes of the custodians counted, newest last -/
  counted : List Bytes := []
  step    : AuthStep := .card
  slot    : Nat := 0
  cards   : Tbl Bytes := []
  sess    : Tbl (Option Session) := []
  kcv     : BitVec 24 := 0
  /-- the ceremony: its admin descriptor, the groups that have supplied, the component entered -/
  cer     : Adm := {}
  groups  : BitVec 3 := 0
  part    : Bytes := []
  xored   : Bytes := []
  ctx     : Option Nat := none
  chal    : Nat := 0
  conSeq  : W32 := 0
  conBad  : Nat := 0
  deriving DecidableEq, Repr

/-! ### Life cycle, start, firmware (13) -/

/-- Where the main die stands between a start's trigger and full service (Table 13.2). -/
inductive Phase where
  | off | reset | starting | live | full | inert
  deriving DecidableEq, Repr

/-- A firmware bank (R506, R510). -/
structure Bank where
  valid   : Bool := false
  svn     : BitVec 16 := 0
  version : W32 := 0
  /-- the bytes written since the chunk at offset 0 (R507) -/
  data    : Bytes := []
  deriving DecidableEq, Repr

/-- A stop-change-restart under way (R508, R509, R565). -/
inductive Change where
  | none
  | reconfig (d : Adm) (mask : BitVec 3)
  | activate (d : Adm) (bank : Bool)
  | swap (d : Adm)
  deriving DecidableEq, Repr

/-- Life cycle, start and firmware state (R483 to R511). -/
structure Life where
  phase    : Phase := .off
  /-- blown fuses of groups G0 to G4, 16 each (R483) -/
  fuses    : List Nat := [16, 16, 0, 0, 0]
  trimBlown : Bool := false
  /-- the state decoded at the last start (LCS_STAT.STATE); 5 stands for SCRAPPED, 6 for LOST -/
  state    : BitVec 4 := 2
  fallow   : Bool := false
  startMs  : BitVec 16 := 0
  cause    : BitVec 4 := 0
  bank     : Bool := false
  pref     : Bool := false
  /-- the previous start failed after running the preferred bank (R500) -/
  prefFailed : Bool := false
  lastReason : Byte := 0
  lastTest : Byte := 0
  lastAtt  : Byte := 0
  bankA    : Bank := { valid := true, version := 0x00010000, svn := 1 }
  bankB    : Bank := {}
  change   : Change := .none
  /-- time of the start's trigger -/
  since    : Nat := 0
  /-- step 1 of Table 13.2 has run in this start -/
  counted  : Bool := false
  /-- the start waits for the drills of the flash directory's plots (R409) -/
  restoring : Bool := false
  deriving DecidableEq, Repr

/-- A custodian registry as flash keeps it: sealed with AES-256-GCM under a key derived from CRK, a plot's from its root key too.
The numbers of the draws of CRK and of the plot's seed stand for the key, and the registry for what opens under it (R424, log 120). -/
structure SealedReg where
  crk  : Nat := 0
  seed : Nat := 0
  reg  : Registry := {}
  deriving DecidableEq, Repr

/-- What is kept in flash (R427, R496, R358, R424) beside the firmware banks and the event recorder. -/
structure Flash where
  plots   : Tbl PlotRec := []
  opmin   : W32 := 0
  pwrcyc  : W32 := 0
  starts  : W32 := 0
  pkeCfg  : Option (Tbl W32) := none
  /-- the custodian registries, sealed (R424) -/
  regs    : Tbl SealedReg := []
  deriving DecidableEq, Repr

/-! ### Event recorder (14) -/

/-- An event record (Table 14.1); TAG is a function of the chain and is kept as its bytes. -/
structure EvRec where
  used    : Bool := false
  seq     : W32 := 0
  minutes : W32 := 0
  pwrcyc  : W32 := 0
  msec    : W32 := 0
  code    : BitVec 16 := 0
  scope   : BitVec 16 := 0
  flags   : Byte := 0
  payload : Bytes := []
  tag     : Bytes := []
  rep     : BitVec 16 := 0
  /-- the module start it was written in, for R516 -/
  start   : W32 := 0
  deriving DecidableEq, Repr

/-- The event recorder (R512 to R527). -/
structure Recorder where
  recs     : Tbl EvRec := []
  wpos     : Nat := 0
  seq      : W32 := 0
  acked    : W32 := 0
  read     : W32 := 0
  anyAck   : Bool := false
  anyRead  : Bool := false
  baseSeq  : W32 := 0
  baseTag  : Bytes := []
  lastTag  : Bytes := []
  epoch    : Option Nat := none
  reserved : Nat := 0
  event    : BitVec 4 := 0
  eventCnt : Tbl W32 := []
  lostCnt  : W32 := 0
  dropCnt  : W32 := 0
  /-- the write position's slot was left torn by a power loss (R517) -/
  torn     : Bool := false
  /-- records that wait for the first epoch, whose EPOCH P0 has not served yet (R409, R515) -/
  waiting  : List EvRec := []
  deriving DecidableEq, Repr

/-! ### Clusters and pairs (15) -/

/-- A member table entry (R538). -/
structure Member where
  node : Nat
  mask : Byte
  ver  : Byte
  mac  : Bytes
  deriving DecidableEq, Repr

/-- How far a handshake or rekey has come (R535, R536). -/
inductive Hs where
  | idle | helloSent | kexSent | kexGot | replySent | up
  deriving DecidableEq, Repr

/-- A session with a peer (R532 to R537). -/
structure Sess where
  hs      : Hs := .idle
  ver     : Byte := 0
  peerVer : Byte := 0
  kph     : Bool := false
  /-- the phase before the last change is still accepted (R536) -/
  overlap : Bool := false
  /-- how far a rekey inside the session has come (R536) -/
  rk      : Hs := .idle
  /-- the peer's HELLO has passed its checks; its bindings have come since the session came up -/
  heard   : Bool := false
  synced  : Bool := false
  txSeq   : W64 := 0
  rxHigh  : W64 := 0
  rxSeen  : List W64 := []
  /-- frames not acknowledged: SEQ, message, resends so far (R534) -/
  unacked : List (W64 × Msg × Nat) := []
  binds   : List W32 := []
  port    : Nat := 0
  down    : Bool := false
  chain   : Bytes := []
  /-- of the handshake or rekey under way: ephemeral keys P2 has given, the number of this node's ephemeral secret, the transcript,
  the peer's KEX, the shared secrets (R404, R535) -/
  got     : Nat := 0
  eph     : Nat := 0
  script  : Bytes := []
  kex     : Bytes × Bytes := ([], [])
  secret  : Bytes := []
  /-- the 72 bytes of keys and salts, and those of the phase before (R535, R536) -/
  keys    : Bytes := []
  oldKeys : Bytes := []
  deriving DecidableEq, Repr

/-- A shared claim that waits for its home (R549 to R551). -/
structure ClaimW where
  plot : Nat
  dtid : W32
  fp   : BitVec 96
  deriving DecidableEq, Repr

/-- Rehoming of one DTID: the nodes still to finish (R551). -/
structure Rehome where
  dtid : W32
  left : List Nat
  deriving DecidableEq, Repr

/-- The cluster registers and state (R528 to R567). -/
structure Cluster where
  joined   : Bool := false
  node     : Nat := 0
  domain   : W32 := 0
  ver      : BitVec 2 := 0
  caKey    : Bytes := []
  cert     : Bytes := []
  /-- the domain seed is held (R539); its value is the cabinet's -/
  hasSd    : Bool := false
  members  : List Member := []
  portCfg  : Tbl W64 := []
  portNext : Tbl W64 := []
  link     : Tbl Bool := []
  event    : BitVec 7 := 0
  eventCnt : Tbl W32 := []
  rxDrop   : Tbl W32 := []
  authFail : W32 := 0
  hsFail   : W32 := 0
  fecCorr  : Tbl W32 := []
  fecUnc   : Tbl W32 := []
  sess     : Tbl Sess := []
  stamp    : BitVec 48 := 0
  claims   : List ClaimW := []
  /-- claims that this node, their home, holds until a rehoming is done: claimant, DTID, fingerprint (R551) -/
  heldClaims : List (Nat × W32 × BitVec 96) := []
  rehoming : List Rehome := []
  hold     : Bool := false
  swapBuf  : W64 := 0
  role     : BitVec 2 := 0
  peer     : Nat := 0
  suspect  : Bool := false
  syncing  : Bool := false
  swapTest : BitVec 2 := 0
  /-- the admin CLU_PAIR that completes when pairing ends (R553) -/
  pairAdm  : Option Adm := none
  peerSwap : Bool := false
  /-- next dispatch sequence, and the first one of the open batch (R554, R557) -/
  seq      : W64 := 0
  batch    : W64 := 0
  /-- transactions of the open and closed batches: sequence, plot, COUNT, digest once ended -/
  digests  : List (W64 × Nat × W32 × Option Bytes) := []
  /-- closed batches whose digest is not sent yet, and those sent and not acknowledged: first sequence and length (R557) -/
  closed   : List (W64 × Nat) := []
  sent     : List (W64 × Nat) := []
  acked    : W64 := 0
  lastHb   : Nat := 0
  /-- forwarded dispatches and outcomes the standby has not run yet (R554) -/
  stream   : List Msg := []
  /-- aborts of dispatches still in the stream: sequence and boundary (R556) -/
  aborts   : List (W64 × W64) := []
  /-- batch digests of the active that await the standby's own (R557) -/
  heldDig  : List (W64 × Nat × Bytes) := []
  /-- on the standby: its manager has named this active; on the active: the standby has agreed (R552) -/
  willing  : Bool := false
  /-- peers whose handshake waits for an ephemeral key (R404, R535) -/
  hsWait   : List Nat := []
  /-- nodes that finished a rehoming this node has not begun (R551) -/
  early    : List (W32 × Nat) := []
  deriving DecidableEq, Repr

/-! ### Host link, admin, power -/

/-- The MSI-X state of a function (R78): pending and unmasked vectors by number. -/
structure Msix where
  enable   : Bool := false
  fnMask   : Bool := false
  unmasked : List Nat := []
  pend     : List Nat := []
  /-- message address and data of the table entries (Tables 2.3 and 2.4) -/
  addr     : Tbl W64 := []
  data     : Tbl W32 := []
  deriving DecidableEq, Repr

/-- A selective IDE stream (R91, R92): key sets programmed, the active one, the functions its RID association block covers,
and its address association blocks (base and limit). -/
structure Ide where
  prog0    : Bool := false
  prog1    : Bool := false
  active   : Option (Fin 2) := none
  insecure : Bool := false
  first    : Nat := 0
  last     : Nat := 0
  addr0    : Option (W64 × W64) := none
  addr1    : Option (W64 × W64) := none
  deriving DecidableEq, Repr

/-- What a completion entry carries but HEAD, COUNT and PHASE (Table 2.8). -/
structure Entry where
  tag    : W32 := 0
  status : BitVec 16 := 0
  inl    : Bytes := []
  ext    : Bool := false
  irqNow : Bool := false
  deriving DecidableEq, Repr

/-- A transaction that has ended while jobs of its ran on engines: its entry is written once the slots are free (R83, R187, R391). -/
structure Owed where
  tx    : Tx
  entry : Entry
  slots : List Nat := []
  deriving DecidableEq, Repr

/-- What is held while a stream is Insecure (R92): a completion entry, a message, a write of result data, a read. -/
inductive HeldOut where
  | entry (r : HopRef) (e : Entry)
  | vector (f : Fn) (v : Nat)
  | data (f : Fn) (addr : W64) (bytes : Bytes)
  | read (f : Fn) (addr : W64) (len : Nat)
  deriving DecidableEq, Repr

/-- What a function's configuration space holds of Table 2.1: Enable Relaxed Ordering, Max_Payload_Size and
Max_Read_Request_Size of Device Control, the power state, and the ECRC enables of AER. -/
structure FnCfg where
  relaxed : Bool := true
  mps     : BitVec 3 := 0
  mrrs    : BitVec 3 := 2
  d3hot   : Bool := false
  ecrcGen : Bool := false
  ecrcChk : Bool := false
  deriving DecidableEq, Repr

/-- A secured SPDM session (R87): its secret, and the messages sealed in it so far. -/
structure SpdmSess where
  secret : Bytes
  sealed : Nat := 0
  deriving DecidableEq, Repr

/-- The PCIe endpoint (R34 to R37, R78, R87 to R92). -/
structure Link where
  numVfs   : Nat := 0
  vfEnable : Bool := false
  perst    : Bool := true
  trained  : Bool := false
  msix     : Tbl Msix := []
  ide      : Tbl Ide := []
  cfg      : Tbl FnCfg := []
  /-- the secured SPDM sessions, newest first -/
  spdm     : List SpdmSess := []
  held     : List HeldOut := []
  deriving DecidableEq, Repr

/-- The admin hopper and the steward's command queue (R39, R40, R98 to R101, R494). -/
structure Admin where
  hop      : Hopper := {}
  count    : W32 := 0
  live     : Bool := false
  queue    : List Adm := []
  errTag   : W32 := 0
  errDet   : Byte := 0
  deriving DecidableEq, Repr

/-- The dispatcher's cursors (R113), and when a doorbell last came (R28). -/
structure Disp where
  gCursor : Nat := 0
  dCursor : Nat := 0
  lastDb  : Nat := 0
  deriving DecidableEq, Repr

/-- Supplies, PLLs, gating and status lands (01, 17). -/
structure Power where
  good      : Bool := false
  vio       : Bool := true
  pwrgd     : Bool := false
  charged   : Bool := false
  shutdown  : Bool := false
  /-- the main supply in mV as it was last good (R580, R584) -/
  vin       : Nat := 12000
  /-- the strap lands SMBADR as VIO last found them (R444) -/
  smbadr    : BitVec 2 := 0
  pll       : BitVec 6 := 0
  doze      : Bool := false
  dozeDelay : BitVec 16 := 0x000A
  floor     : BitVec 2 := 1
  gatedY    : BitVec 64 := BitVec.allOnes 64
  gatedL    : BitVec 32 := BitVec.allOnes 32
  gatedE    : BitVec 32 := BitVec.allOnes 32
  modOk     : Bool := false
  ledAct    : Bool := false
  conLvl    : Bool := false
  deriving DecidableEq, Repr

/-- The snapshot of a wide register that a function's read of its lowest word took (R574): the register's offset and its
words, lowest first. -/
structure Snap where
  off   : Nat
  words : List W32
  deriving DecidableEq, Repr

/-- The whole module. -/
structure State where
  /-- commands that wait, first in, first out -/
  pending : List Instr := []
  /-- µs since power was first applied (log 2) -/
  now     : Nat := 0
  /-- number of the next free value (log 3) -/
  free    : Nat := 0
  /-- what has left the module, newest last (log 4) -/
  out     : List Out := []
  link    : Link := {}
  adm     : Admin := {}
  disp    : Disp := {}
  plots   : Tbl Plot := []
  yokes   : Tbl Yoke := []
  yreg    : YokeRegs := {}
  stw     : Steward := {}
  prog    : ProgStore := {}
  kp      : KeyPlane := {}
  rpl     : Replay := {}
  vlt     : Vault := {}
  lan     : Lanes := {}
  pke     : Engines := {}
  rng     : Rng := {}
  kpr     : Keeper := {}
  hdg     : Hedge := {}
  dbg     : Debug := {}
  cust    : Cust := {}
  lcs     : Life := {}
  flash   : Flash := {}
  evr     : Recorder := {}
  clu     : Cluster := {}
  pwr     : Power := {}
  /-- entries that wait for engine slots to be squashed, in the order of their transactions' ends -/
  owed    : List Owed := []
  /-- the snapshots of R574 by function: 0 is PF0, p + 1 the VF of plot p -/
  snaps   : Tbl (Option Snap) := []
  deriving DecidableEq, Repr

/-- The module right after the keeper's power-on, before main power: TAMPERED is set with cause bit 15 and
the mirror reads 0xF (Table 16.3), the fuses read CUSTODY as shipped (R483, log 11), every main-die register
stands at its Reset column value, and the tables are empty. -/
def State.reset : State := {}

end Sys2Proof.Machine
end

