-- ==== Sys2Proof/Machine/Tbl.lean ====
section
/-! DEFINITION. Sparse tables in canonical form: reading, writing, and the form itself. A table lists its
keys in rising order and no entry equal to the table's default, so equal tables are equal data. -/

namespace Sys2Proof.Machine

variable {α : Type}

/-- What the table holds at a key; the default where nothing is listed. -/
def tget (d : α) : Tbl α → Nat → α
  | [], _ => d
  | (k, v) :: t, i => if k = i then v else tget d t i

/-- The table with a value put at a key. Writing the default removes the entry. -/
def tset [DecidableEq α] (d : α) (i : Nat) (v : α) : Tbl α → Tbl α
  | [] => if v = d then [] else [(i, v)]
  | (k, w) :: t =>
    if i < k then (if v = d then (k, w) :: t else (i, v) :: (k, w) :: t)
    else if i = k then (if v = d then t else (i, v) :: t)
    else (k, w) :: tset d i v t

/-- The table with one value changed by a function. -/
def tmod [DecidableEq α] (d : α) (i : Nat) (f : α → α) (t : Tbl α) : Tbl α := tset d i (f (tget d t i)) t

/-- The table with every value changed by a function; what becomes the default is not listed. -/
def tmap [DecidableEq α] (d : α) (f : Nat → α → α) (t : Tbl α) : Tbl α :=
  (t.map fun x => (x.1, f x.1 x.2)).filter fun x => x.2 ≠ d

/-- Canonical form above a bound: keys rising from at least `lo`, no default listed. -/
def twfFrom [DecidableEq α] (d : α) : Nat → Tbl α → Bool
  | _, [] => true
  | lo, (k, v) :: t => decide (lo ≤ k) && decide (v ≠ d) && twfFrom d (k + 1) t

/-- Canonical form of a table. -/
def twf [DecidableEq α] (d : α) (t : Tbl α) : Bool := twfFrom d 0 t

/-- The number of listed entries that satisfy a test. -/
def tcount (p : Nat → α → Bool) (t : Tbl α) : Nat := (t.filter fun x => p x.1 x.2).length

/-- The canonical form of a memory (R150: an unlisted byte reads 0). -/
def Memory.wf (m : Mem) : Bool := twf (0 : Byte) m

/-- One byte of a memory. -/
def mget (m : Mem) (a : Nat) : Byte := tget 0 m a

/-- A memory with one byte written. -/
def mset (m : Mem) (a : Nat) (b : Byte) : Mem := tset 0 a b m

/-- `n` bytes from an address, lowest first. -/
def mread (m : Mem) (a : Nat) : Nat → Bytes
  | 0 => []
  | n + 1 => mget m a :: mread m (a + 1) n

/-- A memory with a byte string written from an address. -/
def mwrite (m : Mem) (a : Nat) : Bytes → Mem
  | [] => m
  | b :: bs => mwrite (mset m a b) (a + 1) bs

/-- A memory with `n` bytes from an address set to 0. -/
def mzero (m : Mem) (a n : Nat) : Mem := mwrite m a (List.replicate n 0)

end Sys2Proof.Machine
end

