-- ==== Sys2Proof/Machine/Bits.lean ====
section
/-! DEFINITION. Byte order, fields of byte strings, saturating counters and the CRC-32 of a policy set. -/

namespace Sys2Proof.Machine

/-- A number as `n` bytes, little-endian; what does not fit is dropped. -/
def le : Nat → Nat → Bytes
  | 0, _ => []
  | n + 1, v => BitVec.ofNat 8 v :: le n (v / 256)

/-- The number that bytes spell little-endian. -/
def leNat : Bytes → Nat
  | [] => 0
  | b :: bs => b.toNat + 256 * leNat bs

/-- A number as `n` bytes, big-endian. -/
def be (n v : Nat) : Bytes := (le n v).reverse

/-- The number that bytes spell big-endian. -/
def beNat (bs : Bytes) : Nat := leNat bs.reverse

/-- Exactly `n` bytes: cut, or filled with zeros at the end. -/
def fit (n : Nat) (bs : Bytes) : Bytes := (bs ++ List.replicate n 0).take n

/-- `n` bytes of a byte string from an offset; bytes beyond its end read 0. -/
def cut (bs : Bytes) (ofs n : Nat) : Bytes := fit n (bs.drop ofs)

/-- The little-endian field of `n` bytes at an offset. -/
def fld (bs : Bytes) (ofs n : Nat) : Nat := leNat (cut bs ofs n)

/-- The big-endian field of `n` bytes at an offset. -/
def fldBE (bs : Bytes) (ofs n : Nat) : Nat := beNat (cut bs ofs n)

/-- One byte as a number. -/
def byteAt (bs : Bytes) (ofs : Nat) : Nat := fld bs ofs 1

/-- Bit `k` of a number. -/
def bit (v k : Nat) : Bool := v.testBit k

/-- Every byte of a range is 0. -/
def zeros (bs : Bytes) (ofs n : Nat) : Bool := (cut bs ofs n).all (· == 0)

/-- A number of 0 or 1 from a truth value, shifted left. -/
def flag (b : Bool) (k : Nat) : Nat := if b then 2 ^ k else 0

/-- A counter of 32 bits advances and saturates at 0xFFFF_FFFF (R575). -/
def bump (c : W32) : W32 := if c = BitVec.allOnes 32 then c else c + 1

/-- Counter `k` of a table of counters advances. -/
def bumpAt (t : Tbl W32) (k : Nat) : Tbl W32 := tmod 0 k bump t

/-- Exclusive or of two byte strings of one length. -/
def xorBytes (a b : Bytes) : Bytes := (a.zip b).map fun x => x.1 ^^^ x.2

/-- One bit step of the CRC-32 of IEEE 802.3, reflected. -/
def crcStep (r : BitVec 32) : BitVec 32 :=
  if r.getLsbD 0 then (r >>> 1) ^^^ 0xEDB88320#32 else r >>> 1

/-- CRC-32 register after one byte. -/
def crcByte (r : BitVec 32) (b : Byte) : BitVec 32 :=
  crcStep (crcStep (crcStep (crcStep (crcStep (crcStep (crcStep (crcStep (r ^^^ b.setWidth 32))))))))

/-- The CRC-32 of IEEE 802.3 over a byte string (Table 3.9). -/
def crc32 (bs : Bytes) : BitVec 32 := (bs.foldl crcByte (BitVec.allOnes 32)) ^^^ BitVec.allOnes 32

end Sys2Proof.Machine
end

