-- ==== Sys2Proof/Machine/Crypto.lean ====
section
/-! DEFINITION. The cryptographic constructions that the spec writes out over its named primitives (08): TDES, block
modes, ISO 9797-1 MACs, key check values (R257), decimal digits. -/

namespace Sys2Proof.Machine

/-- The bytes of a string in blocks of `n`. -/
def chunks (n : Nat) : Nat → Bytes → List Bytes
  | 0, _ => []
  | fuel + 1, bs => if bs.isEmpty then [] else bs.take n :: chunks n fuel (bs.drop n)

/-- The blocks of a byte string. -/
def blocks (n : Nat) (bs : Bytes) : List Bytes := chunks n bs.length bs

/-- Whether an algorithm code is a TDES key's, an AES key's (Table 7.1). -/
def isTdes (alg : Nat) : Bool := alg == 0x01 || alg == 0x02
def isAes (alg : Nat) : Bool := alg == 0x10 || alg == 0x11 || alg == 0x12

/-- The third part of a TDES key; a two-key TDES key uses the first again. -/
def tdesK3 (key : Bytes) : Bytes := if key.length = 24 then cut key 16 8 else cut key 0 8
/-- TDES of one block. -/
def tdesEnc (key b : Bytes) : Bytes :=
  Config.desEnc (tdesK3 key) (Config.desDec (cut key 8 8) (Config.desEnc (cut key 0 8) b))
/-- Inverse TDES of one block. -/
def tdesDec (key b : Bytes) : Bytes :=
  Config.desDec (cut key 0 8) (Config.desEnc (cut key 8 8) (Config.desDec (tdesK3 key) b))

/-- The block cipher of a key: AES or TDES. -/
def blockEnc (aes : Bool) (key b : Bytes) : Bytes := if aes then Config.aesEnc key b else tdesEnc key b
/-- Its inverse. -/
def blockDec (aes : Bool) (key b : Bytes) : Bytes := if aes then Config.aesDec key b else tdesDec key b
/-- Bytes of a block. -/
def blockLen (aes : Bool) : Nat := if aes then 16 else 8

/-- CBC encryption of blocks. -/
def cbcEnc (aes : Bool) (key : Bytes) : Bytes → List Bytes → List Bytes
  | _, [] => []
  | iv, b :: bs => let c := blockEnc aes key (xorBytes b iv); c :: cbcEnc aes key c bs
/-- CBC decryption of blocks. -/
def cbcDec (aes : Bool) (key : Bytes) : Bytes → List Bytes → List Bytes
  | _, [] => []
  | iv, b :: bs => xorBytes (blockDec aes key b) iv :: cbcDec aes key b bs
/-- CTR mode: the counter block counts up as one big-endian number (PRESUMED, SP 800-38A's standard increment). -/
def ctr (aes : Bool) (key : Bytes) : Nat → List Bytes → List Bytes
  | _, [] => []
  | n, b :: bs =>
    let w := blockLen aes
    xorBytes b (blockEnc aes key (be w n)) :: ctr aes key ((n + 1) % 256 ^ w) bs

/-- The zero bytes that complete blocks of `n`. -/
def padZeros (n len : Nat) : Bytes := List.replicate ((n - len % n) % n) 0

/-- ISO 9797-1 padding method 1 or 2 to blocks of 8; an empty message under method 1 is one block of zeros (R348). -/
def pad9797 (method : Nat) (bs : Bytes) : Bytes :=
  if method = 2 then let x := bs ++ [0x80]; x ++ padZeros 8 x.length
  else if bs.isEmpty then List.replicate 8 0 else bs ++ padZeros 8 bs.length

/-- ISO 9797-1 MAC algorithm 1 (full TDES) or 3 (single DES, a final TDES step) over a padded message (R348). -/
def mac9797 (alg : Nat) (key padded : Bytes) : Bytes :=
  let bl := blocks 8 padded
  if alg = 1 then (cbcEnc false key (List.replicate 8 0) bl).getLastD []
  else
    let h := bl.foldl (fun h b => Config.desEnc (cut key 0 8) (xorBytes h b)) (List.replicate 8 0)
    Config.desEnc (cut key 0 8) (Config.desDec (cut key 8 8) h)

/-- The key check value of a symmetric key, 3 bytes (Table 7.1). -/
def kcvSym (alg : Nat) (key : Bytes) : Bytes :=
  if isTdes alg then (tdesEnc key (List.replicate 8 0)).take 3
  else if isAes alg then (Config.cmac true key (List.replicate 16 0)).take 3
  else (Config.hmac256 key []).take 3

/-- The key check value of an asymmetric key body, 3 bytes (Table 7.1). -/
def kcvAsym (body : Bytes) : Bytes := (Config.hash 1 (Config.spki body)).take 3

/-- LEN of an algorithm; an HMAC secret's is a parameter (Table 7.1). -/
def algLen (alg hmacLen : Nat) : Nat :=
  match alg with
  | 0x01 => 16
  | 0x02 => 24
  | 0x10 => 16
  | 0x11 => 24
  | 0x12 => 32
  | 0x20 => hmacLen
  | _ => 0

/-- R258: two neighbouring parts of a TDES key are equal, parity bits ignored. -/
def weakTdes (key : Bytes) : Bool :=
  let p (i : Nat) : Bytes := (cut key (8 * i) 8).map (· &&& 0xFE)
  p 0 == p 1 || (key.length == 24 && p 1 == p 2)

/-! ### Digits -/

/-- The nibbles of a byte string, most significant first. -/
def nibbles (bs : Bytes) : List Nat := bs.flatMap fun b => [b.toNat / 16, b.toNat % 16]

/-- Bytes from nibbles; an odd count gets a final 0xF (R338). -/
def ofNibbles : List Nat → Bytes
  | [] => []
  | [a] => [BitVec.ofNat 8 (16 * a + 15)]
  | a :: b :: r => BitVec.ofNat 8 (16 * a + b) :: ofNibbles r

/-- The first `n` digits found scanning for 0 to 9, then for 0xA to 0xF less 10 (R338). -/
def scanDigits (n : Nat) (bs : Bytes) : List Nat :=
  let h := nibbles bs
  ((h.filter (· ≤ 9)) ++ ((h.filter (9 < ·)).map (· - 10))).take n

end Sys2Proof.Machine
end

