-- ==== Sys2Proof/Machine/Ops.lean ====
section
/-! DEFINITION. The named operations that every family shares: reading and replacing the parts of the state,
what leaves the module, free values, MSI-X (R75 to R78), completion entries (R64 to R72, R92), the event
recorder (R512 to R521) and the events of a plot (R97). -/

namespace Sys2Proof.Machine

/-- What a command answers. -/
abbrev Res := Host.Outcome State Fault Refusal

/-! ### Parts of the state -/

def Plot.zero : Plot := {}
def Hopper.zero : Hopper := {}
def Yoke.zero : Yoke := {}
def EvRec.zero : EvRec := {}
def Msix.zero : Msix := {}
def Ide.zero : Ide := {}
def FnCfg.zero : FnCfg := {}

/-- Plot p. -/
def State.plot (s : State) (p : Nat) : Plot := tget Plot.zero s.plots p
/-- The state with plot p replaced. -/
def State.setPlot (s : State) (p : Nat) (x : Plot) : State := { s with plots := tset Plot.zero p x s.plots }
/-- The state with plot p changed. -/
def State.modPlot (s : State) (p : Nat) (f : Plot → Plot) : State := s.setPlot p (f (s.plot p))
/-- Yoke y. -/
def State.yoke (s : State) (y : Nat) : Yoke := tget Yoke.zero s.yokes y
/-- The state with yoke y replaced. -/
def State.setYoke (s : State) (y : Nat) (x : Yoke) : State := { s with yokes := tset Yoke.zero y x s.yokes }
/-- The state with yoke y changed. -/
def State.modYoke (s : State) (y : Nat) (f : Yoke → Yoke) : State := s.setYoke y (f (s.yoke y))
/-- The transaction charged to yoke y. -/
def State.tx (s : State) (y : Nat) : Option Tx := (s.yoke y).tx
/-- The state with yoke y's transaction changed. -/
def State.modTx (s : State) (y : Nat) (f : Tx → Tx) : State :=
  s.modYoke y fun k => { k with tx := k.tx.map f }

/-- A hopper, of a plot or the admin hopper (R39). -/
def State.hop (s : State) : HopRef → Hopper
  | .admin => s.adm.hop
  | .vf p h => tget Hopper.zero (s.plot p).hoppers h
/-- The state with a hopper replaced. -/
def State.setHop (s : State) (r : HopRef) (x : Hopper) : State :=
  match r with
  | .admin => { s with adm := { s.adm with hop := x } }
  | .vf p h => s.modPlot p fun pl => { pl with hoppers := tset Hopper.zero h x pl.hoppers }
/-- The state with a hopper changed. -/
def State.modHop (s : State) (r : HopRef) (f : Hopper → Hopper) : State := s.setHop r (f (s.hop r))

/-- The reference to hopper h of plot p given as numbers. -/
def hopRef (p h : Nat) : HopRef := .vf (Fin.ofNat 1024 p) (Fin.ofNat 16 h)

/-- Whether a hopper is granted (R109); the admin hopper always is. -/
def granted (s : State) : HopRef → Bool
  | .admin => true
  | .vf p h => decide (h.val < (s.plot p).acr.hoppers)

/-- Slots of a hopper's rings, N = 2^RING_LOG2 as the last enable named it (R46, R49). -/
def Hopper.n (x : Hopper) : Nat := 2 ^ x.ringLog2.toNat

/-- HOP_DEPTH: the granted depth (R109); the admin hopper's while EN = 1 is 2^RING_LOG2 (R570). -/
def depth (s : State) (r : HopRef) : Nat :=
  match r with
  | .admin => if s.adm.hop.en then s.adm.hop.n else 0
  | .vf p h => if granted s r then 2 ^ ((s.plot p).acr.depthLog2.getD h.val 0) else 0

/-! ### What leaves the module, free values, time -/

/-- One more thing has left the module (log 4). -/
def emit (s : State) (o : Out) : State := { s with out := s.out ++ [o] }

/-- The state after `n` free values have been drawn; they are numbers `s.free` to `s.free + n - 1` (log 3). -/
def drawn (s : State) (n : Nat) : State := { s with free := s.free + n }

/-- PLL k is locked, and the units it clocks run: 0 fabric, 1 tiller, 2 lane, 3 PKE, 4 vault, 5 Reile (R25, PWR_STAT). -/
def pllUp (s : State) (k : Nat) : Bool := s.pwr.pll.getLsbD k

/-- `n` free bytes from draw number `k` (log 3). -/
def freeBytes (k : Nat) : Nat → Bytes
  | 0 => []
  | n + 1 => Config.freeByte k :: freeBytes (k + 1) n

/-- The clock stands no earlier than a due time (log 2). -/
def advanceTo (s : State) (t : Nat) : State := { s with now := max s.now t }

/-- The PCIe function of a plot. -/
def vfOf (p : Nat) : Fn := .vf (Fin.ofNat 1024 p)

/-- Routing number of a function beside PF0's: PF0 is 0 and VF v is v (R35). -/
def fnIx : Fn → Nat
  | .pf0 => 0
  | .vf p => p.val + 1

/-! ### MSI-X and IDE -/

/-- The MSI-X state of a function. -/
def State.msixOf (s : State) (f : Fn) : Msix := tget Msix.zero s.link.msix (fnIx f)
/-- The state with a function's MSI-X state replaced. -/
def State.setMsix (s : State) (f : Fn) (m : Msix) : State :=
  { s with link := { s.link with msix := tset Msix.zero (fnIx f) m s.link.msix } }

/-- A stream covers a function: its RID association block holds the function's routing number (R91). -/
def Ide.covers (i : Ide) (f : Fn) : Bool :=
  (i.active.isSome || i.insecure) && decide (i.first ≤ fnIx f) && decide (fnIx f ≤ i.last)

/-- An Insecure stream carries the function (R92). -/
def heldFor (s : State) (f : Fn) : Bool :=
  [0, 1].any fun k => let i := tget Ide.zero s.link.ide k; i.insecure && i.covers f

/-- The three conditions of R78 hold for a vector. -/
def Msix.open (m : Msix) (v : Nat) : Bool := m.enable && !m.fnMask && m.unmasked.contains v

/-- What cannot be sent while the function's stream is Insecure is held in order (R92). -/
def holdOut (s : State) (h : HeldOut) : State := { s with link := { s.link with held := s.link.held ++ [h] } }

/-- The configuration space of a function (Table 2.1). -/
def State.fnCfg (s : State) (f : Fn) : FnCfg := tget FnCfg.zero s.link.cfg (fnIx f)
/-- The state with a function's configuration replaced. -/
def State.setFnCfg (s : State) (f : Fn) (c : FnCfg) : State :=
  { s with link := { s.link with cfg := tset FnCfg.zero (fnIx f) c s.link.cfg } }

/-- A write of result data of a function: with Relaxed Ordering where its Device Control enables it (R70), and held while
its stream is Insecure (R92). -/
def issueWrite (s : State) (f : Fn) (addr : W64) (data : Bytes) : State :=
  if heldFor s f then holdOut s (.data f addr data) else emit s (.write addr data (s.fnCfg f).relaxed)

/-- A memory read of a function, held while its stream is Insecure (R92). -/
def issueRead (s : State) (f : Fn) (addr : W64) (len : Nat) : State :=
  if heldFor s f then holdOut s (.read f addr len) else emit s (.read addr len)

/-- A message is due on a vector: it is sent, or its pending bit is set (R78), or it is held while the
function's stream is Insecure (R92). -/
def raiseVec (s : State) (f : Fn) (v : Nat) : State :=
  let m := s.msixOf f
  if m.open v then
    (if heldFor s f then holdOut s (.vector f v) else emit s (.msix f v (tget 0 m.addr v) (tget 0 m.data v)))
  else if m.pend.contains v then s
  else s.setMsix f { m with pend := v :: m.pend }

/-- Pending messages whose conditions of R78 now hold are sent. -/
def sendPending (s : State) (f : Fn) : State :=
  let m := s.msixOf f
  let due := m.pend.filter m.open
  due.reverse.foldl (fun s v => raiseVec s f v) (s.setMsix f { m with pend := m.pend.filter fun v => !m.open v })

/-- A module event: PF0 vector 2 (Table 2.9). -/
def modEvent (s : State) : State := raiseVec s .pf0 2
/-- A cluster or pair event: PF0 vector 3 (Table 2.9). -/
def cluVec (s : State) : State := raiseVec s .pf0 3

/-- A PLT_VEVENT flag is set: the flag, its counter and VF vector 16 (R97, R575). Bits: 0 STATE_CHG,
1 DRW_OUT_NEW, 2 DRW_IN_ACK, 3 HOPPER_HALT, 4 OPEN_REFUSED, 5 POLICY_CHG. -/
def plotEvent (s : State) (p b : Nat) : State :=
  raiseVec (s.modPlot p fun pl => { pl with
    vevent := pl.vevent ||| BitVec.ofNat 6 (2 ^ b), veventCnt := bumpAt pl.veventCnt b }) (vfOf p) 16

/-- A plot enters a state, signalled by STATE_CHG (R97). -/
def enterState (s : State) (p : Nat) (st : PlotSt) : State :=
  plotEvent (s.modPlot p fun pl => { pl with st := st }) p 0

/-! ### Event recorder -/

/-- Slots of the ring (R512). -/
def ringSlots : Nat := 131072

/-- The 48 bytes of a record that the chain tag covers (Table 14.1). -/
def EvRec.body (r : EvRec) : Bytes :=
  le 4 r.seq.toNat ++ le 4 r.minutes.toNat ++ le 4 r.pwrcyc.toNat ++ le 4 r.msec.toNat ++ le 2 r.code.toNat ++
    le 2 r.scope.toNat ++ [r.flags] ++ [0, 0, 0] ++ fit 24 r.payload

/-- A record's 64 bytes as they lie in its slot (Table 14.1). -/
def EvRec.bytes (r : EvRec) : Bytes :=
  r.body ++ fit 8 r.tag ++ [0xA5, 0, 0, 0] ++ le 2 r.rep.toNat ++
    [if r.rep = 0 then 0 else 0xC3, 0]

/-- The record's class is protected: key management, custodian or security (Table 14.2). -/
def EvRec.guarded (r : EvRec) : Bool := decide (r.code.toNat / 4096 ≠ 0)

/-- An EVR_ACK has covered the record (R519). -/
def exported (e : Recorder) (r : EvRec) : Bool := e.anyAck && decide ((e.acked - r.seq).toNat < 2 ^ 31)

/-- F of R520: slots that can be written before the first unexported protected record. -/
def slotsFree (e : Recorder) : Nat :=
  e.recs.foldl (fun m x => if x.2.guarded && !exported e x.2 then min m ((x.1 + ringSlots - e.wpos) % ringSlots) else m)
    ringSlots

/-- F − V (R520). -/
def room (e : Recorder) : Nat := slotsFree e - e.reserved

/-- The chain key of the current epoch (R514); the epoch is the number of the draw it came from. -/
def chainKey (e : Recorder) : Bytes :=
  Config.hkdf256 (freeBytes (e.epoch.getD 0) 16) (le 8 Config.serial.toNat)
    [0x44, 0x58, 0x39, 0x36, 0x30, 0x30, 0x20, 0x45, 0x56, 0x52] 32

/-- An EVR_EVENT flag with its counter (R575). Bits: 0 LOW, 1 FULL, 2 LOST, 3 DROPPED. -/
def Recorder.flag (e : Recorder) (b : Nat) : Recorder :=
  { e with event := e.event ||| BitVec.ofNat 4 (2 ^ b), eventCnt := bumpAt e.eventCnt b }

/-- The newest record. -/
def newest (e : Recorder) : EvRec := tget EvRec.zero e.recs ((e.wpos + ringSlots - 1) % ringSlots)

/-- A record is written in the slot at the write position (R513, R514, R519). -/
def putRecord (e : Recorder) (r : EvRec) : Recorder :=
  let old := tget EvRec.zero e.recs e.wpos
  let e1 := if old.used then { e with baseSeq := old.seq, baseTag := old.tag } else e
  let e2 := if old.used && !exported e old then { e1.flag 2 with lostCnt := bump e1.lostCnt } else e1
  let r1 := { r with used := true, seq := e.seq }
  let tag := (Config.hmac256 (chainKey e) (fit 8 e.lastTag ++ r1.body)).take 8
  { e2 with recs := tset EvRec.zero e.wpos { r1 with tag := tag } e2.recs, wpos := (e.wpos + 1) % ringSlots,
            seq := e.seq + 1, lastTag := tag, torn := false }

/-- F − V changes: LOW and FULL are set where it falls below 8,192 and 65 (R521). -/
def crossings (s : State) (e : Recorder) : State :=
  let was := room s.evr
  let is := room e
  let e1 := if 8192 ≤ was ∧ is < 8192 then e.flag 0 else e
  let e2 := if 65 ≤ was ∧ is < 65 then e1.flag 1 else e1
  let s1 := { s with evr := e2 }
  if 8192 ≤ was ∧ is < 8192 then modEvent s1 else s1

/-- Milliseconds since the current module start (Table 14.1). -/
def msec (s : State) : W32 := BitVec.ofNat 32 ((s.now - s.lcs.since) / 1000)

/-- The steward runs its ROM: until the firmware runs, and in fallow mode (Table 13.2, R503). -/
def inRom (s : State) : Bool := s.lcs.fallow || s.lcs.phase == .reset

/-- A record of the present moment with a code, a scope, flags and a payload; FLAGS bit 0 marks the ROM's records. -/
def mkRecord (s : State) (code : BitVec 16) (scope : Nat) (flags : Byte) (payload : Bytes) : EvRec :=
  { code := code, scope := BitVec.ofNat 16 scope, flags := flags ||| (if inRom s then 1 else 0), payload := fit 24 payload,
    minutes := s.kpr.opmin, pwrcyc := s.kpr.pwrcyc, msec := msec s, start := s.kpr.starts }

/-- An event repeats the newest record (R516). -/
def repeats (s : State) (r : EvRec) : Bool :=
  let n := newest s.evr
  n.used && n.code == r.code && n.scope == r.scope && n.payload == r.payload && n.start == r.start &&
    decide ((r.msec - n.msec).toNat < 60000) && decide (n.code.toNat / 4096 ≠ 1) && decide (n.code.toNat / 4096 ≠ 2) &&
    decide (n.rep.toNat < 65535) && !(s.evr.anyRead && decide ((s.evr.read - n.seq).toNat < 2 ^ 31))

/-- A record is written. While no epoch is open, its EPOCH not drawn yet, the steward holds the record back (R409, R515, log 130). -/
def keepEvent (s : State) (e : Recorder) (r : EvRec) : State :=
  if e.epoch.isNone then { s with evr := { e with waiting := e.waiting ++ [r] } } else crossings s (putRecord e r)

/-- A security or operational event: merged, written, or dropped for want of room (R516, R520). -/
def event (s : State) (code : BitVec 16) (scope : Nat) (payload : Bytes) (flags : Byte := 0) : State :=
  let r := mkRecord s code scope flags payload
  if repeats s r then
    let k := (s.evr.wpos + ringSlots - 1) % ringSlots
    { s with evr := { s.evr with recs := tmod EvRec.zero k (fun n => { n with rep := n.rep + 1 }) s.evr.recs } }
  else if 1 ≤ room s.evr then keepEvent s s.evr r
  else { s with evr := { (s.evr.flag 3) with dropCnt := bump s.evr.dropCnt } }

/-- There is room for a key-management or custodian record (R520). -/
def auditRoom (s : State) : Bool := decide (65 ≤ room s.evr)

/-- A slot is reserved for a key-management or custodian record (R520). -/
def reserve (s : State) : State := crossings s { s.evr with reserved := s.evr.reserved + 1 }

/-- A reservation is released with nothing written (R520). -/
def unreserve (s : State) : State := crossings s { s.evr with reserved := s.evr.reserved - 1 }

/-- The record of a reserved act is written as the act completes (R520). -/
def writeReserved (s : State) (code : BitVec 16) (scope : Nat) (payload : Bytes) : State :=
  let r := mkRecord s code scope 0 payload
  keepEvent s { s.evr with reserved := s.evr.reserved - 1 } r

/-- SCOPE of module-wide records (R524). -/
def modScope : Nat := 0x400

/-! ### Completion entries -/

/-- The 32 bytes of a completion entry (Table 2.8). -/
def Entry.bytes (e : Entry) (head count : Nat) (phase : Bool) : Bytes :=
  le 4 e.tag.toNat ++ le 2 e.status.toNat ++ le 2 head ++ le 4 count ++ le 2 e.inl.length ++
    [if e.ext then 1 else 0, if phase then 1 else 0] ++ fit 16 e.inl

/-- A status with a result: OK, OK_EXISTING and the customer codes (R67). -/
def resultStatus (st : BitVec 16) : Bool := decide (st.toNat ≤ 1) || decide (0x8000 ≤ st.toNat)

/-- The function a hopper belongs to. -/
def hopFn : HopRef → Fn
  | .admin => .pf0
  | .vf p _ => .vf p

/-- The vector a hopper's completions raise (R39, Table 2.9): VECTOR as the last completion entry found it (R49). -/
def hopVec (s : State) (r : HopRef) : Nat :=
  match r with
  | .admin => 0
  | .vf _ _ => (s.hop r).irqVec.toNat

/-- The hopper's interrupt: its vector is raised and the pending count is cleared (R75). -/
def hopInterrupt (s : State) (r : HopRef) : State :=
  raiseVec (s.modHop r fun x => { x with pendCnt := 0, coalAt := none, coalDue := none }) (hopFn r) (hopVec s r)

/-- Coalescing after an entry has been written (R75, R76). The TIME and COUNT of this moment apply to what is pending (R49,
R85): the time runs from the first pending entry, and where it has passed already the vector is raised. -/
def coalesce (s : State) (r : HopRef) (irqNow : Bool) : State :=
  let x := s.hop r
  let t := min x.coalTime.toNat 1000
  let c := if x.coalCount = 0 then 1 else x.coalCount.toNat
  let first := x.coalAt.getD s.now
  if irqNow || t = 0 || decide (c ≤ x.pendCnt) || decide (first + t < s.now) then hopInterrupt s r
  else s.modHop r fun x => { x with coalAt := some first, coalDue := some (first + t) }

/-- Entries of a hopper that are held in completion staging (R92). -/
def heldEntries (s : State) (r : HopRef) : Nat :=
  (s.link.held.filter fun h => match h with | .entry q _ => q == r | _ => false).length

/-- HOP_STAT.ENABLED drops once a disabled hopper has its last completion entry written (R50). -/
def dropEnabled (s : State) (r : HopRef) : State :=
  let x := s.hop r
  if !x.en && x.enabled && x.inflight = 0 && heldEntries s r = 0 then s.setHop r { x with enabled := false } else s

/-- A completion entry is written: the counter of R66 advances, the entry goes out with the current head,
count and phase (R64, R69, R72), and coalescing follows (R75). -/
def putEntry (s : State) (r : HopRef) (e : Entry) : State :=
  let s1 := match r with
    | .admin => { s with adm := { s.adm with count := s.adm.count + 1 } }
    | .vf p _ => s.modPlot p fun pl => { pl with txcnt := pl.txcnt + 1 }
  let cnt := match r with
    | .admin => s1.adm.count.toNat
    | .vf p _ => (s1.plot p).txcnt.toNat % 2 ^ 32
  let x := s1.hop r
  let addr : W64 := x.ringCq + BitVec.ofNat 64 (32 * x.cqTail)
  let wrap := decide (x.n ≤ x.cqTail + 1)
  let s2 := emit s1 (.completion r addr (e.bytes x.fetchHead cnt x.phase))
  let s3 := s2.setHop r { x with cqTail := if wrap then 0 else x.cqTail + 1, phase := x.phase != wrap,
                                 pendCnt := x.pendCnt + 1, irqVec := x.vector }
  dropEnabled (coalesce s3 r e.irqNow) r

/-- The entry of an ended transaction: written, or held while the function's stream is Insecure (R92). With a
status that carries no result the result fields are 0 (R67). -/
def complete (s : State) (r : HopRef) (e : Entry) : State :=
  let e1 := if resultStatus e.status then e else { e with inl := [], ext := false }
  if heldFor s (hopFn r) then holdOut s (.entry r e1) else putEntry s r e1

/-- What was held for a stream that is secure again goes out in order; the rest stays held (R92). -/
def releaseHeld (s : State) : State :=
  let q := s.link.held
  q.foldl (fun s h => match h with
    | .entry r e => complete s r e
    | .vector f v => raiseVec s f v
    | .data f a b => issueWrite s f a b
    | .read f a n => issueRead s f a n) { s with link := { s.link with held := [] } }

/-! ### Status codes (Table 2.11) -/

def stOK : BitVec 16 := 0x0000
def stExisting : BitVec 16 := 0x0001
def stKeyNotFound : BitVec 16 := 0x0100
def stUsage : BitVec 16 := 0x0101
def stExpired : BitVec 16 := 0x0102
def stBlock : BitVec 16 := 0x0103
def stTableFull : BitVec 16 := 0x0104
def stConflict : BitVec 16 := 0x0105
def stQuota : BitVec 16 := 0x0106
def stPinBlock : BitVec 16 := 0x0200
def stPinMismatch : BitVec 16 := 0x0201
def stPinFormat : BitVec 16 := 0x0202
def stMac : BitVec 16 := 0x0300
def stCryptogram : BitVec 16 := 0x0301
def stCvv : BitVec 16 := 0x0302
def stPke : BitVec 16 := 0x0400
def stNoEntropy : BitVec 16 := 0x0500
def stDuplicate : BitVec 16 := 0x0600
def stDeadline : BitVec 16 := 0x0700
def stSquashed : BitVec 16 := 0x0701
def stYokeFault : BitVec 16 := 0x0702
def stTrap : BitVec 16 := 0x0800
def stAbsent : BitVec 16 := 0x0801
def stDescriptor : BitVec 16 := 0x0802
def stDataFault : BitVec 16 := 0x0803
def stPolicy : BitVec 16 := 0x0900
def stQuorum : BitVec 16 := 0x0901
def stAudit : BitVec 16 := 0x0902
def stNotOpen : BitVec 16 := 0x0A00
def stFallow : BitVec 16 := 0x0F00
def stTampered : BitVec 16 := 0x0F01

/-! ### Yokes and guarantees -/

/-- The number of bits that are 1. -/
def ones {w : Nat} (v : BitVec w) : Nat := (List.range w).foldl (fun n i => if v.getLsbD i then n + 1 else n) 0

/-- L of R115: live yokes. -/
def liveYokes (s : State) : Nat := ones s.yreg.live

/-- S of R115: the sum of GUAR_YOKES over all plots (an ABSENT plot's record is zero). -/
def guarSum (s : State) : Nat := s.plots.foldl (fun n x => n + x.2.acr.guarYokes) 0

/-- The effective guarantee of a plot (R115). -/
def effGuar (s : State) (p : Nat) : Nat :=
  if guarSum s ≤ liveYokes s then (s.plot p).acr.guarYokes
  else (s.plot p).acr.guarYokes * liveYokes s / guarSum s

/-- LED_ACT sinks current at a transaction completion (R581). -/
def ledAct (s : State) : State := { s with pwr := { s.pwr with ledAct := true } }

/-- A live quorum session of a scope and role (R476, R477). -/
def sessionLive (s : State) (scope role : Nat) : Bool :=
  [0, 1].any fun k => match tget none s.cust.sess k with
    | some x => x.scope == scope && x.role == role
    | none => false

/-- The scope's registry holds a card in a role (R103, R439, R523). -/
def holdsCard (s : State) (scope role : Nat) : Bool :=
  (tget ({} : Registry) s.cust.regs scope).cards.any fun c => c.role == role

end Sys2Proof.Machine
end

