-- ==== Sys2Proof/Machine/Cabinet.lean ====
section
/-! DEFINITION. The cabinet's layout and check word, and the custodian registries as flash keeps them, sealed (R422 to R425). -/

namespace Sys2Proof.Machine

/-- The n bytes of a secret that is held as the number of its draw; zeros where it is zeroised. -/
def secretBytes (k n : Nat) : Bytes := if k = 0 then List.replicate n 0 else freeBytes k n

/-- The plot seeds: 6 bytes for each of the 1,024 plots (Table 11.3). -/
def Cabinet.seeds (c : Cabinet) : Bytes := (List.range 1024).flatMap fun p => secretBytes (tget 0 c.plotSeed p) 6

/-- Offsets 0x0000 to 0x00DF of the cabinet (Table 11.3). -/
def Cabinet.head (c : Cabinet) : Bytes :=
  secretBytes c.crk 32 ++ secretBytes c.vaultKey 64 ++ secretBytes c.tagKey 32 ++ secretBytes c.vaultSeed 32 ++ secretBytes c.domain 64

/-- Offsets 0x0100 to 0x1FFF of the cabinet (Table 11.3). -/
def Cabinet.rest (c : Cabinet) : Bytes := c.seeds ++ List.replicate 1792 0

/-- The cabinet's 8 KiB (Table 11.3). -/
def Cabinet.image (c : Cabinet) : Bytes := c.head ++ c.check ++ c.rest

/-- The check word of a cabinet: HMAC-SHA-256 over the rest of it, keyed from CRK (R425). -/
def Cabinet.checkWord (c : Cabinet) : Bytes :=
  Config.hmac256 (Config.checkKey (secretBytes c.crk 32)) (c.head ++ c.rest)

/-- The check word verifies (R425). -/
def Cabinet.verifies (c : Cabinet) : Bool := c.check == c.checkWord

/-- A write to the cabinet; the keeper updates the check word after it (R425). -/
def State.setCab (s : State) (f : Cabinet → Cabinet) : State :=
  { s with kpr := { s.kpr with cab := { f s.kpr.cab with check := (f s.kpr.cab).checkWord } } }

/-- A plot's seed is written, zero as the plot goes (R423). -/
def State.setSeed (s : State) (p k : Nat) : State := s.setCab fun c => { c with plotSeed := tset 0 p k c.plotSeed }

def SealedReg.zero : SealedReg := {}

/-- The plot's part of a registry's sealing key: the manager function's is sealed under CRK alone (R424). -/
def sealSeed (s : State) (scope : Nat) : Nat := if scope = modScope then 0 else tget 0 s.kpr.cab.plotSeed scope

/-- A registry sealed under the cabinet as it stands (R424, log 120). -/
def sealRegistry (s : State) (scope : Nat) (r : Registry) : SealedReg :=
  if r = {} then SealedReg.zero else { crk := s.kpr.cab.crk, seed := sealSeed s scope, reg := r }

/-- A sealed registry opened: empty where the cabinet's keys are no longer those it was sealed under (R424). -/
def openRegistry (s : State) (scope : Nat) (x : SealedReg) : Registry :=
  if x.crk = s.kpr.cab.crk ∧ x.seed = sealSeed s scope then x.reg else {}

/-- Every registry of flash, opened. -/
def openRegistries (s : State) : Tbl Registry :=
  s.flash.regs.foldl (fun t x => tset {} x.1 (openRegistry s x.1 x.2) t) []

/-- The registries in use, sealed again under the cabinet as it stands (R440). -/
def resealRegistries (s : State) : State :=
  { s with flash := { s.flash with
      regs := s.cust.regs.foldl (fun t x => tset SealedReg.zero x.1 (sealRegistry s x.1 x.2) t) [] } }

end Sys2Proof.Machine
end

