-- ==== Sys2Proof/Machine/Policy.lean ====
section
/-! DEFINITION. The policy set of a plot (R131, Table 3.9): its fields, its default, its checks; the acreage
record (R105, Table 3.5): its bytes, its range checks and the pool checks. -/

namespace Sys2Proof.Machine

/-- Bytes 0 to 507 of the default policy set (Table 3.9, column Default). -/
def defaultBody : Bytes :=
  fit 508 ([1, 0, 0, 0] ++ le 4 1000 ++ le 4 0 ++ [0x1B, 0x1B, 4, 12] ++ le 2 999 ++ [0, 0] ++
    ([16, 64, 256, 1024, 4096, 8192, 16384, 16384].flatMap (le 2)) ++ le 4 65536)

/-- The default policy set with its CRC. -/
def defaultPolicy : Bytes := defaultBody ++ le 4 (crc32 defaultBody).toNat

/-- DEF_DEADLINE in µs. -/
def polDeadline (b : Bytes) : Nat := fld b 4 4
/-- ALG_ALLOW. -/
def polAlg (b : Bytes) : Nat := fld b 8 4
/-- PIN_IN. -/
def polPinIn (b : Bytes) : Nat := byteAt b 12
/-- PIN_OUT. -/
def polPinOut (b : Bytes) : Nat := byteAt b 13
/-- PIN_MIN. -/
def polPinMin (b : Bytes) : Nat := byteAt b 14
/-- PIN_MAX. -/
def polPinMax (b : Bytes) : Nat := byteAt b 15
/-- AGE_TICK: the tick in ms, minus 1. -/
def polTick (b : Bytes) : Nat := fld b 16 2
/-- AGE_LIMIT[c] in ticks. -/
def polLimit (b : Bytes) (c : Nat) : Nat := fld b (20 + 2 * c) 2
/-- RESEED: generate requests between reseeds. -/
def polReseed (b : Bytes) : Nat := fld b 36 4

/-- Every field of a policy set lies in its range and the CRC is right (R132). -/
def policyOk (b : Bytes) : Bool :=
  b.length == 512 && byteAt b 0 == 1 && zeros b 1 3 && decide (1 ≤ polDeadline b) && decide (polDeadline b ≤ 100000) &&
    decide (polAlg b < 16) && decide (polPinIn b < 32) && decide (polPinOut b < 32) && decide (4 ≤ polPinMin b) &&
    decide (polPinMin b ≤ 12) && decide (polPinMin b ≤ polPinMax b) && decide (polPinMax b ≤ 12) && zeros b 18 2 &&
    (List.range 8).all (fun c => decide (1 ≤ polLimit b c) && decide (polLimit b c ≤ 16384)) &&
    decide (1 ≤ polReseed b) && decide (polReseed b ≤ 16777216) && zeros b 40 24 &&
    fld b 508 4 == (crc32 (cut b 0 508)).toNat

/-- The fields of a 64-byte acreage record (Table 3.5). -/
def acrOf (b : Bytes) : Acreage :=
  { hoppers := byteAt b 0, guarYokes := byteAt b 1, weight := fld b 2 2, pkeWeight := fld b 4 2,
    progSlots := byteAt b 6, kitQuota := fld b 8 4, kcQuota := fld b 12 4, rplQuota := fld b 16 4,
    vltQuota := fld b 20 4, depthLog2 := (List.range 16).map fun h => byteAt b (24 + h) }

/-- The 64 bytes of an acreage record (R104, R105). -/
def acrBytes (a : Acreage) : Bytes :=
  le 1 a.hoppers ++ le 1 a.guarYokes ++ le 2 a.weight ++ le 2 a.pkeWeight ++ le 1 a.progSlots ++ [0] ++
    le 4 a.kitQuota ++ le 4 a.kcQuota ++ le 4 a.rplQuota ++ le 4 a.vltQuota ++ (a.depthLog2.flatMap (le 1)) ++
    List.replicate 24 0

/-- Every field of an acreage record lies in its per-plot range (R105). -/
def acrRange (b : Bytes) : Bool :=
  let a := acrOf b
  decide (1 ≤ a.hoppers) && decide (a.hoppers ≤ 16) && decide (a.guarYokes ≤ 64) && decide (1 ≤ a.weight) &&
    decide (a.weight ≤ 1000) && decide (a.pkeWeight ≤ 1000) && decide (a.progSlots ≤ 64) && byteAt b 7 == 0 &&
    decide (a.kitQuota ≤ 524288) && decide (a.kcQuota ≤ 393216) && decide (a.rplQuota ≤ 262144) &&
    decide (a.vltQuota ≤ 12288) && zeros b 40 24 &&
    (List.range 16).all fun h =>
      let d := a.depthLog2.getD h 0
      if h < a.hoppers then decide (6 ≤ d) && decide (d ≤ 16) else d == 0

/-- MiB of vault a plot uses, rounded up (R312). -/
def vltMiB (pl : Plot) : Nat := (pl.vltUse + 2 ^ 20 - 1) / 2 ^ 20

/-- The sum of a plot measure over all plots but one. -/
def sumOthers (s : State) (p : Nat) (f : Plot → Nat) : Nat :=
  s.plots.foldl (fun n x => if x.1 = p then n else n + f x.2) 0

/-- The first pool that a new record for plot p would exhaust (R105, R111, Table 3.4): 0 hoppers, 1 guaranteed
yokes, 2 KIT, 3 key cache, 4 replay, 5 vault. -/
def poolFault (s : State) (p : Nat) (a : Acreage) : Option Nat :=
  let me := s.plot p
  if 4096 < sumOthers s p (·.acr.hoppers) + a.hoppers then some 0
  else if min 64 (liveYokes s) < sumOthers s p (·.acr.guarYokes) + a.guarYokes then some 1
  else if 524288 < sumOthers s p (fun x => max x.acr.kitQuota x.kitUse) + max a.kitQuota me.kitUse then some 2
  else if 393216 < sumOthers s p (fun x => max x.acr.kcQuota x.kcUse) + max a.kcQuota me.kcUse then some 3
  else if 262144 < sumOthers s p (fun x => max x.acr.rplQuota x.rplUse) + max a.rplQuota me.rplUse then some 4
  else if 12288 < sumOthers s p (fun x => max x.acr.vltQuota (vltMiB x)) + max a.vltQuota (vltMiB me) then some 5
  else none

/-- The flash record of a plot takes its present content (R496). -/
def saveRecord (s : State) (p : Nat) : State :=
  let x := s.plot p
  let r : PlotRec := { armed := x.armed, acr := x.acr, active := x.active, shadow := x.shadow,
                       shadowValid := x.shadowValid, progs := x.progs, signers := x.signers, curves := x.curves,
                       dtid := x.dtid }
  { s with flash := { s.flash with plots := tset ({} : PlotRec) p (if x.st = .absent then {} else r) s.flash.plots } }

end Sys2Proof.Machine
end

