-- ==== Sys2Proof/Machine/RngOps.lean ====
section
/-! DEFINITION. The random number path that every family draws from (10): the claim of the conditioner (R399), its
service of queued seedings (R400), generate requests of privileged and plot drills (R401 to R404, R555). -/

namespace Sys2Proof.Machine

def Src.zero : Src := {}
def Drill.zero : Drill := {}

/-- Noise source i. -/
def State.src (s : State) (i : Nat) : Src := tget Src.zero s.rng.src i
/-- The state with noise source i replaced. -/
def State.setSrc (s : State) (i : Nat) (x : Src) : State :=
  { s with rng := { s.rng with src := tset Src.zero i x s.rng.src } }

/-- Kind of a source: 0 ring oscillator, 1 latch, 2 comparator (Table 10.1). -/
def srcKind (i : Nat) : Nat := if i < 8 then 0 else if i < 16 then 1 else 2
/-- Sample rate of a source in kbit/s (Table 10.1). -/
def srcSample (i : Nat) : Nat := if i < 8 then 1000 else 500
/-- Assessed H per sample in tenths of a bit (Table 10.1). -/
def srcEntropy (i : Nat) : Nat := if i < 8 then 5 else if i < 16 then 8 else 9
/-- Entropy rate of a source in units of 10 kbit/s (Table 10.1). -/
def srcRate (i : Nat) : Nat := srcSample i * srcEntropy i / 100

/-- The LIVE sources. -/
def liveSrcs (s : State) : List Nat := (List.range 20).filter fun i => decide ((s.src i).st = .live)
/-- RNG_COND_STAT.RATE (R415). -/
def srcRates (s : State) : Nat := (liveSrcs s).foldl (fun n i => n + srcRate i) 0
/-- RNG_COND_STAT.KINDS (R415). -/
def srcKinds (s : State) : Nat := ([0, 1, 2].filter fun k => (liveSrcs s).any fun i => srcKind i == k).length
/-- The two conditions of the claim (R399). -/
def claimMet (s : State) : Bool := decide (225 ≤ srcRates s) && decide (2 ≤ srcKinds s)

/-- An RNG_EVENT flag with its counter (R415): 0 HEALTH_FAIL, 1 CLAIM_LOST, 2 RAW, 3 MASK_STALE. -/
def rngEvent (s : State) (b : Nat) : State :=
  { s with rng := { s.rng with event := s.rng.event ||| BitVec.ofNat 4 (2 ^ b), eventCnt := bumpAt s.rng.eventCnt b } }

/-- The 32 bits of RNG_COND_STAT (R415). -/
def condStat (s : State) : Nat :=
  srcRates s * 2 ^ 16 + flag s.rng.raw 4 + srcKinds s * 4 + flag s.rng.started 1 + flag s.rng.claim 0

/-- Samples packed as Table 10.7 says: sample i is bit i mod 8 of byte i / 8. -/
def packBits (l : List Bool) : Bytes :=
  (List.range ((l.length + 7) / 8)).map fun j =>
    BitVec.ofNat 8 ((List.range 8).foldl (fun n k => n + flag (l.getD (8 * j + k) false) k) 0)

/-- The LIVE sources' assessed entropy in 2 µs, in which each delivers one sample or two, in tenths of a bit (Table 10.1). -/
def tickEntropy (s : State) : Nat := (liveSrcs s).foldl (fun n i => n + srcSample i * 2 / 1000 * srcEntropy i) 0
/-- The LIVE sources' samples in 2 µs. -/
def tickSamples (s : State) : Nat := (liveSrcs s).foldl (fun n i => n + srcSample i * 2 / 1000) 0
/-- Samples of one input of the conditioner: as many as reach 576 bits of assessed entropy (R398). -/
def condSamples (s : State) : Nat := (5760 + tickEntropy s - 1) / tickEntropy s * tickSamples s
/-- An input of the conditioner: the samples gathered, whose values nobody fixes (R398, log 3). -/
def condInput (s : State) : Bytes := packBits ((List.range (condSamples s)).map fun i => Config.freeBool (s.free + i))

/-- A block arrives in the buffer, which keeps 8: SHA-512 of the next input (R398). -/
def condBlock (s : State) : State :=
  let out := fit 64 (Config.hash 3 (condInput s))
  let s1 := drawn s (condSamples s)
  { s1 with rng := { s1.rng with halves := (s1.rng.halves ++ [out.take 32, out.drop 32]).take 16 } }

/-! ### Health tests (R395) -/

/-- Cutoff of the repetition count test, C = 1 + ceil(40 / H) (R395). -/
def repCutoff (i : Nat) : Nat := 1 + (400 + srcEntropy i - 1) / srcEntropy i
/-- Cutoff of the adaptive proportion test (Table 10.2). -/
def propCutoff (i : Nat) : Nat := if i < 8 then 435 else if i < 16 then 373 else 354

/-- The two tests of source `i` over samples whose first begins a window of 512: which test fails at the first sample where one
does, repetition count and adaptive proportion. `prev` and `run` are the current run, `first`, `cnt` and `pos` the window's. -/
def testScan (i : Nat) : List Bool → Bool → Nat → Bool → Nat → Nat → Bool × Bool
  | [], _, _, _, _, _ => (false, false)
  | b :: l, prev, run, first, cnt, pos =>
    let run := if run = 0 || b != prev then 1 else run + 1
    let f := if pos = 0 then b else first
    let c := if pos = 0 then 1 else if b = f then cnt + 1 else cnt
    if repCutoff i ≤ run || propCutoff i ≤ c then (decide (repCutoff i ≤ run), decide (propCutoff i ≤ c))
    else testScan i l b run f c (if pos = 511 then 0 else pos + 1)

/-- What the tests of source `i` say of consecutive samples: LAST_TEST of the test that fails first, 0 where none does; where both
fail at one sample either may be named (R415, log 3). -/
def testFail (s : State) (i : Nat) (samples : List Bool) : BitVec 2 :=
  match testScan i samples false 0 false 0 0 with
  | (false, false) => 0
  | (true, false) => 2
  | (false, true) => 3
  | (true, true) => if Config.freeBool s.free then 2 else 3

/-- Privileged drill Pk. -/
def State.priv (s : State) (k : Nat) : Drill := tget Drill.zero s.rng.priv k
/-- The state with a privileged drill changed. -/
def State.modPriv (s : State) (k : Nat) (f : Drill → Drill) : State :=
  { s with rng := { s.rng with priv := tmod Drill.zero k f s.rng.priv } }
/-- The state with a plot's drill changed. -/
def State.modDrill (s : State) (p : Nat) (f : Drill → Drill) : State :=
  s.modPlot p fun pl => { pl with drill := f pl.drill }

/-- R of R403: RESEED of the plot's active policy set. -/
def reseedAt (s : State) (p : Nat) : Nat := polReseed (s.plot p).active

/-- The class of a request in the order of R400. -/
def seedClass (s : State) : SeedReq → Nat
  | .priv _ => 1
  | .plot p =>
    let d := (s.plot p).drill
    if !d.inst then 4 else if d.must || decide (reseedAt s p ≤ d.c) then 2 else 3

/-- The number of this module start: the keeper's count, with the increment of its step 1 also while that is still to come
(R402, R427). -/
def startNo (s : State) : W32 :=
  if s.lcs.counted then s.kpr.starts else if s.kpr.kpor then s.flash.starts + 1 else s.kpr.starts + 1

/-- The number of a drill: a plot's is p, Pk's is 1,024 + k (log 129). -/
def SeedReq.drillNo : SeedReq → Nat
  | .priv k => 1024 + k
  | .plot p => p

/-- A drill's nonce: its number, the module-start count, its instantiations in this start (R402). -/
def drillNonce (s : State) (r : SeedReq) : Bytes :=
  le 4 r.drillNo ++ le 4 (startNo s).toNat ++ le 4 (tget 0 s.rng.insts r.drillNo).toNat

/-- A drill is instantiated with entropy input, nonce and personalisation string, or reseeded with entropy input (R402). -/
def seeded (s : State) (r : SeedReq) (d : Drill) (entropy : Bytes) : Drill :=
  { d with inst := true, c := 0, must := false, queued := false,
           seed := if d.inst then entropy else entropy ++ drillNonce s r ++ fit 32 (Config.hash 1 Config.attestPublic) }

/-- A drill's instantiation is counted (R402). -/
def countInst (s : State) (r : SeedReq) (d : Drill) : State :=
  if d.inst then s else { s with rng := { s.rng with insts := bumpAt s.rng.insts r.drillNo } }

/-- A request is served with 256 bits: the drill is instantiated or reseeded (R402 to R404). -/
def seedDone (s : State) (r : SeedReq) (entropy : Bytes) : State :=
  match r with
  | .priv k =>
    let waited := s.rng.prWait.getLsbD k
    let s1 := countInst (s.modPriv k fun d => { seeded s r d entropy with fresh := d.fresh || waited }) r (s.priv k)
    let ok := [0, 1, 2, 3].all fun k => (s1.priv k).inst
    { s1 with rng := { s1.rng with prWait := s1.rng.prWait &&& ~~~(BitVec.ofNat 4 (2 ^ k)),
                                   started := s1.rng.started || ok } }
  | .plot p => countInst (s.modDrill p fun d => seeded s r d entropy) r (s.plot p).drill

/-- The request the conditioner serves next: the lowest class, oldest first (R400). -/
def nextSeed (s : State) : Option SeedReq :=
  [1, 2, 3, 4].findSome? fun c => s.rng.reqs.find? fun r => seedClass s r == c

/-- The conditioner serves queued requests while it has output: 256 bits each (R399, R400, R414). -/
def pumpN : Nat → State → State
  | 0, s => s
  | fuel + 1, s =>
    if !s.rng.claim || s.rng.raw then s
    else match s.rng.halves, nextSeed s with
      | h :: rest, some r =>
        pumpN fuel (seedDone { s with rng := { s.rng with halves := rest, reqs := s.rng.reqs.erase r } } r h)
      | _, _ => s

/-- The conditioner serves what its buffer of at most 16 half blocks allows (R398). -/
def pump (s : State) : State := pumpN 16 s

/-- A reseed or instantiation is queued at the conditioner, once, and served if there is output. On a standby a plot drill
is reseeded with the active's entropy input at once, whatever it is (R555, log 3). -/
def wantSeed (s : State) (r : SeedReq) : State :=
  if (s.clu.role == 2 || s.clu.role == 3) && (match r with | .plot _ => true | .priv _ => false) then
    seedDone (drawn s 32) r (freeBytes s.free 32)
  else if s.rng.reqs.contains r then pump s else pump { s with rng := { s.rng with reqs := s.rng.reqs ++ [r] } }

/-- A privileged drill can serve a generate request (R404, R414). -/
def privReady (s : State) (k : Nat) : Bool :=
  (s.priv k).inst && !(s.priv k).must && decide ((s.priv k).c < 4096) && !s.rng.raw

/-- One generate request of a privileged drill that can serve it; after the 4,096th it queues its reseed (R404). A drill
that cannot serve is left as it is. -/
def privGen (s : State) (k : Nat) : State :=
  if !privReady s k then s
  else
    let s1 := s.modPriv k fun d => { d with c := d.c + 1 }
    if (s1.priv k).c = 4096 then wantSeed (s1.modPriv k fun d => { d with queued := true }) (.priv k) else s1

/-- A key-generation request of P0 or P2: it is served after a fresh reseed of the drill (R404), at once where the
conditioner has output; otherwise the reseed is queued, PR_WAIT shows it and the answer is none. -/
def keyGen (s : State) (k : Nat) : State × Bool :=
  let s1 := if (s.priv k).fresh then s
            else wantSeed { s with rng := { s.rng with prWait := s.rng.prWait ||| BitVec.ofNat 4 (2 ^ k) } } (.priv k)
  if (s1.priv k).fresh && !s1.rng.raw then (s1.modPriv k fun d => { d with fresh := false, c := 1 }, true)
  else (s1, false)

/-- `n` requests of a privileged drill, of at most 64 bytes each: the state after those it serves now, and how many are left
(R401). -/
def privDraws (s : State) (k : Nat) : Nat → State × Nat
  | 0 => (s, 0)
  | n + 1 => if privReady s k then privDraws (privGen s k) k n else (s, n + 1)

/-- `n` key-generation requests of P0 or P2, each after a fresh reseed of its own: the state after those that are served now, and how
many are left (R401, R404). -/
def keyGens (s : State) (k : Nat) : Nat → State × Nat
  | 0 => (s, 0)
  | n + 1 => let g := keyGen s k; if g.2 then keyGens g.1 k n else (g.1, n + 1)

/-- Somebody waits for a fresh reseed of Pk: an admin command or a debug grant, a handshake, the steward's port (R404, R408). -/
def waitsFor (s : State) (k : Nat) : Bool :=
  (k == 0 && (s.rng.keyWait.isSome || s.dbg.grant.isSome)) || (k == 2 && !s.clu.hsWait.isEmpty) ||
    (s.stw.prPend && s.stw.sel.toNat == k)

/-- A reseed that nobody waits for any more is no fresh reseed of a later request, and PR_WAIT does not show it (R404, R415). -/
def settleWaits (s : State) : State :=
  [0, 1, 2, 3].foldl (fun s k =>
    if waitsFor s k then s
    else
      let s1 := s.modPriv k fun d => { d with fresh := false }
      { s1 with rng := { s1.rng with prWait := s1.rng.prWait &&& ~~~(BitVec.ofNat 4 (2 ^ k)) } }) s

/-- An admin command has had its key generation: it waits no more (R411). -/
def keyServed (s : State) : State := settleWaits { s with rng := { s.rng with keyWait := none, keyGot := 0 } }

/-- An admin command waits at the front of the steward's queue for the rest of its requests, having had `got` (R404, R411). -/
def keyHeld (s : State) (d : Adm) (got : Nat) : State :=
  { s with rng := { s.rng with keyWait := some d, keyGot := got }, adm := { s.adm with queue := d :: s.adm.queue } }

/-- A plot drill can serve a generate request now (R402, R403, R406, R414). -/
def drillReady (s : State) (p : Nat) : Bool :=
  let d := (s.plot p).drill
  d.inst && !d.must && decide (d.c < reseedAt s p) && !s.rng.raw

/-- The plot drill's reseed is queued where its count has reached the request point; a drill that stands at its limit
unseeded is counted in RNG_STALL_CNT (R403, R415). -/
def drillCheck (s : State) (p : Nat) : State :=
  let d := (s.plot p).drill
  let r := reseedAt s p
  let s1 := if d.inst && decide ((r + 1) / 2 ≤ d.c) && !d.queued then
      wantSeed (s.modDrill p fun d => { d with queued := true }) (.plot p) else s
  if d.inst && decide (r ≤ (s1.plot p).drill.c) then { s1 with rng := { s1.rng with stallCnt := bump s1.rng.stallCnt } } else s1

/-- One generate request of a plot drill; none where the drill has no output (R401, R403). -/
def plotGen (s : State) (p : Nat) : Option State :=
  if drillReady s p then some (drillCheck (s.modDrill p fun d => { d with c := d.c + 1 }) p) else none

/-- The plot's drill is marked to reseed before its next output and queues at once (R406, R414). -/
def markReseed (s : State) (p : Nat) : State :=
  if (s.plot p).drill.inst then wantSeed (s.modDrill p fun d => { d with must := true, queued := true }) (.plot p)
  else s

/-- A value of `n` bytes is drawn for a secret; its number is never 0 (log 3). -/
def newSecret (s : State) (n : Nat) : State × Nat :=
  let k := max s.free 1
  ({ s with free := k + n }, k)

end Sys2Proof.Machine
end

