-- ==== Sys2Proof/Machine/KeyOps.lean ====
section
/-! DEFINITION. The key plane's operations: placement (R275), lookup (R274, R276), insertion with relocation
(R277 to R281), slots and handles (R269 to R273), ageing (R287), the vault's pages (R305 to R307). -/

namespace Sys2Proof.Machine

def KitEntry.zero : KitEntry := {}
def Slot.zero : Slot := {}
def RplEntry.zero : RplEntry := {}
def VRec.zero : VRec := {}

/-- Buckets of the KIT (R275), of the replay table (R298), pages of the vault (R305), slots (R269). -/
def kitBuckets : Nat := 131072
def rplBuckets : Nat := 65536
def vltPages : Nat := 3145728
def kcSlots : Nat := 393216
/-- Entries of the KIT outside the overflow store; an overflow entry i has the place 524288 + i. -/
def kitWays : Nat := 524288
def rplWays : Nat := 262144

/-- The placement function of R275 with the seed pair of draw number `seed`. -/
def pairOf (seed : Nat) (m : Bytes) (b : Nat) : Nat × Nat :=
  let b0 := Config.siphash24 (freeBytes seed 16) m % b
  let b1 := Config.siphash24 (freeBytes (seed + 16) 16) m % b
  (b0, if b1 = b0 then b0 ^^^ 1 else b1)

/-- A key's two candidate buckets under a seed pair. -/
def kitPair (seed p : Nat) (name : W64) : Nat × Nat := pairOf seed (le 2 p ++ le 8 name.toNat) kitBuckets

/-- The applicable candidate buckets of a key, b0s first (R283). -/
def cands (k : KeyPlane) (p : Nat) (name : W64) : List Nat :=
  let n := kitPair k.seed p name
  if !k.run then [n.1, n.2]
  else
    let o := kitPair k.oldSeed p name
    let keep (new : Bool) (b : Nat) : Bool := if new then decide (b < k.sweep) else decide (k.sweep ≤ b)
    (([(true, n.1), (false, o.1), (true, n.2), (false, o.2)].filter fun x => keep x.1 x.2).map (·.2)).eraseDups

/-- The entry at a place of the KIT, ways first, then the overflow store. -/
def kitAt (k : KeyPlane) (i : Nat) : KitEntry :=
  if i < kitWays then tget KitEntry.zero k.kit i else tget KitEntry.zero k.ovf (i - kitWays)
/-- The KIT with the entry at a place replaced. -/
def kitPut (k : KeyPlane) (i : Nat) (e : KitEntry) : KeyPlane :=
  if i < kitWays then { k with kit := tset KitEntry.zero i e k.kit }
  else { k with ovf := tset KitEntry.zero (i - kitWays) e k.ovf }

/-- Age in ticks of a stamp of plot p. -/
def ticksSince (s : State) (p : Nat) (stamp : BitVec 16) : Nat := ((s.plot p).tick - stamp).toNat

/-- An entry is live (R287). -/
def entryLive (s : State) (e : KitEntry) : Bool :=
  e.pinned || decide (ticksSince s e.plot e.stamp < polLimit (s.plot e.plot).active e.age.toNat)

/-- The places of a bucket's ways. -/
def waysOf (b : Nat) : List Nat := [4 * b, 4 * b + 1, 4 * b + 2, 4 * b + 3]

/-- The places of the overflow store that hold an entry. -/
def ovfPlaces (k : KeyPlane) : List Nat := k.ovf.map fun x => kitWays + x.1

/-- An entry matches a key of a lookup of the given kind (R274). -/
def matches' (s : State) (p : Nat) (name : W64) (derived : Bool) (e : KitEntry) : Bool :=
  e.valid && e.plot == p && e.name == name && e.derived == derived && entryLive s e

/-- The place of the matching entry in the candidate buckets and the overflow store (R276). -/
def kitFind (s : State) (p : Nat) (name : W64) (derived : Bool) : Option Nat :=
  (((cands s.kp p name).flatMap waysOf) ++ ovfPlaces s.kp).find? fun i => matches' s p name derived (kitAt s.kp i)

/-! ### Slots and handles -/

/-- Slot i of the key cache. -/
def State.slot (s : State) (i : Nat) : Slot := tget Slot.zero s.kp.slots i

/-- Bytes 0 to 55 of a slot (Table 7.5). -/
def Slot.bytes (x : Slot) : Bytes :=
  fit 32 x.material ++ le 4 x.attr.toNat ++ [x.alg, x.len] ++ fit 3 x.kcv ++ le 1 (flag x.entry 0 + flag x.asym 1 + flag x.vaulted 2) ++
    le 2 x.plot ++ le 4 x.expiry.toNat ++ le 4 x.uses.toNat ++ le 2 x.held ++ [0, 0]

/-- TAG of a slot's content under the key of this module start (R270). -/
def slotTagOf (k : KeyPlane) (x : Slot) : W64 := Config.slotTag (secretBytes k.tagKey 32) x.bytes

/-- A slot with its TAG computed; a free slot is all zeros (R270, R271). -/
def tagged (k : KeyPlane) (x : Slot) : Slot := if x.used then { x with tag := slotTagOf k x } else x

/-- The state with slot i changed, its TAG following (R270). -/
def State.modSlot (s : State) (i : Nat) (f : Slot → Slot) : State :=
  { s with kp := { s.kp with slots := tmod Slot.zero i (fun x => tagged s.kp (f x)) s.kp.slots } }

/-- The check of a fetch: the slot's TAG matches its content (R270). -/
def tagOk (s : State) (i : Nat) : Bool := (s.slot i).tag == slotTagOf s.kp (s.slot i)

/-- A slot with no entry and no handle is freed: all its bytes are zeroised and the plot's KC quota is
released (R271). -/
def freeSlotIfDone (s : State) (i : Nat) : State :=
  let x := s.slot i
  if x.used && !x.entry && x.held = 0 then
    (s.modSlot i fun _ => Slot.zero).modPlot x.plot fun pl => { pl with kcUse := pl.kcUse - 1 }
  else s

/-- The entry at a place goes: its KIT quota is released and its slot follows R271 (R288, R296). -/
def dropEntry (s : State) (i : Nat) : State :=
  let e := kitAt s.kp i
  if !e.valid then s
  else
    let s1 := { s with kp := { kitPut s.kp i KitEntry.zero with
      pairs := s.kp.pairs.filter fun x => !(x.1 == e.plot && x.2.1 == e.name && e.shared) } }
    let s2 := s1.modPlot e.plot fun pl => { pl with kitUse := pl.kitUse - 1 }
    freeSlotIfDone (s2.modSlot e.slot fun x => { x with entry := false }) e.slot

/-- A transaction gives up one handle (R15, R271). -/
def releaseHandle (s : State) (h : Handle) : State :=
  freeSlotIfDone (s.modSlot h.slot fun x => { x with held := x.held - 1 }) h.slot

/-- The first index from a start that a table does not list. -/
def gapFrom {α : Type} (start : Nat) : Tbl α → Nat
  | [] => start
  | (k, _) :: t => if k < start then gapFrom start t else if k = start then gapFrom (start + 1) t else start

/-- A free slot: the first one from a free value on (the spec does not say which slot is taken, log 3). -/
def pickSlot (s : State) : Nat :=
  let i := gapFrom ((Config.freeWord s.free).toNat % kcSlots) s.kp.slots
  if i < kcSlots then i else gapFrom 0 s.kp.slots

/-- The value of handle `ix` of a transaction for a slot (R273). -/
def handleVal (ix slot : Nat) : Nat := 0x80000000 + ix * 2 ^ 24 + slot

/-- The handle a transaction holds under a value (R273). -/
def heldHandle (t : Tx) (v : Nat) : Option Handle :=
  match t.handles[(v / 2 ^ 24) % 16]? with
  | some h => if v = handleVal ((v / 2 ^ 24) % 16) h.slot then some h else none
  | none => none

/-- Yoke y's transaction takes a handle to the slot of an entry, or finds the one it holds (R213). The answer
is the status and the handle. -/
def takeHandle (s : State) (y : Nat) (e : KitEntry) : State × BitVec 16 × Nat :=
  match s.tx y with
  | none => (s, stKeyNotFound, 0)
  | some t =>
    match t.handles.findIdx? fun h => h.slot == e.slot with
    | some ix => (s, stOK, handleVal ix e.slot)
    | none =>
      if 16 ≤ t.handles.length then (s, stPolicy, 0)
      else
        let h : Handle := { slot := e.slot, name := e.name, pinned := e.pinned, derived := e.derived, shared := e.shared }
        ((s.modTx y fun t => { t with handles := t.handles ++ [h] }).modSlot e.slot fun x => { x with held := x.held + 1 },
          stOK, handleVal t.handles.length e.slot)

/-- A key has reached its expiry (R291). -/
def expired (s : State) (expiry : W32) : Bool := expiry != 0 && decide (expiry.toNat ≤ s.kpr.opmin.toNat)

/-- The outcome of a lookup in the KIT (R276). -/
inductive Look where
  | hit (place : Nat)
  | expired
  | miss
  deriving DecidableEq, Repr

/-- A lookup of the given kind; a hit sets STAMP to the plot's tick (R276). -/
def kitLookup (s : State) (p : Nat) (name : W64) (derived : Bool) : State × Look :=
  match kitFind s p name derived with
  | none => (s, .miss)
  | some i =>
    let e := kitAt s.kp i
    if expired s (s.slot e.slot).expiry then (s, .expired)
    else ({ s with kp := kitPut s.kp i { e with stamp := (s.plot p).tick } }, .hit i)

/-! ### Insertion -/

/-- The slot content of an entry equals what is being learned; where a body lies is no part of the key (R281). -/
def sameKey (a b : Slot) : Bool :=
  (if a.asym then a.material.drop 8 == b.material.drop 8 else a.material == b.material) && a.alg == b.alg && a.attr == b.attr &&
    a.pset == b.pset && a.body == b.body

/-- The update pairs without the one of a SHARED name (R542). -/
def dropPair (ps : List (Nat × W64 × BitVec 48 × Nat)) (p : Nat) (name : W64) : List (Nat × W64 × BitVec 48 × Nat) :=
  ps.filter fun x => !(x.1 == p && x.2.1 == name)

/-- Entries of the key being learned that still stand: dead ones, for no live one does (R281). -/
def sameName (s : State) (l : Learn) : List Nat :=
  ((cands s.kp l.plot l.name).flatMap waysOf ++ ovfPlaces s.kp).filter fun i =>
    let e := kitAt s.kp i
    e.valid && e.plot == l.plot && e.name == l.name && e.derived == l.derived

/-- A key is placed: no other entry of its name is left (R281); the slot first, then the entry at the place (R277). -/
def placeKey (s : State) (l : Learn) (i : Nat) : State :=
  let s0 := dropEntry ((sameName s l).foldl dropEntry s) i
  let sl := pickSlot s0
  let s1 := (drawn s0 1).modSlot sl fun _ => { l.slot with used := true, entry := true, plot := l.plot, held := 0,
                                                            vaulted := l.vaulted }
  let e : KitEntry := { valid := true, name := l.name, plot := l.plot, slot := sl, stamp := (s.plot l.plot).tick,
                        age := l.age, pinned := l.pinned, derived := l.derived, shared := l.shared, vaulted := l.vaulted }
  let s2 := { s1 with kp := { kitPut s1.kp i e with
    pairs := match l.pair with
      | some (st, o) => dropPair s1.kp.pairs l.plot l.name ++ [(l.plot, l.name, st, o)]
      | none => s1.kp.pairs } }
  s2.modPlot l.plot fun pl => { pl with kitUse := pl.kitUse + 1, kcUse := pl.kcUse + 1 }

/-- A way with VALID = 0 or a dead entry in the candidate buckets (R277). -/
def freeWay (s : State) (bs : List Nat) : Option Nat :=
  (bs.flatMap waysOf).find? fun i => let e := kitAt s.kp i; !e.valid || !entryLive s e

/-- The two checks before an insertion looks for room: a matching entry, then the quotas (R277, R281). -/
def learnChecks (s : State) (l : Learn) : Option (BitVec 16) :=
  match kitFind s l.plot l.name l.derived with
  | some i => some (if sameKey (s.slot (kitAt s.kp i).slot) l.slot then stExisting else stConflict)
  | none =>
    let pl := s.plot l.plot
    if pl.acr.kitQuota ≤ pl.kitUse || decide (pl.acr.kcQuota ≤ pl.kcUse) then some stQuota else none

/-- An insertion without a walk: its status, or none where it needs the walk token (R277). -/
def learnFast (s : State) (l : Learn) : State × Option (BitVec 16) :=
  match learnChecks s l with
  | some st => (s, some st)
  | none =>
    match freeWay s (cands s.kp l.plot l.name) with
    | some i => (placeKey s l i, some stOK)
    | none => (s, none)

/-- The relocation path of R277: the places whose entries move, first to last, and the place that is free. -/
def walkFrom (k : KeyPlane) : Nat → Nat → Nat → List Nat → Option (List Nat × Nat)
  | 0, _, _, _ => none
  | fuel + 1, m, b, path =>
    let rot := ((waysOf b).rotateLeft ((m - 1) % 4))
    let other (i : Nat) : Option Nat :=
      let e := kitAt k i
      (cands k e.plot e.name).find? fun c => c != b
    match rot.find? fun i => (kitAt k i).valid && (other i).isSome && !path.contains i with
    | none => none
    | some v =>
      match other v with
      | none => none
      | some b' =>
        match (waysOf b').find? fun i => !(kitAt k i).valid with
        | some d => some (path ++ [v], d)
        | none => walkFrom k fuel (m + 1) b' (path ++ [v])

/-- The moves of a path, last first: each entry is written at its destination, then its source is cleared (R278). -/
def movePath (k : KeyPlane) (dest : Nat) : List Nat → KeyPlane
  | [] => k
  | v :: vs => movePath (kitPut (kitPut k dest (kitAt k v)) v KitEntry.zero) v vs

/-- The entry that an insertion may evict: VAULTED, not PINNED, of the greatest tick age; the first on ties (R277). -/
def evictee (s : State) (bs : List Nat) : Option Nat :=
  ((bs.mergeSort (· ≤ ·)).flatMap waysOf).foldl (fun best i =>
    let e := kitAt s.kp i
    if e.valid && e.vaulted && !e.pinned then
      match best with
      | none => some i
      | some j => if ticksSince s (kitAt s.kp j).plot (kitAt s.kp j).stamp < ticksSince s e.plot e.stamp then some i else best
    else best) none

/-- A free place of the overflow store (R272: 1,024 entries). -/
def freeOvf (k : KeyPlane) : Option Nat :=
  let i := gapFrom 0 k.ovf
  if i < 1024 then some (kitWays + i) else none

/-- REHASH_REQ is set and KIT_FULL_CNT counts it (R277, R313); never by a derived learning (R294). -/
def rehashReq (s : State) (derived : Bool) : State :=
  if derived then s else { s with kp := { s.kp with req := true, fullCnt := bump s.kp.fullCnt } }

/-- An insertion that holds the walk token, to its end: the two checks again, then the walk (R277). -/
def learnWalk (s : State) (l : Learn) : State × BitVec 16 :=
  match learnChecks s l with
  | some st => (s, st)
  | none =>
    let bs := cands s.kp l.plot l.name
    match bs.head?.bind fun b => walkFrom s.kp 16 1 b [] with
    | some (path, d) =>
      (placeKey { s with kp := movePath s.kp d path.reverse } l (path.headD 0), stOK)
    | none =>
      match freeOvf s.kp with
      | some i => (placeKey s l i, stOK)
      | none =>
        match evictee s bs with
        | some i => (placeKey s l i, stOK)
        | none => (rehashReq s l.derived, stTableFull)

/-- A derived learning has ended: the deriving job goes on, and a refusal is counted; false where a different key stands under its
name, and then that entry goes (R294, R295). -/
def derivedDone (s : State) (l : Learn) (st : BitVec 16) : State × Bool :=
  if st = stQuota ∨ st = stTableFull then ({ s with kp := { s.kp with dskipCnt := bump s.kp.dskipCnt } }, true)
  else if st = stConflict then
    match kitFind s l.plot l.name true with
    | some i => (dropEntry s i, false)
    | none => (s, false)
  else (s, true)

/-! ### The vault -/

/-- The two pages of (plot, name) (R305). -/
def vltPair (s : State) (p : Nat) (name : W64) : Nat × Nat :=
  pairOf s.kpr.cab.vaultSeed (le 2 p ++ le 8 name.toNat) vltPages

/-- The places of a key's two pages, first page first. -/
def vltPlaces (s : State) (p : Nat) (name : W64) : List Nat :=
  let q := vltPair s p name
  ((List.range 32).map (32 * q.1 + ·)) ++ ((List.range 32).map (32 * q.2 + ·))

/-- The place that holds the record of (plot, name). -/
def vltFind (s : State) (p : Nat) (name : W64) : Option Nat :=
  (vltPlaces s p name).find? fun i => let r := tget VRec.zero s.vlt.recs i; r.used && r.plot == p && r.name == name

/-- BODYLEN of a record: nonce, ciphertext and tag of an asymmetric body (R303, R304). -/
def bodyLen (r : VRec) : Nat := if r.kind = 1 then 28 + r.body.length else 0

/-- A body's bytes in the vault, rounded up to 128 (R312). -/
def bodyRoom (n : Nat) : Nat := (n + 127) / 128 * 128

/-- The body area: 2 GiB in units of 128 bytes (Table 7.9). -/
def bodyUnits : Nat := 16777216
/-- The units of a body, and the locator of a record or slot: the body's first unit. -/
def unitsOf (body : Bytes) : Nat := bodyRoom (28 + body.length) / 128
def locator (material : Bytes) : Nat := fld material 0 8

/-- The stretches of the body area that are taken: those of the records but the one at a place, and those that slots refer to. -/
def bodyAreas (s : State) (but : Option Nat) : List (Nat × Nat) :=
  (s.vlt.recs.filterMap fun x => if x.2.kind = 1 ∧ some x.1 ≠ but then some (locator x.2.material, unitsOf x.2.body) else none) ++
    s.kp.slots.filterMap fun x => if x.2.asym && x.2.vaulted then some (locator x.2.material, unitsOf x.2.body) else none

/-- n units fit at a start. -/
def bodyFits (areas : List (Nat × Nat)) (n a : Nat) : Bool :=
  decide (a + n ≤ bodyUnits) && areas.all fun x => decide (a + n ≤ x.1) || decide (x.1 + x.2 ≤ a)

/-- Where a body of n units can lie: from a free value on, else first fit; none where the area is full (log 124). -/
def bodySpot (s : State) (but : Option Nat) (n : Nat) : Option Nat :=
  let areas := bodyAreas s but
  (((Config.freeWord s.free).toNat % bodyUnits) :: 0 :: areas.map fun x => x.1 + x.2).find? (bodyFits areas n)

/-- Bytes a record charges: 128, and an asymmetric body rounded up to 128 (R312). -/
def vltCost (r : VRec) : Nat := 128 + bodyRoom (bodyLen r)

/-- The plot's quota in bytes. -/
def vltQuotaBytes (pl : Plot) : Nat := pl.acr.vltQuota * 2 ^ 20

/-- Where a record of (plot, name) would be written: in its own place, else in a free place of its pages. -/
def vltPlace (s : State) (p : Nat) (name : W64) : Option Nat :=
  match vltFind s p name with
  | some i => some i
  | none => (vltPlaces s p name).find? fun i => !(tget VRec.zero s.vlt.recs i).used

/-- A record put in a place, the plot's use following (R312). -/
def vltSet (s : State) (i : Nat) (r : VRec) : State :=
  let old := tget VRec.zero s.vlt.recs i
  let s1 := if old.used then s.modPlot old.plot fun pl => { pl with vltUse := pl.vltUse - vltCost old } else s
  let s2 := { s1 with vlt := { s1.vlt with recs := tset VRec.zero i r s1.vlt.recs } }
  if r.used then s2.modPlot r.plot fun pl => { pl with vltUse := pl.vltUse + vltCost r } else s2

/-- A vault write is refused: VLT_FULL_CNT counts it (R305, R526). -/
def vltFull (s : State) : State := { s with vlt := { s.vlt with fullCnt := bump s.vlt.fullCnt } }

/-- The body of a record has its place, or room for one (R302). -/
def bodyOk (s : State) (r : VRec) : Bool := r.kind != 1 || (bodySpot s (vltFind s r.plot r.name) (unitsOf r.body)).isSome

/-- Whether a record can be written now: none, or the status that refuses it (R107, R302, R305, R526). -/
def vltRefuse (s : State) (r : VRec) : Option (BitVec 16) :=
  let pl := s.plot r.plot
  let back := match vltFind s r.plot r.name with
    | some i => vltCost (tget VRec.zero s.vlt.recs i)
    | none => 0
  if vltQuotaBytes pl < pl.vltUse - back + vltCost r then some stQuota
  else if (vltPlace s r.plot r.name).isNone || s.vlt.seq == BitVec.allOnes 32 || !bodyOk s r then some stTableFull
  else none

/-- The vault can be reached: its PLL is locked and it is not in self-refresh (R25, R31). -/
def vaultUp (s : State) : Bool := pllUp s 4 && !s.vlt.selfRefresh

/-- A record of plot p can be written now: the vault can be reached, and the plot's drill serves the nonce (R31, R401, R403). -/
def vaultReady (s : State) (p : Nat) : Bool := vaultUp s && (plotGen s p).isSome

/-- A record is written with a fresh ORDER; its nonces are one request of the plot's drill (R303, R306, R401). Whoever writes has
waited for `vaultReady`. -/
def vltWrite (s : State) (r : VRec) : State :=
  match vltPlace s r.plot r.name, plotGen s r.plot with
  | some i, some s0 =>
    if s.vlt.seq = BitVec.allOnes 32 then vltFull s
    else
      let s1 := vltSet (drawn s0 24) i { r with used := true, orderHi := s.kpr.starts, orderLo := s.vlt.seq, nonce := freeBytes s0.free 24 }
      { s1 with vlt := { s1.vlt with seq := s1.vlt.seq + 1 } }
  | none, _ => vltFull s
  | _, none => s

/-- The vault record of a key being learned. -/
def vrecOf (l : Learn) : VRec :=
  { kind := if l.slot.asym then 1 else 0, plot := l.plot, name := l.name, attr := l.slot.attr, alg := l.slot.alg,
    len := l.slot.len, age := l.age, pinned := l.pinned, shared := l.shared, expiry := l.slot.expiry, kcv := l.slot.kcv,
    material := l.slot.material, pset := l.slot.pset, body := l.slot.body }

/-- The plot holds vault records (R307). -/
def hasRecords (s : State) (p : Nat) : Bool := s.vlt.recs.any fun x => x.2.plot == p

/-- A key is forgotten (R296): the entry goes, a VAULTED key's record becomes a tombstone. -/
def forgetKey (s : State) (i : Nat) : State :=
  let e := kitAt s.kp i
  let s1 := dropEntry s i
  if e.vaulted then vltWrite s1 { kind := 2, plot := e.plot, name := e.name } else s1

end Sys2Proof.Machine
end

