-- ==== Sys2Proof/Machine/ReileOps.lean ====
section
/-! DEFINITION. The operations of the Reile link that other families use: sending a message to a peer (R532 to
R534), the cluster's event flags (R567) and the pair's forwarding (R554, R556). -/

namespace Sys2Proof.Machine

def Sess.zero : Sess := {}

/-- A CLU_EVENT flag with its counter (R567): 0 LINK, 1 SESSION, 2 CONFLICT, 3 REPL_REJ, 4 DIVERGE, 5 ROLE,
6 CFG_ERR. -/
def cluEvent (s : State) (b : Nat) : State :=
  { s with clu := { s.clu with event := s.clu.event ||| BitVec.ofNat 7 (2 ^ b), eventCnt := bumpAt s.clu.eventCnt b } }

/-- The session with a peer. -/
def State.sess (s : State) (peer : Nat) : Sess := tget Sess.zero s.clu.sess peer
/-- The state with a session replaced. -/
def State.setSess (s : State) (peer : Nat) (x : Sess) : State :=
  { s with clu := { s.clu with sess := tset Sess.zero peer x s.clu.sess } }

/-- The TYPE byte of a message (Table 15.2). -/
def msgType : Msg → Byte
  | .heartbeat _ _ => 0x10
  | .ack _ => 0x11
  | .bind _ => 0x12
  | .shareLearn _ => 0x20
  | .shareForget _ _ _ _ => 0x21
  | .syncReq _ => 0x22
  | .claim _ _ => 0x30
  | .claimReply _ _ _ => 0x31
  | .rehome _ _ _ => 0x32
  | .pairState _ => 0x40
  | .pairStream _ => 0x41
  | .pairAdmin _ => 0x42
  | .pairAbort _ _ => 0x43
  | .pairDigest _ _ _ => 0x44
  | .pairAck _ _ => 0x45
  | .pairSwap => 0x46

/-- Every message but HEARTBEAT and ACK asks for an acknowledgement (R534). -/
def msgAck : Msg → Bool
  | .heartbeat _ _ => false
  | .ack _ => false
  | _ => true

/-- Types that exist from version 2 only (Table 15.2). -/
def msgV2 : Msg → Bool
  | .syncReq _ => true
  | _ => false

/-- CLU_PORT_CFG and CLU_PORT_CFG_NEXT at reset: enabled, EtherType 0x88B5 (R530, R567). -/
def portDefault : W64 := 0x188B50000

/-- The member table's entry of a node. -/
def member (s : State) (node : Nat) : Option Member := s.clu.members.find? fun m => m.node == node

/-- The header of a frame up to FLAGS (Table 15.1): MACs, the configured tag and EtherType, VER, TYPE, node IDs, KPH and ACKREQ. The
peer's port k has its port 0's address plus k, as this module's has (R529, log 133). -/
def frameHead (s : State) (k peer : Nat) (ty ver : Byte) (kph ack : Bool) : Bytes :=
  let c := tget portDefault s.clu.portCfg k
  let mac := match member s peer with
    | some m => fldBE m.mac 0 6
    | none => 0
  be 6 (mac + k) ++ be 6 (Config.baseMac.toNat + k) ++
    (if c.getLsbD 33 then [0x81, 0x00] ++ be 2 (c.extractLsb' 0 16).toNat else []) ++ be 2 (c.extractLsb' 16 16).toNat ++
    [ver, ty] ++ be 3 (s.clu.node * 4096 + peer) ++ [BitVec.ofNat 8 (flag kph 0 + flag ack 1)]

/-- The frame that carries a message over a port with a SEQ. -/
def msgFrame (s : State) (k peer : Nat) (q : W64) (m : Msg) : Out :=
  let x := s.sess peer
  .frame k peer (frameHead s k peer (msgType m) x.ver x.kph (msgAck m)) q m

/-- A message goes to a peer in a frame with a new SEQ (R532) and is kept until it is acknowledged (R534). A peer
with no session up is sent nothing. -/
def sendMsg (s : State) (peer : Nat) (m : Msg) : State :=
  let x := s.sess peer
  if x.hs != .up || x.down then s
  else
    let q := x.txSeq + 1
    let x' := { x with txSeq := q, unacked := if msgAck m then x.unacked ++ [(q, m, 0)] else x.unacked }
    (emit s (msgFrame s x.port peer q m)).setSess peer x'

/-- The other members of the domain. -/
def peers (s : State) : List Nat := (s.clu.members.map (·.node)).filter (· != s.clu.node)

/-- A message goes to every other member. -/
def sendAll (s : State) (m : Msg) : State := (peers s).foldl (fun s p => sendMsg s p m) s

/-- The active of a pair forwards a message to its standby (R554). -/
def forward (s : State) (m : Msg) : State := if s.clu.role = 1 then sendMsg s s.clu.peer m else s

/-- A transaction of the active that ends early is stopped on the standby at the same boundary (R556). -/
def forwardAbort (s : State) (y : Nat) : State :=
  match s.tx y with
  | some t => if t.phase = .running ∧ t.numbered then forward s (.pairAbort t.seqNo t.bounds) else s
  | none => s

/-- A cluster or pair event: its flag, its counter and PF0 vector 3 (Table 2.9, R567). -/
def cluFlag (s : State) (b : Nat) : State := cluVec (cluEvent s b)

/-- The pair ends: ROLE 0, CLU_EVENT.ROLE and PF0 vector 3 (R561, R563). -/
def unpair (s : State) : State :=
  if s.clu.role = 0 && !s.clu.syncing then s
  else
    cluFlag { s with clu := { s.clu with role := 0, syncing := false, suspect := false, willing := false, digests := [],
                                         closed := [], sent := [], stream := [], aborts := [], heldDig := [],
                                         pairAdm := none } } 5

/-! ### Batches of a pair (R557 to R559) -/

/-- A standby, held or not (R554, R560). -/
def standby (s : State) : Bool := s.clu.role == 2 || s.clu.role == 3

/-- A standby, or a module that becomes one (Table 15.6 steps 2 to 5): its plots stay CREATED. -/
def mirrors (s : State) : Bool := standby s || (s.clu.syncing && s.clu.pairAdm.isNone)

/-- The digest of a batch once all its transactions have ended: SHA-256 over their digests in dispatch order (R557). -/
def batchDigest (s : State) (first : W64) (n : Nat) : Option Bytes :=
  let l := (List.range n).map fun i => (s.clu.digests.find? fun d => d.1 == first + BitVec.ofNat 64 i).bind fun d => d.2.2.2
  if l.all Option.isSome then some (Config.hash 1 (l.flatMap fun d => d.getD [])) else none

/-- The active sends the digest of each closed batch whose transactions have all ended (R557). -/
def sendDigests (s : State) : State :=
  s.clu.closed.foldl (fun s b => match batchDigest s b.1 b.2 with
    | some d =>
      let s1 := forward s (.pairDigest b.1 b.2 d)
      { s1 with clu := { s1.clu with closed := s1.clu.closed.filter (· != b), sent := s1.clu.sent ++ [b] } }
    | none => s) s

/-- The open batch closes, if it holds a dispatch (R557). -/
def closeBatch (s : State) : State :=
  let n := (s.clu.seq - s.clu.batch).toNat
  if n = 0 then s
  else sendDigests { s with clu := { s.clu with closed := s.clu.closed ++ [(s.clu.batch, n)], batch := s.clu.seq } }

/-- The digests of a batch are no longer kept. -/
def forgetBatch (s : State) (first : W64) (n : Nat) : State :=
  { s with clu := { s.clu with digests := s.clu.digests.filter fun d => decide (n ≤ (d.1 - first).toNat) } }

/-- Batch digests differ: SUSPECT, DIVERGE, PF0 vector 3 and the YOKE_DIVERGE record, once (R558). -/
def diverge (s : State) (first : W64) : State :=
  if s.clu.suspect then s
  else
    event (cluFlag { s with clu := { s.clu with suspect := true } } 4) 0x3030 modScope (le 8 first.toNat ++ le 2 s.clu.peer)

/-- The standby compares each digest of the active that it can with its own: a match is acknowledged, a mismatch makes it
suspect, and its own digest goes back so that the active meets it too (R557, R558, log 70). -/
def digestCheck (s : State) : State :=
  s.clu.heldDig.foldl (fun s h => match batchDigest s h.1 h.2.1 with
    | none => s
    | some d =>
      let s1 := forgetBatch { s with clu := { s.clu with heldDig := s.clu.heldDig.filter (· != h) } } h.1 h.2.1
      if s1.clu.suspect then s1
      else if d = h.2.2 then sendMsg s1 s1.clu.peer (.pairAck h.1 h.2.1)
      else sendMsg (diverge s1 h.1) s1.clu.peer (.pairDigest h.1 h.2.1 d)) s

end Sys2Proof.Machine
end

