-- ==== Sys2Proof/Machine/Tx.lean ====
section
/-! DEFINITION. The life of a transaction on a yoke: its start (R149, R241), its end in every way (R15, R187,
R224, R252, R390, R391), the completion that follows (R64), squashes (R122, R124), and yoke faults (R187, R189). -/

namespace Sys2Proof.Machine

def LaneCtx.zero : LaneCtx := {}
def EngSlot.zero : EngSlot := {}
def Mac.zero : Mac := {}
def Image.zero : Image := {}

/-- Lane context i, lane × 8 + context. -/
def State.ctx (s : State) (i : Nat) : LaneCtx := tget LaneCtx.zero s.lan.ctx i
/-- The state with a lane context changed. -/
def State.modCtx (s : State) (i : Nat) (f : LaneCtx → LaneCtx) : State :=
  { s with lan := { s.lan with ctx := tmod LaneCtx.zero i f s.lan.ctx } }
/-- Engine slot i, engine × 2 + slot. -/
def State.eslot (s : State) (i : Nat) : EngSlot := tget EngSlot.zero s.pke.slots i
/-- The state with an engine slot changed. -/
def State.modEslot (s : State) (i : Nat) (f : EngSlot → EngSlot) : State :=
  { s with pke := { s.pke with slots := tmod EngSlot.zero i f s.pke.slots } }
/-- Engine e in multiply-accumulate mode. -/
def State.mac (s : State) (e : Nat) : Mac := tget Mac.zero s.pke.mac e
/-- The state with an engine's attachment changed. -/
def State.modMac (s : State) (e : Nat) (f : Mac → Mac) : State :=
  { s with pke := { s.pke with mac := tmod Mac.zero e f s.pke.mac } }

/-- Job j of a transaction. -/
def Tx.job (t : Tx) (j : Nat) : Option Job := tget none t.jobs j
/-- The transaction with job j replaced. -/
def Tx.setJob (t : Tx) (j : Nat) (x : Option Job) : Tx := { t with jobs := tset none j x t.jobs }

/-! ### The end of jobs and handles -/

/-- A slot of an engine that holds a job of yoke y is squashed (R391). -/
def squashSlot (s : State) (y j : Nat) (i : Nat) : State :=
  s.modEslot i fun x => if x.job = some (y, j) then { x with squash := true } else x

/-- One outstanding job of an ending transaction: its lane context drains, its engine slots are squashed, its
reservation in the recorder is released (R224, R320, R391, R520). -/
def endJob (s : State) (y : Nat) (j : Nat) (x : Job) : State :=
  let s1 := if x.reserved && x.st != .ended then unreserve s else s
  if x.engine then
    let s2 := squashSlot s1 y j x.unit
    match x.unit2 with
    | some u => squashSlot s2 y j u
    | none => s2
  else s1.modCtx x.unit fun c => if c.job = some (y, j) then { c with job := none } else c

/-- A learner that is a job of yoke y. -/
def learnerOf (y : Nat) : Learner → Bool
  | .laneJob k _ => k == y
  | .engineJob k _ => k == y
  | .reload k _ => k == y
  | _ => false

/-- One transaction fewer may run each of the images; an image that no program table names and no transaction
runs gives up its granules (R238, R239). -/
def dropImages (s : State) (l : List Nat) : State :=
  let drop (t : Tbl Image) (i : Nat) : Tbl Image :=
    let g := tget Image.zero t i
    let g' : Image := { g with users := g.users - 1 }
    tset Image.zero i (if g'.users = 0 && !g'.named then Image.zero else g') t
  { s with prog := { s.prog with images := l.foldl drop s.prog.images } }

/-- One transaction more may run each of the images. -/
def holdImages (s : State) (l : List Nat) : State :=
  let hold (t : Tbl Image) (i : Nat) : Tbl Image := tmod Image.zero i (fun g => { g with users := g.users + 1 }) t
  { s with prog := { s.prog with images := l.foldl hold s.prog.images } }

/-- Everything an ending transaction held is given up: jobs (R224), the bound context and its sealed registers
(R252), handles (R15), the attached engine (R390), the program image (R238, R239), waiting insertions; the yoke
is released. -/
def endTx (s : State) (y : Nat) : State :=
  match s.tx y with
  | none => s
  | some t =>
    let s1 := t.jobs.foldl (fun s x => match x.2 with | some j => endJob s y x.1 j | none => s) s
    let s2 := match t.ctx with
      | some c => s1.modCtx c fun _ => LaneCtx.zero
      | none => s1
    let s3 := t.handles.foldl releaseHandle s2
    let s4 := match t.eng with
      | some e => s3.modMac e fun m => { m with detach := true, queue := [] }
      | none => s3
    let s5 := dropImages s4 ((t.image.toList) ++ t.progs.map (·.2))
    let s6 := { s5 with
      kp := { s5.kp with walkq := s5.kp.walkq.filter fun x => !learnerOf y x.2 },
      pke := { s5.pke with waitq := s5.pke.waitq.filter fun x => x.1 != y,
                           splitq := s5.pke.splitq.filter fun x => x.1 != y } }
    let s7 := s6.modYoke y fun k => { k with tx := none, bench := [], core := {} }
    s7.modPlot t.plot fun pl => { pl with busy := pl.busy - 1 }

/-! ### Plots that come to a stop -/

/-- Every transaction a plot accepted has ended and its entry is written; accepted descriptors of a halted hopper count as ended
(R63, R120). -/
def drained (s : State) (p : Nat) : Bool :=
  let pl := s.plot p
  pl.busy = 0 && (pl.hoppers.all fun x => x.2.acc.isEmpty || x.2.halted) && !(s.owed.any fun o => o.tx.plot == p)

/-- A STOPPING plot whose last accepted transaction has ended enters STOPPED (R120). -/
def checkStopped (s : State) (p : Nat) : State :=
  if (s.plot p).st = .stopping && drained s p then enterState s p .stopped else s

/-! ### Completion of a transaction -/

/-- The digest of a transaction of a pair (R557). -/
def txDigest (t : Tx) (e : Entry) : Bytes :=
  Config.hash 1 (le 8 t.seqNo.toNat ++ le 4 e.tag.toNat ++ le 2 e.status.toNat ++ le 2 e.inl.length ++ e.inl ++ t.res)

/-- The outcome of a transaction of a pair is noted for its batch; one that was squashed has no completion
entry and counts for no plot (R557, R559). -/
def noteDigest (s : State) (t : Tx) (e : Entry) : State :=
  if t.numbered then
    let cnt : W32 := (s.plot t.plot).txcnt.setWidth 32
    let p := if e.status = stSquashed then 1024 else t.plot
    let s1 := { s with clu := { s.clu with digests := s.clu.digests.map fun d =>
        if d.1 = t.seqNo then (d.1, p, cnt, some (txDigest t e)) else d } }
    if t.fwd then digestCheck s1 else sendDigests s1
  else s

/-- A transaction that was read has ended: the hopper's count of transactions in flight falls. -/
def landed (s : State) (r : HopRef) : State := s.modHop r fun x => { x with inflight := x.inflight - 1 }

/-- How many flags a command-set version defines (Table 2.7). -/
def versionFlags (v : BitVec 16) : Nat := if v.toNat < 0x101 then 0 else if v.toNat < 0x201 then 1 else 2

/-- A descriptor's IRQ_NOW under a command-set version; in version 1.0 the bit is reserved (R53). -/
def irqNowOf (v : BitVec 16) (d : Bytes) : Bool := decide (1 ≤ versionFlags v) && bit (fld d 2 2) 0

/-- The entry of an ended transaction is written, and its outcome noted for the pair (R66, R557). -/
def writeEntry (s : State) (t : Tx) (e : Entry) : State :=
  let r := hopRef t.plot t.hop
  noteDigest (ledAct (complete (landed s r) r e)) t e

/-- The engine slots that run a job of yoke y and are not yet being squashed. -/
def liveSlots (s : State) (y : Nat) : List Nat :=
  (s.pke.slots.filter fun x => !x.2.squash && match x.2.job with | some j => j.1 == y | none => false).map (·.1)

/-- The completion entry of a transaction that ends with a status and a result; a status of no result has none (R53, R67). -/
def entryOf' (t : Tx) (st : BitVec 16) (inl : Bytes) (ext : Bool) : Entry :=
  let e : Entry := { tag := BitVec.ofNat 32 (fld t.desc 4 4), status := st, inl := inl, ext := ext,
                     irqNow := irqNowOf t.version t.desc }
  if resultStatus st then e else { e with inl := [], ext := false }

/-- A transaction ends with a status and a result: everything it held is given up, its completion entry is
written (on a standby none is, R564), once the engine jobs it had running are squashed (R83, R187), and a STOPPING plot may come to its
stop. DESIGN CHOICE (log 107): the standby's transaction counter advances for its copy of a transaction, as if the entry had been written
(R66). -/
def finishTx (s : State) (y : Nat) (st : BitVec 16) (inl : Bytes) (ext : Bool) : State :=
  match s.tx y with
  | none => s
  | some t =>
    let e := entryOf' t st inl ext
    let s1 := endTx s y
    if t.fwd then checkStopped (noteDigest (s1.modPlot t.plot fun pl => { pl with txcnt := pl.txcnt + 1 }) t e) t.plot
    else if (liveSlots s y).isEmpty then checkStopped (writeEntry s1 t e) t.plot
    else { s1 with owed := s1.owed ++ [{ tx := t, entry := e, slots := liveSlots s y }] }

/-- A slot is free: entries that waited for it alone are written, in the order of their transactions' ends (R83, R391). -/
def slotFreed (s : State) (i : Nat) : State :=
  let q := s.owed.map fun o => { o with slots := o.slots.filter (· != i) }
  (q.filter fun o => o.slots.isEmpty).foldl (fun s o => checkStopped (writeEntry s o.tx o.entry) o.tx.plot)
    { s with owed := q.filter fun o => !o.slots.isEmpty }

/-- A transaction ends with a status and no result. -/
def endWith (s : State) (y : Nat) (st : BitVec 16) : State := finishTx s y st [] false

/-- A transaction is squashed by a reset: counted, no completion entry (R124). -/
def squashTx (s : State) (y : Nat) : State :=
  match s.tx y with
  | none => s
  | some t =>
    let s1 := (endTx (forwardAbort s y) y).modPlot t.plot fun pl => { pl with squashCnt := bump pl.squashCnt }
    (noteDigest s1 t { tag := BitVec.ofNat 32 (fld t.desc 4 4), status := stSquashed }).modYoke y fun k =>
      { k with squashed := some t.plot }

/-- The standby stops its copy of a transaction the active ended early: as the active did, with DEADLINE_EXPIRED, NO_ENTROPY,
YOKE_FAULT or a squash; PAIR_ABORT does not say which (R556; a free choice, log 3). -/
def stopCopy (s : State) (y : Nat) : State :=
  let k := (Config.freeWord s.free).toNat % 4
  if k = 3 then squashTx (drawn s 1) y else endWith (drawn s 1) y ([stDeadline, stNoEntropy, stYokeFault].getD k stDeadline)

/-- The boundary of a PAIR_ABORT is reached (R556). -/
def Tx.atStop (t : Tx) : Bool :=
  match t.stopAt with
  | some b => t.fwd && decide (b.toNat ≤ t.bounds.toNat)
  | none => false

/-- The yokes that run a plot's transactions. -/
def yokesOf (s : State) (p : Nat) : List Nat :=
  (s.yokes.filter fun x => match x.2.tx with | some t => t.plot == p | none => false).map (·.1)

/-- The program waits for drill output: RAND itself, or a WJOB on a job that waits for it (R82, R333, R366). -/
def stalledForRandom (t : Tx) : Bool :=
  match t.wait with
  | .rand => true
  | .job j => match t.job j with | some x => x.noRand | none => false
  | .anyJob => t.jobs.any fun x => match x.2 with | some j => j.noRand | none => false
  | _ => false

/-! ### Yoke faults -/

/-- A YOK_EVENT flag with its counter (R190): 0 FAULT, 1 RETIRE, 2 ECC_CORR. -/
def yokEvent (s : State) (b : Nat) : State :=
  { s with yreg := { s.yreg with event := s.yreg.event ||| BitVec.ofNat 3 (2 ^ b), eventCnt := bumpAt s.yreg.eventCnt b } }

/-- The third fault within 1 s of the first of the last three (R189, R325, R377): times newest first, the
present one not among them. -/
def thirdFault (now : Nat) (times : List Nat) : Bool :=
  match times with
  | _ :: t :: _ => decide (now ≤ t + 1000000)
  | _ => false

/-- The two newest fault times with the present one. -/
def noteFault (now : Nat) (times : List Nat) : List Nat := (now :: times).take 2

/-- A yoke is retired until the next module start (R189). -/
def retireYoke (s : State) (y : Nat) : State :=
  let m : BitVec 64 := BitVec.ofNat 64 (2 ^ y)
  let s1 := yokEvent { s with yreg := { s.yreg with live := s.yreg.live &&& ~~~m, retired := s.yreg.retired ||| m } } 1
  event (modEvent s1) 0x0011 modScope (le 4 (s.yreg.last.toNat % 2 ^ 32))

/-- YOK_LAST of a fault of yoke y under plot p. -/
def yokLast (s : State) (y kind p : Nat) : W64 :=
  BitVec.ofNat 64 (s.kpr.opmin.toNat * 2 ^ 32 + p * 2 ^ 16 + kind * 2 ^ 8 + y)

/-- Step 2 of Table 4.13 but for the transaction: YOK_LAST, YOK_EVENT.FAULT, PF0 vector 2, the event record. -/
def recordFault (s : State) (y kind p : Nat) : State :=
  let last := yokLast s y kind p
  event (modEvent (forwardAbort (yokEvent { s with yreg := { s.yreg with last := last } } 0) y)) 0x0010 p
    (le 4 (last.toNat % 2 ^ 32))

/-- The yoke stops until its reset is complete; the fault is counted, and the third within 1 s retires it (R187, R189). -/
def stopYoke (s : State) (y : Nat) : State :=
  let third := thirdFault s.now (s.yoke y).faults
  let s1 := s.modYoke y fun k => { k with faulted := true, faultCnt := bump k.faultCnt, faults := noteFault s.now k.faults }
  if third then retireYoke s1 y else s1

/-- A yoke fault of a kind of YOK_LAST.KIND: nothing commits, the transaction is aborted with YOKE_FAULT, the
fault is counted and recorded, and the yoke stops until its reset is complete (R187, R189, R191). -/
def yokeFault (s : State) (y kind : Nat) : State :=
  match s.tx y with
  | none => s
  | some t =>
    let s1 := recordFault s y kind t.plot
    stopYoke (if (s.plot t.plot).st = .resetting then squashTx s1 y else endWith s1 y stYokeFault) y

/-- A plot's reset has begun and is not complete. -/
def resetRuns (s : State) (p : Nat) : Bool :=
  decide ((s.plot p).st = .resetting) || (decide ((s.plot p).st = .removing) && !(s.plot p).resetDone)

/-- A yoke fault after the reset of its plot has begun: the transaction is squashed, the fault still counts (R191). -/
def lateFault (s : State) (y kind : Nat) : State :=
  match (s.yoke y).squashed with
  | some p => if resetRuns s p && !(s.yoke y).faulted then stopYoke (recordFault s y kind p) y else s
  | none => s

/-! ### The start of a program -/

/-- IDs of the vendor library (Table 6.11). -/
def vendorIds : List Nat :=
  [0x01, 0x02, 0x10, 0x11, 0x12, 0x13, 0x20, 0x21, 0x28, 0x30, 0x31, 0x32, 0x33, 0x36, 0x37, 0x40, 0x41, 0x42, 0x43,
   0x50, 0x51, 0x58, 0x60, 0x61, 0x62, 0x63, 0x64, 0x65, 0x66, 0x68, 0x6A, 0x6B]

/-- What a program ID selects: the vendor library, an image of the plot, or nothing (R227). -/
inductive Program where
  | vendor (id : Nat)
  | image (i : Nat)
  | absent
  deriving DecidableEq, Repr

/-- The program an ID names under a plot's program table (R227). -/
def resolve (progs : List (Nat × Nat)) (id : Nat) : Program :=
  if id < 0x400 then (if vendorIds.contains id then .vendor id else .absent)
  else if id < 0x1000 then
    match progs.find? fun x => x.1 == id with
    | some x => .image x.2
    | none => .absent
  else .absent

/-- Program store address of an image's first code byte (R228, R234). -/
def imageBase (g : Image) : Nat := 0x30000 + 1024 * g.granule

/-- The image base of a transaction's program; 0 for a vendor program (TX_BASE). -/
def txBase (s : State) (t : Tx) : Nat :=
  match t.image with
  | some i => imageBase (tget Image.zero s.prog.images i)
  | none => 0

/-- The staged descriptor: inline bytes beyond INLEN are 0 (R242). -/
def stagedDesc (d : Bytes) : Bytes := cut d 0 56 ++ fit 72 (cut d 56 (min 72 (fld d 28 2)))

/-- Bytes of external data that are staged: min(EXTLEN, 8,064) (R21, R241). -/
def stagedLen (d : Bytes) : Nat := min 8064 (fld d 40 4)

/-- The entry address of a transaction's program (R149, R234). -/
def entryPc (s : State) (t : Tx) : W32 :=
  match t.image with
  | some i => let g := tget Image.zero s.prog.images i; BitVec.ofNat 32 (imageBase g + g.entry)
  | none => Config.vendorEntry s.prog.lib (fld t.desc 0 2)

/-- The program of a staged transaction starts: the bench holds the descriptor and the data, every register its
value of Table 4.2 (R149, R150, R241). -/
def startProgram (s : State) (y : Nat) (data : Bytes) : State :=
  match s.tx y with
  | none => s
  | some t =>
    let core : Core := { x := 0xC000, y := 0xE000, sp := 0xC000, pc := entryPc s t }
    let b := mwrite (mwrite [] 0xC000 (stagedDesc t.desc)) 0xC080 data
    s.modYoke y fun k => { k with core := core, bench := b, tx := some { t with phase := .running } }

end Sys2Proof.Machine
end

