-- ==== Sys2Proof/Machine/JobOps.lean ====
section
/-! DEFINITION. What lane and engine jobs share: the fields of a job descriptor (Tables 6.7 and 6.9), keys by handle
(R273), slot tag failures (R270), draws of a transaction (R401, R555), learning with its vault record (R277, R306), and
the end of a job. -/

namespace Sys2Proof.Machine

/-! ### Descriptors -/

def jType (d : Bytes) : Nat := fld d 0 2
def jFlags (d : Bytes) : Nat := fld d 2 2
def jIn (d : Bytes) : Nat × Nat := (fld d 16 2, fld d 18 2)
def jIn2 (d : Bytes) : Nat × Nat := (fld d 20 2, fld d 22 2)
def jOut (d : Bytes) : Nat × Nat := (fld d 24 2, fld d 26 2)
def jParam (d : Bytes) : Bytes := cut d 32 32

/-- Job j of yoke y. -/
def State.jobAt (s : State) (y j : Nat) : Option Job := (s.tx y).bind (·.job j)

/-- The bytes of a bench range as job j's unit reads it: each byte that the program has overwritten since the job was issued as
its old or its new value (R246). -/
def benchRange (s : State) (y j : Nat) (r : Nat × Nat) : Bytes :=
  let old := ((s.jobAt y j).map (·.old)).getD []
  let b := mread (s.yoke y).bench r.1 r.2
  if old.isEmpty then b
  else (List.range b.length).map fun i => (tget none old (r.1 + i)).getD (b.getD i 0)

/-- A job that has not yet read its input reads the byte at an address. -/
def readsByte (x : Job) (a : Nat) : Bool :=
  let hits (r : Nat × Nat) : Bool := decide (r.1 ≤ a) && decide (a < r.1 + r.2)
  (x.st == .waiting || x.st == .running) && (hits (jIn x.desc) || hits (jIn2 x.desc))

/-- The program writes the byte at an address of its bench: each job that reads it meets the old value or the new one, a free choice
of each (R246, log 13). -/
def noteByte (s : State) (y a : Nat) : State :=
  match s.tx y with
  | none => s
  | some t =>
    if t.jobs.any fun x => match x.2 with | some j => readsByte j a | none => false then
      let keep (x : Nat × Option Job) : Nat × Option Job := (x.1, x.2.map fun j =>
        if readsByte j a && (tget none j.old a).isNone && Config.freeBool (s.free + x.1) then
          { j with old := tset none a (some (mget (s.yoke y).bench a)) j.old }
        else j)
      drawn (s.modTx y fun t => { t with jobs := t.jobs.map keep }) 8
    else s

/-- A yoke's bench takes bytes at an address: every write of a program goes this way (R144, R246). -/
def benchPut (s : State) (y p : Nat) (b : Bytes) : State :=
  ((List.range b.length).foldl (fun s i => noteByte s y (p + i)) s).modYoke y fun k => { k with bench := mwrite k.bench p b }

/-! ### Draws -/

/-- A request for random bytes by a transaction: of the plot's drill, or in a paired module of the transaction's own
stream once it is seeded (R401, R555). None where there is no output. -/
def txDraw (s : State) (y : Nat) : Option State :=
  match s.tx y with
  | none => none
  | some t =>
    if s.clu.role = 1 ∨ s.clu.role = 2 then
      if t.seeded then some s
      else (plotGen s t.plot).map fun s => (drawn s 32).modTx y fun t => { t with seeded := true, seed := s.free }
    else plotGen s t.plot

/-- The counter block of a transaction stream: the job number, or 0xFF for RAND, then the draw's index within it, then the block
within the draw (R555; the widths are DESIGN CHOICE, log 132). -/
def streamBlock (j draw i : Nat) : Bytes := le 1 j ++ le 7 draw ++ le 8 i

/-- `n` bytes of a transaction stream: AES-256 in counter mode under the transaction seed (R555). -/
def streamBytes (seed j draw n : Nat) : Bytes :=
  fit n ((List.range ((n + 15) / 16)).flatMap fun i => Config.aesEnc (freeBytes seed 32) (streamBlock j draw i))

/-- `n` random bytes for job j of a transaction, or for RAND with 0xFF: of the plot's drill, or in a paired module the next draw of
the transaction's stream (R401, R555). None where there is no output. -/
def txRandom (s : State) (y j n : Nat) : Option (State × Bytes) :=
  (txDraw s y).map fun s1 =>
    match s1.tx y with
    | some t =>
      if s1.clu.role = 1 ∨ s1.clu.role = 2 then
        let i := tget 0 t.draws j
        (s1.modTx y fun t => { t with draws := tset 0 j (i + 1) t.draws }, streamBytes t.seed j i n)
      else (drawn s1 n, freeBytes s1.free n)
    | none => (drawn s1 n, freeBytes s1.free n)

/-! ### Keys -/

/-- The place of the KIT entry that refers to a slot. -/
def entryOf (s : State) (slot : Nat) : Option Nat :=
  let here (x : Nat × KitEntry) : Bool := x.2.valid && x.2.slot == slot
  match s.kp.kit.find? here with
  | some e => some e.1
  | none => (s.kp.ovf.find? here).map fun e => kitWays + e.1

/-- A body's digest is the one of slot bytes 10 to 31 (R362). -/
def bodyMatches (x : Slot) : Bool := !x.asym || fit 22 (Config.hash 1 x.body) == cut x.material 10 22

/-- A slot's tag or body digest does not match: the slot is zeroised, its entry goes, the event is counted and recorded
(R270, R362). -/
def tagFailure (s : State) (slot : Nat) : State :=
  let x := s.slot slot
  let place := entryOf s slot
  let name : W64 := match place with
    | some i => (kitAt s.kp i).name
    | none => 0
  let s1 := match place with
    | some i => dropEntry s i
    | none => s
  let s2 := if (s1.slot slot).used then
      s1.modSlot slot fun z => { Slot.zero with used := true, plot := z.plot, held := z.held }
    else s1
  event { s2 with kp := { s2.kp with tagCnt := bump s2.kp.tagCnt } } 0x0031 x.plot (le 8 name.toNat)

/-- A key is used by a job: its USES counts (R318). -/
def useSlot (s : State) (slot : Nat) : State := s.modSlot slot fun x => { x with uses := bump x.uses }

/-- A slot's symmetric key. -/
def Slot.key (x : Slot) : Bytes := x.material.take x.len.toNat

/-- An attribute bit of Table 7.16. -/
def hasAttr (a : W32) (b : Nat) : Bool := a.getLsbD b

/-! ### Learning -/

/-- A learning that is not SHARED goes to the vault where the plot has vault quota (R306). -/
def toVault (s : State) (l : Learn) : Bool := !l.shared && !l.derived && decide (0 < (s.plot l.plot).acr.vltQuota)

/-- What refuses a learning before any room is looked for: an existing key, a quota, the vault, which counts it (R277, R305, R306). -/
def learnGate (s : State) (l : Learn) : State × Option (BitVec 16) :=
  match learnChecks s l with
  | some st => (s, some st)
  | none =>
    if toVault s l then
      match vltRefuse s (vrecOf l) with
      | some st => (if st = stTableFull then vltFull s else s, some st)
      | none => (s, none)
    else (s, none)

/-- A learning that goes to the vault waits: the vault cannot be reached, or the plot's drill has no nonce for its record (R31, R403). -/
def vaultWaits (s : State) (l : Learn) : Bool := (learnGate s l).2.isNone && toVault s l && !vaultReady s l.plot

/-- An asymmetric key that goes to the vault has a place there for its body, which its locator names (R302, Table 7.5). -/
def placeBody (s : State) (l : Learn) : State × Learn :=
  if toVault s l && l.slot.asym then
    match bodySpot s (vltFind s l.plot l.name) (unitsOf l.slot.body) with
    | some u => (drawn s 8, { l with slot := { l.slot with material := le 8 u ++ l.slot.material.drop 8 } })
    | none => (s, l)
  else (s, l)

/-- A learning with the flag that says whether a record backs it. -/
def withFlags (s : State) (l : Learn) : Learn := { l with vaulted := toVault s l, slot := { l.slot with vaulted := toVault s l } }

/-- The vault record of a learning that ended with OK is written (R306). -/
def learnVault (s : State) (l : Learn) (st : BitVec 16) : State :=
  if st = stOK ∧ toVault s l then vltWrite s (vrecOf l) else s

/-- A named key is learned: its status, or none where the insertion needs the walk token (R277, R279, R306). -/
def learnKey (s : State) (l : Learn) : State × Option (BitVec 16) :=
  match learnGate s (withFlags s l) with
  | (s1, some st) => (s1, some st)
  | (s1, none) =>
    let q := placeBody s1 (withFlags s1 l)
    match learnFast q.1 q.2 with
    | (s2, some st) => (learnVault s2 q.2 st, some st)
    | (_, none) => (s1, none)

/-- A named key is learned by an insertion that holds the walk token (R277, R306). -/
def learnKeyWalk (s : State) (l : Learn) : State × BitVec 16 :=
  match learnGate s (withFlags s l) with
  | (s1, some st) => (s1, st)
  | (s1, none) =>
    let q := placeBody s1 (withFlags s1 l)
    let r := learnWalk q.1 q.2
    (learnVault r.1 q.2 r.2, r.2)

/-- An insertion waits, in arrival order (R279). -/
def queueWalk (s : State) (l : Learn) (w : Learner) : State :=
  { s with kp := { s.kp with walkq := s.kp.walkq ++ [(l, w)] } }

/-- A key is learned for someone: its status, or none while the learning waits for the vault or for the walk token. -/
def learnFor (s : State) (l : Learn) (w : Learner) : State × Option (BitVec 16) :=
  if vaultWaits s l then (queueWalk s { l with parked := true } w, none)
  else match learnKey s l with
    | (s1, some st) => (s1, some st)
    | (s1, none) => (queueWalk s1 l w, none)

/-- A slot content that the module refuses to learn: a weak TDES key (R258). -/
def weakSlot (x : Slot) : Bool := isTdes x.alg.toNat && weakTdes x.key

/-- The payload of the key records 0x1010 to 0x1013 (Table 14.3). -/
def keyPayload (name : W64) (x : Slot) : Bytes :=
  le 8 name.toNat ++ [x.alg] ++ le 4 x.attr.toNat ++ fit 3 x.kcv

end Sys2Proof.Machine
end

