-- ==== Sys2Proof/Machine/Points.lean ====
section
/-! DEFINITION. The checks of public values: prime tests and points of a Weierstrass curve, the checks of a curve record
(R380), of a public key (R363) and of an engine job's input (Table 9.5, reasons 0 to 6). -/

namespace Sys2Proof.Machine

/-! ### Prime tests -/

/-- A power modulo n by squaring, for an exponent of at most `fuel` bits. -/
def modPow : Nat → Nat → Nat → Nat → Nat
  | 0, _, _, n => 1 % n
  | k + 1, b, e, n =>
    let r := modPow k (b * b % n) (e / 2) n
    if e % 2 = 1 then b * r % n else r

/-- More than the bits of any value of a curve record (Table 9.9). -/
def valueBits : Nat := 648

/-- The halvings of a number that leave it odd, and what is left. -/
def oddPart : Nat → Nat → Nat × Nat
  | 0, d => (0, d)
  | k + 1, d => if d % 2 = 0 then let r := oddPart k (d / 2); (r.1 + 1, r.2) else (0, d)

/-- One of x, x², x⁴, … is n - 1 modulo n. -/
def reachesMinusOne : Nat → Nat → Nat → Bool
  | 0, _, _ => false
  | k + 1, x, n => x == n - 1 || reachesMinusOne k (x * x % n) n

/-- The Miller–Rabin test of an odd n above 3 for one base. -/
def millerRabin (n base : Nat) : Bool :=
  let d := oddPart valueBits (n - 1)
  let x := modPow valueBits base d.2 n
  x == 1 || reachesMinusOne d.1 x n

/-- Base number i of a prime test, between 2 and n - 2, from the draws that begin at `rnd` (R380). -/
def primeBase (rnd n i : Nat) : Nat := 2 + beNat (freeBytes (rnd + 80 * i) 80) % (n - 3)

/-- Probable primality: Miller–Rabin with 64 drawn bases, then a strong Lucas test (R380). -/
def probablePrime (n rnd : Nat) : Bool :=
  n % 2 == 1 && decide (3 < n) && ((List.range 64).all fun i => millerRabin n (primeBase rnd n i)) && Config.strongLucas n

/-! ### Points of a Weierstrass curve -/

/-- A curve y² = x³ + ax + b modulo p with its base point, its order n and its cofactor h. -/
structure Curve where
  p  : Nat
  a  : Nat
  b  : Nat
  gx : Nat
  gy : Nat
  n  : Nat
  h  : Nat
  deriving DecidableEq, Repr

/-- The curve of a curve record (Table 9.9). -/
def recordCurve (r : Bytes) : Curve :=
  let v (ofs : Nat) : Nat := beNat (cut r ofs 80)
  { p := v 8, a := v 88, b := v 168, gx := v 248, gy := v 328, n := v 408, h := byteAt r 4 }

/-- A point: its coordinates, or none for the point at infinity. -/
abbrev Point := Option (Nat × Nat)

/-- Coordinates satisfy the curve's equation. -/
def onCurve (c : Curve) (x y : Nat) : Bool := y * y % c.p == (x * x * x + c.a * x + c.b) % c.p

/-- The sum of two points of a curve over a prime field. -/
def addPoints (c : Curve) : Point → Point → Point
  | none, q => q
  | p, none => p
  | some (x1, y1), some (x2, y2) =>
    if x1 = x2 ∧ (y1 + y2) % c.p = 0 then none
    else
      let inv (v : Nat) : Nat := modPow valueBits (v % c.p) (c.p - 2) c.p
      let l := if x1 = x2 then (3 * x1 * x1 + c.a) * inv (2 * y1) % c.p
               else (y2 + (c.p - y1)) * inv (x2 + (c.p - x1)) % c.p
      let x3 := (l * l + (c.p - x1) + (c.p - x2)) % c.p
      some (x3, (l * (x1 + (c.p - x3)) + (c.p - y1)) % c.p)

/-- A multiple of a point, for a factor of at most `fuel` bits. -/
def timesPoint (c : Curve) : Nat → Nat → Point → Point
  | 0, _, _ => none
  | k + 1, m, q =>
    let r := timesPoint c k (m / 2) (addPoints c q q)
    if m % 2 = 1 then addPoints c q r else r

/-- h times a point is the point at infinity, where h is above 1: a point of small order (Table 9.5, reason 4). -/
def smallOrder (c : Curve) (q : Point) : Bool := decide (1 < c.h) && timesPoint c valueBits c.h q == none

/-! ### Curve load checks -/

/-- One of the first `k` powers of p from `x` on is 1 modulo n. -/
def powerIsOne : Nat → Nat → Nat → Nat → Bool
  | 0, _, _, _ => false
  | k + 1, x, p, n => x == 1 % n || powerIsOne k (x * p % n) p n

/-- The checks of Table 9.10 in order, on a field of f bits, with the draws of the two prime tests. -/
def curveChecks (c : Curve) (f rnd : Nat) : List Bool :=
  [decide (2 ^ (f - 1) ≤ c.p) && decide (c.p < 2 ^ f) && decide (3 < c.p) && probablePrime c.p rnd,
   decide (c.a < c.p) && decide (c.b < c.p) && decide (c.gx < c.p) && decide (c.gy < c.p),
   (4 * c.a * c.a * c.a + 27 * c.b * c.b) % c.p != 0,
   onCurve c c.gx c.gy,
   decide (2 ^ 159 ≤ c.n) && probablePrime c.n (rnd + 64 * 80),
   timesPoint c valueBits c.n (some (c.gx, c.gy)) == none,
   decide (c.h ≤ 8) &&
     (let d : Int := (c.p : Int) + 1 - (c.h : Int) * (c.n : Int); decide (d * d ≤ 4 * (c.p : Int))),
   c.n != c.p,
   !powerIsOne 100 (c.p % c.n) c.p c.n]

/-- Free bytes the two prime tests of a curve take. -/
def curveDraws : Nat := 2 * 64 * 80

/-- The first failing check of Table 9.10; none where a curve record passes them all (R380). -/
def curveCheck (r : Bytes) (rnd : Nat) : Option Nat := (curveChecks (recordCurve r) (fld r 2 2) rnd).findIdx? (!·)

/-! ### Public keys -/

/-- The curve of a Weierstrass set: the record of a loaded curve's slot, or the standard's (Table 9.1). -/
def setCurve (ps : Nat) (loaded : Bytes) : Curve :=
  recordCurve (if 0x0210 ≤ ps ∧ ps ≤ 0x021F then loaded else Config.namedCurve ps)

/-- The prime of Curve25519 or Curve448 (RFC 7748). -/
def montPrime (ps : Nat) : Nat := if ps = 0x0302 then 2 ^ 255 - 19 else 2 ^ 448 - 2 ^ 224 - 1

/-- A public key passes R363 for its parameter set; `loaded` is the record of a loaded curve. -/
def pubkeyOk (ps : Nat) (loaded key : Bytes) : Bool :=
  if 0x0101 ≤ ps ∧ ps ≤ 0x0108 then
    let k := Config.rsaPublic key
    let w := 1024 * (ps - 0x0100)
    decide (2 ^ (w - 1) ≤ k.1) && decide (k.1 < 2 ^ w) && k.1 % 2 == 1 && k.2 % 2 == 1 && decide (3 ≤ k.2) && decide (k.2 < k.1)
  else if ps = 0x0301 ∨ ps = 0x0303 then
    Config.edCanonical ps key && Config.edOnCurve ps key && !Config.edSmallOrder ps key
  else if ps = 0x0302 ∨ ps = 0x0304 then
    let u := Config.montU ps key
    decide (u < montPrime ps) && !Config.montListed ps u
  else if 0x0401 ≤ ps ∧ ps ≤ 0x0403 then Config.kemModulus ps key
  else if 0x0501 ≤ ps ∧ ps ≤ 0x0503 then true
  else match Config.ecPublic key with
    | none => false
    | some (x, y) =>
      let c := setCurve ps loaded
      decide (x < c.p) && decide (y < c.p) && onCurve c x y &&
        (decide (c.h ≤ 1) || timesPoint c valueBits c.n (some (x, y)) == none)

/-! ### Engine inputs -/

/-- The reasons 0 to 6 of Table 9.5 that an input gives, for a job type, parameter set, key body, curve, IN and IN2. -/
def inputReasons (ty ps : Nat) (body loaded inp inp2 : Bytes) : List Nat :=
  let when (b : Bool) (r : Nat) : List Nat := if b then [r] else []
  let rsa (v : Nat) : List Nat := when (v == 0) 0 ++ when (decide ((Config.rsaPublic body).1 ≤ v)) 1
  match ty with
  | 0x02 => rsa (beNat inp2)
  | 0x03 => rsa (beNat inp)
  | 0x11 =>
    let c := setCurve ps loaded
    let r := beNat (inp2.take (inp2.length / 2))
    let s := beNat (inp2.drop (inp2.length / 2))
    when (r == 0 || decide (c.n ≤ r) || s == 0 || decide (c.n ≤ s)) 5
  | 0x12 =>
    let c := setCurve ps loaded
    let w := (inp.length - 1) / 2
    let x := beNat (cut inp 1 w)
    let y := beNat (cut inp (1 + w) w)
    if byteAt inp 0 ≠ 4 then [6]
    else if c.p ≤ x ∨ c.p ≤ y then [1]
    else if !onCurve c x y then [2]
    else when (smallOrder c (some (x, y))) 4
  | 0x15 =>
    let half := inp2.length / 2
    let rr := inp2.take half
    when (decide (Config.edOrder ps ≤ Config.edScalar ps (inp2.drop half))) 5 ++
      (if !Config.edCanonical ps rr then [6]
       else if !Config.edOnCurve ps rr then [2] else when (Config.edSmallOrder ps rr) 4)
  | 0x16 =>
    let u := Config.montU ps inp
    when (u == 0) 0 ++ when (decide (montPrime ps ≤ u)) 1 ++ when (Config.montListed ps u) 4
  | 0x23 => when (!Config.dsaBound ps inp2) 5 ++ when (!Config.dsaHint ps inp2) 6
  | _ => []

/-- The reason counted for an input that fails; of several, which one is open (R373, Table 9.5). -/
def inputReason (ty ps : Nat) (body loaded inp inp2 : Bytes) : Option Nat :=
  match inputReasons ty ps body loaded inp inp2 with
  | [] => none
  | r :: rs => some ((r :: rs).getD (Config.whichReason ty (inp ++ inp2) % (rs.length + 1)) r)

end Sys2Proof.Machine
end

