-- ==== Sys2Proof/Machine/Flags.lean ====
section
/-! DEFINITION. The flag computations of the Swimomos instruction set (R164, R165, Tables 4.8, 5.3, 5.5, 5.7). -/

namespace Sys2Proof.Machine

/-- Z and N of a 64-bit result. -/
def Flags.zn (f : Flags) (r : W64) : Flags := { f with z := r == 0, n := r.msb }

/-- An addition: the result and the flags Z, N, C, V (R197). -/
def addFlags (f : Flags) (a v : W64) (cin : Bool) : W64 × Flags :=
  let sum := a.toNat + v.toNat + (if cin then 1 else 0)
  let r : W64 := BitVec.ofNat 64 sum
  (r, { f.zn r with c := decide (2 ^ 64 ≤ sum), v := a.msb == v.msb && r.msb != a.msb })

/-- A subtraction: the result and the flags Z, N, C (borrow), V (R197). -/
def subFlags (f : Flags) (a v : W64) (bin : Bool) : W64 × Flags :=
  let b := v.toNat + (if bin then 1 else 0)
  let r : W64 := a - BitVec.ofNat 64 b
  (r, { f.zn r with c := decide (a.toNat < b), v := a.msb != v.msb && r.msb != a.msb })

/-- A condition of Table 4.8. -/
def Flags.cond (f : Flags) (c : Nat) : Bool :=
  match c with
  | 0 => true
  | 1 => f.z
  | 2 => !f.z
  | 3 => f.c
  | 4 => !f.c
  | 5 => f.n != f.v
  | 6 => f.n == f.v
  | 7 => f.z || f.n != f.v
  | 8 => !f.z && f.n == f.v
  | 9 => f.c || f.z
  | 10 => !f.c && !f.z
  | 11 => f.n
  | 12 => !f.n
  | 13 => f.v
  | 14 => f.k
  | _ => f.t

/-- The 7 bits of FL. -/
def Flags.bits (f : Flags) : BitVec 7 :=
  BitVec.ofNat 7 (flag f.z 0 + flag f.n 1 + flag f.c 2 + flag f.v 3 + flag f.dz 4 + flag f.k 5 + flag f.t 6)

/-- FL[5:0] take the bits of a word; T stays (R148, R199). -/
def Flags.write (f : Flags) (w : Nat) : Flags :=
  { z := bit w 0, n := bit w 1, c := bit w 2, v := bit w 3, dz := bit w 4, k := bit w 5, t := f.t }

/-- The signed value of a word of n bits. -/
def sgn (n v : Nat) : Int := if v < 2 ^ (n - 1) then (v : Int) else (v : Int) - 2 ^ n

/-- A number modulo 2^n. -/
def wrap (n : Nat) (v : Int) : Nat := (v % (2 ^ n : Int)).toNat

/-- Z and N of a 128-bit result. -/
def Flags.zn128 (f : Flags) (p : Nat) : Flags := { f with z := p == 0, n := bit p 127 }

/-- MUL: AH, A and the flags (Table 5.5). -/
def mulFlags (f : Flags) (a v : W64) : W64 × W64 × Flags :=
  let p := a.toNat * v.toNat
  (BitVec.ofNat 64 (p / 2 ^ 64), BitVec.ofNat 64 p, { f.zn128 p with c := decide (2 ^ 64 ≤ p) })

/-- MULS: AH, A and the flags (Table 5.5). -/
def mulsFlags (f : Flags) (a v : W64) : W64 × W64 × Flags :=
  let q := sgn 64 a.toNat * sgn 64 v.toNat
  let p := wrap 128 q
  (BitVec.ofNat 64 (p / 2 ^ 64), BitVec.ofNat 64 p, { f.zn128 p with c := q != sgn 64 (p % 2 ^ 64) })

/-- MACD: AH:A, p1, p2; the new AH:A and the flags. -/
def macdFlags (f : Flags) (acc p1 p2 : Nat) : Nat × Flags :=
  let t := acc + p1 * p2
  (t % 2 ^ 128, { f.zn128 (t % 2 ^ 128) with c := decide (2 ^ 128 ≤ t) })

/-- MACS: AH:A, p1, p2; the new AH:A and the flags. -/
def macsFlags (f : Flags) (acc p1 p2 : Nat) : Nat × Flags :=
  let t := sgn 128 acc + sgn 64 p1 * sgn 64 p2
  let r := wrap 128 t
  (r, { f.zn128 r with v := t != sgn 128 r })

/-- MACC: the word stored and the new AH, and the flags (R203). -/
def maccFlags (f : Flags) (a ah p1 p2 : Nat) : Nat × Nat × Flags :=
  let t := p1 * a + p2 + ah
  (t % 2 ^ 64, t / 2 ^ 64, { f.zn128 t with c := false })

/-- DIVU and DIVS past the zero check: A, AH and the flags Z, N, V, DZ (R203, Table 4.9). -/
def divFlags (f : Flags) (signed : Bool) (a v : W64) : W64 × W64 × Flags :=
  if v = 0 then (0, a, { f.zn (0 : W64) with dz := true, v := false })
  else if signed then
    let q := Int.tdiv (sgn 64 a.toNat) (sgn 64 v.toNat)
    let r := Int.tmod (sgn 64 a.toNat) (sgn 64 v.toNat)
    let qa : W64 := BitVec.ofNat 64 (wrap 64 q)
    (qa, BitVec.ofNat 64 (wrap 64 r), { f.zn qa with dz := false, v := q == 2 ^ 63 })
  else
    let q := a / v
    (q, a % v, { f.zn q with dz := false, v := false })

/-- SHL by n: the result and Z, N, C (R204, Table 4.9). -/
def shlFlags (f : Flags) (a : W64) (n : Nat) : W64 × Flags :=
  let r := a <<< n
  (r, { f.zn r with c := if n = 0 then f.c else if n ≤ 64 then a.getLsbD (64 - n) else false })

/-- SHR by n. -/
def shrFlags (f : Flags) (a : W64) (n : Nat) : W64 × Flags :=
  let r := a >>> n
  (r, { f.zn r with c := if n = 0 then f.c else if n ≤ 64 then a.getLsbD (n - 1) else false })

/-- SAR by n. -/
def sarFlags (f : Flags) (a : W64) (n : Nat) : W64 × Flags :=
  let r := a.sshiftRight n
  (r, { f.zn r with c := if n = 0 then f.c else if n < 64 then a.getLsbD (n - 1) else a.msb })

/-- ROL by n modulo 64. -/
def rolFlags (f : Flags) (a : W64) (n : Nat) : W64 × Flags :=
  let m := n % 64
  let r := a.rotateLeft m
  (r, { f.zn r with c := if m = 0 then f.c else r.getLsbD 0 })

/-- ROR by n modulo 64. -/
def rorFlags (f : Flags) (a : W64) (n : Nat) : W64 × Flags :=
  let m := n % 64
  let r := a.rotateRight m
  (r, { f.zn r with c := if m = 0 then f.c else r.msb })

/-- The number of leading zero bits of a 64-bit word. -/
def leadingZeros (a : W64) : Nat := ((List.range 64).find? fun i => a.getLsbD (63 - i)).getD 64

/-- The bytes of the low n bytes of a word in reverse order, zero-extended (R204). -/
def byteSwap (n : Nat) (a : W64) : W64 := BitVec.ofNat 64 (beNat (le n a.toNat))

end Sys2Proof.Machine
end

