-- ==== Sys2Proof/Machine/HedgeOps.lean ====
section
/-! DEFINITION. The check of the hedgerow table (R449 to R457): which region decides a byte, whether it grants the
access, and what a refusal records. -/

namespace Sys2Proof.Machine

/-- SIZE, EN and LOCK of a region's HDG_CFG, its SRD bit i. -/
def hdgSize (c : W32) : Nat := (c.extractLsb' 0 6).toNat
def hdgEn (c : W32) : Bool := c.getLsbD 8
def hdgLock (c : W32) : Bool := c.getLsbD 31
def hdgSrd (c : W32) (i : Nat) : Bool := c.getLsbD (16 + i)

/-- Region r contains a fabric byte (R452, R453). -/
def regionHas (h : Hedge) (r a : Nat) : Bool :=
  let c := tget 0 h.cfg r
  let b := (tget 0 h.base r).toNat / 4096 * 4096
  hdgEn c && decide (b ≤ a) && decide (a < b + 2 ^ hdgSize c) && decide (a < 2 ^ 32) &&
    !hdgSrd c ((a - b) * 8 / 2 ^ hdgSize c)

/-- The region that decides a byte: the highest-numbered enabled region that contains it (R454). -/
def decider (h : Hedge) (a : Nat) : Option Nat :=
  (((h.cfg.map (·.1)).reverse).find? fun r => regionHas h r a)

/-- A byte is permitted to a class for a type, 0 read, 1 write, 2 execute (R454, R457). -/
def bytePermitted (h : Hedge) (cls ty a : Nat) : Bool :=
  Config.fabricTarget a &&
    match decider h a with
    | none => false
    | some r => (tget 0 h.perm r).getLsbD (3 * cls + ty) && !(cls == 7 && hdgLock (tget 0 h.cfg r))

/-- The first byte of an access that is forbidden (R455). -/
def firstForbidden (h : Hedge) (cls ty : Nat) : Nat → Nat → Option Nat
  | _, 0 => none
  | a, n + 1 => if bytePermitted h cls ty a then firstForbidden h cls ty (a + 1) n else some a

/-- The HDG_FAULT word of a refusal at a byte. -/
def faultWord (h : Hedge) (cls ty a : Nat) : W64 :=
  let locked := match decider h a with
    | some r => cls == 7 && hdgLock (tget 0 h.cfg r) && Config.fabricTarget a
    | none => false
  BitVec.ofNat 64 ((a % 2 ^ 32) * 2 ^ 32 + cls * 2 ^ 20 + ty * 2 ^ 16 + flag locked 2 +
    flag (!Config.fabricTarget a) 1 + 1)

/-- An HDG_STAT event is counted: 1 FAULT, 2 LONG, 3 CFG_ERR. -/
def hdgCount (s : State) (b : Nat) : State := { s with hdg := { s.hdg with eventCnt := bumpAt s.hdg.eventCnt b } }

/-- A refused access is recorded: FAULT with its counter, HDG_FAULT where FAULT was 0, an event record and PF0 vector 2
(R456). -/
def hedgeFault (s : State) (cls ty a : Nat) : State :=
  let w := if s.hdg.fault then s.hdg.faultReg else faultWord s.hdg cls ty a
  let s1 := hdgCount { s with hdg := { s.hdg with fault := true, faultReg := w } } 1
  modEvent (event s1 0x3010 modScope (le 8 w.toNat))

/-- The check of one access: it passes, or it is refused and recorded (R455, R456). -/
def hedgeCheck (s : State) (cls ty a n : Nat) : State × Bool :=
  match firstForbidden s.hdg cls ty a n with
  | none => (s, true)
  | some b => (hedgeFault s cls ty b, false)

end Sys2Proof.Machine
end

