-- ==== Sys2Proof/Machine/Ports.lean ====
section
/-! DEFINITION. Port space (R154, R155, 06 Port registers) and the engine a transaction has attached (R384 to R390):
port reads and writes, the shelf window, PKE_PSEL, PKE_PCMD and PKE_PCSTAT. -/

namespace Sys2Proof.Machine

/-- The traps of Table 4.11. -/
inductive Trap where
  | benchFault | misalign | priv | divZero | reservedOpcode | illegalRepeat | loopOverflow | loopUnderflow
  | fetchFault | portFault | illegalFormat
  deriving DecidableEq, Repr

/-- Vector offset of a trap divided by 0x10 (Table 4.11). -/
def Trap.cause : Trap → Nat
  | .benchFault => 0
  | .misalign => 1
  | .priv => 2
  | .divZero => 3
  | .reservedOpcode => 4
  | .illegalRepeat => 5
  | .loopOverflow => 6
  | .loopUnderflow => 7
  | .fetchFault => 8
  | .portFault => 9
  | .illegalFormat => 10

/-- What an access or an instruction comes to: it goes on with a value, it traps, or it stops here with a state (it
waits, or its transaction has ended). -/
inductive Acc (α : Type) where
  | ok (s : State) (a : α)
  | trap (s : State) (t : Trap)
  | stop (s : State)

/-- What follows an access that went on. -/
def Acc.bind {α β : Type} (x : Acc α) (f : State → α → Acc β) : Acc β :=
  match x with
  | .ok s a => f s a
  | .trap s t => .trap s t
  | .stop s => .stop s

/-! ### Attached engines -/

/-- PKE_CFG[e]; with nothing stored whole-operation mode at L = 8,192 (R358). -/
def pkeCfg (s : State) (e : Nat) : W32 := tget 0x50 s.pke.cfg e
/-- MODE: the engine is in multiply-accumulate mode. -/
def macMode (s : State) (e : Nat) : Bool := (pkeCfg s e).getLsbD 0
/-- L in bits (R356, R392). -/
def shelfLen (s : State) (e : Nat) : Nat := 256 * 2 ^ ((pkeCfg s e).extractLsb' 4 3).toNat
/-- The shelf count: 128 KiB divided by L (R356). -/
def shelfCount (s : State) (e : Nat) : Nat := 2 ^ 20 / shelfLen s e

/-- A shelf of an engine. -/
def shelf (m : Mac) (i : Nat) : Nat := tget 0 m.shelves i

/-- Fields of a command word (R387). -/
def pcOp (w : W64) : Nat := (w.extractLsb' 56 8).toNat
def pcQ (w : W64) : Bool := w.getLsbD 55
def pcM (w : W64) : Nat := (w.extractLsb' 36 12).toNat
def pcD (w : W64) : Nat := (w.extractLsb' 24 12).toNat
def pcB (w : W64) : Nat := (w.extractLsb' 12 12).toNat
def pcA (w : W64) : Nat := (w.extractLsb' 0 12).toNat

/-- The fields a command uses: Q, M, D, B, A (Table 9.12). -/
def pcUses (op : Nat) : Option (Bool × Bool × Bool × Bool) :=
  match op with
  | 0x01 => some (false, false, false, false)
  | 0x02 => some (false, false, false, true)
  | 0x03 => some (false, true, false, false)
  | 0x04 | 0x05 | 0x06 => some (false, true, true, true)
  | 0x07 => some (false, false, true, true)
  | 0x08 | 0x09 => some (true, false, false, true)
  | 0x0A | 0x0B => some (true, false, true, true)
  | _ => none

/-- A command word is accepted by an attached engine (R388). -/
def pcOk (s : State) (e : Nat) (w : W64) : Bool :=
  match pcUses (pcOp w) with
  | none => false
  | some (q, m, b, a) =>
    let op := pcOp w
    let n := shelfCount s e
    (w.extractLsb' 48 7) == 0 && (q || !pcQ w) && (m || pcM w == 0) && (b || pcB w == 0) && (a || pcA w == 0) &&
      decide (pcM w < n) && decide (pcD w < n) && decide (pcB w < n) && decide (pcA w < n) &&
      (op != 3 || pcD w != pcM w) &&
      (op != 7 || (decide (pcD w + 1 < n) && pcD w != pcA w && pcD w != pcB w && pcD w + 1 != pcA w && pcD w + 1 != pcB w)) &&
      (!q || decide ((if pcQ w then 8192 else 4096) ≤ shelfLen s e)) &&
      (!(op == 4 || op == 5 || op == 6) || (s.mac e).prepM == some (pcM w))

/-- A program waits at a port (R386, R387). -/
def portWait (s : State) (y : Nat) : State := s.modTx y fun t => { t with wait := .port }

/-- The word of the shelf window at an offset, on an attached engine: its shelf and word number (R386). -/
def windowAt (t : Tx) (addr : Nat) : Nat × Nat :=
  ((t.psel.extractLsb' 0 16).toNat, (t.psel.extractLsb' 16 16).toNat + (addr - 0xF400) / 8)

/-- A window access on engine e: PORT_FAULT beyond the shelf, a wait while commands are queued (R386). -/
def windowGate (s : State) (y e : Nat) (w : Nat × Nat) (k : State → Acc W64) : Acc W64 :=
  if shelfLen s e / 64 ≤ w.2 || decide (shelfCount s e ≤ w.1) then .trap s .portFault
  else if (s.mac e).queue.isEmpty then k s
  else .stop (portWait s y)

/-- A read of the shelf window (R386). -/
def windowRead (s : State) (y : Nat) (t : Tx) (addr : Nat) : Acc W64 :=
  match t.eng with
  | none => .ok s 0
  | some e =>
    let w := windowAt t addr
    windowGate s y e w fun s => .ok s (BitVec.ofNat 64 (shelf (s.mac e) w.1 / 2 ^ (64 * w.2)))

/-- A shelf value with one 64-bit word replaced. -/
def putWord (v i w : Nat) : Nat := v - (v / 2 ^ (64 * i) % 2 ^ 64) * 2 ^ (64 * i) + w * 2 ^ (64 * i)

/-- A write of the shelf window (R386). -/
def windowWrite (s : State) (y : Nat) (t : Tx) (addr : Nat) (v : W64) : Acc W64 :=
  match t.eng with
  | none => .ok s 0
  | some e =>
    let w := windowAt t addr
    windowGate s y e w fun s =>
      .ok (s.modMac e fun m => { m with shelves := tset 0 w.1 (putWord (shelf m w.1) w.2 v.toNat) m.shelves }) 0

/-- A write of PKE_PCMD (R387, R388). The M of an MPREP holds from its writing on. -/
def commandWrite (s : State) (y : Nat) (t : Tx) (v : W64) : Acc W64 :=
  match t.eng with
  | none => .trap s .portFault
  | some e =>
    if !pcOk s e v then .trap s .portFault
    else if 5 ≤ (s.mac e).queue.length then .stop (portWait s y)
    else .ok (s.modMac e fun m => { m with queue := m.queue ++ [v],
                                           prepM := if pcOp v = 3 then some (pcM v) else m.prepM }) 0

/-! ### Port registers -/

/-- The jobs of a transaction that satisfy a test, as a bit map. -/
def jobBits (t : Tx) (p : Job → Bool) : Nat :=
  (List.range 8).foldl (fun n j => match t.job j with
    | some x => if p x then n + 2 ^ j else n
    | none => n) 0

/-- The sealed registers of the bound context that satisfy a test, as a bit map. -/
def sealBits (s : State) (t : Tx) (p : Sealed → Bool) : Nat :=
  match t.ctx with
  | none => 0
  | some c => (List.range 16).foldl (fun n i => if p (tget ({} : Sealed) (s.ctx c).seals i) then n + 2 ^ i else n) 0

/-- A sealed register holds a key. -/
def isKeyTag : SealTag → Bool
  | .key _ _ _ => true
  | _ => false

/-- The handle KIT_PQUERY names, where the transaction holds it. -/
def queried (t : Tx) : Option Handle := heldHandle t t.pquery.toNat

/-- The plot drill of a transaction could serve RAND now: a paired module's transaction draws from its own stream once
that is seeded (R555). -/
def randReady (s : State) (t : Tx) : Bool :=
  (t.seeded && (s.clu.role == 1 || s.clu.role == 2)) || drillReady s t.plot

/-- The port registers: bytes, whether writes are accepted, and the value read (R155, 06). -/
def portReg (s : State) (y : Nat) (t : Tx) (addr : Nat) : Option (Nat × Bool × Nat) :=
  match addr with
  | 0xF000 => some (4, false, jobBits t (fun _ => true) + 2 ^ 8 * jobBits t (fun j => decide (j.st = .ended)) +
                              flag t.ctx.isSome 16)
  | 0xF008 => some (4, false, t.plastJob * 2 ^ 16 + t.plastLen)
  | 0xF010 => some (4, false, sealBits s t (fun r => isKeyTag r.tag) * 2 ^ 16 + sealBits s t (fun r => r.tag != .empty))
  | 0xF600 => some (8, true, t.psel.toNat)
  | 0xF608 => some (4, false, match t.eng with | some e => e * 2 ^ 8 + 1 | none => 0)
  | 0xF610 => some (8, true, 0)
  | 0xF618 => some (4, false, match t.eng with
      | some e =>
        let m := s.mac e
        (m.queue.length - 1) * 2 ^ 8 + flag m.badmod 2 + flag m.carry 1 + flag (!m.queue.isEmpty) 0
      | none => 0)
  | 0xF800 =>
    let d := (s.plot t.plot).drill
    some (4, false, flag (d.inst && (d.must || decide (reseedAt s t.plot ≤ d.c))) 1 + flag (randReady s t) 0)
  | 0xF900 => some (4, false, t.handles.length)
  | 0xF908 => some (4, true, t.pquery.toNat)
  | 0xF910 => some (8, false, match queried t with
      | some h =>
        let x := s.slot h.slot
        flag h.shared 50 + flag h.derived 49 + flag h.pinned 48 + x.len.toNat * 2 ^ 40 + x.alg.toNat * 2 ^ 32 + x.attr.toNat
      | none => 0)
  | 0xF918 => some (4, false, match queried t with | some h => fldBE (s.slot h.slot).kcv 0 3 | none => 0)
  | 0xFA00 => some (4, false, (s.plot t.plot).rplUse)
  | 0xFB00 => some (4, false, t.hiwater)
  | 0xFB04 => some (4, false, fld t.desc 40 4)
  | 0xFB08 => some (4, false, stagedLen t.desc)
  | 0xFF00 => some (4, false, if t.fwd then (Config.freeWord s.free).toNat % 2 ^ 32 else t.deadline - s.now)
  | 0xFF04 => some (4, false, y * 2 ^ 22 + (s.hop (hopRef t.plot t.hop)).prio.toNat * 2 ^ 20 + t.hop * 2 ^ 16 + t.plot)
  | 0xFF08 => some (4, false, t.version.toNat * 2 ^ 16 + fld t.desc 0 2)
  | 0xFF0C => some (4, false, txBase s t)
  | 0xFF10 => some (8, false, (s.yoke y).core.cyc)
  | _ => none

/-- Reading a port register has an effect: PKE_PCSTAT clears BADMOD and CARRY (R387). -/
def portReadEffect (s : State) (t : Tx) (addr : Nat) : State :=
  match addr, t.eng with
  | 0xF618, some e => s.modMac e fun m => { m with badmod := false, carry := false }
  | 0xFF00, _ => if t.fwd then drawn s 1 else s
  | _, _ => s

/-- A read of `n` bytes in port space (R155). -/
def portRead (s : State) (y addr n : Nat) : Acc W64 :=
  match s.tx y with
  | none => .stop s
  | some t =>
    if 0xFC00 ≤ addr ∧ addr + n ≤ 0xFE00 then .ok s (BitVec.ofNat 64 (fld t.policy (addr - 0xFC00) n))
    else if 0xF400 ≤ addr ∧ addr < 0xF600 then
      (if n = 8 ∧ addr % 8 = 0 then windowRead s y t addr else .trap s .portFault)
    else if (n = 4 ∨ n = 8) ∧ addr % n = 0 then
      match portReg s y t addr with
      | some (w, _, v) =>
        if n ≤ w then .ok (portReadEffect s t addr) (BitVec.ofNat 64 (v % 2 ^ (8 * n))) else .trap s .portFault
      | none =>
        match portReg s y t (addr - 4) with
        | some (8, _, v) => if n = 4 ∧ addr % 8 = 4 then .ok s (BitVec.ofNat 64 (v / 2 ^ 32)) else .trap s .portFault
        | _ => .trap s .portFault
    else .trap s .portFault

/-- A write of `n` bytes in port space (R155). -/
def portWrite (s : State) (y addr n : Nat) (v : W64) : Acc W64 :=
  match s.tx y with
  | none => .stop s
  | some t =>
    if 0xF400 ≤ addr ∧ addr < 0xF600 then
      (if n = 8 ∧ addr % 8 = 0 then windowWrite s y t addr v else .trap s .portFault)
    else match portReg s y t addr with
      | some (w, true, _) =>
        if n ≠ w then .trap s .portFault
        else if addr = 0xF600 then .ok (s.modTx y fun t => { t with psel := BitVec.ofNat 64 (v.toNat % 2 ^ 32) }) 0
        else if addr = 0xF908 then .ok (s.modTx y fun t => { t with pquery := v.setWidth 32 }) 0
        else commandWrite s y t v
      | _ => .trap s .portFault

/-- Cycles a port read adds beyond the 4 of a port read (Table 6.6). -/
def portLatency (addr : Nat) : Nat :=
  if 0xF400 ≤ addr ∧ addr < 0xF600 then 8 else if 0xF910 ≤ addr ∧ addr < 0xF91C then 24 else 0

end Sys2Proof.Machine
end

