-- ==== Sys2Proof/Machine/EngOps.lean ====
section
/-! DEFINITION. Public-key engines (09): parameter sets (Table 9.1), the checks of a PJOB before its slot (Table 9.4), the
arbiter (R369, R370), the end of an engine job, rejections and invariant failures (R375 to R377). -/

namespace Sys2Proof.Machine

/-! ### Parameter sets -/

/-- An RSA set; its modulus bytes. -/
def rsaSet (ps : Nat) : Bool := decide (0x0101 ≤ ps) && decide (ps ≤ 0x0108)
def modBytes (ps : Nat) : Nat := (ps - 0x0100) * 128
/-- A loaded curve's set. -/
def loadedSet (ps : Nat) : Bool := decide (0x0210 ≤ ps) && decide (ps ≤ 0x021F)
/-- A Weierstrass set. -/
def ecSet (ps : Nat) : Bool := (decide (0x0201 ≤ ps) && decide (ps ≤ 0x0207)) || loadedSet ps

/-- W of Table 9.1, in bits; none where the code names no set. -/
def psetW (ps : Nat) : Option Nat :=
  if rsaSet ps then some ((ps - 0x0100) * 1024)
  else if loadedSet ps then some 1024
  else match ps with
    | 0x0201 | 0x0202 | 0x0204 | 0x0205 | 0x0207 => some 512
    | 0x0203 | 0x0206 => some 1024
    | 0x0301 | 0x0302 | 0x0303 | 0x0304 => some 512
    | 0x0401 | 0x0402 | 0x0403 => some 4096
    | 0x0501 | 0x0502 | 0x0503 => some 8192
    | _ => none

/-- ALG of Table 9.1. -/
def psetAlg (ps : Nat) : Nat :=
  if rsaSet ps then 0x30 else if ecSet ps then 0x31
  else match ps with
    | 0x0301 | 0x0302 => 0x32
    | 0x0303 | 0x0304 => 0x33
    | 0x0401 | 0x0402 | 0x0403 => 0x34
    | 0x0501 | 0x0502 | 0x0503 => 0x35
    | _ => 0

/-- The record of a plot's loaded curve; empty where the slot is. -/
def curveOf (s : State) (p ps : Nat) : Bytes := tget [] (s.plot p).curves (ps - 0x0210)

/-- Field size in bits of a Weierstrass set. -/
def fieldBits (s : State) (p ps : Nat) : Nat :=
  match ps with
  | 0x0201 | 0x0204 | 0x0207 => 256
  | 0x0202 | 0x0205 => 384
  | 0x0203 => 521
  | 0x0206 => 512
  | _ => if loadedSet ps then fld (curveOf s p ps) 2 2 else 0
/-- Bytes of a coordinate. -/
def fieldBytes (s : State) (p ps : Nat) : Nat := (fieldBits s p ps + 7) / 8
/-- Bytes of a value below n. -/
def orderBytes (s : State) (p ps : Nat) : Nat :=
  if loadedSet ps then ((cut (curveOf s p ps) 408 80).dropWhile (· == 0)).length else fieldBytes s p ps

/-- Bytes of an EdDSA or ML-DSA signature, of an ML-KEM ciphertext, of a Montgomery u. -/
def sigBytes (ps : Nat) : Nat :=
  match ps with
  | 0x0301 => 64
  | 0x0303 => 114
  | 0x0501 => 2420
  | 0x0502 => 3309
  | 0x0503 => 4627
  | _ => 0
def ctBytes (ps : Nat) : Nat :=
  match ps with
  | 0x0401 => 768
  | 0x0402 => 1088
  | 0x0403 => 1568
  | _ => 0
def uBytes (ps : Nat) : Nat := if ps = 0x0302 then 32 else 56
/-- Bytes of a public key in its standard's encoding (R364). -/
def pubBytes (s : State) (p ps : Nat) : Nat :=
  if ecSet ps then 1 + 2 * fieldBytes s p ps
  else match ps with
    | 0x0301 | 0x0302 => 32
    | 0x0303 => 57
    | 0x0304 => 56
    | 0x0401 => 800
    | 0x0402 => 1184
    | 0x0403 => 1568
    | 0x0501 => 1312
    | 0x0502 => 1952
    | 0x0503 => 2592
    | _ => 0

/-- The built-in size that sets a Weierstrass set's times, 0 P-256, 1 P-384, 2 P-521, and the factor (R371). -/
def curveClass (s : State) (p ps : Nat) : Nat × Nat × Nat :=
  match ps with
  | 0x0201 | 0x0207 => (0, 1, 1)
  | 0x0202 => (1, 1, 1)
  | 0x0203 => (2, 1, 1)
  | 0x0204 => (0, 5, 4)
  | 0x0205 => (1, 5, 4)
  | 0x0206 => (2, 5, 4)
  | _ =>
    let f := fieldBits s p ps
    if f ≤ 256 then (0, 3, 2) else if f ≤ 384 then (1, 3, 2) else if f ≤ 521 then (2, 3, 2) else (2, 23, 10)

/-- An RSA time in ns from the figures for 1,024, 2,048, 3,072, 4,096 and 8,192 bits; between the last two it is open. -/
def rsaNs (ty ps : Nat) (l : List Nat) : Nat :=
  let k := ps - 0x0100
  if k ≤ 4 then l.getD (k - 1) 0
  else if k = 8 then l.getD 4 0
  else l.getD 3 0 + Config.rsaTime ty ps % (l.getD 4 0 - l.getD 3 0 + 1)

/-- Table 9.2 in ns: job type, SPLIT, plot, parameter set. -/
def opNs (s : State) (ty : Nat) (split : Bool) (p ps : Nat) : Nat :=
  let ec (l : List Nat) : Nat := let c := curveClass s p ps; l.getD c.1 0 * c.2.1 / c.2.2
  let ed (a b : Nat) : Nat := if psetAlg ps = 0x32 then a else b
  let kem (a b c : Nat) : Nat := if ps = 0x0401 then a else if ps = 0x0402 then b else c
  let dsa (a b c : Nat) : Nat := if ps = 0x0501 then a else if ps = 0x0502 then b else c
  match ty with
  | 0x01 | 0x03 => if split then rsaNs ty ps [0, 170000, 560000, 1300000, 10500000]
                   else rsaNs ty ps [0, 355600, 1150000, 2667000, 21300000]
  | 0x02 => rsaNs ty ps [4000, 12800, 28800, 51200, 204800]
  | 0x10 => ec [80000, 200000, 440000]
  | 0x11 => ec [213300, 533300, 1170000]
  | 0x12 => ec [160000, 400000, 880000]
  | 0x13 => if ecSet ps then ec [90000, 220000, 480000]
            else if psetAlg ps = 0x34 then kem 25000 35000 50000
            else if psetAlg ps = 0x35 then dsa 60000 90000 140000
            else ed 60000 190000
  | 0x14 => ed 64000 200000
  | 0x15 => ed 160000 500000
  | 0x16 => ed 120000 380000
  | 0x20 => kem 28000 40000 56000
  | 0x21 => kem 36000 53300 75000
  | 0x22 => dsa 180000 266700 400000
  | 0x23 => dsa 55000 80000 120000
  | _ => 0

/-- The nominal engine time the arbiter charges, in whole µs, at least 1 (R369). -/
def nominal (s : State) (ty : Nat) (split : Bool) (p ps : Nat) : Nat := max 1 ((opNs s ty split p ps + 999) / 1000)

/-! ### Checks 1 to 7 -/

/-- Engine job types (Table 6.10). -/
def engTypes : List Nat :=
  [0x01, 0x02, 0x03, 0x10, 0x11, 0x12, 0x13, 0x14, 0x15, 0x16, 0x20, 0x21, 0x22, 0x23, 0x40]
/-- Types that use a key. -/
def engKeyed (ty : Nat) : Bool := ty != 0x13 && ty != 0x40
/-- Types that learn a symmetric key (R365). -/
def engLearns (ty : Nat) : Bool := ty == 0x03 || ty == 0x12 || ty == 0x16 || ty == 0x20 || ty == 0x21

/-- The attribute a type needs (Table 6.10). -/
def engAttr (ty : Nat) : Nat :=
  match ty with
  | 0x01 | 0x10 | 0x14 | 0x22 => 13
  | 0x02 | 0x11 | 0x15 | 0x23 => 14
  | 0x03 => 3
  | 0x21 => 16
  | _ => 15

/-- A parameter set suits a type (Tables 6.10 and 9.1); a loaded curve's slot is loaded. -/
def psetSuits (s : State) (p ty ps : Nat) : Bool :=
  (!loadedSet ps || !(curveOf s p ps).isEmpty) &&
    match ty with
    | 0x01 | 0x03 => rsaSet ps && ps != 0x0101
    | 0x02 => rsaSet ps
    | 0x10 | 0x11 | 0x12 => ecSet ps
    | 0x13 => (psetW ps).isSome && !rsaSet ps
    | 0x14 | 0x15 => ps == 0x0301 || ps == 0x0303
    | 0x16 => ps == 0x0302 || ps == 0x0304
    | 0x20 | 0x21 => psetAlg ps == 0x34
    | 0x22 | 0x23 => psetAlg ps == 0x35
    | _ => true

/-- Digest bytes of a hash code. -/
def hashBytes (h : Nat) : Nat := if h = 1 then 32 else if h = 2 then 48 else 64

/-- The learn layout of Table 9.3. -/
def learnLayout (p : Bytes) : Bool :=
  fld p 0 8 != 0 && decide (byteAt p 8 ≤ 7) &&
    (if byteAt p 9 = 0x20 then decide (16 ≤ byteAt p 10) && decide (byteAt p 10 ≤ 32)
     else (byteAt p 9 == 0x10 || byteAt p 9 == 0x11 || byteAt p 9 == 0x12) && byteAt p 10 == 0) && byteAt p 11 == 0

/-- PARAM values (Table 9.3). -/
def engParam (ty ps : Nat) (p : Bytes) : Bool :=
  let hash := decide (1 ≤ byteAt p 9) && decide (byteAt p 9 ≤ 3)
  match ty with
  | 0x01 | 0x02 => zeros p 0 8 && (byteAt p 8 == 1 || byteAt p 8 == 2) && hash && decide (byteAt p 10 ≤ 64) && zeros p 11 21
  | 0x03 => learnLayout p && zeros p 16 16
  | 0x10 | 0x11 => zeros p 0 9 && hash && zeros p 10 22
  | 0x12 | 0x16 | 0x20 | 0x21 => learnLayout p
  | 0x13 => fld p 0 8 != 0 && decide (byteAt p 8 ≤ 7) && decide (byteAt p 9 ≤ 1) && zeros p 10 2 && zeros p 16 16
  | 0x14 | 0x15 => zeros p 0 8 && decide (byteAt p 8 ≤ 16) && (ps != 0x0301 || byteAt p 8 == 0) && zeros p 9 7
  | 0x22 | 0x23 => zeros p 0 8 && decide (byteAt p 8 ≤ 16) && zeros p 9 7
  | 0x40 => decide (byteAt p 0 ≤ 5) && zeros p 1 31
  | _ => false

/-- Lengths of IN, IN2 and the room in OUT, for a set that suits the type (Table 9.3). -/
def engLens (s : State) (p ty ps : Nat) (par : Bytes) (i i2 o : Nat) : Bool :=
  let h := i == hashBytes (byteAt par 9)
  match ty with
  | 0x01 => h && i2 == 0 && decide (modBytes ps ≤ o)
  | 0x02 => h && i2 == modBytes ps
  | 0x03 => i == modBytes ps && i2 == 0 && decide (3 ≤ o)
  | 0x10 => h && i2 == 0 && decide (2 * orderBytes s p ps ≤ o)
  | 0x11 => h && i2 == 2 * orderBytes s p ps
  | 0x12 => i == 1 + 2 * fieldBytes s p ps && i2 == 0 && decide (3 ≤ o)
  | 0x13 => i == 0 && i2 == 0 && decide (pubBytes s p ps ≤ o)
  | 0x14 | 0x22 => decide (i ≤ 16384) && i2 == 0 && decide (sigBytes ps ≤ o)
  | 0x15 | 0x23 => decide (i ≤ 16384) && i2 == sigBytes ps
  | 0x16 => i == uBytes ps && i2 == 0 && decide (3 ≤ o)
  | 0x20 => i == 0 && i2 == 0 && decide (ctBytes ps ≤ o)
  | 0x21 => i == ctBytes ps && i2 == 0 && decide (3 ≤ o)
  | _ => i == 0 && i2 == 0 && o == 0

/-- The handle an engine job names. -/
def engHandle (t : Tx) (d : Bytes) : Option Handle := heldHandle t (fld d 8 4)

/-- The parameter set of a job: its PSET field, or the key's (Table 6.9). -/
def engPset (s : State) (t : Tx) (d : Bytes) : Nat :=
  if fld d 4 2 ≠ 0 then fld d 4 2
  else match engHandle t d with
    | some h => (s.slot h.slot).pset
    | none => 0

/-- Check 1 of Table 9.4. -/
def engDescOk (s : State) (t : Tx) (d : Bytes) : Bool :=
  let ty := jType d
  let ps := engPset s t d
  engTypes.contains ty && (jFlags d == 0 || (ty == 0x01 && jFlags d == 1)) && zeros d 6 2 && zeros d 12 4 && zeros d 28 4 &&
    (fld d 8 4 != 0) == engKeyed ty && (ty != 0x40 || fld d 4 2 == 0) && engParam ty ps (jParam d) &&
    (!psetSuits s t.plot ty ps || engLens s t.plot ty ps (jParam d) (jIn d).2 (jIn2 d).2 (jOut d).2)

/-- The attribute bits a learned key may have, per type (R365, Table 9.3). -/
def attrMask (ty ps : Nat) : Nat :=
  if ty = 0x13 then
    (if ecSet ps then 0x6E000 else if psetAlg ps = 0x34 then 0x18000
     else if ps = 0x0302 ∨ ps = 0x0304 then 0x8000 else 0x6000)
  else 0x43F

/-- ATTR to be learned is allowed: at least one bit, and none outside the mask. -/
def attrOk (ty ps attr : Nat) : Bool := attr != 0 && (attr ||| attrMask ty ps) == attrMask ty ps

/-- Check 6 of Table 9.4. -/
def engPolicyOk (t : Tx) (d : Bytes) (ps : Nat) : Bool :=
  let ty := jType d
  let alg := polAlg t.policy
  (ps != 0x0101 || bit alg 2) && (!loadedSet ps || bit alg 3) &&
    (!(engLearns ty || ty == 0x13) || attrOk ty ps (fld (jParam d) 12 4)) &&
    (ty != 0x40 || (t.eng.isNone && !t.jobs.any fun x => match x.2 with
      | some j => j.engine && jType j.desc == 0x40
      | none => false))

/-- Engine e serves a type and set: live, in the required mode, long enough (check 7 of Table 9.4, R384). -/
def engServes (s : State) (d : Bytes) (ps e : Nat) : Bool :=
  s.pke.live.getLsbD e &&
    (if jType d = 0x40 then macMode s e && (byteAt (jParam d) 0 == 0 || decide (256 * 2 ^ byteAt (jParam d) 0 ≤ shelfLen s e))
     else !macMode s e && decide ((psetW ps).getD 0 ≤ shelfLen s e))

/-- Checks 1 to 7 of Table 9.4: the status of the first that fails. `fault`: the slot's content does not match its TAG, or the body does
not verify or match its digest, as they are read; either acts at once (R270, R304, R362). -/
def engCheck (s : State) (t : Tx) (d : Bytes) (fault : Bool) : State × Option (BitVec 16) :=
  let ty := jType d
  let ps := engPset s t d
  let tail (s : State) : State × Option (BitVec 16) :=
    if !engPolicyOk t d ps then (s, some stPolicy)
    else if !((List.range 32).any (engServes s d ps)) then (s, some stPolicy)
    else (s, none)
  if !engDescOk s t d then (s, some stPolicy)
  else if !engKeyed ty then
    (if ty = 0x13 ∧ !psetSuits s t.plot ty ps then (s, some stUsage) else tail s)
  else match engHandle t d with
    | none => (s, some stKeyNotFound)
    | some h =>
      let x := s.slot h.slot
      if fault || !tagOk s h.slot || !bodyMatches x then (tagFailure s h.slot, some stUsage)
      else if expired s x.expiry then (s, some stExpired)
      else if !hasAttr x.attr (engAttr ty) || x.pset != ps || x.alg.toNat != psetAlg ps || !psetSuits s t.plot ty ps then
        (s, some stUsage)
      else tail s

/-! ### Slots and the arbiter -/

/-- The free slots of engine e. -/
def freeSlots (s : State) (e : Nat) : List Nat := [2 * e, 2 * e + 1].filter fun i => (s.eslot i).job.isNone

/-- Where a job could go now (R369, R384); `not` is an engine it may not take. -/
def chooseEngine (s : State) (d : Bytes) (ps : Nat) (not : Option Nat) : Option Nat :=
  let ok (e : Nat) : Bool := engServes s d ps e && not != some e
  if jType d = 0x40 then (List.range 32).find? fun e => ok e && (s.mac e).tx.isNone
  else
    match (List.range 32).find? fun e => ok e && (freeSlots s e).length == 2 with
    | some e => some e
    | none => (List.range 32).find? fun e => ok e && (freeSlots s e).length == 1

/-- The waiting job (y, j), if it still is one. -/
def jobOf (s : State) (x : Nat × Nat) : Option (Tx × Job) :=
  match s.tx x.1 with
  | some t => (t.job x.2).map fun j => (t, j)
  | none => none

/-- The engine a waiting job could be given now. -/
def servable (s : State) (x : Nat × Nat) : Option Nat :=
  match jobOf s x with
  | some (t, j) => chooseEngine s j.desc (engPset s t j.desc) none
  | none => none

/-- Job (y, j) changes. -/
def modJob (s : State) (y j : Nat) (f : Job → Job) : State := s.modTx y fun t => t.setJob j ((t.job j).map f)

/-- An engine is not gated while it holds a job (R609). -/
def ungateE (s : State) (e : Nat) : State :=
  { s with pwr := { s.pwr with gatedE := s.pwr.gatedE &&& ~~~(BitVec.ofNat 32 (2 ^ e)) } }

/-- A slot of engine e is given to a job; an attach takes the engine (R367, R369, R384). -/
def giveSlot (s : State) (x : Nat × Nat) (e : Nat) : State :=
  match jobOf s x with
  | none => s
  | some (t, j) =>
    let s1 := ungateE { s with pke := { s.pke with waitq := s.pke.waitq.erase x } } e
    if jType j.desc = 0x40 then
      let s2 := (modJob s1 x.1 x.2 fun j => { j with st := .running, unit := 2 * e }).modTx x.1 fun t => { t with eng := some e }
      (s2.modMac e fun _ => { tx := some x.1 }).modPlot t.plot fun pl => { pl with pkeCredit := pl.pkeCredit - 1 }
    else match (freeSlots s e).head? with
      | none => s
      | some i =>
        let split := jFlags j.desc == 1
        let cost : Int := nominal s (jType j.desc) split t.plot (engPset s t j.desc)
        let s2 := (modJob s1 x.1 x.2 fun j => { j with st := .running, unit := i }).modEslot i fun _ => { job := some x }
        let s3 := s2.modPlot t.plot fun pl => { pl with pkeCredit := pl.pkeCredit - cost }
        if split then { s3 with pke := { s3.pke with splitq := s3.pke.splitq ++ [x] } } else s3

/-- The second half of a SPLIT job takes a slot on another engine (R370). -/
def giveHalf (s : State) (x : Nat × Nat) : State :=
  match jobOf s x with
  | none => s
  | some (t, j) =>
    match chooseEngine s j.desc (engPset s t j.desc) (some (j.unit / 2)) with
    | none => s
    | some e =>
      match (freeSlots s e).head? with
      | none => s
      | some i =>
        let s1 := ungateE { s with pke := { s.pke with splitq := s.pke.splitq.erase x } } e
        (modJob s1 x.1 x.2 fun j => { j with unit2 := some i }).modEslot i fun _ => { job := some x }

/-- The waiting jobs of a plot, oldest first. -/
def waitingOf (s : State) (p : Nat) : List (Nat × Nat) :=
  s.pke.waitq.filter fun x => match s.tx x.1 with | some t => t.plot == p | none => false

/-- The loop of R369 over the ring of plots, the cursor's plot first: one grant, or none. DESIGN CHOICE (log 112): the jobs that already
wait when PLOT_RESIZE sets PKE_WEIGHT to 0 go on waiting, since their plot's credit no longer rises, to their deadlines. -/
def arbiter : Nat → List Nat → State → State
  | 0, _, s => s
  | _, [], s => s
  | fuel + 1, p :: ring, s =>
    let q := waitingOf s p
    let next := { s with pke := { s.pke with cursor := ring.headD p } }
    match q.find? fun x => (servable s x).isSome with
    | none =>
      arbiter fuel (ring ++ [p]) (if q.isEmpty then next.modPlot p fun pl => { pl with pkeCredit := 0 } else next)
    | some x =>
      let pl := s.plot p
      if pl.pkeCredit ≤ 0 then
        let w : Int := 8 * pl.acr.pkeWeight
        arbiter fuel (ring ++ [p]) (next.modPlot p fun pl => { pl with pkeCredit := min (pl.pkeCredit + w) w })
      else match servable s x with
        | some e => giveSlot s x e
        | none => s

/-- The ring of plots from the cursor on. -/
def ringOf (s : State) : List Nat :=
  let all := (s.plots.filter fun x => x.2.st != .absent).map (·.1)
  all.filter (s.pke.cursor ≤ ·) ++ all.filter (· < s.pke.cursor)

/-- Steps within which the arbiter reaches a plot whose credit is above 0. -/
def arbiterFuel (s : State) : Nat :=
  let worst := s.plots.foldl (fun n x => max n (-x.2.pkeCredit).toNat) 0
  (s.plots.length + 1) * (worst / 8 + 3)

/-- Free slots are given out: to second halves first, then by the arbiter, while a waiting job can be served (R369, R370). -/
def pumpEngines : Nat → State → State
  | 0, s => s
  | fuel + 1, s =>
    let s1 := s.pke.splitq.foldl giveHalf s
    if s1.pke.waitq.any fun x => (servable s1 x).isSome then
      pumpEngines fuel (arbiter (arbiterFuel s1) (ringOf s1) s1)
    else s1

/-- Below 11.4 V of VIN the steward may hold back the starts of engine jobs: whether the load would draw more than 7.9 A is a free
value of every try (R584, log 123). -/
def heldBack (s : State) : Bool := decide (s.pwr.vin < 11400) && Config.freeBool s.free

/-- The engines after a slot or a job has become available, or the current has fallen: starts that are not held back (R584). -/
def pumpEng (s : State) : State :=
  if s.pwr.vin < 11400 then
    let s1 := drawn s 1
    if heldBack s then s1 else pumpEngines (s1.pke.waitq.length + 1) s1
  else pumpEngines (s.pke.waitq.length + 1) s

/-! ### The end of an engine job -/

/-- The slots of an ended job are free (R383). -/
def dropSlots (s : State) (j : Job) : State :=
  let s1 := s.modEslot j.unit fun _ => {}
  match j.unit2 with
  | some u => s1.modEslot u fun _ => {}
  | none => s1

/-- An engine job ends: its status, its output where it has one, its slots free (R215, R383). -/
def engEnd (s : State) (y j : Nat) (st : BitVec 16) (out : Bytes) : State :=
  match s.tx y with
  | none => s
  | some t =>
    match t.job j with
    | none => s
    | some x =>
      let s1 := modJob (dropSlots s x) y j fun x =>
        { x with st := .ended, status := st, out := if st = stOK ∨ st = stExisting then out else [], noRand := false }
      pumpEng { s1 with pke := { s1.pke with splitq := s1.pke.splitq.erase (y, j) } }

/-- A PKE_EVENT flag with its counter: 0 FAULT, 1 RETIRE. -/
def pkeEvent (s : State) (b : Nat) : State :=
  { s with pke := { s.pke with event := s.pke.event ||| BitVec.ofNat 2 (2 ^ b), eventCnt := bumpAt s.pke.eventCnt b } }

/-- A rejection is counted by its reason on engine e (R376). -/
def countReason (s : State) (e reason : Nat) : State :=
  let r := bumpAt s.pke.reasons (32 * e + reason)
  if reason < 16 then { s with pke := { s.pke with reasons := r, rejCnt := bumpAt s.pke.rejCnt e } }
  else { s with pke := { s.pke with reasons := r, invCnt := bumpAt s.pke.invCnt e } }

/-- An engine job is rejected for a reason of Table 9.5 (R373, R374). -/
def reject (s : State) (y j e reason : Nat) : State := engEnd (countReason s e reason) y j stPke []

/-- An end-of-operation invariant fails on engine e: PKE_REJECT, the counters, PKE_LAST, the event, and at the third
failure within 1 s the engine's retirement (R375, R377). -/
def invariantFault (s : State) (y j e k : Nat) (p ty : Nat) : State :=
  let last : W64 := BitVec.ofNat 64 (s.kpr.opmin.toNat * 2 ^ 32 + p * 2 ^ 16 + k * 2 ^ 13 + ty % 128 * 2 ^ 6 + e)
  let pay := le 4 (last.toNat % 2 ^ 32)
  let times := tget [] s.pke.faults e
  let s1 := countReason { s with pke := { s.pke with last := last, faults := tset [] e (noteFault s.now times) s.pke.faults } }
    e (16 + k)
  let s2 := event (modEvent (pkeEvent s1 0)) 0x0014 p pay
  let s3 := if thirdFault s.now times then
      let m : BitVec 32 := BitVec.ofNat 32 (2 ^ e)
      event (modEvent (pkeEvent { s2 with pke := { s2.pke with live := s2.pke.live &&& ~~~m, retired := s2.pke.retired ||| m } } 1))
        0x0015 modScope pay
    else s2
  engEnd s3 y j stPke []

end Sys2Proof.Machine
end

