-- ==== Sys2Proof/Machine/LaneOps.lean ====
section
/-! DEFINITION. Lane contexts (R316, R317, R249) and the end of a lane job (R215, R318, R354). -/

namespace Sys2Proof.Machine

/-- A free context: it holds no job and is bound to nothing (R317). -/
def ctxFree (s : State) (i : Nat) : Bool := (s.ctx i).job.isNone && (s.ctx i).bound == .free

/-- The free contexts of lane l. -/
def freeCtxs (s : State) (l : Nat) : List Nat := ((List.range 8).map (8 * l + ·)).filter (ctxFree s)

/-- The context a job gets: on the live lane with the most free contexts, the lowest-numbered on ties (R317). -/
def allocCtx (s : State) : Option Nat :=
  let lanes := (List.range 32).filter fun l => s.lan.live.getLsbD l
  let best := lanes.foldl (fun n l => max n (freeCtxs s l).length) 0
  if best = 0 then none
  else match lanes.find? fun l => (freeCtxs s l).length == best with
    | some l => (freeCtxs s l).head?
    | none => none

/-- A lane is not gated while it holds a job (R609). -/
def ungateL (s : State) (l : Nat) : State :=
  { s with pwr := { s.pwr with gatedL := s.pwr.gatedL &&& ~~~(BitVec.ofNat 32 (2 ^ l)) } }

/-- Context i takes job (y, j) of yoke y. -/
def giveCtx (s : State) (y j i : Nat) : State :=
  ungateL (s.modCtx i fun c => { c with job := if c.job.isNone then some (y, j) else c.job }) (i / 8)

/-- A job of the transaction is a SEAL job on its lane context that has not ended. -/
def sealOpen (x : Job) : Bool := !x.engine && bit (jFlags x.desc) 0 && x.st != .ended

/-- The SEAL job that is next on a transaction's bound context: the earliest issued that has not ended (R249). -/
def nextSeal (t : Tx) : Option Nat :=
  (t.jobs.foldl (fun (best : Option (Nat × Nat)) x => match x.2 with
    | some j => if sealOpen j then
        (match best with
          | some b => if j.order < b.2 then some (x.1, j.order) else best
          | none => some (x.1, j.order))
        else best
    | none => best) none).map (·.1)

/-- A TYPE that names a lane job (Table 6.8). -/
def laneType (d : Bytes) : Bool := decide (1 ≤ jType d) && decide (jType d ≤ 17)

/-- One lane job ends: its status, its output where it has one; its context goes to the next SEAL job of the transaction,
or is free; LAN_JOB_CNT counts it (R249, R318, R354). -/
def laneEnd1 (s : State) (y j : Nat) (st : BitVec 16) (out : Bytes) : State :=
  match s.tx y with
  | none => s
  | some t =>
    match t.job j with
    | none => s
    | some x =>
      let ty := jType x.desc
      let t1 := t.setJob j (some { x with st := .ended, status := st, noRand := false, reserved := false,
                                          out := if st = stOK ∨ st = stExisting then out else [] })
      let s1 := s.modYoke y fun k => { k with tx := some t1 }
      let s2 := s1.modCtx x.unit fun c =>
        if c.job = some (y, j) then
          { c with job := if c.bound = .tx y then (nextSeal t1).map fun n => (y, n) else none }
        else c
      if laneType x.desc then { s2 with lan := { s2.lan with jobCnt := tmod 0 ty (· + 1) s2.lan.jobCnt } } else s2

/-- The SEAL jobs of a transaction whose turn has come and whose TYPE names no job end (step 1 of Table 8.1, R249). -/
def endUnknown : Nat → State → Nat → State
  | 0, s, _ => s
  | n + 1, s, y =>
    match (s.tx y).bind fun t => (nextSeal t).bind fun j => (t.job j).map fun x => (j, x) with
    | some (j, x) => if laneType x.desc then s else endUnknown n (laneEnd1 s y j stPolicy []) y
    | none => s

/-- A lane job ends, and in their turn the SEAL jobs behind it whose TYPE names no job (R249, R318). -/
def laneEnd (s : State) (y j : Nat) (st : BitVec 16) (out : Bytes) : State := endUnknown 8 (laneEnd1 s y j st out) y

end Sys2Proof.Machine
end

