-- ==== Sys2Proof/Machine/RplOps.lean ====
section
/-! DEFINITION. The replay table (R297 to R301) and the home of a shared claim (R548). -/

namespace Sys2Proof.Machine

/-- The replay entry at a place, ways first, then the overflow store. -/
def rplAt (r : Replay) (i : Nat) : RplEntry :=
  if i < rplWays then tget RplEntry.zero r.tbl i else tget RplEntry.zero r.ovf (i - rplWays)
/-- The replay table with an entry replaced. -/
def rplPut (r : Replay) (i : Nat) (e : RplEntry) : Replay :=
  if i < rplWays then { r with tbl := tset RplEntry.zero i e r.tbl }
  else { r with ovf := tset RplEntry.zero (i - rplWays) e r.ovf }

/-- A fingerprint is live (R299). -/
def rplLive (s : State) (e : RplEntry) : Bool :=
  decide (ticksSince s e.plot e.stamp < polLimit (s.plot e.plot).active 7)

/-- The places of a fingerprint's two buckets (R298). -/
def rplPlaces (s : State) (p : Nat) (fp : BitVec 96) : List Nat :=
  let q := pairOf s.rpl.seed (le 2 p ++ be 12 fp.toNat) rplBuckets
  waysOf q.1 ++ waysOf q.2

/-- The live entry of (plot, fingerprint) (R298). -/
def rplFind (s : State) (p : Nat) (fp : BitVec 96) : Option Nat :=
  (rplPlaces s p fp ++ s.rpl.ovf.map fun x => rplWays + x.1).find? fun i =>
    let e := rplAt s.rpl i
    e.valid && e.plot == p && e.fp == fp && rplLive s e

/-- The place where a fingerprint would be recorded: free or dead ways, then the overflow store (R298). -/
def rplRoom (s : State) (p : Nat) (fp : BitVec 96) : Option Nat :=
  (rplPlaces s p fp ++ (List.range 256).map (rplWays + ·)).find? fun i =>
    let e := rplAt s.rpl i
    !e.valid || !rplLive s e

/-- The entry at a place goes and its quota unit is released (R312). -/
def rplDrop (s : State) (i : Nat) : State :=
  let e := rplAt s.rpl i
  if e.valid then { s with rpl := rplPut s.rpl i RplEntry.zero }.modPlot e.plot fun pl => { pl with rplUse := pl.rplUse - 1 }
  else s

/-- A fingerprint is looked up and recorded (R298): DUPLICATE, KEY_QUOTA, KEY_TABLE_FULL or OK. -/
def rplRecord (s : State) (p : Nat) (fp : BitVec 96) (shared claim : Bool) : State × BitVec 16 :=
  match rplFind s p fp with
  | some _ => (s, stDuplicate)
  | none =>
    if (s.plot p).acr.rplQuota ≤ (s.plot p).rplUse then (s, stQuota)
    else match rplRoom s p fp with
      | none => ({ s with rpl := { s.rpl with fullCnt := bump s.rpl.fullCnt } }, stTableFull)
      | some i =>
        let s1 := rplDrop s i
        let e : RplEntry := { valid := true, fp := fp, plot := p, stamp := (s.plot p).tick, shared := shared, claim := claim }
        (({ s1 with rpl := rplPut s1.rpl i e }.modPlot p fun pl => { pl with rplUse := pl.rplUse + 1 }), stOK)

/-- A pending claim of (plot, fingerprint) is over: its entry keeps CLAIM = 0, or goes (R549, R550). -/
def rplSettle (s : State) (p : Nat) (fp : BitVec 96) (keep : Bool) : State :=
  match rplFind s p fp with
  | none => s
  | some i => if keep then { s with rpl := rplPut s.rpl i { rplAt s.rpl i with claim := false } } else rplDrop s i

/-! ### Homes -/

/-- The plot that binds a DTID on this node (R540). -/
def boundPlot (s : State) (dtid : W32) : Option Nat :=
  if dtid = 0 then none else (s.plots.find? fun x => x.2.dtid == dtid && x.2.st != .absent).map (·.1)

/-- A member binds a DTID. -/
def memberBinds (s : State) (dtid : W32) (node : Nat) : Bool :=
  if node = s.clu.node then (boundPlot s dtid).isSome else (s.sess node).binds.contains dtid

/-- The members that bind a DTID, by node ID (R548). -/
def binders (s : State) (dtid : W32) : List Nat :=
  ((s.clu.members.map (·.node)).mergeSort (· ≤ ·)).filter (memberBinds s dtid)

/-- The home node of a fingerprint (R548). -/
def homeOf (s : State) (dtid : W32) (fp : BitVec 96) : Nat :=
  let l := binders s dtid
  let h := Config.siphash24 (secretBytes s.kpr.cab.domain 32) (le 4 dtid.toNat ++ be 12 fp.toNat) % 2 ^ 32
  l.getD (h % l.length) s.clu.node

/-- The home accepts no claim of a DTID now: a rehoming of it is under way, or the domain seed is missing (R539, R551). -/
def homeHolds (s : State) (dtid : W32) : Bool := !s.clu.hasSd || s.clu.rehoming.any fun r => r.dtid == dtid

/-- A shared claim is made for a recorded fingerprint (R549 steps 3 and 4): true where it is settled at once. A standby sends
no CLAIM (R554). -/
def claimStart (s : State) (p : Nat) (dtid : W32) (fp : BitVec 96) : State × Bool :=
  if standby s then (rplSettle s p fp true, true) else
  let h := homeOf s dtid fp
  let wait := { s with clu := { s.clu with claims := s.clu.claims ++ [{ plot := p, dtid := dtid, fp := fp }] } }
  if h = s.clu.node then
    if homeHolds s dtid then
      ({ wait with clu := { wait.clu with heldClaims := wait.clu.heldClaims ++ [(s.clu.node, dtid, fp)] } }, false)
    else (rplSettle s p fp true, true)
  else (sendMsg wait h (.claim dtid fp), false)

end Sys2Proof.Machine
end

