-- ==== Sys2Proof/Machine/LaneJobs.lean ====
section
/-! DEFINITION. The common course of a lane job (08): the order of checks of Table 8.1, the inverse checks (R322 to R325),
PIN blocks (R330 to R335), derived entries (R292 to R295). -/

namespace Sys2Proof.Machine

/-! ### Keys of a job -/

/-- A key a job uses, fetched from a slot or from a sealed register. -/
structure KeyV where
  alg    : Nat := 0
  attr   : W32 := 0
  key    : Bytes := []
  expiry : W32 := 0
  name   : W64 := 0
  kcv    : Bytes := []
  slot   : Option Nat := none
  pset   : Nat := 0
  body   : Bytes := []
  /-- the slot, or 2^20 and the register's number, and then the key itself: what the tag of a running state records (R349) -/
  ref    : Nat := 0
  id     : Bytes := []
  deriving DecidableEq, Repr

/-- The key of a handle. -/
def handleKey (s : State) (h : Handle) : KeyV :=
  let x := s.slot h.slot
  { alg := x.alg.toNat, attr := x.attr, key := x.key, expiry := x.expiry, name := h.name, kcv := x.kcv,
    slot := some h.slot, pset := x.pset, body := x.body, ref := h.slot }

/-- The key in a sealed register; a register that holds none gives a key with no attribute (R250). -/
def sealedKey (r : Sealed) (i : Nat) : KeyV :=
  match r.tag with
  | .key alg attr expiry => { alg := alg.toNat, attr := attr, key := r.val, expiry := expiry, ref := 2 ^ 20 + i,
                               id := r.val }
  | _ => { ref := 2 ^ 20 + i }

/-- SIN, SOUT, SKEY: 0, or 0x80 and a register number. -/
def sealCode (n : Nat) : Bool := n == 0 || (decide (0x80 ≤ n) && decide (n ≤ 0x8F))

/-- A sealed register of a context. -/
def sealReg (s : State) (u n : Nat) : Sealed := tget ({} : Sealed) (s.ctx u).seals (n - 0x80)

/-! ### The specification of a job type -/

/-- What a job of a type with its PARAM needs; `static` is its lengths and PARAM (step 1), `use` its keys and sealed input
(step 6), `pin` the PIN format policy (step 8). -/
structure LaneSpec where
  k1     : Bool := false
  k2     : Bool := false
  sin    : Bool := false
  sout   : Bool := false
  verify : Bool := false
  part   : Bool := false
  static : Bool := true
  use    : KeyV → KeyV → Sealed → Bool := fun _ _ _ => true
  dukpt  : Bool := false
  pin    : Bool := true
  record : Bool := false

/-- A lane job under way: its transaction, descriptor and context, its keys and its sealed input. -/
structure LJ where
  y   : Nat
  j   : Nat
  t   : Tx
  d   : Bytes
  u   : Nat
  k1  : KeyV
  k2  : KeyV
  sin : Sealed
  /-- what the job meets -/
  ev  : LaneEv

/-- IN and IN2 as the lane reads them. -/
def LJ.inp (x : LJ) (s : State) : Bytes := benchRange s x.y x.j (jIn x.d)
def LJ.inp2 (x : LJ) (s : State) : Bytes := benchRange s x.y x.j (jIn2 x.d)

/-- Steps 1 and 2 of Table 8.1 (R244, R247, R248). -/
def laneStatic (sp : LaneSpec) (d : Bytes) : Bool :=
  let sin := byteAt d 4
  let sout := byteAt d 5
  let skey := byteAt d 6
  let sl := bit (jFlags d) 0
  decide (jFlags d < 4) && (sp.verify || !bit (jFlags d) 1) && byteAt d 7 == 0 && zeros d 28 4 &&
    sealCode sin && sealCode sout && sealCode skey && (sin != 0) == sp.sin && (sout != 0) == sp.sout && sp.static &&
    (if sp.k1 then fld d 8 4 != 0 || skey != 0 else fld d 8 4 == 0 && skey == 0) && (fld d 12 4 != 0) == sp.k2 &&
    (sl || (sin == 0 && sout == 0 && skey == 0 && !sp.part)) && (skey == 0 || fld d 8 4 == 0)

/-- The handles a job names, held or not (step 3). -/
def namedHandles (t : Tx) (d : Bytes) : List (Option Handle) :=
  (if fld d 8 4 = 0 then [] else [heldHandle t (fld d 8 4)]) ++ (if fld d 12 4 = 0 then [] else [heldHandle t (fld d 12 4)])

/-- The keys of a job whose handles are held. -/
def laneKeys (s : State) (t : Tx) (d : Bytes) (u : Nat) : KeyV × KeyV :=
  let k1 := if byteAt d 6 ≠ 0 then sealedKey (sealReg s u (byteAt d 6)) (byteAt d 6 - 0x80)
            else match heldHandle t (fld d 8 4) with
              | some h => handleKey s h
              | none => {}
  let k2 := match heldHandle t (fld d 12 4) with
    | some h => if fld d 12 4 = 0 then {} else handleKey s h
    | none => {}
  (k1, k2)

/-- The first cached key whose slot tag does not match as it is fetched (step 4). -/
def badTag (s : State) (t : Tx) (d : Bytes) (ev : LaneEv) : Option Nat :=
  let bad (v k : Nat) : Option Nat :=
    match heldHandle t v with
    | some h => if v ≠ 0 ∧ (!tagOk s h.slot || ev == .tagFail (Fin.ofNat 4 k)) then some h.slot else none
    | none => none
  (bad (fld d 8 4) 0).or (bad (fld d 12 4) 1)

/-- Steps 1 to 9 of Table 8.1: the status of the first that fails. -/
def laneGate (s : State) (y j : Nat) (t : Tx) (d : Bytes) (u : Nat) (ev : LaneEv) (sp : LaneSpec) : State × Except (BitVec 16) LJ :=
  if !laneStatic sp d then (s, .error stPolicy)
  else if (namedHandles t d).any (·.isNone) then (s, .error stKeyNotFound)
  else match badTag s t d ev with
    | some i => (tagFailure s i, .error stUsage)
    | none =>
      let ks := laneKeys s t d u
      let sin := if byteAt d 4 = 0 then {} else sealReg s u (byteAt d 4)
      let tdes := (sp.k1 && isTdes ks.1.alg) || (sp.k2 && isTdes ks.2.alg)
      if (sp.k1 && expired s ks.1.expiry) || (sp.k2 && expired s ks.2.expiry) then (s, .error stExpired)
      else if !sp.use ks.1 ks.2 sin then (s, .error stUsage)
      else if tdes && (!bit (polAlg t.policy) 0 || (sp.dukpt && !bit (polAlg t.policy) 1)) then (s, .error stPolicy)
      else if !sp.pin then (s, .error stPinFormat)
      else if sp.record && !auditRoom s then (s, .error stAudit)
      else (s, .ok { y := y, j := j, t := t, d := d, u := u, k1 := ks.1, k2 := ks.2, sin := sin, ev := ev })

/-! ### Lane faults -/

/-- A LAN_EVENT flag with its counter: 0 FAULT, 1 RETIRE. -/
def lanEvent (s : State) (b : Nat) : State :=
  { s with lan := { s.lan with event := s.lan.event ||| BitVec.ofNat 2 (2 ^ b), eventCnt := bumpAt s.lan.eventCnt b } }

/-- A lane fault of a kind is counted and recorded; the third within 1 s retires the lane (R323 to R325). -/
def noteLaneFault (s : State) (l kind p ty : Nat) : State :=
  let last : W64 := BitVec.ofNat 64 (s.kpr.opmin.toNat * 2 ^ 32 + p * 2 ^ 16 + ty % 32 * 2 ^ 11 + kind * 2 ^ 8 + l)
  let pay := le 4 (last.toNat % 2 ^ 32)
  let times := tget [] s.lan.faults l
  let s1 := { s with lan := { s.lan with last := last, faultCnt := bumpAt s.lan.faultCnt l,
                                         faults := tset [] l (noteFault s.now times) s.lan.faults } }
  let s2 := event (modEvent (lanEvent s1 0)) 0x0012 p pay
  if thirdFault s.now times then
    let m : BitVec 32 := BitVec.ofNat 32 (2 ^ l)
    event (modEvent (lanEvent { s2 with lan := { s2.lan with live := s2.lan.live &&& ~~~m, retired := s2.lan.retired ||| m } } 1))
      0x0013 modScope pay
  else s2

/-- An inverse check fails: the lane fault, and the transaction is aborted with YOKE_FAULT (R323). -/
def laneFault (s : State) (y l kind p ty : Nat) : State :=
  let s1 := forwardAbort (noteLaneFault s l kind p ty) y
  if (s.plot p).st = .resetting then squashTx s1 y else endWith s1 y stYokeFault

/-- LAN_LAST.KIND of an inverse check's failure. -/
def faultKind : LaneEv → Nat
  | .ok => 0
  | .encFail => 0
  | .decFail => 1
  | .derFail => 2
  | _ => 0

/-! ### The course of a job -/

/-- What a job's computation comes to (step 10): its end, with the inverse checks that apply to it; its end with the keys it derived
and learns; an export with the payload of its record; a key to be learned with its record; a wait for the drill; a conflict with another
derivation, after the keys derived before it (R295). -/
inductive Comp where
  | fin (s : State) (st : BitVec 16) (out : Bytes) (sl : Option Sealed) (inv : List LaneEv)
  | derived (s : State) (st : BitVec 16) (out : Bytes) (sl : Option Sealed) (ls : List Learn)
  | exported (s : State) (out : Bytes) (pay : Bytes)
  | learn (s : State) (l : Learn) (inv : List LaneEv)
  | wait
  | conflict (s : State) (ls : List Learn)

/-- The keys a job uses count, each slot once (R318). -/
def countUses (s : State) (x : LJ) : State := ([x.k1.slot, x.k2.slot].filterMap id).eraseDups.foldl useSlot s

/-- SOUT takes its value and tag (R251). -/
def writeSeal (s : State) (x : LJ) (v : Option Sealed) : State :=
  match v with
  | none => s
  | some r => s.modCtx x.u fun c => { c with seals := tset {} (byteAt x.d 5 - 0x80) r c.seals }

/-- A SHARED learning takes its update pair and is PINNED (R542). -/
def sharedLearn (s : State) (l : Learn) : State × Learn :=
  if l.shared then
    let st := s.clu.stamp + 1
    ({ s with clu := { s.clu with stamp := st } }, { l with pinned := true, pair := some (st, s.clu.node) })
  else (s, l)

/-- A completed SHARED learning is sent to the members that bind the tenant (R543); a standby sends none (R554). -/
def shareOut (s : State) (l : Learn) : State :=
  match l.shared && !standby s, l.pair with
  | true, some (st, o) =>
    let dtid := (s.plot l.plot).dtid
    let u : ShareUpd := { dtid := dtid, name := l.name, alg := l.slot.alg, attr := l.slot.attr, len := l.slot.len,
                          expiry := l.slot.expiry, age := l.age, kcv := l.slot.kcv, material := l.slot.material,
                          stamp := st, origin := BitVec.ofNat 12 o }
    ((peers s).filter (memberBinds s dtid)).foldl (fun s n => sendMsg s n (.shareLearn u)) s
  | _, _ => s

/-- A learning may be SHARED only on a joined module and a bound plot (R541). -/
def sharedOk (s : State) (l : Learn) : Bool := !l.shared || (s.clu.joined && (s.plot l.plot).dtid != 0)

/-- An import's learning has ended with a status: its record is written, or its reservation released (R346, R520). -/
def importDone (s : State) (y j : Nat) (l : Learn) (st : BitVec 16) : State :=
  if st = stOK ∨ st = stExisting then
    let s1 := if st = stOK then shareOut s l else s
    laneEnd (writeReserved s1 0x1010 l.plot (keyPayload l.name l.slot)) y j st l.slot.kcv
  else laneEnd (unreserve s) y j st []

/-- An import's learning begins, with a slot of the recorder reserved (R277, R346, R520). -/
def importStart (s : State) (x : LJ) (l0 : Learn) : State :=
  if !sharedOk s l0 then laneEnd s x.y x.j stPolicy []
  else if l0.slot.asym && (s.plot l0.plot).acr.vltQuota = 0 then laneEnd s x.y x.j stQuota []
  else
    let r := sharedLearn s l0
    match learnFor (reserve r.1) r.2 (.laneJob x.y x.j) with
    | (s1, some st) => importDone s1 x.y x.j r.2 st
    | (s1, none) =>
      modJob s1 x.y x.j fun q => { q with st := .learning, reserved := true, noRand := vaultWaits s r.2 && (plotGen s l0.plot).isNone }

/-- Job j of yoke y is a lane job of the type that may run now: it has a context, and no earlier SEAL job of its
transaction is before it on the bound context (R249). -/
def laneReady (t : Tx) (j ty : Nat) : Option Job :=
  match t.job j with
  | some x =>
    if !x.engine && x.st == .running && jType x.desc == ty && (!bit (jFlags x.desc) 0 || nextSeal t == some j) then some x
    else none
  | none => none

/-- A derived key is learned (R293, R294, R295): not a weak one (R258, log 125). False on a conflict. An insertion that needs the walk
token waits for it while its job goes on. -/
def derivedLearn (s : State) (lane ty : Nat) (l : Learn) : State × Bool :=
  if weakSlot l.slot then (s, true)
  else match learnFast s l with
    | (s1, some st) => derivedDone s1 l st
    | (s1, none) => (queueWalk s1 l (.derived lane ty), true)

/-- The derived keys of a job are learned, up to a conflict. -/
def learnAll (lane ty : Nat) : List Learn → State → State × Bool
  | [], s => (s, true)
  | l :: ls, s => match derivedLearn s lane ty l with
    | (s1, true) => learnAll lane ty ls s1
    | (s1, false) => (s1, false)

/-- A conflict between two derivations: a lane fault of KIND 3, and the job ends KEY_CONFLICT (R295, R324). -/
def laneConflict (s : State) (x : LJ) : State :=
  laneEnd (noteLaneFault s (x.u / 8) 3 x.t.plot (jType x.d)) x.y x.j stConflict []

/-- The end of a job whose checks 1 to 10 are done: its inverse checks, then its release (R321 to R324). An inverse check that fails
leaves nothing of the job but its lookups, its use counts and its requests of the drill (R323). -/
def laneFinish (s : State) (x : LJ) (c : Comp) : State :=
  let fault (s : State) : State := laneFault s x.y (x.u / 8) (faultKind x.ev) x.t.plot (jType x.d)
  match c with
  | .wait => modJob s x.y x.j fun q => { q with noRand := true }
  | .conflict s1 ls => laneConflict (learnAll (x.u / 8) (jType x.d) ls s1).1 x
  | .fin s1 st out sl inv =>
    if inv.contains x.ev then fault s1
    else if st = stOK then laneEnd (writeSeal s1 x sl) x.y x.j st out
    else laneEnd s1 x.y x.j st []
  | .derived s1 st out sl ls =>
    if !ls.isEmpty && x.ev == .derFail then fault s1
    else match learnAll (x.u / 8) (jType x.d) ls s1 with
      | (s2, false) => laneConflict s2 x
      | (s2, true) => if st = stOK then laneEnd (writeSeal s2 x sl) x.y x.j st out else laneEnd s2 x.y x.j st []
  | .exported s1 out pay =>
    if x.ev = .encFail then fault s1
    else laneEnd (writeReserved (reserve s1) 0x1011 x.t.plot pay) x.y x.j stOK out
  | .learn s1 l inv => if inv.contains x.ev then fault s1 else importStart s1 x l

/-- A job reads the bench: it names an input (R246, R319). -/
def readsBench (d : Bytes) : Bool := (jIn d).2 != 0 || (jIn2 d).2 != 0

/-- A bit error of the bench under the input of a job of yoke y: a corrected one is counted (R146). -/
def benchNote (s : State) (y : Nat) (corr : Bool) : State :=
  if corr then yokEvent (s.modYoke y fun k => { k with eccCnt := bump k.eccCnt }) 2 else s

/-- A lane job runs, once the lane PLL is locked (R25): its checks, the reading of its input, its computation, its inverse checks
(R321, R322). An uncorrectable bit error of its input is a fault of its yoke (R146). -/
def runLane (ty : Nat) (sp : State → Bytes → Tx → Bytes → Nat → LaneSpec) (comp : State → LJ → Comp) (y j : Nat) (ev : LaneEv)
    (s : State) : State :=
  if !pllUp s 2 then s
  else match s.tx y with
  | none => s
  | some t =>
    match laneReady t j ty with
    | none => s
    | some x =>
      match laneGate s y j t x.desc x.unit ev (sp s (benchRange s y j (jIn x.desc)) t x.desc x.unit) with
      | (s1, .error st) => laneEnd s1 y j st []
      | (s1, .ok q) =>
        if ev = .benchUnc ∧ readsBench x.desc then yokeFault s1 y 2
        else
          let s2 := benchNote s1 y (ev == .eccCorr && readsBench x.desc)
          laneFinish s2 q (comp (countUses s2 q) q)

/-- A lane job's row: nothing where the job is not there to run. -/
def laneRow (ty : Nat) (sp : State → Bytes → Tx → Bytes → Nat → LaneSpec) (comp : State → LJ → Comp) (y : YokeId) (j : JobIx)
    (ev : LaneEv) (s : State) : Res := .next (runLane ty sp comp y.val j.val ev s)

/-- A range a type does not name: address and length 0 (R336). -/
def noRange (r : Nat × Nat) : Bool := r.1 == 0 && r.2 == 0

/-! ### PIN blocks -/

/-- PANF at an offset holds a valid PAN of 12 to 19 digits (R335). -/
def panOk (p : Bytes) (ofs : Nat) : Bool :=
  let n := byteAt p ofs
  let d := nibbles (cut p (ofs + 2) 10)
  decide (12 ≤ n) && decide (n ≤ 19) && byteAt p (ofs + 1) == 0 && (d.take n).all (decide <| · ≤ 9) && (d.drop n).all (· == 15)

/-- The digits of PANF. -/
def panDigits (p : Bytes) (ofs : Nat) : List Nat := (nibbles (cut p (ofs + 2) 10)).take (byteAt p ofs)

/-- The 12 rightmost PAN digits without the check digit, left-padded with 0 (R330). -/
def pan12 (pan : List Nat) : List Nat :=
  let d := pan.dropLast
  let r := d.drop (d.length - 12)
  List.replicate (12 - r.length) 0 ++ r

/-- The PAN field of formats 0 and 3, and of format 4 (Table 8.4). -/
def panField8 (pan : List Nat) : Bytes := ofNibbles ([0, 0, 0, 0] ++ pan12 pan)
def panField16 (pan : List Nat) : Bytes :=
  ofNibbles (((pan.length - 12) :: pan) ++ List.replicate (32 - (pan.length + 1)) 0)

/-- Bytes of a block of a format. -/
def pinLen (fmt : Nat) : Nat := if fmt = 4 then 16 else 8

/-- An algorithm suits a format (R329). -/
def pinAlg (fmt alg : Nat) : Bool := if fmt = 4 then isAes alg else isTdes alg

/-- The clear PIN field of a block (Table 8.4). -/
def pinField (fmt : Nat) (key block : Bytes) (pan : List Nat) : List Nat :=
  if fmt = 4 then nibbles (Config.aesDec key (xorBytes (Config.aesDec key block) (panField16 pan)))
  else
    let x := tdesDec key block
    nibbles (if fmt = 0 ∨ fmt = 3 then xorBytes x (panField8 pan) else x)

/-- The PIN of a decrypted field; none where the block is invalid (R331). -/
def decodePin (fmt : Nat) (f : List Nat) : Option (List Nat) :=
  let n := f.getD 1 0
  let digits := (f.drop 2).take n
  let fill := (f.take 16).drop (2 + n)
  let ok := decide (f.getD 0 0 = fmt) && decide (4 ≤ n) && decide (n ≤ 12) && digits.all (decide <| · ≤ 9) &&
    (if fmt = 0 ∨ fmt = 2 then fill.all (· == 15)
     else if fmt = 3 then fill.all (decide <| 10 ≤ ·)
     else if fmt = 4 then fill.all (· == 10) else true)
  if ok then some digits else none

/-- A format needs random fill (R333). -/
def pinRandom (fmt : Nat) : Bool := fmt == 1 || fmt == 3 || fmt == 4

/-- The enciphered block of a PIN under a key, its random fill from 16 bytes (Table 8.4, R333). -/
def encodePin (fmt : Nat) (key : Bytes) (pin pan : List Nat) (rnd : Bytes) : Bytes :=
  let n := pin.length
  let r := nibbles rnd
  let fill (m : Nat) : List Nat :=
    if fmt = 0 ∨ fmt = 2 then List.replicate m 15
    else if fmt = 1 then r.take m
    else if fmt = 3 then (r.take m).map (10 + · % 6)
    else List.replicate m 10
  let f := ofNibbles ([fmt, n] ++ pin ++ fill (14 - n))
  if fmt = 4 then
    Config.aesEnc key (xorBytes (Config.aesEnc key (f ++ cut rnd 8 8)) (panField16 pan))
  else tdesEnc key (if fmt = 0 ∨ fmt = 3 then xorBytes f (panField8 pan) else f)

/-- The input side of a PIN job: the block is decrypted, decoded and its length checked (R331, R332). -/
def openPin (s : State) (x : LJ) (fmt panOfs : Nat) : Except (BitVec 16) (List Nat) :=
  let p := jParam x.d
  match decodePin fmt (pinField fmt x.k1.key (x.inp s) (panDigits p panOfs)) with
  | none => .error stPinBlock
  | some pin =>
    if pin.length < polPinMin x.t.policy ∨ polPinMax x.t.policy < pin.length then .error stPolicy else .ok pin

/-- A PIN is encoded under a key, with a draw of the drill where the format needs one; none while the drill is empty. -/
def sealPin (s : State) (x : LJ) (fmt : Nat) (key : Bytes) (pin : List Nat) : Option (State × Bytes) :=
  let pan := panDigits (jParam x.d) 2
  if pinRandom fmt then
    (txRandom s x.y x.j 16).map fun r => (r.1, encodePin fmt key pin pan r.2)
  else some (s, encodePin fmt key pin pan [])

/-- The PIN a sealed register holds, one digit a byte. -/
def pinOf (r : Sealed) : List Nat := r.val.map (·.toNat)

/-- A register that holds a PIN. -/
def isPin (r : Sealed) : Bool :=
  match r.tag with
  | .pin _ => true
  | _ => false

/-- PANF is as R335 wants it. -/
def panField (p : Bytes) (ofs : Nat) (need : Bool) : Bool := if need then panOk p ofs else zeros p ofs 12

/-- A format whose block carries the PAN. -/
def fmtPan (fmt : Nat) : Bool := fmt == 0 || fmt == 3 || fmt == 4

/-! ### Derived entries -/

/-- The 11 bytes of a parent's identity (R292). -/
def identity (name : W64) (kcv : Bytes) : Bytes := be 8 name.toNat ++ fit 3 kcv

/-- A derived name: the leftmost 8 bytes of SHA-256 over a kind and its input (R292). -/
def derivedName (kind : Byte) (input : Bytes) : W64 := BitVec.ofNat 64 (beNat ((Config.hash 1 (kind :: input)).take 8))

/-- What the lookup of a derived entry comes to: its key, nothing, or the status that ends the job. -/
inductive DLook where
  | key (k : Bytes)
  | miss
  | fail (st : BitVec 16)

/-- The lookup of the n-th derived entry of a job, with its effects: the tag of its slot and its expiry are checked as of any cached key
(R276, R293, R318, R321). -/
def derivedLook (s : State) (x : LJ) (n : Nat) (name : W64) : State × DLook :=
  match kitLookup s x.t.plot name true with
  | (s1, .hit i) =>
    let e := kitAt s1.kp i
    if !tagOk s1 e.slot || x.ev == .tagFail (Fin.ofNat 4 (2 + n)) then (tagFailure s1 e.slot, .fail stUsage)
    else (useSlot s1 e.slot, .key (s1.slot e.slot).key)
  | (s1, .expired) => (s1, .fail stExpired)
  | (s1, .miss) => (s1, .miss)

/-- What a derivation learns (R292, R293). -/
def derivedOf (p : Nat) (name : W64) (alg : Nat) (attr : W32) (key : Bytes) : Learn :=
  { plot := p, name := name, derived := true,
    slot := { material := fit 32 key, attr := attr, alg := BitVec.ofNat 8 alg, len := BitVec.ofNat 8 key.length,
              kcv := kcvSym alg key } }

/-- A derived key of a job: found, or derived and to be learned, or the job's end by a status, or the conflict with another job that has
derived it at once with other material, whose entry goes (R295). -/
inductive DKey where
  | got (k : Bytes) (ls : List Learn)
  | fail (st : BitVec 16)
  | conflict

/-- The n-th derived key of a job, by its entry or derived (R292 to R295). -/
def deriveKey (s : State) (x : LJ) (n : Nat) (name : W64) (attr : W32) (make : Bytes) : State × DKey :=
  match derivedLook s x n name with
  | (s1, .key k) => (s1, .got k [])
  | (s1, .fail st) => (s1, .fail st)
  | (s1, .miss) =>
    if x.ev = .race (n == 1) then (s1, .conflict) else (s1, .got make [derivedOf x.t.plot name x.k1.alg attr make])

end Sys2Proof.Machine
end

