-- ==== Sys2Proof/Machine/AdmOps.lean ====
section
/-! DEFINITION. The common course of an admin command (R98 to R101, R608): the descriptor's checks, the gates,
the completion in the admin hopper and the failure register PLT_ADM_ERR. -/

namespace Sys2Proof.Machine

/-- The codes of all admin commands (Tables 3.3, 6.3, 7.11, 9.7, 10.6, 11.7, 12.5, 13.4, 14.5, 15.9). -/
def adminCodes : List Nat :=
  [0x101, 0x102, 0x103, 0x104, 0x105, 0x106, 0x107, 0x108, 0x109, 0x10A, 0x110, 0x111,
   0x120, 0x121, 0x122, 0x123, 0x124, 0x130, 0x131, 0x140, 0x141, 0x142, 0x150, 0x160, 0x161,
   0x170, 0x171, 0x172, 0x173, 0x174, 0x175, 0x176, 0x177, 0x178,
   0x180, 0x181, 0x182, 0x183, 0x184, 0x185, 0x186, 0x190, 0x191,
   0x1A0, 0x1A1, 0x1A2, 0x1A3, 0x1A4, 0x1A5, 0x1A6, 0x1A7]

/-- The descriptor checks of R55 that hold in every hopper: INLEN, reserved fields, reserved flags, EXTLEN, RESLEN. -/
def descOk (d : Bytes) (flagBits resLimit : Nat) : Bool :=
  decide (fld d 28 2 ≤ 72) && fld d 30 2 == 0 && decide (fld d 2 2 < 2 ^ flagBits) && decide (fld d 40 4 ≤ 65536) &&
    decide (fld d 44 4 ≤ resLimit)

/-- Steps 1 and 2 of R608: the descriptor's checks under version 2.1 (R40, R55), and a code that names no command. -/
def admBad (d : Bytes) : Option (BitVec 16 × Byte) :=
  if !descOk d 2 65536 then some (stDescriptor, 0)
  else if !adminCodes.contains (fld d 0 2) then some (stAbsent, 0x08)
  else none

/-- An admin descriptor as the steward reads it (Table 2.5). -/
def admOf (d : Bytes) : Adm :=
  { code := BitVec.ofNat 16 (fld d 0 2), flags := BitVec.ofNat 16 (fld d 2 2), tag := BitVec.ofNat 32 (fld d 4 4),
    inlen := fld d 28 2, inl := fit 72 ((cut d 56 72).take (fld d 28 2)), extLen := fld d 40 4, resLen := fld d 44 4,
    resAddr := BitVec.ofNat 64 (fld d 48 8), extAddr := BitVec.ofNat 64 (fld d 32 8), bad := admBad d }

/-- The learner is an admin command. -/
def adminLearner : Learner → Bool
  | .admin _ => true
  | _ => false

/-- The steward runs one admin command at a time (R99): a capture, a pairing or an admin command's insertion that has not
ended keeps the next one waiting. PLOT_STOP, PLOT_RESET, PLOT_REMOVE and a stop-change-restart let later commands run, as
R95, R126 and R509 describe (log 29). -/
def adminBusy (s : State) : Bool :=
  s.rng.capture.isSome || s.clu.pairAdm.isSome || s.kp.walkq.any fun x => adminLearner x.2

/-- The completion entry of an admin command; a silent one writes none (R494). -/
def admEntry (s : State) (d : Adm) (st : BitVec 16) (inl : Bytes) (ext : Bool) : State :=
  if d.silent then s
  else complete (landed s .admin) .admin { tag := d.tag, status := st, inl := inl, ext := ext, irqNow := d.flags.getLsbD 0 }

/-- Commands at the front of the steward's queue that fail steps 1 and 2 of R608 end in their turn (R99, R101). -/
def endBad : Nat → State → State
  | 0, s => s
  | n + 1, s =>
    match s.adm.queue with
    | [] => s
    | d :: rest =>
      match d.bad with
      | none => s
      | some (st, det) =>
        if adminBusy s then s
        else endBad n (admEntry { s with adm := { s.adm with queue := rest, errTag := d.tag, errDet := det } } d st [] false)

/-- What stands at the front of the steward's queue and needs no run of its own ends. -/
def endFront (s : State) : State := endBad s.adm.queue.length s

/-- An admin command ends with a status and an inline result (R98, R101). -/
def admEnd (s : State) (d : Adm) (st : BitVec 16) (inl : Bytes := []) (ext : Bool := false) : State :=
  endFront (admEntry s d st inl ext)

/-- An admin command ends OK with no result. -/
def admOk (s : State) (d : Adm) : State := admEnd s d stOK

/-- An admin command fails: its TAG and a detail code go into PLT_ADM_ERR (R101). -/
def admFail (s : State) (d : Adm) (st : BitVec 16) (detail : Byte) : State :=
  admEnd { s with adm := { s.adm with errTag := d.tag, errDet := detail } } d st

/-- An admin command writes a result to the result buffer and reports its length under EXT_RESULT (R65). -/
def admResult (s : State) (d : Adm) (res : Bytes) : State :=
  let s1 := if res.isEmpty then s else issueWrite s .pf0 d.resAddr res
  admEnd s1 d stOK (le 4 res.length) true

/-- The plot ID an admin command names. -/
def Adm.pid (d : Adm) : Nat := fld d.inl 0 2

/-- Inline bytes 2 and 3 are 0 and the plot ID is at most 1,023 (R98, R100). -/
def plotNamed (d : Adm) : Bool := decide (d.pid ≤ 1023) && zeros d.inl 2 2

/-- Inline bytes 0 to 3 are 0. -/
def noPlot (d : Adm) : Bool := zeros d.inl 0 4

/-- The scope of a custodian command: a plot ID, or 0x0400 for the manager (R470, R481). -/
def scopeNamed (d : Adm) : Bool := decide (d.pid ≤ 0x400) && zeros d.inl 2 2

/-- A plot is in one of the listed states. -/
def plotIn (l : List PlotSt) (s : State) (d : Adm) : Bool := l.contains (s.plot d.pid).st

/-- CREATED to STOPPED (Table 3.3). -/
def createdToStopped : List PlotSt := [.created, .opened, .stopping, .stopped]

/-- A module in DECOMMISSIONED serves only the commands R488 lists. -/
def notDecom (s : State) (_ : Adm) : Bool := decide (s.lcs.state.toNat < 4)

/-- No condition. -/
def always (_ : State) (_ : Adm) : Bool := true

/-- The checks of R608 from step 3 to step 8: the status and detail of the first that fails. `fallow` and `tamper`
say whether R503 and R438 let the command pass. -/
def gate (s : State) (d : Adm) (fallow tamper : Bool) (lcs args plot quorum : State → Adm → Bool) :
    Option (BitVec 16 × Byte) :=
  if s.lcs.fallow && !fallow then some (stFallow, 0)
  else if !s.lcs.fallow && s.kpr.tampered && !tamper then some (stTampered, 0)
  else if !lcs s d then some (stPolicy, 0x75)
  else if !args s d then some (stPolicy, 0x02)
  else if !plot s d then some (stNotOpen, 0x01)
  else if !quorum s d then some (stQuorum, 0x21)
  else none

/-- The admin command at the front of the steward's queue, where its code is `code`: its gates, then its own
course. Where another command is in front, or one still runs, nothing happens (R99, log 1). -/
def admin (code : BitVec 16) (fallow tamper : Bool) (lcs args plot quorum : State → Adm → Bool)
    (run : State → Adm → State) (s : State) : State :=
  match s.adm.queue with
  | [] => s
  | d :: rest =>
    if d.code = code ∧ d.bad = none ∧ adminBusy s = false then
      let s1 := { s with adm := { s.adm with queue := rest } }
      match gate s1 d fallow tamper lcs args plot quorum with
      | some (st, det) => admFail s1 d st det
      | none => run s1 d
    else s

/-- The data a host read brings, cut or filled to the length read; none where the read failed. -/
def readData (n : Nat) : HostRead → Option Bytes
  | .failed => none
  | .data b => some (fit n b)

/-- A plot admin command whose external data read failed (R57, R101). -/
def dataFail (s : State) (d : Adm) : State := admFail s d stDataFault 0x07

/-- A command goes on waiting at the front of the steward's queue. -/
def requeue (s : State) (d : Adm) : State := { s with adm := { s.adm with queue := d :: s.adm.queue } }

/-- An admin command reads `n` bytes of external data: the read is issued, and its failure ends the command (R57). With
n = 0 there is none (R52). While PF0's stream is Insecure no read goes out and none completes: the command waits (R92). -/
def admRead (s : State) (d : Adm) (n : Nat) (r : HostRead) (run : State → Bytes → State) : State :=
  if n = 0 then run s []
  else if heldFor s .pf0 then requeue s d
  else
    let s1 := issueRead s .pf0 d.extAddr n
    match readData n r with
    | none => dataFail s1 d
    | some b => run s1 b

/-- A standby refuses the command (R554); otherwise it runs. -/
def notStandby (run : State → Adm → State) (s : State) (d : Adm) : State :=
  if mirrors s then admFail s d stPolicy 0x96 else run s d

/-- The live quorum session a command needs in a scope and role (R103, R235). -/
def quorumOf (scope role : Nat) (s : State) (_ : Adm) : Bool := sessionLive s scope role

/-- A live Security Officer session of the manager function. -/
def managerSO (s : State) (_ : Adm) : Bool := sessionLive s modScope 0

/-- The outcome of an admin command that changes plot records or key-plane content is forwarded: its TAG, its 72 inline bytes and
the external data it read (R554). -/
def forwardData (s : State) (d : Adm) (data : Bytes) : State :=
  forward s (.pairAdmin { seq := s.clu.seq, code := d.code, plot := Fin.ofNat 1024 d.pid, ok := true,
                          desc := le 4 d.tag.toNat ++ fit 72 d.inl ++ data })

/-- The same for a command without external data. -/
def forwardAdmin (s : State) (d : Adm) : State := forwardData s d []

end Sys2Proof.Machine
end

