-- ==== Sys2Proof/Machine/Codes.lean ====
section
/-! DEFINITION. Instruction words: the formats of Table 4.5, the opcode map of Table 5.2, the traps of a major opcode (R162, R163,
R193, R196), and the word a core fetches (R228 to R230). -/

namespace Sys2Proof.Machine

/-! ### Formats -/

/-- The major opcode of a word: bits [31:24]. -/
def majorOf (w : W32) : Nat := (w.extractLsb' 24 8).toNat
/-- Bit 23, E: an extension word follows. -/
def extBit (w : W32) : Bool := w.getLsbD 23

/-- Format M: MODE, SZ, SUB, F16 (Table 4.5). -/
def insOf (w ext : W32) : Ins :=
  { e := extBit w, mode := w.extractLsb' 20 3, sz := w.extractLsb' 18 2, sub := w.extractLsb' 16 2, f16 := w.extractLsb' 0 16,
    ext := if extBit w then ext else 0 }
/-- Format B: COND, OFS (Table 4.5). -/
def insBOf (w : W32) : InsB := { e := extBit w, cond := w.extractLsb' 19 4, ofs := w.extractLsb' 0 19 }
/-- Format L: S, CNT, END (Table 4.5). -/
def insLOf (w ext : W32) : InsL :=
  { e := extBit w, s := w.getLsbD 22, cnt := w.extractLsb' 12 10, ends := w.extractLsb' 0 12, ext := if extBit w then ext else 0 }
/-- Format P: S, [21:8], N1 (Table 4.5). -/
def insPOf (w : W32) : InsP := { e := extBit w, s := w.getLsbD 22, mbz := w.extractLsb' 8 14, n1 := w.extractLsb' 0 8 }

/-! ### The opcode map -/

/-- The instructions of format M by their major opcode (Table 5.2). -/
def decodeM (c : CoreId) (m : Nat) (i : Ins) : Option Instr :=
  match m with
  | 0x01 => some (.add c i) | 0x02 => some (.adc c i) | 0x03 => some (.sub c i) | 0x04 => some (.sbc c i)
  | 0x05 => some (.cmp c i) | 0x06 => some (.and c i) | 0x07 => some (.or c i) | 0x08 => some (.xor c i)
  | 0x09 => some (.tst c i) | 0x0A => some (.neg c i) | 0x0B => some (.not c i)
  | 0x20 => some (.lda c i) | 0x21 => some (.ldx c i) | 0x22 => some (.ldy c i) | 0x23 => some (.ldsp c i)
  | 0x24 => some (.sta c i) | 0x25 => some (.stx c i) | 0x26 => some (.sty c i)
  | 0x28 => some (.push c i) | 0x29 => some (.pop c i) | 0x2A => some (.leax c i) | 0x2B => some (.leay c i)
  | 0x30 => some (.mul c i) | 0x31 => some (.muls c i) | 0x32 => some (.clrm c i)
  | 0x34 => some (.macd c i) | 0x35 => some (.macs c i) | 0x36 => some (.macc c i)
  | 0x38 => some (.divu c i) | 0x39 => some (.divs c i)
  | 0x40 => some (.shl c i) | 0x41 => some (.shr c i) | 0x42 => some (.sar c i) | 0x43 => some (.rol c i)
  | 0x44 => some (.ror c i) | 0x45 => some (.bset c i) | 0x46 => some (.bclr c i) | 0x47 => some (.btst c i)
  | 0x48 => some (.clz c i) | 0x49 => some (.popc c i) | 0x4A => some (.bswp c i)
  | 0x52 => some (.ret c i) | 0x53 => some (.jmp c i) | 0x54 => some (.callr c i) | 0x55 => some (.rte c i)
  | 0x61 => some (.lpop c i)
  | 0x70 => some (.kfnd c i) | 0x71 => some (.ljob c i) | 0x72 => some (.pjob c i) | 0x73 => some (.wjob c i)
  | 0x74 => some (.rand c i) | 0x75 => some (.rply c i) | 0x76 => some (.xfer c i) | 0x77 => some (.done c i)
  | 0x78 => some (.fail c i)
  | 0xE0 => some (.wait c i) | 0xE1 => some (.fence c i) | 0xE2 => some (.evack c i)
  | _ => none

/-- The instruction that a word and its extension word spell on a core; none where the major opcode is assigned to none (Tables 4.5
and 5.2). A field that the instruction does not accept is its own trap (R160, R163). -/
def decodeIns (c : CoreId) (w ext : W32) : Option Instr :=
  match majorOf w with
  | 0x50 => some (.bcond c (insBOf w))
  | 0x51 => some (.call c (insBOf w))
  | 0x60 => some (.loop c (insLOf w ext))
  | 0x62 => some (.rpt c (insPOf w))
  | m => decodeM c m (insOf w ext)

/-- An instruction has the major opcode (Table 5.2). -/
def assigned (m : Nat) : Bool := (decodeIns .steward (BitVec.ofNat 32 (m % 256 * 2 ^ 24)) 0).isSome

/-- Orders 2 to 4 of Table 5.1 for a major opcode: the trap it takes in a mode, none where an instruction of the mode has it. -/
def majorTrap (priv : Bool) (m : Nat) : Option Trap :=
  if m = 0 ∨ m = 0xFF ∨ (0x70 ≤ m ∧ m ≤ 0x7F ∧ priv) then some .illegalFormat
  else if 0xE0 ≤ m ∧ m ≤ 0xEF ∧ !priv then some .priv
  else if assigned m then none
  else some .reservedOpcode

/-- The trap of a fetched word that is no instruction; none where the word is one. -/
def wordTrap (priv : Bool) : Hw → Option Trap
  | .word m => majorTrap priv m.toNat
  | _ => none

/-- The core fetched a word that the command does not stand for. -/
def noInstr : Hw → Bool
  | .word _ => true
  | _ => false

/-! ### The program store -/

/-- Vendor program 0x0010, PIN_TRANSLATE, as it stands in the library (06, An annotated PIN translate). -/
def pinTranslate : List W32 :=
  [0x702D0008, 0x50700021, 0x207C0001, 0x241C0108,   -- KFND2 [X+8]; BKS fail; LDA AH; STA 0x0108
   0x2024001C, 0x030C0010, 0x050C0008, 0x50080003,   -- LDA.16 [X+28]; SUB #16; CMP #8; BEQ len_ok
   0x050C0010, 0x5010001A, 0x24140112, 0x208C0000,   -- CMP #16; BNE bad; STA.16 0x0112; LDA #0xC048
   0x0000C048, 0x24140110, 0x200C0001, 0x24140100,   -- STA.16 0x0110; LDA #1; STA.16 0x0100
   0x208C0000, 0x0000E000, 0x24140118, 0x200C0010,   -- LDA #0xE000; STA.16 0x0118; LDA #16
   0x2414011A, 0x202C0038, 0x241C0120, 0x202C0040,   -- STA.16 0x011A; LDA [X+56]; STA 0x0120; LDA [X+64]
   0x241C0128, 0x711C0100, 0x50700008, 0x737C0001,   -- STA 0x0128; LJOB 0x0100; BKS fail; WJOB AH
   0x50700006, 0x2018F008, 0x060C001F, 0x247C0002,   -- BKS fail; LDA.32 0xF008; AND #0x1F; MOV X
   0x200C0000, 0x777C0002, 0x787C0000, 0x780C0900]   -- LDA #0; DONE X; FAIL A; FAIL #0x0900

/-- The library's word at an address: 0x0010's own code at its entry, elsewhere what the firmware image brought (R231). -/
def libWord (lib : Bytes) (a : Nat) : W32 :=
  let e := (Config.vendorEntry lib 0x10).toNat
  if e ≤ a ∧ a < e + 4 * pinTranslate.length then pinTranslate.getD ((a - e) / 4) 0 else BitVec.ofNat 32 (fld lib a 4)

/-- The word of the program store at an address, as the yokes of every row fetch it: the vendor library below 0x30000, the customer
images from there (R228). -/
def storeWord (s : State) (a : Nat) : W32 :=
  if a < 0x30000 then libWord s.prog.lib a
  else match s.prog.images.find? fun x => decide (imageBase x.2 ≤ a) && decide (a < imageBase x.2 + x.2.codeLen) with
    | some x => BitVec.ofNat 32 (fld x.2.code (a - imageBase x.2) 4)
    | none => 0

/-- The word at a core's address: a yoke fetches from the program store, the steward from the fabric. -/
def wordAt (s : State) (c : CoreId) (a : Nat) : W32 :=
  match c with
  | .tiller _ => storeWord s a
  | .steward => BitVec.ofNat 32 (leNat (mread s.stw.mem a 4))

/-- The instruction at a core's PC; none where its word is no instruction, and then the core traps (R163). The command that a sender
queues for a core is the instruction that the core fetches (log 15). -/
def nextIns (s : State) (c : CoreId) (pc : W32) : Option Instr :=
  decodeIns c (wordAt s c pc.toNat) (wordAt s c (pc.toNat + 4))

end Sys2Proof.Machine
end

