-- ==== Sys2Proof/Machine/Operands.lean ====
section
/-! DEFINITION. Operands of the Swimomos instruction set: registers (Table 4.1), addressing modes (Table 4.6), bench
and fabric accesses (R159, R185), hardware loops (R170), traps (R179), and the course of one instruction
(R174 to R177, R192, R193, R253, R254). -/

namespace Sys2Proof.Machine

/-! ### Cores and registers -/

/-- The registers of a core. -/
def State.core (s : State) : CoreId → Core
  | .tiller y => (s.yoke y).core
  | .steward => s.stw.core
/-- The state with a core's registers replaced. -/
def State.setCore (s : State) (c : CoreId) (k : Core) : State :=
  match c with
  | .tiller y => s.modYoke y fun x => { x with core := k }
  | .steward => { s with stw := { s.stw with core := k } }

/-- ISALVL: EMUL 0x02, LEVEL 0x02. -/
def isalvl : W64 := 0x0202

/-- The 64 bits of TC. -/
def Core.tc (k : Core) : W64 :=
  BitVec.ofNat 64 (k.tmargin.toNat * 2 ^ 48 + k.rptleft.toNat * 2 ^ 32 + k.cause.toNat * 2 ^ 24 + k.sfl.toNat * 2 ^ 8 +
    k.lbase.toNat * 2 ^ 6 + flag k.ie 5 + k.ldepth.toNat * 2 ^ 3 + flag k.intrap 2 + flag k.priv 1 + flag k.dztrap 0)

/-- A write of TC: TMARGIN, SFL, DZTRAP, and IE in privileged mode (R199). -/
def Core.setTc (k : Core) (v : W64) : Core :=
  { k with tmargin := v.extractLsb' 48 16, sfl := v.extractLsb' 8 7, dztrap := v.getLsbD 0,
           ie := if k.priv then v.getLsbD 5 else k.ie }

/-- Loop level i. -/
def Core.lvl (k : Core) (i : Nat) : LoopLvl := tget {} k.lp i
/-- The core with a loop level changed. -/
def Core.modLvl (k : Core) (i : Nat) (f : LoopLvl → LoopLvl) : Core := { k with lp := tmod {} i f k.lp }

/-- A register number that no register has (R147). -/
def noReg (n : Nat) : Bool := n == 19 || n == 23 || decide (27 ≤ n)
/-- A steward register (R147, R186). -/
def privReg (n : Nat) : Bool := decide (10 ≤ n) && decide (n ≤ 15)
/-- A loop register (R175). -/
def loopReg (n : Nat) : Bool := decide (16 ≤ n) && !noReg n

/-- The value of register n (Table 4.1). -/
def Core.reg (k : Core) (n : Nat) : W64 :=
  match n with
  | 0 => k.a
  | 1 => k.ah
  | 2 => k.x
  | 3 => k.y
  | 4 => k.sp
  | 5 => k.fl.bits.setWidth 64
  | 6 => k.tc
  | 7 => k.tv.setWidth 64
  | 8 => k.epc.setWidth 64
  | 9 => isalvl
  | 16 | 17 | 18 => (k.lvl (n - 16)).ls.setWidth 64
  | 20 | 21 | 22 => (k.lvl (n - 20)).le.setWidth 64
  | 24 | 25 | 26 => (k.lvl (n - 24)).lc.setWidth 64
  | _ => tget 0 k.xr n

/-- The core after a write of register n (R147, R148, R178, R199). -/
def Core.setReg (k : Core) (n : Nat) (v : W64) : Core :=
  match n with
  | 0 => { k with a := v }
  | 1 => { k with ah := v }
  | 2 => { k with x := v }
  | 3 => { k with y := v }
  | 4 => { k with sp := v }
  | 5 => { k with fl := k.fl.write v.toNat }
  | 6 => k.setTc v
  | 7 => { k with tv := (v.setWidth 32) &&& 0xFFFFFF00 }
  | 8 => { k with epc := v.setWidth 32 }
  | 9 => k
  | 16 | 17 | 18 => k.modLvl (n - 16) fun l => { l with ls := v.setWidth 32 }
  | 20 | 21 | 22 => k.modLvl (n - 20) fun l => { l with le := v.setWidth 32 }
  | 24 | 25 | 26 => k.modLvl (n - 24) fun l => { l with lc := v.setWidth 32 }
  | _ => { k with xr := tset 0 n v k.xr }

/-- All modes, all but immediate, the memory modes of 0x70 to 0x78 (R211). -/
def allModes : List Nat := [0, 1, 2, 3, 4, 5, 6, 7]
def storeModes : List Nat := [1, 2, 3, 4, 5, 6, 7]
def recordModes : List Nat := [1, 2, 3, 6]

end Sys2Proof.Machine

namespace Sys2Proof

open Sys2Proof.Machine

/-! ### Modes and effective addresses -/

/-- Bytes of the operand size SZ. -/
def Ins.bytes (i : Ins) : Nat := 2 ^ i.sz.toNat
/-- The register number F16[4:0]. -/
def Ins.rn (i : Ins) : Nat := (i.f16.extractLsb' 0 5).toNat

/-- The displacement: F16 or the extension word, sign-extended (R158). -/
def Ins.disp (i : Ins) : W64 := if i.e then i.ext.signExtend 64 else i.f16.signExtend 64

/-- The effective address in 64 bits, as LEAX and LEAY leave it (R158, R201). -/
def Ins.ea (i : Ins) (k : Core) : W64 :=
  match i.mode.toNat with
  | 1 => if i.e then i.ext.setWidth 64 else i.f16.setWidth 64
  | 2 => k.x + i.disp
  | 3 => k.y + i.disp
  | 4 => k.x
  | 5 => k.y
  | _ => k.sp + i.disp

/-- An index register plus a displacement, without wrap (R158): a sum of 2^64 or more stands as 2^64 − 1, an address that every access
refuses (log 41). -/
def indexed (b d : W64) : W64 :=
  if 2 ^ 64 ≤ (b.toNat : Int) + d.toInt then BitVec.allOnes 64 else b + d

/-- The address of an instruction's access (R158). -/
def Ins.addr (i : Ins) (k : Core) : W64 :=
  match i.mode.toNat with
  | 2 => indexed k.x i.disp
  | 3 => indexed k.y i.disp
  | 6 => indexed k.sp i.disp
  | _ => i.ea k

/-- MODE, SZ, E and F16 are ones the instruction accepts (R158, R160, R194); the register exists (R147). -/
def Ins.modeOk (i : Ins) (k : Core) (modes : List Nat) (sz3 : Bool) : Bool :=
  let m := i.mode.toNat
  modes.contains m && (!sz3 || i.sz == 3) &&
    (if m = 1 then !i.e || k.priv
     else if m = 4 ∨ m = 5 then !i.e && i.f16 == 0
     else if m = 7 then !i.e && (i.f16.extractLsb' 5 11) == 0 && i.sz == 3 && !noReg i.rn
     else true)

/-- A user-mode instruction does not name a steward register (R147). -/
def Ins.privOk (i : Ins) (k : Core) : Bool := k.priv || i.mode != 7 || !privReg i.rn

/-- An instruction with no operand: bits [22:0] are 0 (R194). -/
def Ins.noOperand (i : Ins) : Bool := i.mode == 0 && i.sz == 0 && i.f16 == 0

/-- The core after the post-increment of its mode (R158). -/
def Ins.post (i : Ins) (k : Core) : Core :=
  match i.mode.toNat with
  | 4 => { k with x := k.x + BitVec.ofNat 64 i.bytes }
  | 5 => { k with y := k.y + BitVec.ofNat 64 i.bytes }
  | _ => k

/-- A register operand reads A, AH or FL (R167). -/
def Ins.readsMac (i : Ins) : Bool := i.mode == 7 && (i.rn == 0 || i.rn == 1 || i.rn == 5)

end Sys2Proof

namespace Sys2Proof.Machine

/-- A value of a size, zero- or sign-extended to 64 bits (R157). -/
def fitVal (n : Nat) (signed : Bool) (v : W64) : W64 :=
  let w := 8 * n
  let z := v.toNat % 2 ^ w
  if signed then BitVec.ofNat 64 (wrap 64 (sgn w z)) else BitVec.ofNat 64 z

/-! ### Accesses -/

/-- The regions of the bench (Table 4.3). -/
inductive Region where
  | scratch | command | result
  deriving DecidableEq, Repr

/-- The region of a bench address below port space. -/
def regionOf (a : Nat) : Region := if a < 0xC000 then .scratch else if a < 0xE000 then .command else .result

/-- A run of bytes lies wholly within one region of a list (R203, R211, R245). -/
def rangeIn (l : List Region) (a n : Nat) : Bool :=
  let e := a + max n 1 - 1
  decide (e < 0xF000) && regionOf a == regionOf e && l.contains (regionOf a)

/-- Every readable region, and the writable ones. -/
def readable : List Region := [.scratch, .command, .result]
def writable : List Region := [.scratch, .result]

/-- A load of `n` bytes on a tiller (R146, R150, R155, R159). -/
def benchLoad (s : State) (y : Nat) (hw : Hw) (a : W64) (n : Nat) : Acc W64 :=
  let p := a.toNat
  if 0xFFFF < p then .trap s .benchFault
  else if 0xF000 ≤ p then portRead s y p n
  else if p % n ≠ 0 then .trap s .misalign
  else if hw = .benchUnc then .stop (yokeFault s y 2)
  else .ok s (BitVec.ofNat 64 (leNat (mread (s.yoke y).bench p n)))

/-- A store of `n` bytes on a tiller (R144, R155, R159). -/
def benchStore (s : State) (y : Nat) (hw : Hw) (a : W64) (n : Nat) (v : W64) : Acc W64 :=
  let p := a.toNat
  if 0xFFFF < p then .trap s .benchFault
  else if 0xF000 ≤ p then
    match portWrite s y p n v with
    | .ok s1 x => if hw = .mismatch then .stop (yokeFault s y 1) else .ok s1 x
    | r => r
  else if regionOf p = .command then .trap s .benchFault
  else if p % n ≠ 0 then .trap s .misalign
  else if hw = .mismatch then .stop (yokeFault s y 0)
  else .ok (benchPut s y p (le n v.toNat)) 0

/-- The steward's load from a fabric address (R185, R455); while a hold lasts the access waits (R458). -/
def fabricLoad (s : State) (a : W64) (n : Nat) : Acc W64 :=
  let p := a.toNat
  if 2 ^ 32 ≤ p then .trap s .benchFault
  else if s.hdg.hold then .stop s
  else
    let r := hedgeCheck s 0 0 p n
    if r.2 then .ok r.1 (BitVec.ofNat 64 (leNat (mread s.stw.mem p n))) else .trap r.1 .benchFault

/-- The steward's store to a fabric address (R185, R455, R458). -/
def fabricStore (s : State) (a : W64) (n : Nat) (v : W64) : Acc W64 :=
  let p := a.toNat
  if 2 ^ 32 ≤ p then .trap s .benchFault
  else if s.hdg.hold then .stop s
  else
    let r := hedgeCheck s 0 1 p n
    if r.2 then .ok { r.1 with stw := { r.1.stw with mem := mwrite r.1.stw.mem p (le n v.toNat) } } 0
    else .trap r.1 .benchFault

/-- A load of `n` bytes: bench in user mode, fabric in privileged mode. -/
def load (s : State) (c : CoreId) (hw : Hw) (a : W64) (n : Nat) : Acc W64 :=
  match c with
  | .tiller y => benchLoad s y hw a n
  | .steward => fabricLoad s a n

/-- A store of `n` bytes. -/
def store (s : State) (c : CoreId) (hw : Hw) (a : W64) (n : Nat) (v : W64) : Acc W64 :=
  match c with
  | .tiller y => benchStore s y hw a n v
  | .steward => fabricStore s a n v

/-- Cycles a load from an address adds to an instruction (R166, R195). -/
def loadCost (c : CoreId) (a : W64) : Nat :=
  match c with
  | .steward => 1
  | .tiller _ => if 0xF000 ≤ a.toNat then 3 + portLatency a.toNat else 1

/-- The operand value of an instruction and the cycles its access adds (05, opval). -/
def opval (s : State) (c : CoreId) (k : Core) (i : Ins) (signed : Bool) : Acc (W64 × Nat) :=
  match i.mode.toNat with
  | 0 => .ok s (fitVal i.bytes signed i.disp, 0)
  | 7 => .ok s (k.reg i.rn, 0)
  | _ => (load s c i.hw (i.addr k) i.bytes).bind fun s v => .ok s (fitVal i.bytes signed v, loadCost c (i.addr k))

/-! ### Loops, traps, the course of an instruction -/

/-- The loop procedure of R170 at a sequential arrival at e; `k` is LDEPTH as the levels end. -/
def loopEnd (core : Core) (e : W32) : Nat → Core
  | 0 => { core with ldepth := 0, pc := e }
  | d + 1 =>
    let l := core.lvl d
    if d < core.lbase.toNat ∨ l.le ≠ e then { core with ldepth := BitVec.ofNat 2 (d + 1), pc := e }
    else if 1 < l.lc.toNat then
      { (core.modLvl d fun l => { l with lc := l.lc - 1 }) with ldepth := BitVec.ofNat 2 (d + 1), pc := l.ls }
    else loopEnd core e d

/-- A sequential arrival at an address (R170). -/
def arrive (k : Core) (e : W32) : Core := loopEnd k e k.ldepth.toNat

/-- The entry actions of a trap (R179) with a cause, the address for EPC and the vector's offset. -/
def trapEntry (k : Core) (cause : Nat) (addr : W32) (offset : Nat) : Core :=
  { k with epc := addr, sfl := k.fl.bits, cause := BitVec.ofNat 5 cause, rptleft := BitVec.ofNat 9 k.rpt,
           lbase := k.ldepth, intrap := true, pc := k.tv + BitVec.ofNat 32 offset, rpt := 0, rptOn := false,
           cyc := k.cyc + 4 }

/-- A trap: the handler is entered, or, inside a handler, the transaction ends with PROGRAM_TRAP; the steward then waits
for its watchdog (R179, R182, R186, R192). The vendor stub at TV = 0 emulates no opcode, ISALVL.EMUL being the hardware's level, and
so ends the transaction with PROGRAM_TRAP at every trap (R183, log 15). `old` is the state before the instruction. DESIGN CHOICE (log 117): a trap takes the 4 cycles
of its entry alone; the instruction that traps adds none of its own (R166, Table 4.10). -/
def takeTrap (old s : State) (c : CoreId) (t : Trap) (addr : W32) : State :=
  match c with
  | .tiller y =>
    let k := old.core c
    if k.intrap || k.tv == 0 then endWith old y stTrap
    else old.setCore c (trapEntry k t.cause addr (16 * t.cause))
  | .steward =>
    let k := s.core c
    if k.intrap then { s with stw := { s.stw with dead := true } }
    else s.setCore c (trapEntry k t.cause addr (16 * t.cause))

/-- Where control goes after an instruction. -/
inductive Flow where
  | seq
  | jump (pc : W32)
  | rep (n : Nat)
  | skip (pc : W32)

/-- An instruction that went on: the registers it leaves, where control goes, the cycles it took. -/
structure Done where
  core : Core
  flow : Flow := .seq
  cost : Nat := 1

/-- The next address. -/
def nextPc (k : Core) (ext : Bool) : W32 := k.pc + (if ext then 8 else 4)

/-- The registers once an instruction has completed: the repetition counts down (R174, R176), the loop procedure runs at
the last one (R177). -/
def complete1 (k : Core) (ext : Bool) (d : Done) : Core :=
  let c1 := { d.core with cyc := d.core.cyc + d.cost + (if ext then 1 else 0) }
  match d.flow with
  | .jump pc => { c1 with pc := pc, rpt := 0, rptOn := false }
  | .rep n => { c1 with pc := nextPc k ext, rpt := n, rptOn := false }
  | .skip pc => arrive c1 pc
  | .seq =>
    if 1 < k.rpt then { c1 with rpt := k.rpt - 1, rptOn := true }
    else arrive { c1 with rpt := 0, rptOn := false } (nextPc k ext)

/-- A program store word may be fetched by a transaction's program (R228, R229). -/
def fetchOk (s : State) (t : Tx) (a : Nat) : Bool :=
  decide (a % 4 = 0) &&
    (decide (a + 4 ≤ 0x30000) ||
      match t.image with
      | some i =>
        let g := tget Image.zero s.prog.images i
        decide (imageBase g ≤ a) && decide (a + 4 ≤ imageBase g + g.codeLen)
      | none => false)

/-- The address of the first word of an instruction that a core may not fetch (R193 order 1, R206, R454). -/
def fetchFault (s : State) (c : CoreId) (k : Core) (ext : Bool) : Option W32 :=
  let bad (a : W32) : Bool := match c with
    | .tiller y => (match s.tx y with | some t => !fetchOk s t a.toNat | none => true)
    | .steward => a.toNat % 4 ≠ 0 || (firstForbidden s.hdg 0 2 a.toNat 4).isSome
  if bad k.pc then some k.pc else if ext && bad (k.pc + 4) then some (k.pc + 4) else none

/-- A core runs instructions now: a tiller runs a program, has its clock and is not halted (R20, R149, R469); the steward
runs once it has been started, unless it waits in WAIT, is halted or awaits its watchdog. -/
def active (s : State) (c : CoreId) : Bool :=
  match c with
  | .tiller y =>
    pllUp s 1 && !(s.yoke y).faulted && !(s.yoke y).halted &&
      match s.tx y with
      | some t => decide (t.phase = .running)
      | none => false
  | .steward =>
    (decide (s.lcs.phase = .starting) || decide (s.lcs.phase = .live) || decide (s.lcs.phase = .full)) &&
      !s.stw.waiting && !s.stw.halted && !s.stw.dead

/-- FL.T once the margin is reached (R151). -/
def marginFlag (s : State) (c : CoreId) : State :=
  match c with
  | .steward => s
  | .tiller y =>
    match s.tx y with
    | none => s
    | some t =>
      let k := (s.yoke y).core
      if k.tmargin ≠ 0 ∧ t.fwd = false ∧ t.deadline - s.now ≤ k.tmargin.toNat then
        s.setCore c { k with fl := { k.fl with t := true } }
      else s

/-- The deadline of a tiller's transaction has passed (R253). -/
def overdue (s : State) (c : CoreId) : Bool :=
  match c with
  | .steward => false
  | .tiller y => match s.tx y with | some t => !t.fwd && decide (t.deadline ≤ s.now) | none => false

/-- The watchdog stops a program at an instruction boundary (R82, R253). -/
def watchdog (s : State) (c : CoreId) : State :=
  match c with
  | .steward => s
  | .tiller y =>
    match s.tx y with
    | none => s
    | some t =>
      endWith (forwardAbort s y) y (if stalledForRandom t then stNoEntropy else stDeadline)

/-- What the error code of the bench or the program store reports while an instruction runs (R146, R230). -/
def eccNote (s : State) (c : CoreId) (hw : Hw) : State :=
  match c, hw with
  | .tiller y, .eccCorr => yokEvent (s.modYoke y fun k => { k with eccCnt := bump k.eccCnt }) 2
  | _, _ => s

/-- The steward's events that are pending, lowest first. -/
def pendingEvents (s : State) : List Nat := (List.range 16).filter fun k => s.stw.events.getLsbD k

/-- The steward takes event k: the entry actions of R179 at TV + 0x100 + 0x10·k (R186). -/
def takeEvent (s : State) (k : Nat) : State :=
  let c := s.stw.core
  { s with stw := { s.stw with waiting := false, core := trapEntry c (16 + k) c.pc (0x100 + 0x10 * k) } }

/-- With TC.IE = 1 and no handler running the steward takes its lowest pending event: as it arrives, as IE is set, as RTE leaves a
handler, as WAIT stops (R186, R225). -/
def pumpEvents (s : State) : State :=
  match (pendingEvents s).head? with
  | some e => if s.stw.core.ie && !s.stw.core.intrap then takeEvent s e else s
  | none => s

/-- The cycles a stalled port access waited are added to its instruction: a free number (R166, log 16). -/
def addStall (s : State) (y : Nat) : State :=
  match s.tx y with
  | some t =>
    if t.wait = .port then
      (drawn s 1).modYoke y fun k =>
        { k with core := { k.core with cyc := k.core.cyc + (Config.freeWord s.free).toNat % 2 ^ 32 } }
    else s
  | none => s

/-- An instruction that completes passes a boundary, and its wait is over (R166, R176, R556); the steward may take an event there. -/
def passBoundary (s : State) (c : CoreId) : State :=
  match c with
  | .tiller y => (addStall s y).modTx y fun t => { t with bounds := t.bounds + 1, wait := .none }
  | .steward => pumpEvents s

/-- The standby's copy stops at this boundary (R556). -/
def copyStops (s : State) (c : CoreId) : Bool :=
  match c with
  | .tiller y => match s.tx y with | some t => t.atStop | none => false
  | .steward => false

/-- The effect of an instruction at its boundary: a fetch that is not permitted traps (R193, R206), as does a word that is no
instruction (R162, R163); then the instruction's own effect, its trap, or its wait. -/
def runBody (c : CoreId) (hw : Hw) (ext : Bool) (body : State → Core → Acc Done) (s0 : State) : State :=
  let k := s0.core c
  match fetchFault s0 c k ext with
  | some a =>
    let s1 := match c with
      | .steward => (hedgeCheck s0 0 2 a.toNat 4).1
      | .tiller _ => s0
    takeTrap s0 s1 c .fetchFault a
  | none =>
    if noInstr hw then
      (match wordTrap k.priv hw with
        | some t => takeTrap s0 s0 c t k.pc
        | none => s0)
    else match body s0 k with
    | .ok s1 d => passBoundary (s1.setCore c (complete1 k ext d)) c
    | .trap s1 t => takeTrap s0 s1 c t k.pc
    | .stop s1 => s1

/-- The standby's copy of a tiller's transaction stops (R556). -/
def stopAtBoundary (s : State) : CoreId → State
  | .tiller y => stopCopy s y
  | .steward => s

/-- An uncorrectable word of the program store under a tiller is a yoke fault (R230). -/
def fetchUnc (s : State) (hw : Hw) : CoreId → Option State
  | .tiller y => if hw = .fetchUnc then some (yokeFault s y 2) else none
  | .steward => none

/-- The instruction at a boundary where nothing stops its core: an uncorrectable fetch is a yoke fault (R230); then its effect
(R151, R192, R193). -/
def atBoundary (c : CoreId) (hw : Hw) (ext : Bool) (body : State → Core → Acc Done) (s : State) : State :=
  match fetchUnc s hw c with
  | some t => t
  | none => runBody c hw ext body (marginFlag (eccNote s c hw) c)

/-- A yoke fault in the same cycle as the deadline wins (R191): the deadline of the core's transaction is now, and the
instruction leaves its yoke faulted. -/
def faultWins (s : State) (c : CoreId) (r : State) : Bool :=
  match c with
  | .steward => false
  | .tiller y => match s.tx y with
    | some t => decide (t.deadline = s.now) && (r.yoke y).faulted
    | none => false

/-- The deadline has passed at the boundary: the watchdog stops the program (R253), unless a yoke fault of this cycle does
(R191). -/
def pastDeadline (c : CoreId) (hw : Hw) (ext : Bool) (body : State → Core → Acc Done) (s : State) : State :=
  if faultWins s c (atBoundary c hw ext body s) then atBoundary c hw ext body s else watchdog s c

/-- What the lockstep and the error codes find on a yoke whose transaction a reset has squashed: the fault still counts (R191). Of which
of the two write mismatches it is, is a free choice. -/
def faultAfter (c : CoreId) (hw : Hw) (finish : Bool) (s : State) : State :=
  match c with
  | .steward => s
  | .tiller y => match hw with
    | .mismatch =>
      if finish then lateFault s y 3 else lateFault (drawn s 1) y (if Config.freeBool s.free then 1 else 0)
    | .benchUnc | .fetchUnc => lateFault s y 2
    | _ => s

/-- An instruction of a core: nothing where the core does not run, but for a fault that comes late; the watchdog at the boundary (R253; DONE and FAIL
take effect there, R254); then the instruction. -/
def runIns (c : CoreId) (hw : Hw) (ext finish : Bool) (body : State → Core → Acc Done) (s : State) : State :=
  if active s c = false then faultAfter c hw finish s
  else if copyStops s c then stopAtBoundary s c
  else if overdue s c && !finish then pastDeadline c hw ext body s
  else atBoundary c hw ext body s

/-- Orders 2 to 7 of Table 5.1. `cls`: 0 an ordinary instruction, 1 one of 0x70 to 0x78, 2 one of 0xE0 to 0xE2. `rep` says
whether R175 lets a repeat carry the instruction. -/
def checks (k : Core) (cls : Nat) (sub rep fmt priv : Bool) : Option Trap :=
  let beyond := decide (0 < k.ldepth.toNat) && decide ((k.lvl (k.ldepth.toNat - 1)).le.toNat ≤ k.pc.toNat)
  if cls = 1 ∧ k.priv then some .illegalFormat
  else if cls = 2 ∧ !k.priv then some .priv
  else if !sub then some .reservedOpcode
  else if k.rpt ≠ 0 ∧ (!rep ∨ beyond) then some .illegalRepeat
  else if !fmt then some .illegalFormat
  else if !priv then some .priv
  else none

/-- A reader of A, AH or the flags waits until 4 cycles after the last multiply-accumulate (R167, R202). -/
def macStall (k : Core) (reads : Bool) : Core :=
  match k.macAt with
  | some t => if reads then { k with cyc := max k.cyc (t + 4) } else k
  | none => k

end Sys2Proof.Machine
end

