-- ==== Sys2Proof/Machine/TillerKeys.lean ====
section
/-! DEFINITION. The key, job and finish instructions 0x70 to 0x78 (05, R209 to R224), the end of a vault reload (R307) and
of an XFER's host read (R221). -/

namespace Sys2Proof.Machine

/-! ### Shapes -/

/-- A tiller instruction of 0x70 to 0x78: the checks of Table 5.1, then its body on yoke y. -/
def keyIns (c : CoreId) (i : Ins) (sub fmt finish reads : Bool) (body : State → Nat → Tx → Core → Acc Done) (s : State) : Res :=
  .next (runIns c i.hw i.e finish (fun s k0 =>
    match checks k0 1 sub false fmt (i.privOk k0) with
    | some t => .trap s t
    | none => match c with
      | .steward => .trap s .illegalFormat
      | .tiller y => match s.tx y with
        | none => .stop s
        | some t => body s y t (macStall k0 reads)) s)

/-- The bytes of a record at an address: wholly in one window, aligned, readable without error (R211). -/
def record (s : State) (y : Nat) (hw : Hw) (a : W64) (n align : Nat) (l : List Region) : Acc Bytes :=
  let p := a.toNat
  if 0xFFFF < p || !rangeIn l p n then .trap s .benchFault
  else if p % align ≠ 0 then .trap s .misalign
  else if hw = .benchUnc then .stop (yokeFault s y 2)
  else .ok s (mread (s.yoke y).bench p n)

/-- A write of the leader that the follower does not produce never commits (R144, R187). -/
def agree (s : State) (y : Nat) (hw : Hw) (kind : Nat) (k : State → Acc Done) : Acc Done :=
  if hw = .mismatch then .stop (yokeFault s y kind) else k s

/-- The status goes into A and decides K (R209). -/
def setStatus (k : Core) (st : BitVec 16) : Core :=
  { k with a := st.setWidth 64, fl := { k.fl with k := st != stOK && st != stExisting } }

/-- The instruction completes in a time the spec gives as "about", or after a wait: issue cycles no one fixes (log 3). -/
def doneFree (s : State) (k : Core) (base : Nat) : Acc Done :=
  .ok (drawn s 1) { core := k, cost := base + (Config.freeWord s.free).toNat % 2 ^ 32 }

/-- The program waits: nothing is written, the PC stays (R20, R210). -/
def waitFor (s : State) (y : Nat) (w : WaitR) : Acc Done := .stop (s.modTx y fun t => { t with wait := w })

/-! ### KFND -/

/-- The result of a hit: the handle, or why there is none (R212, R213, R276). -/
def hitResult (s : State) (y p : Nat) (name : W64) : State × Option (BitVec 16 × Nat) :=
  match kitLookup s p name false with
  | (s1, .hit i) => let r := takeHandle s1 y (kitAt s1.kp i); (r.1, some (r.2.1, r.2.2))
  | (s1, .expired) => (s1, some (stExpired, 0))
  | (s1, .miss) => (s1, none)

/-- The end of a lookup is kept until the KFND completes. -/
def gotName (s : State) (y : Nat) (name : W64) (r : BitVec 16 × Nat) : State :=
  s.modTx y fun t => { t with got := t.got ++ [(name, r.1, r.2)] }

/-- One lookup of a KFND; none where it needs the vault (R307). -/
def findName (s : State) (y p : Nat) (name : W64) : State × Option (BitVec 16 × Nat) :=
  if name = 0 then (s, some (stKeyNotFound, 0))
  else match ((s.tx y).map (·.got)).getD [] |>.find? (fun x => x.1 == name) with
    | some x => (s, some (x.2.1, x.2.2))
    | none =>
      match hitResult s y p name with
      | (s1, some r) => (gotName s1 y name r, some r)
      | (s1, none) =>
        if hasRecords s p then (s1, none) else (gotName s1 y name (stKeyNotFound, 0), some (stKeyNotFound, 0))

/-- The two lookups of a KFND, or one; the first that needs the vault is waited for. -/
def findAll (s : State) (y p : Nat) (k : Core) (n0 : W64) (n1 : Option W64) : Acc Done :=
  let r0 := findName s y p n0
  match n1 with
  | none =>
    match r0 with
    | (s1, some a) =>
      doneFree (s1.modTx y fun t => { t with got := [] }) (setStatus { k with ah := BitVec.ofNat 64 a.2 } a.1) 4
    | (s1, none) => waitFor s1 y (.vault n0)
  | some n1 =>
    let r1 := findName r0.1 y p n1
    match r0.2, r1.2 with
    | some a, some b =>
      doneFree (r1.1.modTx y fun t => { t with got := [] })
        (setStatus { k with ah := BitVec.ofNat 64 (b.2 * 2 ^ 32 + a.2) } (if a.1 ≠ stOK then a.1 else b.1)) 4
    | none, _ => waitFor r1.1 y (.vault n0)
    | _, none => waitFor r1.1 y (.vault n1)

/-- A reload or walk is under way for the waiting KFND: it goes on waiting. -/
def reloading (t : Tx) : Bool :=
  match t.wait with
  | .vault _ => true
  | .walk => true
  | _ => false

/-- KFND: one or two names are looked up (R212, R213, R226). -/
def execKfnd (c : CoreId) (i : Ins) (s : State) : Res :=
  keyIns c i (i.sub == 0 || i.sub == 1)
    (i.modeOk (s.core c) (recordModes ++ [7]) true && (i.mode != 7 || i.sub == 0)) false i.readsMac
    (fun s y t k =>
      if reloading t then .stop s
      else agree s y i.hw 1 fun s =>
        if i.mode = 7 then findAll s y t.plot k (k.reg i.rn) none
        else
          match record s y i.hw (i.addr k) (if i.sub = 1 then 16 else 8) 8 readable with
          | .ok s b => findAll s y t.plot k (BitVec.ofNat 64 (fld b 0 8))
              (if i.sub = 1 then some (BitVec.ofNat 64 (fld b 8 8)) else none)
          | .trap s t => .trap s t
          | .stop s => .stop s) s

/-- R267: the algorithm policy admits a key to be learned: TDES, TDES for derivation (a B0 or B1 key), RSA-1024, a loaded curve. -/
def policyAdmits (b : Bytes) (alg : Nat) (dk : Bool) (ps : Nat) : Bool :=
  (!isTdes alg || bit (polAlg b) 0) && (!(isTdes alg && dk) || bit (polAlg b) 1) &&
    (ps != 0x0101 || bit (polAlg b) 2) && (!loadedSet ps || bit (polAlg b) 3)

/-- A key that carries what usage B0 or B1 gives: DERIVE or DUKPT_IK (Table 7.3). -/
def derives (attr : W32) : Bool := hasAttr attr 10 || hasAttr attr 19

/-- What a vault record brings into the key cache (R307). -/
def learnOf (r : VRec) : Learn :=
  { plot := r.plot, name := r.name, age := r.age, pinned := r.pinned, shared := r.shared, vaulted := true,
    slot := { material := r.material, attr := r.attr, alg := r.alg, len := r.len, kcv := r.kcv, asym := r.kind == 1,
              vaulted := true, expiry := r.expiry, pset := r.pset, body := r.body } }

/-- A reload has learned its key, or not: the lookup ends as a hit, or with the status (R307). -/
def reloadDone (s : State) (y : Nat) (name : W64) (st : BitVec 16) : State :=
  match s.tx y with
  | none => s
  | some t =>
    let s1 := s.modTx y fun t => { t with wait := .none }
    if st = stOK ∨ st = stExisting then
      match hitResult s1 y t.plot name with
      | (s2, some r) => gotName s2 y name r
      | (s2, none) => gotName s2 y name (stKeyNotFound, 0)
    else gotName s1 y name (st, 0)

/-- The two pages of a name have been read for yoke y's KFND (R304, R307). DESIGN CHOICE (log 114): the key is learned under the plot's
active policy set, not the set of the transaction (R133, R134, R267). A record whose tags do not verify is found so by every later read.
No read ends while the vault cannot be reached (R31). -/
def reload (s : State) (y : Nat) (authOk : Bool) : State :=
  if !vaultUp s then s else
  match s.tx y with
  | none => s
  | some t =>
    match t.wait with
    | .vault name =>
      match kitFind s t.plot name false with
      | some _ => reloadDone s y name stOK
      | none =>
        match vltFind s t.plot name with
        | none => reloadDone s y name stKeyNotFound
        | some i =>
          let r := tget VRec.zero s.vlt.recs i
          if !authOk || !r.authentic then
            let s1 := { s with vlt := { s.vlt with recs := tset VRec.zero i { r with authentic := false } s.vlt.recs } }
            reloadDone (event s1 0x0030 t.plot (le 8 name.toNat)) y name stKeyNotFound
          else if r.kind = 2 || weakSlot (learnOf r).slot then reloadDone s y name stKeyNotFound
          else if !policyAdmits (s.plot t.plot).active r.alg.toNat (derives r.attr) r.pset then reloadDone s y name stPolicy
          else match learnFast s (learnOf r) with
            | (s1, some st) => reloadDone s1 y name st
            | (s1, none) => queueWalk (s1.modTx y fun t => { t with wait := .walk }) (learnOf r) (.reload y name)
    | _ => s

/-- VAULT_RELOAD_COMPLETE: the vault pages of a missed lookup have been read; `authOk` says whether the matching record
and its blocks verify (R304, R307). -/
def execVaultReloadComplete (y : YokeId) (authOk : Bool) (s : State) : Res := .next (reload s y authOk)

/-! ### Jobs -/

/-- Outstanding jobs of a transaction (R216). -/
def outstanding (t : Tx) : Nat := (t.jobs.filter fun x => x.2.isSome).length

/-- The lowest free job number. -/
def freeJob (t : Tx) : Nat := ((List.range 8).find? fun j => (t.job j).isNone).getD 0

/-- A range a descriptor names passes R245. -/
def rangeOk (l : List Region) (r : Nat × Nat) : Bool := r.2 == 0 || (decide (r.1 + r.2 ≤ 0x10000) && rangeIn l r.1 r.2)

/-- A job descriptor at ea() with its ranges (R211, R214, R244, R245). -/
def descriptor (s : State) (y : Nat) (hw : Hw) (a : W64) : Acc Bytes :=
  (record s y hw a 64 8 readable).bind fun s d =>
    if rangeOk readable (jIn d) && rangeOk readable (jIn2 d) && rangeOk writable (jOut d) then .ok s d
    else .trap s .benchFault

/-- The checks of the encoding that LJOB, PJOB, RPLY and XFER share (R211). -/
def recFmt (i : Ins) (k : Core) : Bool := i.modeOk k recordModes true

/-- A job has been issued: its number in AH, OK in A. -/
def issued (k : Core) (j : Nat) : Core := setStatus { k with ah := BitVec.ofNat 64 j } stOK

/-- A lane job is handed to context u; a TYPE that names no job ends there (step 1 of Table 8.1) as its turn comes (R249). -/
def startLane (s : State) (y : Nat) (t : Tx) (k : Core) (d : Bytes) (u : Nat) : Acc Done :=
  let j := freeJob t
  let s1 := s.modTx y fun t => { (t.setJob j (some { engine := false, desc := d, st := .running, unit := u,
                                                     order := t.jobSeq })) with jobSeq := t.jobSeq + 1 }
  let s2 := if bit (jFlags d) 0 then endUnknown 8 (giveCtx s1 y j u) y
            else if laneType d then giveCtx s1 y j u else laneEnd (giveCtx s1 y j u) y j stPolicy []
  if t.wait = .none then .ok s2 { core := issued k j, cost := 12 } else doneFree s2 (issued k j) 12

/-- LJOB: a lane job descriptor is handed to a lane context (R214 to R216, R249, R317). -/
def execLjob (c : CoreId) (i : Ins) (s : State) : Res :=
  keyIns c i (i.sub == 0) (recFmt i (s.core c)) false false
    (fun s y t k => agree s y i.hw 1 fun s =>
      match descriptor s y i.hw (i.addr k) with
      | .trap s t => .trap s t
      | .stop s => .stop s
      | .ok s d =>
        if 8 ≤ outstanding t then .ok s { core := setStatus k stPolicy, cost := 12 }
        else if bit (jFlags d) 0 then
          match t.ctx with
          | some u => startLane s y t k d u
          | none =>
            match allocCtx s with
            | none => waitFor s y .unit
            | some u => startLane ((s.modCtx u fun c => { c with bound := .tx y }).modTx y fun t => { t with ctx := some u })
                y t k d u
        else
          match allocCtx s with
          | none => waitFor s y .unit
          | some u => startLane s y t k d u) s

/-- An engine job is entered: its checks, then the arbiter (R368, R369). -/
def startEngine (s : State) (y : Nat) (t : Tx) (k : Core) (d : Bytes) (hw : Hw) : Acc Done :=
  let j := freeJob t
  let r := engCheck s t d (hw == .tagFail)
  let put (s : State) (x : Job) : State := s.modTx y fun t => { (t.setJob j (some x)) with jobSeq := t.jobSeq + 1 }
  let x : Job := { engine := true, desc := d, st := .waiting, order := t.jobSeq }
  match r.2 with
  | some st => .ok (put r.1 { x with st := .ended, status := st }) { core := issued k j, cost := 12 }
  | none =>
    let s1 := put r.1 x
    let s2 := pumpEng { s1 with pke := { s1.pke with waitq := s1.pke.waitq ++ [(y, j)] } }
    match jobOf s2 (y, j) with
    | some (_, x) => if x.st = .waiting then waitFor s2 y (.engine j) else .ok s2 { core := issued k j, cost := 12 }
    | none => .stop s2

/-- PJOB: an engine job descriptor goes to the arbiter; the instruction waits for its slot (R214, R216, R369, R110). -/
def execPjob (c : CoreId) (i : Ins) (s : State) : Res :=
  keyIns c i (i.sub == 0) (recFmt i (s.core c)) false false
    (fun s y t k =>
      match t.wait with
      | .engine j =>
        match t.job j with
        | some x => if x.st = .waiting then .stop s else doneFree s (issued k j) 12
        | none => .stop s
      | _ => agree s y i.hw 1 fun s =>
        match descriptor s y i.hw (i.addr k) with
        | .trap s t => .trap s t
        | .stop s => .stop s
        | .ok s d =>
          if 8 ≤ outstanding t || (s.plot t.plot).acr.pkeWeight = 0 then .ok s { core := setStatus k stPolicy, cost := 12 }
          else startEngine s y t k d i.hw) s

/-- The output of an ended job reaches the bench and the job is freed (R215, R216). -/
def collect (s : State) (y : Nat) (hw : Hw) (k : Core) (j : Nat) (x : Job) : Acc Done :=
  let out := if x.status = stOK ∨ x.status = stExisting then x.out.take (jOut x.desc).2 else []
  agree s y hw 0 fun s =>
    let s1 := benchPut s y (jOut x.desc).1 out
    let s2 := s1.modTx y fun t => { (t.setJob j none) with plastJob := j, plastLen := out.length }
    doneFree s2 (setStatus { k with ah := BitVec.ofNat 64 j } x.status) (2 + (out.length + 7) / 8)

/-- The job a WJOB with SUB 01 takes: the lowest-numbered one that has ended. -/
def anyEnded (t : Tx) : Option (Nat × Job) :=
  (List.range 8).findSome? fun j => match t.job j with
    | some x => if x.st = .ended then some (j, x) else none
    | none => none

/-- WJOB on a given job. -/
def waitJob (s : State) (y : Nat) (hw : Hw) (t : Tx) (k : Core) (v : Nat) : Acc Done :=
  match (if v < 8 then t.job v else none) with
  | none => .trap s .portFault
  | some x => if x.st = .ended then collect s y hw k v x else waitFor s y (.job v)

/-- The encoding of a WJOB: no operand with SUB 01, any record, register or immediate operand with SUB 00 (R211). -/
def wjobFmt (i : Ins) (k : Core) : Bool :=
  if i.sub = 1 then i.noOperand else i.modeOk k (recordModes ++ [0, 7]) true

/-- WJOB: the program waits for a job's end and takes its status and output (R215, R216). -/
def execWjob (c : CoreId) (i : Ins) (s : State) : Res :=
  keyIns c i (i.sub == 0 || i.sub == 1) (wjobFmt i (s.core c)) false i.readsMac
    (fun s y t k =>
      if i.sub = 1 then
        if outstanding t = 0 then .trap s .portFault
        else match anyEnded t with
          | some (j, x) => collect s y i.hw k j x
          | none => waitFor s y .anyJob
      else if i.mode = 0 then waitJob s y i.hw t k (fitVal 8 false i.disp).toNat
      else if i.mode = 7 then waitJob s y i.hw t k (k.reg i.rn).toNat
      else match record s y i.hw (i.addr k) 8 8 readable with
        | .ok s b => waitJob s y i.hw t k (leNat b)
        | .trap s t => .trap s t
        | .stop s => .stop s) s

/-! ### RAND, RPLY, XFER -/

/-- RAND: 64 bits to AH, or 32 bytes to the bench; without drill output it waits (R217, R333). -/
def execRand (c : CoreId) (i : Ins) (s : State) : Res :=
  keyIns c i (i.sub == 0) (i.modeOk (s.core c) (recordModes ++ [7]) true && (i.mode != 7 || i.f16 == 1)) false false
    (fun s y _ k =>
      if i.mode = 7 then
        match txRandom s y 0xFF 8 with
        | none => waitFor s y .rand
        | some (s1, b) => doneFree s1 (setStatus { k with ah := BitVec.ofNat 64 (leNat b) } stOK) 4
      else match record s y i.hw (i.addr k) 32 8 writable with
        | .trap s t => .trap s t
        | .stop s => .stop s
        | .ok s _ =>
          match txRandom s y 0xFF 32 with
          | none => waitFor s y .rand
          | some (s1, b) => agree s1 y i.hw 0 fun s1 =>
            let s2 := benchPut s1 y (i.addr k).toNat b
            doneFree s2 (setStatus k stOK) 4) s

/-- RPLY completes with a status. -/
def rplyDone (s : State) (y : Nat) (k : Core) (st : BitVec 16) : Acc Done :=
  doneFree (s.modTx y fun t => { t with claimGot := none }) (setStatus k st) 4

/-- The fingerprint is looked up and recorded, with a claim where its scope is the domain (R218, R298, R301, R549). On a
standby the outcome of the active's claim is not forwarded: granted or taken is a free choice (log 3). -/
def replay (s : State) (y : Nat) (t : Tx) (k : Core) (fp : BitVec 96) (shared : Bool) : Acc Done :=
  let pend := match rplFind s t.plot fp with
    | some i => (rplAt s.rpl i).claim
    | none => false
  if pend then waitFor s y (.replay fp)
  else
    let dtid := (s.plot t.plot).dtid
    let dom := shared && s.clu.joined && dtid != 0
    let r := rplRecord s t.plot fp dom dom
    if r.2 = stOK ∧ dom then
      match claimStart r.1 t.plot dtid fp with
      | (s1, true) =>
        if standby s1 then rplyDone (drawn s1 1) y k (if Config.freeBool s1.free then stOK else stDuplicate)
        else rplyDone s1 y k stOK
      | (s1, false) => waitFor s1 y (.claim fp)
    else rplyDone r.1 y k r.2

/-- RPLY: the fingerprint of a transaction is recorded once (R218, R219). -/
def execRply (c : CoreId) (i : Ins) (s : State) : Res :=
  keyIns c i (i.sub == 0 || i.sub == 1) (recFmt i (s.core c)) false false
    (fun s y t k =>
      match t.claimGot, t.wait with
      | some st, _ => rplyDone s y k st
      | none, .claim _ => .stop s
      | none, _ => agree s y i.hw 1 fun s =>
        match record s y i.hw (i.addr k) 12 4 readable with
        | .ok s b => replay s y t k (BitVec.ofNat 96 (beNat b)) (i.sub == 1)
        | .trap s t => .trap s t
        | .stop s => .stop s) s

/-- The transfer a record describes, past its encoding (R220, R221). -/
def transfer (s : State) (y : Nat) (hw : Hw) (t : Tx) (k : Core) (b : Bytes) : Acc Done :=
  let ofs := fld b 0 4
  let bench := fld b 4 2
  let len := fld b 6 2
  let dir := byteAt b 8
  if 1 < dir || len = 0 || decide (4096 < len) || !zeros b 9 7 then .trap s .illegalFormat
  else if !rangeIn (if dir = 0 then writable else readable) bench len then .trap s .benchFault
  else if (if dir = 0 then fld t.desc 40 4 else fld t.desc 44 4) < ofs + len then .stop (endWith s y stDataFault)
  else if dir = 0 ∧ t.fwd then
    match t.feed with
    | [] => waitFor s y (.hostRead bench len)
    | [] :: _ => .stop (endWith s y stDataFault)
    | b :: l =>
      let s1 := benchPut (s.modTx y fun t => { t with feed := l }) y bench (fit len b)
      .ok s1 { core := setStatus k stOK, cost := 4 }
  else if dir = 0 then
    waitFor (issueRead s (vfOf t.plot) (BitVec.ofNat 64 (fld t.desc 32 8 + ofs)) len) y (.hostRead bench len)
  else agree s y hw 1 fun s =>
    if hw = .benchUnc then .stop (yokeFault s y 2) else
    let data := mread (s.yoke y).bench bench len
    let s1 := if t.fwd then s else issueWrite s (vfOf t.plot) (BitVec.ofNat 64 (fld t.desc 48 8 + ofs)) data
    let s2 := s1.modTx y fun t => { t with hiwater := max t.hiwater (ofs + len), res := t.res ++ data }
    .ok s2 { core := setStatus k stOK, cost := 4 + (len + 7) / 8 }

/-- XFER: data moves between the bench and the transaction's own host buffers (R220, R221). -/
def execXfer (c : CoreId) (i : Ins) (s : State) : Res :=
  keyIns c i (i.sub == 0) (recFmt i (s.core c)) false false
    (fun s y t k =>
      if t.xferDone then
        agree (s.modTx y fun t => { t with xferDone := false }) y i.hw 0 fun s => doneFree s (setStatus k stOK) 4
      else match t.wait with
        | .hostRead _ _ => .stop s
        | _ => match record s y i.hw (i.addr k) 16 8 readable with
          | .ok s b => transfer s y i.hw t k b
          | .trap s t => .trap s t
          | .stop s => .stop s) s

/-- The host read of an XFER ends: the bytes are in the bench, or the transaction ends with DATA_FAULT (R57, R221). The
active of a pair forwards what was read (R554). -/
def xferRead (s : State) (y : Nat) (r : HostRead) : State :=
  match s.tx y with
  | none => s
  | some t =>
    let data (b : Bytes) : Msg :=
      .pairStream { seq := t.seqNo, plot := Fin.ofNat 1024 t.plot, hopper := Fin.ofNat 16 t.hop, desc := [], staged := b }
    match t.wait with
    | .hostRead bench len =>
      match readData len r with
      | none => endWith (if t.numbered then forward s (data []) else s) y stDataFault
      | some b =>
        let s1 := if t.numbered then forward s (data b) else s
        (benchPut s1 y bench b).modTx y fun t =>
          { t with wait := .none, xferDone := true }
    | _ => s

/-- XFER_READ_COMPLETE: the host read of an XFER completes. -/
def execXferReadComplete (y : YokeId) (r : HostRead) (s : State) : Res :=
  .next (match s.tx y with | some t => if t.fwd then s else xferRead s y r | none => s)

/-! ### DONE and FAIL -/

/-- The encoding of DONE and FAIL (R211). -/
def finFmt (i : Ins) (k : Core) : Bool :=
  if i.mode = 7 then !i.e && (i.f16.extractLsb' 5 11) == 0 && !noReg i.rn
  else i.modeOk k (recordModes ++ [0]) false && (i.mode == 0 || i.sz == 3)

/-- The operand value of DONE and FAIL (05 opval, R211). -/
def finVal (s : State) (y : Nat) (i : Ins) (k : Core) : Acc W64 :=
  if i.mode = 0 then .ok s (fitVal i.bytes false i.disp)
  else if i.mode = 7 then .ok s (fitVal i.bytes false (k.reg i.rn))
  else (record s y i.hw (i.addr k) 8 8 readable).bind fun s b => .ok s (BitVec.ofNat 64 (leNat b))

/-- A customer code, OK or OK_EXISTING (R222). -/
def doneStatus (st : Nat) : Bool := st == 0 || st == 1 || decide (0x8000 ≤ st)

/-- The codes FAIL may give (R223). -/
def failCodes : List Nat :=
  [0x0100, 0x0101, 0x0102, 0x0103, 0x0104, 0x0105, 0x0106, 0x0200, 0x0201, 0x0202, 0x0300, 0x0301, 0x0302, 0x0400, 0x0500,
   0x0600, 0x0700, 0x0800, 0x0803, 0x0900, 0x0901, 0x0902]

/-- A SHARED key is forgotten: its update pair goes to the members that bind the tenant (R542, R545). -/
def shareForgetSend (s : State) (p : Nat) (name : W64) : State :=
  match s.kp.pairs.find? fun x => x.1 == p && x.2.1 == name with
  | none => s
  | some x =>
    let s1 := { s with clu := { s.clu with stamp := s.clu.stamp + 1 } }
    ((peers s1).filter (memberBinds s1 (s.plot p).dtid)).foldl
      (fun s n => sendMsg s n (.shareForget (s.plot p).dtid name x.2.2.1 (BitVec.ofNat 12 x.2.2.2))) s1

/-- What the vendor program KEY_FORGET does as it ends with OK (R296, R545): the key KEY1 names is forgotten and the act
recorded. The status is AUDIT_FULL where the recorder has no room. -/
def forgetAct (s : State) (t : Tx) : State × BitVec 16 :=
  let name : W64 := BitVec.ofNat 64 (fld t.desc 8 8)
  match kitFind s t.plot name false with
  | none => (s, stKeyNotFound)
  | some i =>
    if !auditRoom s then (s, stAudit)
    else
      let e := kitAt s.kp i
      let pay := keyPayload name (s.slot e.slot)
      let s1 := if e.shared then shareForgetSend (reserve s) t.plot name else reserve s
      (writeReserved (forgetKey s1 i) 0x1012 t.plot pay, stOK)

/-- KEY_FORGET waits: its tombstone is written as soon as the vault can be reached and the plot's drill has a nonce (R31, R403). -/
def forgetWaits (s : State) (t : Tx) : Bool :=
  match kitFind s t.plot (BitVec.ofNat 64 (fld t.desc 8 8)) false with
  | none => false
  | some i => auditRoom s && (kitAt s.kp i).vaulted && !vaultReady s t.plot

/-- The transaction runs the vendor library's KEY_FORGET. -/
def isForget (t : Tx) : Bool := t.image.isNone && fld t.desc 0 2 == 0x0042

/-- The inline data of a vendor program as a length and its reserved bytes (Table 6.11, R255). -/
def vendorShape (id : Nat) (b : Bytes) : Option ((Nat → Bool) × List Nat) :=
  let blk := if byteAt b 0 = 4 then 16 else 8
  let is (n : Nat) : Nat → Bool := (· == n)
  let rng (lo hi : Nat) (n : Nat) : Bool := decide (lo ≤ n) && decide (n ≤ hi)
  match id with
  | 0x01 => some (rng 0 16, [])
  | 0x02 => some (is 4, [])
  | 0x10 => some (is (16 + blk), [3, 14, 15])
  | 0x11 => some (is (32 + blk), [3, 15, 28, 29, 30, 31])
  | 0x12 => some (is (48 + blk), [1, 3, 15, 38, 39])
  | 0x13 => some (is (16 + blk), [3])
  | 0x20 => some (is 16, [1])
  | 0x21 => some (is 18, [1])
  | 0x28 => some (is 48, [3, 15, 18, 19, 20, 21, 22, 23, 38, 39])
  | 0x30 => some (is 1, [])
  | 0x31 => some (rng 4 16, [])
  | 0x32 => some (is 3, [])
  | 0x33 => some (is 12, [3])
  | 0x36 => some (is 1, [])
  | 0x37 => some (rng 16 32, [])
  | 0x40 => some (is 10, [])
  | 0x41 | 0x42 | 0x43 | 0x64 | 0x65 | 0x6A | 0x6B => some (is 0, [])
  | 0x50 | 0x51 => some (is (18 + byteAt b 1), [3])
  | 0x58 => some (is 30, [])
  | 0x60 => some (is (8 + hashBytes (byteAt b 1)), [3, 4, 5, 6, 7])
  | 0x61 => some (is (8 + hashBytes (byteAt b 1)), [2, 3, 4, 5, 6, 7])
  | 0x62 | 0x63 => some (is (8 + hashBytes (byteAt b 1)), [0, 2, 3, 4, 5, 6, 7])
  | 0x66 | 0x68 => some (is 9, [])
  | _ => none

/-- The inline data of a descriptor suits the vendor program it names. -/
def vendorInl (d : Bytes) : Bool :=
  match vendorShape (fld d 0 2) (cut d 56 72) with
  | some x => x.1 (fld d 28 2) && x.2.all fun i => byteAt d (56 + i) == 0
  | none => true

/-- A vendor program whose inline data has the wrong length or a nonzero reserved byte ends with POLICY_DENIED, whatever its words
come to (R255). -/
def vendorBad (t : Tx) : Bool := t.image.isNone && !vendorInl t.desc

/-- FAIL past its checks: the transaction ends with a status and no result (R223, R255). -/
def giveUp (s : State) (y : Nat) (t : Tx) (st : BitVec 16) : State := endWith s y (if vendorBad t then stPolicy else st)

/-- DONE past its checks: the status of A[15:0] with the inline result (R222). -/
def finish (s : State) (y : Nat) (t : Tx) (k : Core) (v : Nat) : State :=
  if vendorBad t then endWith s y stPolicy else
  let l := v % 32
  let data := mread (s.yoke y).bench 0xE000 l
  let ext := bit v 5
  let inl := if ext then le 4 t.hiwater ++ data else data
  let st : BitVec 16 := k.a.setWidth 16
  if isForget t && resultStatus st then
    if forgetWaits s t then s else
    match forgetAct s t with
    | (s1, r) => if r = stOK then finishTx s1 y st inl ext else endWith s1 y r
  else finishTx s y st inl ext

/-- A finish value that DONE takes (R222). -/
def doneVal (v : W64) : Bool := v.toNat / 64 == 0 && decide (v.toNat % 32 ≤ 16) && (!bit v.toNat 5 || decide (v.toNat % 32 ≤ 12))

/-- A status that FAIL takes (R223). -/
def failVal (v : W64) : Bool := decide (0x8000 ≤ v.toNat % 2 ^ 16) || failCodes.contains (v.toNat % 2 ^ 16)

/-- An operand value that comes without an access: an immediate's or a register's. What the entry says of it is order 6 of Table 5.1;
what it says of a value in memory can only follow its access. -/
def earlyVal (i : Ins) (k : Core) (ok : W64 → Bool) : Bool :=
  if i.mode = 0 then ok (fitVal i.bytes false i.disp)
  else if i.mode = 7 then ok (fitVal i.bytes false (k.reg i.rn))
  else true

/-- DONE: the transaction ends with a status and a result (R222, R224, R254); an uncorrectable error of the result it reads is a yoke
fault (R146). -/
def execDone (c : CoreId) (i : Ins) (s : State) : Res :=
  keyIns c i (i.sub == 0)
    (finFmt i (s.core c) && doneStatus ((s.core c).a.toNat % 2 ^ 16) && earlyVal i (s.core c) doneVal) true true
    (fun s y t k => (finVal s y i k).bind fun s v =>
      if !doneVal v then .trap s .illegalFormat
      else if i.hw = .benchUnc ∧ v.toNat % 32 ≠ 0 then .stop (yokeFault s y 2)
      else agree s y i.hw 3 fun s => .stop (finish s y t k v.toNat)) s

/-- FAIL: the transaction ends with a status and no result (R223, R224, R254). -/
def execFail (c : CoreId) (i : Ins) (s : State) : Res :=
  keyIns c i (i.sub == 0) (finFmt i (s.core c) && earlyVal i (s.core c) failVal) true i.readsMac
    (fun s y t k => (finVal s y i k).bind fun s v =>
      if failVal v then agree s y i.hw 3 fun s => .stop (giveUp s y t (BitVec.ofNat 16 (v.toNat % 2 ^ 16)))
      else .trap s .illegalFormat) s

end Sys2Proof.Machine
end

