-- ==== Sys2Proof/Machine/KeyBlocks.lean ====
section
/-! DEFINITION. Key blocks (07, R259 to R268): the header and the optional blocks, KB_UNWRAP and KB_WRAP (R346, R347). -/

namespace Sys2Proof.Machine

/-! ### Characters -/

/-- The character code at an offset. -/
def chr (b : Bytes) (i : Nat) : Nat := byteAt b i
/-- A decimal digit's value. -/
def decDigit (c : Nat) : Option Nat := if 48 ≤ c ∧ c ≤ 57 then some (c - 48) else none
/-- A hexadecimal digit's value. -/
def hexDigit (c : Nat) : Option Nat :=
  if 48 ≤ c ∧ c ≤ 57 then some (c - 48) else if 65 ≤ c ∧ c ≤ 70 then some (c - 55) else none
/-- A number from digits of a base; none where a character is no digit. -/
def readNum (base : Nat) (dig : Nat → Option Nat) : List Nat → Nat → Option Nat
  | [], n => some n
  | c :: cs, n => match dig c with
    | some d => readNum base dig cs (n * base + d)
    | none => none
/-- Characters as codes. -/
def codes (b : Bytes) (ofs n : Nat) : List Nat := (cut b ofs n).map (·.toNat)
/-- A decimal number of `n` characters. -/
def decAt (b : Bytes) (ofs n : Nat) : Option Nat := readNum 10 decDigit (codes b ofs n) 0
/-- A hexadecimal number of `n` characters. -/
def hexAt (b : Bytes) (ofs n : Nat) : Option Nat := readNum 16 hexDigit (codes b ofs n) 0
/-- A digit's character. -/
def hexChar (d : Nat) : Byte := BitVec.ofNat 8 (if d < 10 then 48 + d else 55 + d)
/-- A number as `n` hexadecimal characters. -/
def hexChars : Nat → Nat → Bytes
  | 0, _ => []
  | n + 1, v => hexChars n (v / 16) ++ [hexChar (v % 16)]
/-- A number as `n` decimal characters. -/
def decChars : Nat → Nat → Bytes
  | 0, _ => []
  | n + 1, v => decChars n (v / 10) ++ [BitVec.ofNat 8 (48 + v % 10)]
/-- Two characters as one number. -/
def two (a b : Nat) : Nat := a * 256 + b

/-! ### Table 7.3 -/

/-- A row and mode of Table 7.3: usage, algorithms, mode of use, attribute bits. -/
structure UsageRow where
  usage : Nat
  algs  : List Nat
  mode  : Nat
  bits  : Nat

/-- Character codes of the algorithms and modes of use. -/
def cA : Nat := 65
def cT : Nat := 84
def cH : Nat := 72
def cR : Nat := 82
def cE : Nat := 69

/-- The rows of a MAC usage: C, G, V. -/
def macRows (usage : Nat) (algs : List Nat) : List UsageRow := [⟨usage, algs, 67, 0x30⟩, ⟨usage, algs, 71, 0x10⟩, ⟨usage, algs, 86, 0x20⟩]

/-- Table 7.3, its rows and modes in order. -/
def usageTable : List UsageRow :=
  [⟨two 66 48, [cA, cT], 88, 0x400⟩, ⟨two 66 49, [cA, cT], 88, 0x80000⟩, ⟨two 67 48, [cA, cT], 67, 0x200⟩,
   ⟨two 68 48, [cA, cT], 66, 0x3⟩, ⟨two 68 48, [cA, cT], 69, 0x1⟩, ⟨two 68 48, [cA, cT], 68, 0x2⟩,
   ⟨two 69 48, [cA, cT], 88, 0x800⟩,
   ⟨two 75 48, [cA, cT], 66, 0xC⟩, ⟨two 75 48, [cA, cT], 69, 0x4⟩, ⟨two 75 48, [cA, cT], 68, 0x8⟩,
   ⟨two 75 49, [cA, cT], 66, 0xC⟩, ⟨two 75 49, [cA, cT], 69, 0x4⟩, ⟨two 75 49, [cA, cT], 68, 0x8⟩] ++
  macRows (two 77 49) [cT] ++ macRows (two 77 51) [cT] ++ macRows (two 77 54) [cA, cT] ++ macRows (two 77 55) [cH] ++
  [⟨two 80 48, [cA, cT], 66, 0xC0⟩, ⟨two 80 48, [cA, cT], 69, 0x40⟩, ⟨two 80 48, [cA, cT], 68, 0x80⟩,
   ⟨two 86 49, [cT], 67, 0x100⟩, ⟨two 86 49, [cT], 86, 0x100⟩, ⟨two 86 50, [cT], 67, 0x100⟩, ⟨two 86 50, [cT], 86, 0x100⟩,
   ⟨two 83 48, [cR, cE], 83, 0x2000⟩, ⟨two 83 48, [cR, cE], 86, 0x4000⟩,
   ⟨two 68 49, [cR], 68, 0x8⟩, ⟨two 68 49, [cR], 69, 0x4⟩]

/-- The attribute bits of a usage, algorithm and mode of use (R262). -/
def usageBits (usage alg mode : Nat) : Option Nat :=
  (usageTable.find? fun r => r.usage == usage && r.algs.contains alg && r.mode == mode).map (·.bits)

/-! ### The header and the optional blocks of an import -/

/-- What an import has found so far. -/
structure Import where
  mask  : Nat := 0
  m71   : Option Nat := none
  life  : Nat := 0
  kc    : Option Bytes := none
  kp    : Option Bytes := none

/-- Three bytes from six hexadecimal characters. -/
def kcvChars (b : Bytes) : Option Bytes :=
  if b.length = 6 then (readNum 16 hexDigit (b.map (·.toNat)) 0).map (be 3) else none

/-- One optional block by its ID and data (R264 to R266): none where it is not accepted. IK and KS are taken from a B1 key and on any
other key ignored: either way they bear on nothing that is learned (log 126). -/
def optBlock (m7key : Bool) (x : Import) (id : Nat) (data : Bytes) : Option Import :=
  let num := if data.length = 8 then readNum 16 hexDigit (data.map (·.toNat)) 0 else none
  if id = two 75 67 then (kcvChars data).map fun v => { x with kc := some v }
  else if id = two 75 80 then (kcvChars data).map fun v => { x with kp := some v }
  else if id = two 73 75 ∨ id = two 75 83 then some x
  else if id = two 72 77 then (if m7key && data == [0x32, 0x31] then some x else none)
  else if id = two 84 83 ∨ id = two 80 66 then some x
  else if id = two 55 49 then num.bind fun m => if m < 2 ^ 20 then some { x with m71 := some m } else none
  else if id = two 55 50 then num.map fun l => { x with life := l }
  else none

/-- The optional blocks of a key block from an offset: what they say and where they end (R264; the extended length form is
the standard's, PRESUMED). -/
def optBlocks (m7key : Bool) (b : Bytes) : Nat → Nat → Import → Option (Import × Nat)
  | 0, ofs, x => some (x, ofs)
  | n + 1, ofs, x =>
    let id := two (chr b ofs) (chr b (ofs + 1))
    match hexAt b (ofs + 2) 2 with
    | none => none
    | some 0 =>
      match hexAt b (ofs + 6) 4 with
      | some l =>
        if l < 10 ∨ b.length < ofs + l then none
        else (optBlock m7key x id (cut b (ofs + 10) (l - 10))).bind fun x => optBlocks m7key b n (ofs + l) x
      | none => none
    | some l =>
      if l < 4 ∨ b.length < ofs + l then none
      else (optBlock m7key x id (cut b (ofs + 4) (l - 4))).bind fun x => optBlocks m7key b n (ofs + l) x

/-- The version and header fields of Table 7.2 but the usage. -/
def headerOk (b : Bytes) : Bool :=
  decide (16 ≤ b.length) && (chr b 0 == 68 || chr b 0 == 66) && decAt b 1 4 == some b.length &&
    codes b 9 2 == [48, 48] && (chr b 11 == 69 || chr b 11 == 78 || chr b 11 == 83) &&
    (match decAt b 12 2 with | some n => decide (n ≤ 9) | none => false) && codes b 14 2 == [48, 48]

/-- The ALG of a symmetric key by its algorithm character and its bytes; none where the length does not suit. -/
def symAlg (alg n : Nat) : Option Nat :=
  if alg = cA then (if n = 16 then some 0x10 else if n = 24 then some 0x11 else if n = 32 then some 0x12 else none)
  else if alg = cT then (if n = 16 then some 0x01 else if n = 24 then some 0x02 else none)
  else if alg = cH then (if 16 ≤ n ∧ n ≤ 32 then some 0x20 else none)
  else none

/-- An import is refused: the cause of Table 7.13 is counted (R261). -/
def rejectBlock (s : State) (cause : Nat) (st : BitVec 16) : Comp :=
  .fin { s with kp := { s.kp with kbRej := bumpAt s.kp.kbRej cause } } st [] none []

/-- The learned mask: Table 7.3 and block 71, then the exportability (R263, R265). -/
def importMask (usage alg : Nat) (base expo : Nat) (m71 : Option Nat) : Nat :=
  let m := match m71 with
    | none => base
    | some m => if usage = two 68 48 ∧ alg = cA ∧ bit m 12 then (base &&& m) &&& 0xFFFFC ||| 0x1000 else base &&& m
  m ||| (if expo = 69 then 0x20000 else if expo = 83 then 0x60000 else 0)

/-- MATERIAL of an asymmetric key: room for the locator of its body, which the learning fills in (`placeBody`), the parameter set and
the digest of the body (Table 7.5). -/
def asymMaterial (ps : Nat) (body : Bytes) : Bytes := List.replicate 8 0 ++ le 2 ps ++ fit 22 (Config.hash 1 body)

/-- The content of the slot of an imported key: symmetric, or asymmetric with its parameter set (R257, R262). -/
def symSlot (alg : Nat) (key : Bytes) (attr : Nat) (expiry : W32) : Slot :=
  { material := fit 32 key, attr := BitVec.ofNat 32 attr, alg := BitVec.ofNat 8 alg, len := BitVec.ofNat 8 key.length,
    kcv := kcvSym alg key, expiry := expiry }
def asymSlot (ps : Nat) (body : Bytes) (attr : Nat) (expiry : W32) : Slot :=
  { material := asymMaterial ps body, attr := BitVec.ofNat 32 attr, alg := BitVec.ofNat 8 (psetAlg ps), kcv := kcvAsym body,
    expiry := expiry, asym := true, pset := ps, body := body }

/-- The key of an authenticated block: its length, block KC, then the rules of R258 and R267, then the learning (R257, R261). DESIGN CHOICE
(log 114): R267's set is the plot's active one as it learns, though a commit leaves the transaction itself its old set (R133, R134). -/
def importKey (s : State) (x : LJ) (b : Bytes) (mask : Nat) (o : Import) (clear : Bytes) : Comp :=
  let p := jParam x.d
  let alg := chr b 7
  let bits := beNat (clear.take 2)
  let key := (clear.drop 2).take (bits / 8)
  let expiry : W32 := if o.life = 0 then 0 else s.kpr.opmin + BitVec.ofNat 32 o.life
  let l (sl : Slot) : Learn :=
    { plot := x.t.plot, name := BitVec.ofNat 64 (fld p 0 8), slot := sl, age := BitVec.ofNat 3 (byteAt p 8),
      pinned := bit (byteAt p 9) 0, shared := bit (byteAt p 9) 1 }
  let kcBad (k : Bytes) : Bool := match o.kc with | some v => v != k | none => false
  let active := (s.plot x.t.plot).active
  if bits % 8 ≠ 0 || key.length ≠ bits / 8 then rejectBlock s 5 stBlock
  else if alg = cR ∨ alg = cE then
    let info := Config.asymInfo key
    let ps := info.2.1
    let priv := chr b 8 == 83 || chr b 8 == 68
    let sl := asymSlot ps key mask expiry
    if info.2.2 ≠ priv then rejectBlock s 3 stBlock
    else if (psetW ps).isNone || (alg == cR) != rsaSet ps || (alg == cE) != ecSet ps || (!priv && !pubkeyOk ps (curveOf s x.t.plot ps) key) then
      rejectBlock s 5 stBlock
    else if kcBad sl.kcv then rejectBlock s 7 stBlock
    else if priv && ps == 0x0101 then rejectBlock s 6 stPolicy
    else if !policyAdmits active sl.alg.toNat false ps then .fin s stPolicy [] none []
    else .learn s (l sl) [.decFail]
  else match symAlg alg key.length with
    | none => rejectBlock s 5 stBlock
    | some a =>
      let sl := symSlot a key mask expiry
      if kcBad sl.kcv then rejectBlock s 7 stBlock
      else if weakSlot sl then rejectBlock s 6 stBlock
      else if !policyAdmits active a (chr b 5 == 66 && (chr b 6 == 48 || chr b 6 == 49)) 0 then .fin s stPolicy [] none []
      else .learn s (l sl) [.decFail]

/-- KB_UNWRAP: PARAM and lengths (R346). -/
def specUnwrap (_ : State) (_ : Bytes) (_ : Tx) (d : Bytes) (_ : Nat) : LaneSpec :=
  let p := jParam d
  { k1 := true, record := true,
    static := fld p 0 8 != 0 && decide (byteAt p 8 ≤ 7) && decide (byteAt p 9 ≤ 3) && zeros p 10 22 && (jIn2 d).2 == 0 &&
      decide (1 ≤ (jIn d).2) && decide (3 ≤ (jOut d).2),
    use := fun k1 _ _ => hasAttr k1.attr 3 && (isAes k1.alg || isTdes k1.alg) }

/-- KB_UNWRAP: the block is authenticated and decrypted, its header and optional blocks are checked, its key is learned
(R259 to R267, R346). -/
def compUnwrap (s : State) (x : LJ) : Comp :=
  let b := x.inp s
  if chr b 0 ≠ 68 ∧ chr b 0 ≠ 66 then rejectBlock s 0 stBlock
  else if (chr b 0 == 68) != isAes x.k1.alg then rejectBlock s 1 stBlock
  else match Config.kbOpen (chr b 0 == 68) x.k1.key b with
    | none => rejectBlock s 2 stBlock
    | some clear =>
      if !headerOk b then rejectBlock s 0 stBlock
      else
        let usage := two (chr b 5) (chr b 6)
        let alg := chr b 7
        match usageBits usage alg (chr b 8) with
        | none => rejectBlock s 3 stBlock
        | some base =>
          if chr b 0 = 66 ∧ alg ≠ cT then rejectBlock s 3 stBlock
          else match optBlocks (usage == two 77 55) b ((decAt b 12 2).getD 0) 16 {} with
            | none => rejectBlock s 4 stBlock
            | some (o, _) =>
              if o.kp.isSome && o.kp != some x.k1.kcv then rejectBlock s 7 stBlock
              else importKey s x b (importMask usage alg base (chr b 11) o.m71) o clear

/-- KB_UNWRAP. -/
def execKbUnwrap (y : YokeId) (j : JobIx) (ev : LaneEv) (s : State) : Res := laneRow 0x09 specUnwrap compUnwrap y j ev s

/-! ### KB_WRAP -/

/-- The algorithm character of a key. -/
def algChar (k : KeyV) : Nat :=
  if isAes k.alg then cA else if isTdes k.alg then cT else if k.alg = 0x20 then cH else if k.alg = 0x30 then cR
  else if k.alg = 0x31 then cE else 0

/-- A key's bits that its header must cover; an FPE key is a D0 key whose bits block 71 restores (R265, R268). -/
def wrapBits (k : KeyV) : Nat :=
  let a := k.attr.toNat &&& 0x9FFFF
  if bit a 12 then (a &&& 0x8EFFF) ||| 0x3 else a

/-- The usage row of an exported key: the first whose bits include the key's, for its algorithm (R268). -/
def wrapRow (k : KeyV) : Option UsageRow :=
  usageTable.find? fun r => r.algs.contains (algChar k) && (r.bits ||| wrapBits k) == r.bits

/-- Security strength in bits (R347). -/
def strength (s : State) (p : Nat) (k : KeyV) : Nat :=
  if k.alg = 0x01 then 80 else if k.alg = 0x02 then 112
  else if isAes k.alg then 8 * k.key.length
  else if k.alg = 0x20 then min 256 (8 * k.key.length)
  else if rsaSet k.pset then (if k.pset = 0x0101 then 80 else if k.pset = 0x0102 then 112 else if k.pset = 0x0108 then 192 else 128)
  else min 256 (fieldBits s p k.pset / 2)

/-- The clear key data of an export: the key, or the body of an asymmetric key. -/
def wrapData (k : KeyV) : Bytes := if k.alg = 0x30 ∨ k.alg = 0x31 then k.body else k.key

/-- Whether the exact mask goes into block 71 (R268). -/
def wrap71 (k : KeyV) (r : UsageRow) : Bool := r.bits != wrapBits k || hasAttr k.attr 12

/-- Header characters before the padding block: 16, KC, and 71 and 72 where they are there. -/
def wrapFixed (k : KeyV) (r : UsageRow) : Nat := 16 + 10 + (if wrap71 k r then 12 else 0) + (if k.expiry ≠ 0 then 12 else 0)

/-- The padding block PB that brings the header to whole blocks of 16 characters. -/
def wrapPad (n : Nat) : Nat := let r := (16 - n % 16) % 16; if r = 0 then 0 else if r < 4 then r + 16 else r

/-- Characters of the exported block (R268). -/
def wrapLen (k : KeyV) (r : UsageRow) : Nat :=
  let h := wrapFixed k r
  h + wrapPad h + 2 * ((2 + (wrapData k).length + 15) / 16 * 16) + 32

/-- The header of an export with its optional blocks; the padding characters are free (R268, log 3). -/
def wrapHeader (s : State) (k : KeyV) (r : UsageRow) : Bytes :=
  let h := wrapFixed k r
  let pad := wrapPad h
  let n := 1 + (if wrap71 k r then 1 else 0) + (if k.expiry ≠ 0 then 1 else 0) + (if pad = 0 then 0 else 1)
  let left := k.expiry.toNat - s.kpr.opmin.toNat
  [68] ++ decChars 4 (wrapLen k r) ++ be 2 r.usage ++ [BitVec.ofNat 8 (algChar k), BitVec.ofNat 8 r.mode, 48, 48] ++
    [if hasAttr k.attr 18 then 83 else 69] ++ decChars 2 n ++ [48, 48] ++
    [75, 67] ++ hexChars 2 10 ++ hexChars 6 (beNat k.kcv) ++
    (if wrap71 k r then [55, 49] ++ hexChars 2 12 ++ hexChars 8 k.attr.toNat else []) ++
    (if k.expiry ≠ 0 then [55, 50] ++ hexChars 2 12 ++ hexChars 8 left else []) ++
    (if pad = 0 then [] else [80, 66] ++ hexChars 2 pad ++ ((freeBytes s.free (pad - 4)).map fun b => hexChar (b.toNat % 16)))

/-- KB_WRAP: keys and lengths (R347). -/
def specWrap (s : State) (_ : Bytes) (t : Tx) (d : Bytes) (u : Nat) : LaneSpec :=
  let ks := laneKeys s t d u
  let room := match wrapRow ks.1 with
    | some r => decide (wrapLen ks.1 r ≤ (jOut d).2) || (namedHandles t d).any (·.isNone)
    | none => true
  { k1 := true, k2 := true, record := true,
    static := zeros (jParam d) 0 32 && (jIn d).2 == 0 && (jIn2 d).2 == 0 && room,
    use := fun k1 k2 _ => hasAttr k1.attr 17 && hasAttr k2.attr 2 && isAes k2.alg && (wrapRow k1).isSome &&
      decide (strength s t.plot k1 ≤ 8 * k2.key.length) }

/-- KB_WRAP: the version D block, with its key-management record (R268, R347). -/
def compWrap (s : State) (x : LJ) : Comp :=
  match wrapRow x.k1 with
  | none => .fin s stUsage [] none []
  | some r =>
    let h := wrapHeader s x.k1 r
    let out := fit (wrapLen x.k1 r) (Config.kbSeal x.k2.key h (wrapData x.k1) (s.free + 16))
    let pay := le 8 x.k1.name.toNat ++ le 1 x.k1.alg ++ le 4 x.k1.attr.toNat ++ fit 3 x.k1.kcv
    .exported (drawn s 32) out pay

/-- KB_WRAP. -/
def execKbWrap (y : YokeId) (j : JobIx) (ev : LaneEv) (s : State) : Res := laneRow 0x0A specWrap compWrap y j ev s

end Sys2Proof.Machine
end

