-- ==== Sys2Proof/Machine/CustOps.lean ====
section
/-! DEFINITION. The operations on quorum sessions and custodian interactions that other families cause: their ends
by withdrawal, reset, tamper or cancellation (R477, R478, R480). -/

namespace Sys2Proof.Machine

def Registry.zero : Registry := {}

/-- The registry of a scope (R471). -/
def State.registry (s : State) (scope : Nat) : Registry := tget Registry.zero s.cust.regs scope
/-- Registries are kept sealed in flash, but not while TAMPERED = 1 and not in DECOMMISSIONED (R424, R471). -/
def sealing (s : State) : Bool := !s.kpr.tampered && s.lcs.state != 4

/-- The state with a registry replaced, in use and as it is kept (R424, R471, R496). -/
def State.setRegistry (s : State) (scope : Nat) (r : Registry) : State :=
  { s with cust := { s.cust with regs := tset Registry.zero scope r s.cust.regs },
           flash := if sealing s then { s.flash with regs := tset SealedReg.zero scope (sealRegistry s scope r) s.flash.regs } else s.flash }

/-- Session k. -/
def State.session (s : State) (k : Nat) : Option Session := tget none s.cust.sess k
/-- The state with session k replaced. -/
def State.setSession (s : State) (k : Nat) (x : Option Session) : State :=
  { s with cust := { s.cust with sess := tset none k x s.cust.sess } }

/-- The index a registry gives a card; 0 where it does not hold it. -/
def cardIx (r : Registry) (hash : Bytes) : Nat :=
  match r.cards.find? fun c => c.hash == hash with
  | some c => c.ix
  | none => 0

/-- No interaction is in progress any more: its result is in CUST_STAT.LAST, a ceremony's lane context is zeroised, and PF0
vector 2 is raised (R480, R481). -/
def idleAfter (s : State) (last : BitVec 4) : State :=
  let s1 := match s.cust.ctx with
    | some c => s.modCtx c fun _ => LaneCtx.zero
    | none => s
  modEvent { s1 with
    cust := { s1.cust with last := last, op := .idle, need := 0, counted := [], step := .card, cer := {}, groups := 0, part := [],
                           xored := [], ctx := none },
    kp := { s1.kp with walkq := s1.kp.walkq.filter fun x => x.2 != .ceremony } }

/-- The interaction in progress ends with nothing done: its reservation is released (R480, R520). -/
def endInteraction (s : State) (last : BitVec 4) : State :=
  if s.cust.op = .idle then s else idleAfter (unreserve s) last

/-- A ceremony is abandoned with result 7 (R480). -/
def abandonCeremony (s : State) : State := if s.cust.op = .ceremony then endInteraction s 7 else s

/-- Session k ends with a cause of the model's numbering: 1 its time, 2 the anchor's withdrawal, 3 CUST_SESSION_END,
4 the anchor's revocation, 5 a reset or removal of the plot, 6 a tamper response, 7 a module start (R477; the numbers
are DESIGN CHOICE, log 24). A ceremony that ran under it is abandoned (R480). -/
def endSession (s : State) (k : Nat) (cause : Nat) : State :=
  match s.session k with
  | none => s
  | some x =>
    let ix := cardIx (s.registry x.scope) x.anchor
    let s1 := event (s.setSession k none) 0x2005 x.scope (le 1 x.role ++ le 1 ix ++ le 1 cause)
    if s1.cust.op = .ceremony && s1.cust.scope == x.scope && x.role == 0 then abandonCeremony s1 else s1

/-- The sessions of a scope end (R477). -/
def endScope (s : State) (scope : Nat) (cause : Nat) : State :=
  [0, 1].foldl (fun s k => match s.session k with
    | some x => if x.scope = scope then endSession s k cause else s
    | none => s) s

end Sys2Proof.Machine
end

