-- ==== Sys2Proof/Machine/Hoppers.lean ====
section
/-! DEFINITION. The host link and the hoppers (02): doorbells, enabling and disabling, dispatch (R113, R114), the
arrival of descriptors and of staged data, deadlines, coalescing, MSI-X masks, IDE and SPDM. -/

namespace Sys2Proof.Machine

/-- The host's configuration requests reach a function: the link is up, a VF is enabled and within NumVFs (R35), and no
stream that carries it is Insecure, for then every received TLP is dropped (R92). -/
def cfgReach (s : State) (f : Fn) : Bool :=
  !s.link.perst && s.link.trained && !heldFor s f &&
    match f with
    | .pf0 => true
    | .vf p => s.link.vfEnable && decide (p.val + 1 ≤ s.link.numVfs)

/-- The host's memory requests reach a function: its configuration requests do, and it is in D0 (Table 2.1; a function in
D3hot takes no memory request: PRESUMED, log 118). -/
def reach (s : State) (f : Fn) : Bool := cfgReach s f && !(s.fnCfg f).d3hot

/-- A doorbell arrives: the time counts for R28, and the module leaves DOZE; its PLLs then lock (R29, R30). -/
def doorbell (s : State) : State :=
  { s with disp := { s.disp with lastDb := s.now }, pwr := { s.pwr with doze := false } }

/-- A write to a hopper is dropped: its plot is ABSENT (R43) or the hopper is not granted (R45). -/
def hopDropped (s : State) (r : HopRef) : Bool :=
  match r with
  | .admin => false
  | .vf p _ => decide ((s.plot p).st = .absent) || !granted s r

/-- The plot of a hopper is OPEN; the admin hopper is live (R46, R58, Table 13.2 step 10). -/
def hopOpen (s : State) (r : HopRef) : Bool :=
  match r with
  | .admin => s.adm.live
  | .vf p _ => decide ((s.plot p).st = .opened)

/-- Occupancy of a ring for an index: (index − fetch head) mod N. -/
def Hopper.occ (x : Hopper) (i : Nat) : Nat := (i + x.n - x.fetchHead % x.n) % x.n

/-- HOP_STAT.DB_REFUSED with its counter (R58, R575). -/
def refuseDb (s : State) (r : HopRef) : State :=
  s.modHop r fun x => { x with dbRefused := true, dbrCnt := bump x.dbrCnt }

/-- The plot's default deadline at this moment (R80, R134). -/
def defaultDeadline (s : State) (r : HopRef) : Nat :=
  match r with
  | .admin => 0
  | .vf p _ => polDeadline (s.plot p).active

/-- Written and unretired completion entries, held ones included (R62, R92). -/
def unretired (s : State) (r : HopRef) : Nat :=
  let x := s.hop r
  (x.cqTail + x.n - x.hostHead % x.n) % x.n + heldEntries s r

/-- R62 permits a descriptor read. -/
def readRoom (s : State) (r : HopRef) : Bool :=
  let x := s.hop r
  decide (x.inflight + x.reads + unretired s r ≤ x.n - 2)

/-- A descriptor read is permitted by R62, and can be issued: the function's stream is not Insecure (R92). -/
def readGate (s : State) (r : HopRef) : Bool := readRoom s r && !heldFor s (hopFn r)

/-- The steward reads the next accepted admin descriptor where none is on its way: the read is issued (R40, R60, R62). -/
def fetchAdmin (s : State) : State :=
  let x := s.adm.hop
  if x.en && !x.halted && x.reads == 0 && !x.acc.isEmpty && readGate s .admin then
    issueRead (s.setHop .admin { x with reads := 1 }) .pf0 (x.sqBase + BitVec.ofNat 64 (128 * x.fetchHead)) 128
  else s

/-- Room or work has come to the hopper that the steward serves. -/
def fetchNext (s : State) (r : HopRef) : State :=
  match r with
  | .admin => fetchAdmin s
  | .vf _ _ => s

/-- A tail doorbell (R58, R59). A doorbell equal to the tail has no effect on a hopper that takes doorbells; on a disabled
or halted one it is refused like every other (Table 2.10). DESIGN CHOICE (log 108). -/
def tailDb (s : State) (r : HopRef) (v : Nat) (aligned : Bool) : State :=
  if !reach s (hopFn r) then s
  else
    let s1 := doorbell s
    if hopDropped s1 r then s1
    else if !aligned then s1.modHop r fun x => { x with dbrCnt := bump x.dbrCnt }
    else
      let x := s1.hop r
      if !x.en || x.halted || !hopOpen s1 r || decide (x.n ≤ v) then refuseDb s1 r
      else if v = x.tail then s1
      else if x.occ v < x.occ x.tail || min (depth s1 r) (x.n - 1) < x.occ v then refuseDb s1 r
      else fetchNext (s1.setHop r { x with
        tail := v, acc := x.acc ++ List.replicate (x.occ v - x.occ x.tail) (s.now, defaultDeadline s r) }) r

/-- HOP_TAIL_DB: the host writes a tail doorbell. -/
def execHopTailDb (r : HopRef) (value : W32) (aligned32 : Bool) (s : State) : Res :=
  .next (tailDb s r value.toNat aligned32)

/-- A completion head doorbell (R74, R59). -/
def headDb (s : State) (r : HopRef) (v : Nat) (aligned : Bool) : State :=
  if !reach s (hopFn r) then s
  else
    let s1 := doorbell s
    if hopDropped s1 r then s1
    else if !aligned then s1.modHop r fun x => { x with dbrCnt := bump x.dbrCnt }
    else
      let x := s1.hop r
      let d (i : Nat) : Nat := (i + x.n - x.hostHead % x.n) % x.n
      if v < x.n ∧ d v ≤ d x.cqTail then fetchNext (s1.setHop r { x with hostHead := v }) r
      else s1.setHop r { x with headErr := true, headErrCnt := bump x.headErrCnt }

/-- HOP_HEAD_DB: the host writes a completion head doorbell. -/
def execHopHeadDb (r : HopRef) (value : W32) (aligned32 : Bool) (s : State) : Res :=
  .next (headDb s r value.toNat aligned32)

/-- The RING_LOG2 values a hopper may be enabled with (R46, R40). -/
def logOk (r : HopRef) (l : Nat) : Bool :=
  match r with
  | .admin => decide (6 ≤ l) && decide (l ≤ 12)
  | .vf _ _ => decide (6 ≤ l) && decide (l ≤ 16)

/-- The plain fields of a HOP_CFG write: VECTOR and PRIO always, RING_LOG2 only while EN = 0 (R49, R51). -/
def cfgFields (x : Hopper) (cfg : W32) : Hopper :=
  { x with vector := cfg.extractLsb' 16 4, prio := cfg.extractLsb' 10 2,
           log2 := if x.en then x.log2 else cfg.extractLsb' 4 5 }

/-- A write of HOP_CFG with EN = 1 (R46, R47); with EN already 1 only the plain fields change. The enable names the rings
that the hopper's entries go to until the next one (R46, R50). DESIGN CHOICE (log 110): the pending count of R75 and its time
outlive a disable and an enable, since R47 names the indices and the phase alone. -/
def enableHop (s : State) (r : HopRef) (cfg : W32) : State :=
  if !reach s (hopFn r) || hopDropped s r then s
  else
    let x := cfgFields (s.hop r) cfg
    if x.en then s.setHop r x
    else if hopOpen s r && logOk r x.log2.toNat && !x.enabled then
      s.setHop r { x with en := true, enabled := true, halted := false, fence := false, fetchHead := 0, tail := 0,
                          cqTail := 0, hostHead := 0, phase := true, acc := [], reads := 0, inflight := 0,
                          ringCq := x.cqBase, ringLog2 := x.log2 }
    else s.setHop r { x with cfgErr := true, cfgErrCnt := bump x.cfgErrCnt }

/-- HOPPER_ENABLE: the owner writes HOP_CFG with EN = 1; a word whose bit 0 is 0 is not this event. -/
def execHopperEnable (r : HopRef) (cfg : W32) (s : State) : Res :=
  .next (if cfg.getLsbD 0 then enableHop s r cfg else s)

/-- A yoke whose transaction's descriptor read is abandoned goes free; the transaction was never read (R50, R63). -/
def abandonRead (s : State) (y : Nat) : State := endTx s y

/-- The yokes that wait for a descriptor of a hopper. -/
def readersOf (s : State) (p h : Nat) : List Nat :=
  (s.yokes.filter fun x => match x.2.tx with
    | some t => t.plot == p && t.hop == h && t.phase == .reading
    | none => false).map (·.1)

/-- Every descriptor read of a hopper whose data has not arrived is abandoned (R50). -/
def abandonReads (s : State) (r : HopRef) : State :=
  match r with
  | .admin => s.modHop r fun x => { x with reads := 0 }
  | .vf p h => ((readersOf s p h).foldl abandonRead s).modHop r fun x => { x with reads := 0 }

/-- A write of HOP_CFG with EN = 0 (R50). -/
def disableHop (s : State) (r : HopRef) (cfg : W32) : State :=
  if !reach s (hopFn r) || hopDropped s r then s
  else
    let x := cfgFields (s.hop r) cfg
    let s1 := s.setHop r x
    if !x.en then s1
    else
      let s2 := (abandonReads s1 r).modHop r fun x => { x with en := false, halted := false, acc := [], fence := false }
      let s3 := dropEnabled s2 r
      match r with
      | .admin => s3
      | .vf p _ => checkStopped s3 p

/-- HOPPER_DISABLE: the owner writes HOP_CFG with EN = 0; a word whose bit 0 is 1 is not this event. -/
def execHopperDisable (r : HopRef) (cfg : W32) (s : State) : Res :=
  .next (if cfg.getLsbD 0 then s else disableHop s r cfg)

/-! ### Dispatch -/

/-- A hopper holds an accepted descriptor that may be read now: R62 permits it and FENCE does not hold it back
(R113). -/
def hopReady (s : State) (r : HopRef) : Bool :=
  let x := s.hop r
  x.en && !x.halted && decide (x.reads < x.acc.length) && readGate s r &&
    (!x.fence || (x.inflight = 0 && x.reads = 0 && heldEntries s r = 0))

/-- The hoppers of a plot that are ready. -/
def readyHops (s : State) (p : Nat) : List Nat :=
  (s.plot p).hoppers.filterMap fun x => if hopReady s (hopRef p x.1) && granted s (hopRef p x.1) then some x.1 else none

/-- A plot is ready (R113). -/
def plotReady (s : State) (p : Nat) : Bool :=
  let pl := s.plot p
  (decide (pl.st = .opened) || decide (pl.st = .stopping)) && !(readyHops s p).isEmpty

/-- A list of rising numbers, from the first one above a cursor around. -/
def after (c : Nat) (l : List Nat) : List Nat := l.filter (c < ·) ++ l.filter (· ≤ c)

/-- Step 2 of choose_plot: the walk of the deficit round-robin over a ring that starts at the cursor (R113). -/
def wdrr (s : State) : List Nat → State × Option Nat
  | [] => (s, none)
  | p :: rest =>
    if !plotReady s p then
      wdrr (s.modPlot p fun pl => { pl with deficit := 0 }) rest
    else
      let pl := s.plot p
      let d := (if pl.deficit = 0 then pl.acr.weight else pl.deficit) - 1
      let s1 := s.modPlot p fun pl => { pl with deficit := d }
      ({ s1 with disp := { s1.disp with dCursor := if d = 0 then p + 1 else p } }, some p)

/-- choose_plot of R113. -/
def choosePlot (s : State) : State × Option Nat :=
  let all := s.plots.map (·.1)
  match (after s.disp.gCursor all).find? fun p => plotReady s p && decide ((s.plot p).busy < effGuar s p) with
  | some p => ({ s with disp := { s.disp with gCursor := p } }, some p)
  | none =>
    let ring := (s.plots.filter fun x => decide (x.2.st = .opened) || decide (x.2.st = .stopping)).map (·.1)
    wdrr s (ring.filter (s.disp.dCursor ≤ ·) ++ ring.filter (· < s.disp.dCursor))

/-- The hopper that R114 serves: the lowest class that has a ready hopper, round-robin within it. -/
def chooseHop (s : State) (p : Nat) : Option (Nat × Nat) :=
  let l := readyHops s p
  let prio (h : Nat) : Nat := (s.hop (hopRef p h)).prio.toNat
  match [0, 1, 2, 3].find? fun c => l.any fun h => prio h == c with
  | none => none
  | some c =>
    match (after (tget 16 (s.plot p).rr c) (l.filter fun h => prio h == c)).head? with
    | some h => some (c, h)
    | none => none

/-- The yokes a dispatch may take: live, unoccupied, not stopped by a fault or a debugger. -/
def freeYokes (s : State) : List Nat :=
  (List.range 64).filter fun y =>
    let k := s.yoke y
    s.yreg.live.getLsbD y && k.tx.isNone && !k.faulted && !k.halted

/-- One of the free yokes; the spec does not say which (free value, log 3). -/
def pickYoke (s : State) : Option Nat :=
  match freeYokes s with
  | [] => none
  | [y] => some y
  | l => l[(Config.freeWord s.free).toNat % l.length]?

/-- A plot's descriptor read is issued onto a yoke that is charged to the plot (R113). -/
def charge (s : State) (p h y : Nat) : State :=
  let r := hopRef p h
  let x := s.hop r
  let slot := (x.fetchHead + x.reads) % x.n
  let a := x.acc.getD x.reads (0, 0)
  let pl := s.plot p
  let t : Tx := { plot := p, hop := h, slotIx := slot, deadline := a.1, defDl := a.2, policy := pl.active,
                  version := pl.version, progs := pl.progs }
  let s1 := (s.setHop r { x with reads := x.reads + 1 }).modPlot p fun pl => { pl with busy := pl.busy + 1 }
  let s2 := (holdImages s1 (pl.progs.map (·.2))).modYoke y fun k => { k with tx := some t, bench := [], core := {} }
  let s3 := { s2 with pwr := { s2.pwr with gatedY := s2.pwr.gatedY &&& ~~~(BitVec.ofNat 64 (2 ^ y)) } }
  issueRead (drawn s3 1) (vfOf p) (x.sqBase + BitVec.ofNat 64 (128 * slot)) 128

/-- The dispatcher's step (R113, R114). -/
def dispatchStep (s : State) : State :=
  match pickYoke s with
  | none => s
  | some y =>
    match choosePlot s with
    | (_, none) => s
    | (s1, some p) =>
      match chooseHop s1 p with
      | none => s
      | some (c, h) => charge (s1.modPlot p fun pl => { pl with rr := tset 16 c h pl.rr }) p h y

/-! ### Descriptors and staged data -/

/-- The result buffer limit of a command-set version (Table 2.7). -/
def versionLimit (v : BitVec 16) : Nat := if v.toNat < 0x200 then 4096 else 65536

/-- The hopper halts after a failed descriptor read (R63). -/
def haltHop (s : State) (r : HopRef) : State :=
  let s1 := s.modHop r fun x => { x with fetchErr := true, fetchErrCnt := bump x.fetchErrCnt, halted := true }
  match r with
  | .admin => modEvent (abandonReads s1 r)
  | .vf p _ => checkStopped (plotEvent (abandonReads s1 r) p 3) p

/-- The transaction seed of a paired module's transaction: one request of the plot's drill at dispatch (R555). -/
def seedTx (s : State) (y : Nat) : State :=
  match s.tx y with
  | none => s
  | some t =>
    if s.clu.role ≠ 1 ∧ s.clu.role ≠ 2 then s
    else match plotGen s t.plot with
      | some s1 => (drawn s1 32).modTx y fun t => { t with seeded := true, seed := s1.free }
      | none => s

/-- The pair's number of a dispatch whose descriptor and data are complete; the standby is sent both (R554). -/
def number (s : State) (y : Nat) (staged : Bytes) : State :=
  match s.tx y with
  | none => s
  | some t =>
    if s.clu.role = 1 then
      let q := s.clu.seq
      let d : PairDispatch := { seq := q, plot := Fin.ofNat 1024 t.plot, hopper := Fin.ofNat 16 t.hop,
                                desc := t.desc, staged := staged }
      let s1 := (seedTx s y).modTx y fun t => { t with seqNo := q, numbered := true }
      let s2 := { s1 with clu := { s1.clu with seq := q + 1, digests := s1.clu.digests ++ [(q, t.plot, 0, none)] } }
      let s3 := forward s2 (.pairStream d)
      if (q + 1 - s3.clu.batch).toNat = 256 then closeBatch s3 else s3
    else s

/-- A transaction ends before its program starts: it has its number in the pair's order, and where its deadline has passed
the standby stops its copy before the first instruction (R554, R556). -/
def endEarly (s : State) (y : Nat) (st : BitVec 16) : State :=
  let s1 := number s y []
  let s2 := match s1.tx y with
    | some t => if st = stDeadline ∧ t.numbered then forward s1 (.pairAbort t.seqNo 0) else s1
    | none => s1
  endWith s2 y st

/-- The descriptor of yoke y's transaction is at hand: the checks of R241 and R55 in order, then the external read
or the program's start. -/
def takeDesc (s : State) (y : Nat) : State :=
  match s.tx y with
  | none => s
  | some t =>
    let d := t.desc
    if s.kpr.tampered then endEarly s y stTampered
    else if !descOk d (versionFlags t.version) (versionLimit t.version) || decide (100000 < fld d 24 4) then
      endEarly s y stDescriptor
    else if !t.fwd && decide (t.deadline ≤ s.now) then endEarly s y stDeadline
    else
      let res := resolve t.progs (fld d 0 2)
      let s1 := match res with
        | .image i => holdImages s [i]
        | _ => s
      let s2 := (dropImages s1 (t.progs.map (·.2))).modTx y fun t =>
        { t with progs := [], image := match res with | .image i => some i | _ => none }
      if res = .absent then endEarly s2 y stAbsent
      else if fld d 40 4 = 0 then startProgram (number s2 y []) y []
      else
        let s3 := s2.modTx y fun t => { t with phase := .staging }
        if t.fwd then s3 else issueRead s3 (vfOf t.plot) (BitVec.ofNat 64 (fld d 32 8)) (stagedLen d)

/-- The descriptor that is next in ring order is taken, if its data is at hand (R61): it counts as read now (R50);
one whose FENCE holds it back is not read yet (R53). -/
def takeNext (s : State) (p h : Nat) : Option State :=
  let r := hopRef p h
  let x := s.hop r
  match (readersOf s p h).find? fun y => match s.tx y with
      | some t => t.slotIx == x.fetchHead && t.desc.length == 128
      | none => false with
  | none => none
  | some y =>
    match s.tx y with
    | none => none
    | some t =>
      let b := t.desc
      if versionFlags t.version = 2 ∧ bit (fld b 2 2) 1 ∧ (x.inflight ≠ 0 ∨ heldEntries s r ≠ 0) then
        some ((abandonReads s r).modHop r fun x => { x with fence := true })
      else
        let dl := fld b 24 4
        let s1 := s.setHop r { x with fetchHead := (x.fetchHead + 1) % x.n, acc := x.acc.tail, reads := x.reads - 1,
                                      inflight := x.inflight + 1, fence := false }
        some (takeDesc (s1.modTx y fun t => { t with deadline := t.deadline + (if dl = 0 then t.defDl else dl) }) y)

/-- Descriptors at hand are taken in ring order until one is missing. -/
def takeAll : Nat → State → Nat → Nat → State
  | 0, s, _, _ => s
  | fuel + 1, s, p, h =>
    match takeNext s p h with
    | none => s
    | some s' => takeAll fuel s' p h

/-- A descriptor arrives for a yoke; on an Insecure stream it is dropped (R92). -/
def arriveYoke (s : State) (y : Nat) (b : Bytes) : State :=
  match s.tx y with
  | none => s
  | some t =>
    if t.phase ≠ .reading ∨ t.fwd ∨ heldFor s (vfOf t.plot) then s
    else takeAll 64 (s.modTx y fun t => { t with desc := b }) t.plot t.hop

/-- A descriptor read for a yoke fails (R63). -/
def arriveFail (s : State) (y : Nat) : State :=
  match s.tx y with
  | none => s
  | some t => if t.phase ≠ .reading ∨ t.fwd then s else haltHop s (hopRef t.plot t.hop)

/-- The steward takes a descriptor of the admin hopper: it joins the queue with what steps 1 and 2 of R608 say of it, and the
next read is issued (R40, R99). -/
def takeAdmin (s : State) (d : Adm) : State :=
  let x := s.adm.hop
  let s1 := s.setHop .admin { x with
    fetchHead := (x.fetchHead + 1) % x.n, acc := x.acc.tail, reads := 0, inflight := x.inflight + 1 }
  fetchAdmin (endFront { s1 with adm := { s1.adm with queue := s1.adm.queue ++ [d] } })

/-- A descriptor of the admin hopper arrives (R40); on an Insecure stream it is dropped (R92). -/
def arriveAdmin (s : State) (r : HostRead) : State :=
  let x := s.adm.hop
  if !x.en || x.halted || x.acc.isEmpty || x.reads == 0 then s
  else match r with
    | .failed => haltHop s .admin
    | .data b => if heldFor s .pf0 then s else takeAdmin s (admOf b)

/-- A host read brings nothing or exactly `n` bytes. -/
def readOk (n : Nat) : HostRead → Bool
  | .failed => true
  | .data b => b.length == n

/-- DESCRIPTOR_ARRIVAL: a descriptor read completes. -/
def execDescriptorArrival (t : ReadFor) (r : HostRead) (s : State) : Res :=
  if !readOk 128 r then .fault .malformed
  else match t, r with
    | .admin, r => .next (arriveAdmin s r)
    | .yoke y, .failed => .next (arriveFail s y)
    | .yoke y, .data b => .next (arriveYoke s y b)

/-- The external data of a transaction arrives, or its read fails (R57, R241, R243); on an Insecure stream what arrives is
dropped (R92). -/
def staged (s : State) (y : Nat) (r : HostRead) : State :=
  match s.tx y with
  | none => s
  | some t =>
    if t.phase ≠ .staging ∨ t.fwd ∨ (heldFor s (vfOf t.plot) ∧ r ≠ .failed) then s
    else if t.deadline ≤ s.now then endEarly s y stDeadline
    else match readData (stagedLen t.desc) r with
      | none => endEarly s y stDataFault
      | some b => startProgram (number s y b) y b

/-- The standby starts its copy of a forwarded dispatch on yoke y: with the checks of the active, with no deadline of its own
and no host read (R554 to R556, R564). The plot's version on the active is not forwarded: it is one of the module's four,
a free value (log 3). Staged data that is missing marks a failed read of the active. -/
def dispatchFwd (s : State) (d : PairDispatch) (y : Nat) : State :=
  let p := d.plot.val
  let pl := s.plot p
  let v := [0x100, 0x101, 0x200, 0x201].getD ((Config.freeWord s.free).toNat % 4) 0x100
  let stop := (s.clu.aborts.find? fun a => a.1 == d.seq).map (·.2)
  let t : Tx := { plot := p, hop := d.hopper.val, desc := d.desc, deadline := s.now, policy := pl.active,
                  version := BitVec.ofNat 16 v, progs := pl.progs, seqNo := d.seq, fwd := true, numbered := true, stopAt := stop }
  let s1 := (drawn s 1).modPlot p fun pl => { pl with busy := pl.busy + 1 }
  let s2 := (holdImages s1 (pl.progs.map (·.2))).modYoke y fun k => { k with tx := some t, bench := [], core := {} }
  let s3 := { s2 with
    pwr := { s2.pwr with gatedY := s2.pwr.gatedY &&& ~~~(BitVec.ofNat 64 (2 ^ y)) },
    clu := { s2.clu with digests := s2.clu.digests ++ [(d.seq, p, 0, none)],
                         aborts := s2.clu.aborts.filter fun a => a.1 != d.seq } }
  let s4 := takeDesc (seedTx s3 y) y
  match s4.tx y with
  | some t =>
    if t.phase = .staging then
      (if d.staged.isEmpty then endWith s4 y stDataFault else startProgram s4 y (fit (stagedLen d.desc) d.staged))
    else s4
  | none => s4

/-- STAGING_READ_COMPLETE: external data read for staging completes. -/
def execStagingReadComplete (y : YokeId) (r : HostRead) (s : State) : Res := .next (staged s y r)

/-! ### Deadlines -/

/-- The deadline of yoke y's transaction passes (R81 to R83, R243, R253). -/
def expireYoke (s : State) (y : Nat) : State :=
  match s.tx y with
  | none => s
  | some t =>
    if t.fwd then s
    else match t.phase with
      | .reading => s
      | .staging => endEarly (advanceTo s t.deadline) y stDeadline
      | .running =>
        let s1 := forwardAbort (advanceTo s t.deadline) y
        endWith s1 y (if stalledForRandom t then stNoEntropy else stDeadline)

/-- The deadline of a hopper's oldest accepted descriptor passes before it is dispatched (R81): the module reads the descriptor
for its TAG, from what it prefetched while the stream is Insecure (R60, R92), and ends it. DESIGN CHOICE (log 109): it ends with
DEADLINE_EXPIRED and without the checks of R55, while a descriptor that has come to a yoke is checked first. -/
def expireQueued (s : State) (p h : Nat) (d : Bytes) : State :=
  let r := hopRef p h
  let x := s.hop r
  match x.acc with
  | [] => s
  | a :: rest =>
    if !x.en || x.halted || x.reads ≠ 0 || !readRoom s r then s
    else
      let dl := fld d 24 4
      let s1 := advanceTo s (a.1 + (if dl = 0 then a.2 else dl))
      let s2 := s1.setHop r { x with fetchHead := (x.fetchHead + 1) % x.n, acc := rest, fence := false }
      let s3 := if heldFor s2 (vfOf p) then s2
                else issueRead s2 (vfOf p) (x.sqBase + BitVec.ofNat 64 (128 * x.fetchHead)) 128
      checkStopped (ledAct (complete s3 r { tag := BitVec.ofNat 32 (fld d 4 4), status := stDeadline,
                                            irqNow := irqNowOf (s.plot p).version d })) p

/-- DEADLINE_EXPIRED: a transaction's deadline passes. -/
def execDeadlineExpired (t : DlTarget) (s : State) : Res :=
  match t with
  | .yoke y => .next (expireYoke s y)
  | .queued p h d => if d.length = 128 then .next (expireQueued s p h d) else .fault .malformed

/-- T_MARGIN_REACHED: the time left to the deadline falls to TMARGIN and FL.T is set (R151). -/
def execTMarginReached (y : YokeId) (s : State) : Res :=
  .next (match s.tx y with
    | some t =>
      let m := (s.yoke y).core.tmargin.toNat
      if t.phase = .running ∧ m ≠ 0 ∧ t.fwd = false then
        (advanceTo s (t.deadline - m)).modYoke y fun k => { k with core := { k.core with fl := { k.core.fl with t := true } } }
      else s
    | none => s)

/-- COALESCING_TIMER: the coalescing time of a hopper expires (R75). -/
def execCoalescingTimer (r : HopRef) (s : State) : Res :=
  .next (match (s.hop r).coalDue with
    | some t => hopInterrupt (advanceTo s t) r
    | none => s)

/-! ### MSI-X masks -/

/-- A function has the vector: PF0 has 4, a VF 17 (Table 2.1). -/
def hasVector (f : Fn) (v : Nat) : Bool :=
  match f with
  | .pf0 => decide (v < 4)
  | .vf _ => true

/-- The host reaches the MSI-X table of a function: it lies in Window D or Window V, and writes to the latter are dropped
while the plot is ABSENT (R39, R41, R43). -/
def tableReach (s : State) (f : Fn) : Bool :=
  reach s f && match f with
    | .pf0 => true
    | .vf p => decide ((s.plot p).st ≠ .absent)

/-- The host sets or clears one of the gates of R78: the enable and the function mask in configuration space, a vector's
Mask bit in the MSI-X table. -/
def msixGate (s : State) (f : Fn) (g : MsixField) (openIt : Bool) : State :=
  let m := s.msixOf f
  match g with
  | .enable => if cfgReach s f then sendPending (s.setMsix f { m with enable := openIt }) f else s
  | .fnMask => if cfgReach s f then sendPending (s.setMsix f { m with fnMask := !openIt }) f else s
  | .vector v =>
    if !tableReach s f || !hasVector f v then s
    else
      sendPending (s.setMsix f (
        if openIt then (if m.unmasked.contains v.val then m else { m with unmasked := v.val :: m.unmasked })
        else { m with unmasked := m.unmasked.filter (· != v.val) })) f

/-- A 32-bit write to the MSI-X table of a function: word k of entry v is the message's address, low and high half, its data,
or the vector control with the Mask bit (Tables 2.3 and 2.4; the entry's form is PCIe's, log 118). -/
def writeMsix (s : State) (f : Fn) (v k : Nat) (w : W32) : State :=
  let m := s.msixOf f
  if !tableReach s f || !hasVector f v || decide (17 ≤ v) then s
  else if k = 0 then s.setMsix f { m with addr := tmod 0 v (fun a => a.extractLsb' 32 32 ++ (w &&& 0xFFFFFFFC#32)) m.addr }
  else if k = 1 then s.setMsix f { m with addr := tmod 0 v (fun a => w ++ a.extractLsb' 0 32) m.addr }
  else if k = 2 then s.setMsix f { m with data := tset 0 v w m.data }
  else msixGate s f (.vector (Fin.ofNat 17 v)) (!w.getLsbD 0)

/-- A word of a function's MSI-X table, and of its pending bit array. -/
def readMsix (s : State) (f : Fn) (v k : Nat) : W32 :=
  let m := s.msixOf f
  if !hasVector f v then 0
  else if k = 0 then (tget 0 m.addr v).extractLsb' 0 32
  else if k = 1 then (tget 0 m.addr v).extractLsb' 32 32
  else if k = 2 then tget 0 m.data v
  else if m.unmasked.contains v then 0 else 1
def readPend (s : State) (f : Fn) : W32 :=
  BitVec.ofNat 32 ((List.range 17).foldl (fun n v => n + flag ((s.msixOf f).pend.contains v) v) 0)

/-- MSIX_UNMASK: the host enables MSI-X or clears a mask; pending messages whose gates are open go out (R78). -/
def execMsixUnmask (f : Fn) (m : MsixField) (s : State) : Res := .next (msixGate s f m true)

/-- MSIX_MASK: the host disables MSI-X or sets a mask; later messages become pending bits (R78). -/
def execMsixMask (f : Fn) (m : MsixField) (s : State) : Res := .next (msixGate s f m false)

/-! ### IDE and SPDM -/

/-- Stream k. -/
def State.ide (s : State) (k : Nat) : Ide := tget Ide.zero s.link.ide k
/-- The state with stream k replaced. -/
def State.setIde (s : State) (k : Nat) (i : Ide) : State :=
  { s with link := { s.link with ide := tset Ide.zero k i s.link.ide } }

/-- PF0's DOE mailbox can be used: the link is up. -/
def doeUp (s : State) : Bool := !s.link.perst && s.link.trained

/-- IDE_INTEGRITY_FAILURE: a TLP received on an active stream fails its check (R92). The event is logged on PF0 vector 2
(Table 2.10); the recorder's codes of Table 14.3 hold none for it (log 119). -/
def execIdeIntegrityFailure (k : Fin 2) (s : State) : Res :=
  .next (let i := s.ide k
    if i.active.isSome && !i.insecure then modEvent (s.setIde k { i with insecure := true }) else s)

/-- A message of a secured SPDM session leaves, sealed with AES-256-GCM under the session's keys (R87, R91). -/
def secured (s : State) (body : Bytes) : State :=
  match s.link.spdm with
  | [] => emit s (.doe .error [])
  | x :: rest => emit { s with link := { s.link with spdm := { x with sealed := x.sealed + 1 } :: rest } }
      (.doe .ok (Config.spdmSeal x.secret x.sealed body))

/-- An IDE_KM message needs a secured SPDM session (R91); before the admin hopper is live the answer is Busy (R90). -/
def ideKm (s : State) (f : State → State) : State :=
  if !doeUp s then s
  else if !s.adm.live then emit s (.doe .busy [])
  else if s.link.spdm.isEmpty then emit s (.doe .error []) else f s

/-- IDE_KM_QUERY: the responder reports the stream (R91). -/
def execIdeKmQuery (k : Fin 2) (s : State) : Res :=
  .next (ideKm s fun s => secured s (Config.doeBody k))

/-- IDE_KM_KEY_PROG: a key set of a stream is programmed, with the stream's association blocks: one of RIDs and up to two of
addresses (R91). -/
def execIdeKmKeyProg (k set : Fin 2) (rids : IdeRids) (addrs : IdeAddrs) (s : State) : Res :=
  .next (ideKm s fun s =>
    let i := { s.ide k with first := rids.first, last := rids.last, addr0 := addrs.block0, addr1 := addrs.block1 }
    secured (s.setIde k (if set = 0 then { i with prog0 := true } else { i with prog1 := true })) [])

/-- IDE_KM_K_SET_GO: a programmed key set becomes active; the stream is secure and what was held goes out (R91, R92). -/
def execIdeKmKSetGo (k set : Fin 2) (s : State) : Res :=
  .next (ideKm s fun s =>
    let i := s.ide k
    if (if set = 0 then i.prog0 else i.prog1) then
      releaseHeld (secured (s.setIde k { i with active := some set, insecure := false }) [])
    else emit s (.doe .error []))

/-- IDE_KM_K_SET_STOP: a key set is stopped (R91). DESIGN CHOICE (log 111): an Insecure stream whose active set is stopped stays
Insecure and goes on covering its functions. -/
def execIdeKmKSetStop (k set : Fin 2) (s : State) : Res :=
  .next (ideKm s fun s =>
    let i := s.ide k
    let i' := if set = 0 then { i with prog0 := false } else { i with prog1 := false }
    secured (s.setIde k (if i.active = some set then { i' with active := none } else i')) [])

/-- An SPDM request: Busy until the admin hopper is live (R90), else its answer. -/
def spdm (s : State) (f : State → State) : State :=
  if !doeUp s then s else if s.adm.live then f s else emit s (.doe .busy [])

/-- An answer that needs a nonce of P1 waits for the drill (R401, R412). -/
def p1Draw (s : State) (f : State → State) : State := if privReady s 1 then f (privGen s 1) else s

/-- SPDM_GET_CERTIFICATE: slot 0 holds the chain, the other slots are empty (R88). -/
def execSpdmGetCertificate (slot : Fin 8) (s : State) : Res :=
  .next (spdm s fun s => emit s (.doe .ok (if slot = 0 then Config.identityChain else [])))

/-- SPDM_CHALLENGE: a signature under the attestation key over the challenge (R87). -/
def execSpdmChallenge (nonce : Bytes) (s : State) : Res :=
  if nonce.length ≠ 32 then .fault .malformed
  else .next (spdm s fun s => p1Draw s fun s => drawn (emit s (.doe .ok (Config.attestSign nonce s.free))) 1)

/-- The content that measurement block `i` digests (Table 2.12): for block 2 the active bank with its image, for block 3 the
vendor library that the image brought (R231), for block 4 the life-cycle state and the TAMPERED latch, for block 5 the locked
regions with their registers. -/
def measured (s : State) (i : Nat) : Bytes :=
  let bank := if s.lcs.bank then s.lcs.bankB else s.lcs.bankA
  Config.measurement i (match i with
    | 2 => le 1 (flag s.lcs.bank 0) ++ le 2 bank.svn.toNat ++ le 4 bank.version.toNat ++ bank.data
    | 3 => s.prog.lib
    | 4 => [le 1 s.lcs.state.toNat, le 1 (flag s.kpr.tampered 0)].flatten
    | 5 => (s.hdg.cfg.filter fun x => x.2.getLsbD 31).flatMap fun x =>
        le 1 x.1 ++ le 4 (tget 0 s.hdg.base x.1).toNat ++ le 4 x.2.toNat ++ le 8 (tget 0 s.hdg.perm x.1).toNat
    | _ => [])

/-- SPDM_GET_MEASUREMENTS: the blocks of Table 2.12, each a SHA-384 digest, signed (R87, R89); index 0 asks for the
number of blocks and 0xFF for all of them. -/
def execSpdmGetMeasurements (index : Byte) (nonce : Bytes) (s : State) : Res :=
  if nonce.length ≠ 32 then .fault .malformed
  else .next (spdm s fun s =>
    let one (i : Nat) : Bytes := Config.hash 2 (measured s i)
    let body := if index = 0 then [5] else if index = 0xFF then [1, 2, 3, 4, 5].flatMap one
                else if index.toNat ≤ 5 then one index.toNat else []
    if 5 < index.toNat ∧ index ≠ 0xFF then emit s (.doe .error [])
    else p1Draw s fun s => drawn (emit s (.doe .ok (body ++ Config.attestSign (nonce ++ body) s.free))) 1)

/-- The secret a key exchange agrees on: the DHE over secp384r1 of the host's share and the module's, through the SPDM key
schedule with the exchange's transcript (R87). -/
def spdmSecret (exchange : Bytes) (k : Nat) : Bytes :=
  Config.spdmSchedule (Config.dheShared exchange k) (exchange ++ Config.dhePublic k)

/-- What SPDM_KEY_EXCHANGE answers: the module's DHE share, a signature under the attestation key over the transcript, and
the responder's verify data under the new keys (R87). -/
def spdmAnswer (exchange : Bytes) (k : Nat) : Bytes :=
  let th := exchange ++ Config.dhePublic k
  Config.dhePublic k ++ Config.attestSign th (k + 1) ++ Config.spdmVerify (spdmSecret exchange k) th

/-- SPDM_KEY_EXCHANGE: a secured session comes up (R87). -/
def execSpdmKeyExchange (exchange : Bytes) (s : State) : Res :=
  if exchange.length ≠ 96 then .fault .malformed
  else .next (spdm s fun s => p1Draw s fun s =>
    drawn (emit { s with link := { s.link with spdm := { secret := spdmSecret exchange s.free } :: s.link.spdm } }
      (.doe .ok (spdmAnswer exchange s.free))) 2)

end Sys2Proof.Machine
end

