-- ==== Sys2Proof/Machine/SessOps.lean ====
section
/-! DEFINITION. Reile sessions (R534 to R537): ports and members, the handshake, sessions that come up and go down, resends,
the acceptance of a frame (R532), rehoming and waiting claims (R549 to R551), resynchronisation (R547). -/

namespace Sys2Proof.Machine

/-! ### Ports and members -/

/-- A port is enabled and its link is up. -/
def portUp (s : State) (k : Nat) : Bool := (tget portDefault s.clu.portCfg k).getLsbD 32 && tget false s.clu.link k

/-- In DOZE the Reile PLLs run only while a port is up (Tables 1.3 and 1.4). -/
def reilePll (s : State) : BitVec 6 :=
  if !s.pwr.doze then s.pwr.pll
  else if portUp s 0 || portUp s 1 then s.pwr.pll ||| 0x20 else s.pwr.pll &&& 0x1F

/-- The ports that reach a peer: those of its port mask that are up here. -/
def portsOf (s : State) (peer : Nat) : List Nat :=
  match member s peer with
  | some m => [0, 1].filter fun k => m.mask.getLsbD k && portUp s k
  | none => []

/-- The lower node ID initiates (R535). -/
def initiator (s : State) (peer : Nat) : Bool := decide (s.clu.node < peer)

/-- Sessions that are up and use a port (CLU_PORT_STAT.SESS). -/
def sessCount (s : State) (k : Nat) : Nat := tcount (fun _ x => x.hs == .up && x.port == k) s.clu.sess

/-! ### Handshake -/

/-- A frame of the handshake or of a rekey is sent with its content; a rekey's has a SEQ of the session (R532, R536). -/
def sendHs (s : State) (peer : Nat) (ty : Byte) (body : Bytes) : State :=
  let x := s.sess peer
  if x.hs = .up then
    (emit s (.handshake x.port peer (frameHead s x.port peer ty x.ver x.kph false) (x.txSeq + 1) body)).setSess peer
      { x with txSeq := x.txSeq + 1 }
  else emit s (.handshake x.port peer (frameHead s x.port peer ty 2 false false) 0 body)

/-- The content of a HELLO: highest version, node ID, domain ID, identity certificate chain, node certificate (Table 15.3 step 1; the
order of the fields is the table's, their widths DESIGN CHOICE, log 133). -/
def helloBytes (ver node : Nat) (domain : W32) (chain cert : Bytes) : Bytes :=
  le 1 ver ++ le 2 node ++ le 4 domain.toNat ++ chain ++ cert

/-- A session with a member begins: HELLO goes out where a port reaches it (Table 15.3 step 1). The peer's bindings stay
known. -/
def startHs (s : State) (peer : Nat) : State :=
  let x := s.sess peer
  if !s.clu.joined || x.hs != .idle then s
  else match portsOf s peer with
    | [] => s
    | k :: _ => sendHs (s.setSess peer { binds := x.binds, hs := .helloSent, port := k }) peer 0x01
      (helloBytes 2 s.clu.node s.clu.domain Config.identityChain s.clu.cert)

/-- Sessions with every member that has none begin. -/
def startAll (s : State) : State := (peers s).foldl startHs s

/-- The module's signature over the SHA-384 of a transcript (Table 15.3 steps 3 and 4). -/
def signScript (s : State) (script : Bytes) : State × Bytes := (drawn s 1, Config.attestSign (Config.hash 2 script) s.free)

/-- KEX or REKEY: an ML-KEM-768 encapsulation key and an ECDH P-384 point of a new ephemeral secret (Table 15.3 step 2). `f` notes
that it has gone. -/
def sendKex (s : State) (peer : Nat) (ty : Byte) (f : Sess → Sess) : State :=
  let n := newSecret s 112
  let x := n.1.sess peer
  let body := Config.kemPublic n.2 ++ Config.dhePublic n.2
  sendHs (n.1.setSess peer { f x with eph := n.2, script := x.script ++ body, got := 0 }) peer ty body

/-- KEX_REPLY or REKEY_REPLY: the ML-KEM ciphertext, this node's point and its signature over the transcript (Table 15.3 step 3). -/
def sendReply (s : State) (peer : Nat) (ty : Byte) (f : Sess → Sess) : State :=
  let n := newSecret s 112
  let x := n.1.sess peer
  let e := Config.kemEncaps x.kex.1 n.2
  let body := e.1 ++ Config.dhePublic n.2
  let g := signScript n.1 (x.script ++ body)
  sendHs (g.1.setSess peer { f x with eph := n.2, script := x.script ++ body ++ g.2, got := 0,
                                      secret := e.2 ++ Config.dheShared x.kex.2 n.2 }) peer ty (body ++ g.2)

/-- A handshake or rekey takes its next step with its ephemeral keys at hand: KEX, KEX_REPLY, REKEY or REKEY_REPLY
(Table 15.3, R536). -/
def hsStep (s : State) (peer : Nat) : State :=
  let x := s.sess peer
  match x.hs, x.rk with
  | .helloSent, _ => sendKex s peer 0x02 fun x => { x with hs := .kexSent }
  | .kexGot, _ => sendReply s peer 0x03 fun x => { x with hs := .replySent }
  | .up, .helloSent => sendKex s peer 0x05 fun x => { x with rk := .kexSent, script := [] }
  | .up, .kexGot => sendReply s peer 0x06 fun x => { x with rk := .replySent }
  | _, _ => s

/-- Handshakes that wait for their two ephemeral keys of P2, the KEM's and the ECDH's, go on, oldest first, as far as P2 gives
them (R404, R535). -/
def hsPump (s : State) : State :=
  s.clu.hsWait.foldl (fun s p =>
    if s.clu.hsWait.head? = some p then
      let g := keyGens s 2 (2 - (s.sess p).got)
      if g.2 = 0 then hsStep { g.1 with clu := { g.1.clu with hsWait := g.1.clu.hsWait.tail } } p
      else g.1.setSess p { g.1.sess p with got := 2 - g.2 }
    else s) s

/-- A handshake asks for its ephemeral keys. -/
def wantKey (s : State) (peer : Nat) : State :=
  hsPump { s with clu := { s.clu with hsWait := s.clu.hsWait.filter (· != peer) ++ [peer] } }

/-- The 72 bytes of a session's keys and salts: HKDF-SHA-384 over the shared secrets, salted with the transcript hash (R535). -/
def sessKeys (secret script : Bytes) (ver : Byte) : Bytes :=
  Config.hkdf384 secret (Config.hash 2 script) ([0x52, 0x45, 0x49, 0x4C, 0x45, 0x20, 0x76] ++ [ver]) 72

/-- A check of a handshake fails: it ends and is counted (R535). A rekey that fails leaves the session's keys. -/
def hsFail (s : State) (peer : Nat) : State :=
  let x := s.sess peer
  let s1 := { s with clu := { s.clu with hsFail := bump s.clu.hsFail, hsWait := s.clu.hsWait.filter (· != peer) } }
  settleWaits (s1.setSess peer (if x.hs = .up then { x with rk := .idle } else { binds := x.binds }))

/-! ### Claims and rehoming -/

/-- The RPLY of the plot that waits for a claim gets its outcome (R549 step 5). -/
def wakeClaim (s : State) (p : Nat) (fp : BitVec 96) (st : BitVec 16) : State :=
  (List.range 64).foldl (fun s y => match s.tx y with
    | some t => if t.plot = p ∧ t.wait = .claim fp then s.modTx y fun t => { t with wait := .none, claimGot := some st } else s
    | none => s) s

/-- A program still waits for a claim. -/
def claimWaited (s : State) (c : ClaimW) : Bool :=
  (List.range 64).any fun y => match s.tx y with
    | some t => t.plot == c.plot && t.wait == .claim c.fp
    | none => false

/-- A claim of this node is answered: CLAIM is cleared, or the entry goes, and the RPLY that waits has its status
(R549 step 5, R550). -/
def claimAnswered (s : State) (dtid : W32) (fp : BitVec 96) (a : ClaimAnswer) : State :=
  match s.clu.claims.find? fun c => c.dtid == dtid && c.fp == fp with
  | none => s
  | some c =>
    let s1 := { s with clu := { s.clu with claims := s.clu.claims.filter (· != c) } }
    match a with
    | .granted => wakeClaim (rplSettle s1 c.plot fp true) c.plot fp stOK
    | .taken => wakeClaim (rplSettle s1 c.plot fp true) c.plot fp stDuplicate
    | .status st =>
      let s2 := if st = stTableFull ∧ claimWaited s c then { s1 with rpl := { s1.rpl with fullCnt := bump s1.rpl.fullCnt } } else s1
      wakeClaim (rplSettle s2 c.plot fp false) c.plot fp st

/-- The home's answer to a claim of another node (R549 step 4); none where no plot here binds the tenant. -/
def homeAnswer (s : State) (dtid : W32) (fp : BitVec 96) : State × Option ClaimAnswer :=
  match boundPlot s dtid with
  | none => (s, none)
  | some p =>
    let r := rplRecord s p fp true false
    (r.1, some (if r.2 = stOK then .granted else if r.2 = stDuplicate then .taken else .status r.2))

/-- This node, as the home, meets a claim: its own is granted, another's is answered (R549 steps 3 and 4). -/
def serveClaim (s : State) (src : Nat) (dtid : W32) (fp : BitVec 96) : State :=
  if src = s.clu.node then claimAnswered s dtid fp .granted
  else match homeAnswer s dtid fp with
    | (s1, some a) => sendMsg s1 src (.claimReply dtid fp a)
    | (s1, none) => s1

/-- Claims this home held are met once it accepts claims of their tenant (R539, R551). -/
def serveHeld (s : State) : State :=
  s.clu.heldClaims.foldl (fun s c =>
    if homeHolds s c.2.1 then s
    else serveClaim { s with clu := { s.clu with heldClaims := s.clu.heldClaims.erase c } } c.1 c.2.1 c.2.2) s

/-- The claims of this node that satisfy a test go to their home again (R550, R551). -/
def resendClaims (s : State) (p : ClaimW → Bool) : State :=
  (s.clu.claims.filter p).foldl (fun s c =>
    let h := homeOf s c.dtid c.fp
    if h = s.clu.node then
      (if homeHolds s c.dtid then
        (if s.clu.heldClaims.contains (s.clu.node, c.dtid, c.fp) then s
         else { s with clu := { s.clu with heldClaims := s.clu.heldClaims ++ [(s.clu.node, c.dtid, c.fp)] } })
       else serveClaim s s.clu.node c.dtid c.fp)
    else sendMsg { s with clu := { s.clu with heldClaims := s.clu.heldClaims.erase (s.clu.node, c.dtid, c.fp) } } h
      (.claim c.dtid c.fp)) s

/-- Every shared fingerprint of a plot. -/
def sharedFps (s : State) (p : Nat) : List (BitVec 96) :=
  ((s.rpl.tbl ++ s.rpl.ovf).filter fun x => x.2.valid && x.2.shared && x.2.plot == p).map fun x => x.2.fp

/-- The home of a fingerprint under a given member set (R548). -/
def homeAmong (s : State) (l : List Nat) (dtid : W32) (fp : BitVec 96) : Nat :=
  let h := Config.siphash24 (secretBytes s.kpr.cab.domain 32) (le 4 dtid.toNat ++ be 12 fp.toNat) % 2 ^ 32
  l.getD (h % l.length) s.clu.node

/-- The member set of a tenant has changed from `old`: this node, if it binds the tenant, sends the fingerprints whose home
has moved, tells every other bound node that it has finished, and as a home accepts no claim until all have (R551). -/
def rehomeFrom (s : State) (dtid : W32) (old : List Nat) : State :=
  let new := binders s dtid
  if new = old || !new.contains s.clu.node || standby s then s
  else
    let others := new.filter (· != s.clu.node)
    let left := others.filter fun n => !s.clu.early.contains (dtid, n)
    let keep := s.clu.rehoming.filter fun r => r.dtid != dtid
    let s1 := { s with clu := { s.clu with
      rehoming := if left.isEmpty then keep else keep ++ [{ dtid := dtid, left := left }],
      early := s.clu.early.filter fun e => e.1 != dtid } }
    let moved (n : Nat) : List (BitVec 96) := match boundPlot s dtid with
      | some p => (sharedFps s p).filter fun fp => homeAmong s new dtid fp == n && homeAmong s old dtid fp != n
      | none => []
    let s2 := others.foldl (fun s n => sendMsg s n (.rehome dtid (moved n) true)) s1
    if left.isEmpty then resendClaims (serveHeld s2) fun c => c.dtid == dtid else s2

/-- The tenants this node binds. -/
def ownDtids (s : State) : List W32 :=
  ((s.plots.filter fun x => x.2.dtid != 0 && x.2.st != .absent).map fun x => x.2.dtid).eraseDups

/-- A change of the member table or of bindings, from the state before it: every tenant whose member set it alters is
rehomed (R551). -/
def rehomeAll (before s : State) : State :=
  (ownDtids s ++ ownDtids before).eraseDups.foldl (fun s d => rehomeFrom s d (binders before d)) s

/-- The bindings go to every session after a change, and tenants are rehomed (R540, R551). -/
def announce (before s : State) : State :=
  if ownDtids s = ownDtids before then s
  else rehomeAll before ((peers s).foldl (fun s p => sendMsg s p (.bind (ownDtids s))) s)

/-- A node has finished its part of a rehoming (R551). -/
def rehomeDone (s : State) (dtid : W32) (node : Nat) : State :=
  match s.clu.rehoming.find? fun r => r.dtid == dtid with
  | none => { s with clu := { s.clu with early := s.clu.early.filter (· != (dtid, node)) ++ [(dtid, node)] } }
  | some r =>
    let left := r.left.filter (· != node)
    let rest := s.clu.rehoming.filter fun q => q.dtid != dtid
    if left.isEmpty then
      resendClaims (serveHeld { s with clu := { s.clu with rehoming := rest } }) fun c => c.dtid == dtid
    else { s with clu := { s.clu with rehoming := rest ++ [{ dtid := dtid, left := left }] } }

/-! ### Sessions up and down -/

/-- The entry of a SHARED key as an update (R543). -/
def updOf (s : State) (e : KitEntry) (dtid : W32) : ShareUpd :=
  let x := s.slot e.slot
  let pr := match s.kp.pairs.find? fun q => q.1 == e.plot && q.2.1 == e.name with
    | some q => (q.2.2.1, q.2.2.2)
    | none => (0, s.clu.node)
  { dtid := dtid, name := e.name, alg := x.alg, attr := x.attr, len := x.len, expiry := x.expiry, age := e.age, kcv := x.kcv,
    material := x.material, stamp := pr.1, origin := BitVec.ofNat 12 pr.2 }

/-- Every SHARED entry of a tenant goes to a peer (R547); a standby sends none (R554). -/
def sendShared (s : State) (peer : Nat) (dtid : W32) : State :=
  if standby s then s
  else match boundPlot s dtid with
    | none => s
    | some p =>
      ((s.kp.kit ++ s.kp.ovf).filter fun x => x.2.valid && x.2.shared && x.2.plot == p).foldl
        (fun s x => sendMsg s peer (.shareLearn (updOf s x.2 dtid))) s

/-- A session's version: the lowest of both HELLOs' and the domain's (R537). -/
def sessVer (s : State) (x : Sess) : Byte := BitVec.ofNat 8 (min 2 (min x.peerVer.toNat s.clu.ver.toNat))

/-- A session is up (Table 15.3 step 5): its version (R537), SEQ from 1, BIND goes out, a module without the domain seed takes
it from a peer that holds it (R539), and waiting claims whose home is the peer are sent again. That the peer holds the seed
is not seen in any message: a free choice (log 3). -/
def sessUp (s : State) (peer : Nat) : State :=
  let x := s.sess peer
  let s1 := s.setSess peer { x with
    hs := .up, ver := sessVer s x, kph := false, overlap := false, keys := sessKeys x.secret x.script (sessVer s x), oldKeys := [],
    script := [], kex := ([], []), secret := [], eph := 0,
    rk := .idle, txSeq := 0, rxHigh := 0, rxSeen := [], unacked := [], synced := false, down := false }
  let s2 := sendMsg s1 peer (.bind (ownDtids s1))
  let s3 := if !s2.clu.hasSd && Config.freeBool s2.free then
      let n := newSecret (drawn s2 1) 32
      let s4 := n.1.setCab fun c => { c with domain := n.2 }
      serveHeld { s4 with clu := { s4.clu with hasSd := true } }
    else drawn s2 1
  resendClaims s3 fun c => homeOf s3 c.dtid c.fp == peer

/-- A session is declared down (R534): CLU_EVENT.SESSION; claims to the peer that no program waits for any more stay recorded
(R550); the session is established again at once. -/
def sessDown (s : State) (peer : Nat) : State :=
  let x := s.sess peer
  if x.hs != .up then s
  else
    let gone := s.clu.claims.filter fun c => homeOf s c.dtid c.fp == peer && !claimWaited s c
    let s1 := gone.foldl (fun s c => rplSettle s c.plot c.fp true) s
    let s2 := { s1 with clu := { s1.clu with claims := s1.clu.claims.filter fun c => !gone.contains c,
                                             hsWait := s1.clu.hsWait.filter (· != peer) } }
    startHs (cluFlag (settleWaits (s2.setSess peer { binds := x.binds })) 1) peer

/-- The Reile ports drop their sessions (R509). -/
def dropSessions (s : State) : State :=
  (s.clu.sess.map (·.1)).foldl (fun s p =>
    if (s.sess p).hs = .up then sessDown s p else s.setSess p { binds := (s.sess p).binds }) s

/-! ### Frames -/

/-- The frame is for this node and from a member (R531, R538). -/
def addressed (s : State) (h : Hdr) : Bool :=
  s.clu.joined && h.dst.toNat == s.clu.node && (member s h.src.toNat).isSome && h.src.toNat != s.clu.node

/-- The port's codewords that RS-FEC corrected or could not correct are counted as a frame arrives (R567). -/
def fecNote (s : State) (h : Hdr) : State :=
  let add (n : Nat) (v : W32) : W32 := if v.toNat + n < 2 ^ 32 then v + BitVec.ofNat 32 n else 0xFFFFFFFF
  if h.corr = 0 ∧ h.unc = 0 then s
  else { s with clu := { s.clu with fecCorr := tmod 0 h.port.val (add h.corr) s.clu.fecCorr,
                                    fecUnc := tmod 0 h.port.val (add h.unc) s.clu.fecUnc } }

/-- A frame inside a session is received (R532, R534): one whose tag fails, or whose key phase is not accepted, is dropped and
counted; a repeated or far older SEQ is dropped silently; an accepted one with ACKREQ is acknowledged. -/
def receive (s : State) (h : Hdr) (run : State → Nat → State) : State :=
  let s := fecNote s h
  let p := h.src.toNat
  let x := s.sess p
  if !addressed s h || x.hs != .up then s
  else if !h.tagOk || (h.kph != x.kph && !x.overlap) then { s with clu := { s.clu with authFail := bump s.clu.authFail } }
  else if x.rxSeen.contains h.seq || decide (h.seq.toNat + 1024 ≤ x.rxHigh.toNat) then s
  else
    let high := if x.rxHigh.toNat < h.seq.toNat then h.seq else x.rxHigh
    let s1 := s.setSess p { x with rxHigh := high,
                                   rxSeen := (h.seq :: x.rxSeen).filter fun q => decide (high.toNat < q.toNat + 1024) }
    run (if h.ackReq then sendMsg s1 p (.ack [h.seq]) else s1) p

/-- What exists from version 2 only is dropped in a version 1 session (Table 15.4). -/
def inV2 (run : State → Nat → State) (s : State) (p : Nat) : State := if (s.sess p).ver.toNat < 2 then s else run s p

end Sys2Proof.Machine
end

