-- ==== Sys2Proof/Machine/Plots.lean ====
section
/-! DEFINITION. Plots and drawers (03): the plot admin commands, opening and version negotiation (R94, R116 to R119),
plot reset and removal (Tables 3.6 and 3.7), and the PCIe resets that reset plots (R36, R37, R493, R494). -/

namespace Sys2Proof.Machine

/-! ### Opening -/

/-- The module's command-set versions, highest first (R116). -/
def versions : List Nat := [0x201, 0x200, 0x101, 0x100]

/-- The negotiated version: the highest that MAXVER and VER_CAP permit (R117). -/
def negotiate (maxver cap : Nat) : Option Nat :=
  versions.find? fun v => decide (v ≤ maxver) && (cap == 0 || decide (v ≤ cap))

/-- A CREATED plot whose flags ARMED and OPEN_PEND are both set opens (R94, R117); with no version to negotiate the
request is refused (R118). On a standby its plots stay CREATED until the takeover (R553, Table 15.7). -/
def tryOpen (s : State) (p : Nat) : State :=
  let pl := s.plot p
  if pl.st = .created ∧ pl.armed ∧ pl.openPend ∧ !mirrors s then
    match negotiate pl.maxver.toNat pl.verCap.toNat with
    | some v => enterState (s.setPlot p { pl with openPend := false, version := BitVec.ofNat 16 v }) p .opened
    | none => plotEvent (s.setPlot p { pl with openPend := false }) p 4
  else s

/-- The driver's write of PLT_VOPEN with GO = 1 (R116, R118, Table 3.2). -/
def openRequest (s : State) (p : Nat) (v : W32) : State :=
  let pl := s.plot p
  if !reach s (vfOf p) || decide (pl.st = .absent) then s
  else
    let m := v.extractLsb' 16 16
    let pl1 := { pl with maxver := m }
    if pl.st ≠ .created then s.setPlot p pl1
    else if m.toNat < 0x100 then plotEvent (s.setPlot p { pl1 with openPend := false }) p 4
    else tryOpen (s.setPlot p { pl1 with openPend := true }) p

/-- PLT_VOPEN_GO: the driver requests OPEN; a word whose bit 0 is 0 is not this event. -/
def execPltVopenGo (p : PlotId) (value : W32) (s : State) : Res :=
  .next (if value.getLsbD 0 then openRequest s p value else s)

/-! ### Reset and removal -/

/-- What an Insecure stream holds of a plot's queue traffic: entries, completion vectors, result data and reads. Its status vectors,
16 and 17, are none of it. -/
def heldOf (p : Nat) : HeldOut → Bool
  | .entry (.vf q _) _ => q.val == p
  | .vector (.vf q) v => q.val == p && decide (v < 16)
  | .data (.vf q) _ _ => q.val == p
  | .read (.vf q) _ _ => q.val == p
  | _ => false

/-- A plot reset starts: steps 1 to 5 of Table 3.6 as far as they act at once. Accepted descriptors are discarded, the
plot's transactions are squashed, what is held or owed for it is discarded, coalescing ends, the plot's sessions end (R122, R124,
R477). The entry is not signalled (R97). -/
def startReset (s : State) (p : Nat) (st : PlotSt) : State :=
  let quiet (_ : Nat) (x : Hopper) : Hopper := { x with acc := [], pendCnt := 0, coalDue := none, coalAt := none }
  let s1 := (endScope s p 5).modPlot p fun pl =>
    { pl with st := st, reopen := false, resetDone := false, hoppers := tmap Hopper.zero quiet pl.hoppers }
  let s2 := (yokesOf s1 p).foldl squashTx s1
  { s2 with link := { s2.link with held := s2.link.held.filter fun h => !heldOf p h }, owed := s2.owed.filter fun o => o.tx.plot != p }

/-- A reset of a plot that no admin command asked for: an FLR of its VF, VF Enable cleared, PERST_N (R36, R37, R95). -/
def resetPlot (s : State) (p : Nat) : State :=
  if [.created, .opened, .stopping, .stopped].contains (s.plot p).st then startReset s p .resetting else s

/-- Step 6 of Table 3.6: Window V registers and the drawer return to their reset values, OPEN_PEND and the version are
cleared, the drill is marked to reseed (R119, R123, R406). -/
def clearWindow (s : State) (p : Nat) : State :=
  markReseed (s.modPlot p fun pl => { pl with
    openPend := false, maxver := 0, version := 0, vevent := 0, veventCnt := [], drwIn := [], drwOut := [], drwCopy := [],
    inBusy := false, outValid := false, badVer := false, inRefused := false, badVerCnt := 0, inRefCnt := 0,
    hoppers := [] }) p

/-- The reset's end: step 7 of Table 3.6. The PLOT_RESETs that started or joined it complete OK (R122, R126). -/
def resetComplete (s : State) (p : Nat) : State :=
  let pl := s.plot p
  if pl.st = .resetting ∨ (pl.st = .removing ∧ pl.resetDone = false) then
    let s1 := clearWindow s p
    let waiting := pl.resetWait
    let s2 := s1.modPlot p fun pl => { pl with resetWait := [], resetDone := decide (pl.removeWait.isSome) }
    let s3 := if pl.removeWait.isSome then s2.modPlot p fun pl => { pl with st := .removing } else enterState s2 p .created
    waiting.foldl (fun s d => forwardAdmin (admOk s d) d) s3
  else s

/-- RESET_SEQUENCE_COMPLETE: the drains of a plot reset end. -/
def execResetSequenceComplete (p : PlotId) (s : State) : Res := .next (resetComplete s p)

/-- The key plane gives up everything of a plot: entries, slots, update pairs, fingerprints, waiting learnings, shared
claims (R126 step 8, R467 step 2). -/
def dropPlotKeys (s : State) (p : Nat) : State :=
  let keep (e : KitEntry) : Bool := e.plot != p
  { s with
    kp := { s.kp with kit := s.kp.kit.filter fun x => keep x.2, ovf := s.kp.ovf.filter fun x => keep x.2,
                      slots := s.kp.slots.filter fun x => x.2.plot != p, pairs := s.kp.pairs.filter fun x => x.1 != p,
                      walkq := s.kp.walkq.filter fun x => x.1.plot != p },
    rpl := { s.rpl with tbl := s.rpl.tbl.filter fun x => x.2.plot != p, ovf := s.rpl.ovf.filter fun x => x.2.plot != p },
    vlt := { s.vlt with recs := s.vlt.recs.filter fun x => x.2.plot != p },
    clu := { s.clu with claims := s.clu.claims.filter fun x => x.plot != p } }

/-- The images of a plot's program table lose their names; an image nobody runs gives up its granules (R238, R239). -/
def dropPrograms (s : State) (p : Nat) : State :=
  let free (t : Tbl Image) (i : Nat) : Tbl Image :=
    tmod Image.zero i (fun g => if g.users = 0 then Image.zero else { g with named := false }) t
  { s with prog := { s.prog with images := ((s.plot p).progs.map (·.2)).foldl free s.prog.images } }

/-- Steps 8 to 11 of Table 3.7: the plot's keys, fingerprints, drill, policy sets, curves, programs, root key, registry
and vault records go, the removal record is written, and the plot enters ABSENT unsignalled (R97, R126, R127). -/
def removalComplete (s : State) (p : Nat) : State :=
  let pl := s.plot p
  if pl.st = .removing ∧ pl.resetDone then
    let s1 := dropPrograms (dropPlotKeys s p) p
    let s2 := { s1.setSeed p 0 with rng := { s1.rng with reqs := s1.rng.reqs.filter (· != SeedReq.plot p) } }
    let s3 := (s2.setRegistry p Registry.zero).setPlot p
      { Plot.zero with txcnt := pl.txcnt, squashCnt := pl.squashCnt, outAcked := pl.outAcked, outAckCnt := pl.outAckCnt }
    let s4 := announce s (saveRecord s3 p)
    match pl.removeWait with
    | some d => forwardAdmin (admOk (writeReserved s4 0x1002 p (le 4 d.tag.toNat)) d) d
    | none => s4
  else s

/-- REMOVAL_SEQUENCE_COMPLETE: the removal's steps end. -/
def execRemovalSequenceComplete (p : PlotId) (s : State) : Res := .next (removalComplete s p)

/-! ### Plot admin commands -/

/-- A plot admin command without fallow or tamper permission (R438, R503). -/
def plotCmd (code : BitVec 16) (args : State → Adm → Bool) (sts : List PlotSt) (quorum : State → Adm → Bool)
    (run : State → Adm → State) (s : State) : Res :=
  .next (admin code false false notDecom (fun s d => plotNamed d && args s d) (plotIn sts) quorum (notStandby run) s)

/-- INLEN is n (R100). -/
def inlenIs (n : Nat) (_ : State) (d : Adm) : Bool := d.inlen == n

/-- The acreage record of an admin command's inline data. -/
def Adm.acr (d : Adm) : Bytes := cut d.inl 4 64

/-- INLEN and operand ranges of PLOT_CREATE and PLOT_RESIZE (R100, R105). -/
def acrArgs (_ : State) (d : Adm) : Bool := d.inlen == 68 && acrRange d.acr

/-- PLOT_CREATE past its checks: the plot is CREATED with the acreage and the default policy, its counter is 0, its root
key's seed is drawn, its drill is queued for instantiation, the record is written (R102, R112, R131, R402, R423). -/
def createPlot (s : State) (d : Adm) : State :=
  let p := d.pid
  let n := newSecret s 6
  let old := s.plot p
  let s1 := n.1.setSeed p n.2
  let pl : Plot := { acr := acrOf d.acr, active := defaultPolicy, squashCnt := old.squashCnt, outAcked := old.outAcked,
                     outAckCnt := old.outAckCnt, tickPeriod := polTick defaultPolicy + 1,
                     tickDue := s.now + 1000 * (polTick defaultPolicy + 1) }
  let s2 := enterState (s1.setPlot p pl) p .created
  let s3 := wantSeed (s2.modDrill p fun dr => { dr with queued := true }) (.plot p)
  forwardAdmin (admOk (writeReserved (saveRecord s3 p) 0x1001 p (le 4 d.tag.toNat)) d) d

/-- The own checks of PLOT_CREATE: pools (R105), room for the record (R102), then the seed of the root key, which P0
draws after a fresh reseed; until then the command waits at the front of the steward's queue (R404, R411, R423). -/
def runCreate (s : State) (d : Adm) : State :=
  match poolFault s d.pid (acrOf d.acr) with
  | some k => admFail s d stPolicy (BitVec.ofNat 8 (0x10 + k))
  | none =>
    if !auditRoom s then admFail s d stAudit 0x20
    else
      let g := keyGen s 0
      if g.2 then createPlot (reserve (keyServed g.1)) d else keyHeld g.1 d 0

/-- PLOT_CREATE. -/
def execPlotCreate (s : State) : Res := plotCmd 0x101 acrArgs [.absent] always runCreate s

/-- INLEN and VER_CAP of PLOT_OPEN (R100, R118). -/
def openArgs (_ : State) (d : Adm) : Bool :=
  d.inlen == 6 && (fld d.inl 4 2 == 0 || decide (0x100 ≤ fld d.inl 4 2))

/-- PLOT_OPEN past its gates (R94, R117). -/
def runOpen (s : State) (d : Adm) : State :=
  let s1 := s.modPlot d.pid fun pl => { pl with armed := true, verCap := BitVec.ofNat 16 (fld d.inl 4 2) }
  forwardAdmin (admOk (saveRecord (tryOpen s1 d.pid) d.pid) d) d

/-- PLOT_OPEN. -/
def execPlotOpen (s : State) : Res := plotCmd 0x102 openArgs [.created] always runOpen s

/-- A plot is stopped: an OPEN plot enters STOPPING and, with nothing left to run, STOPPED (R120). -/
def stopPlot (s : State) (p : Nat) : State :=
  if (s.plot p).st = .opened then checkStopped (enterState s p .stopping) p else s

/-- PLOT_STOP past its gates (R96, R120, Table 3.2). -/
def runStop (s : State) (d : Adm) : State :=
  let s1 := s.modPlot d.pid fun pl =>
    { pl with reopen := false, armed := if pl.st = .created ∨ pl.st = .opened then false else pl.armed }
  forwardAdmin (admOk (saveRecord (stopPlot s1 d.pid) d.pid) d) d

/-- PLOT_STOP. -/
def execPlotStop (s : State) : Res := plotCmd 0x103 (inlenIs 4) createdToStopped always runStop s

/-- A STOPPED plot returns to OPEN as PLOT_START makes it (R121). -/
def startPlot (s : State) (p : Nat) : State :=
  enterState (s.modPlot p fun pl => { pl with armed := true }) p .opened

/-- PLOT_START past its gates (R121). -/
def runStart (s : State) (d : Adm) : State :=
  forwardAdmin (admOk (saveRecord (startPlot s d.pid) d.pid) d) d

/-- PLOT_START. -/
def execPlotStart (s : State) : Res := plotCmd 0x104 (inlenIs 4) [.stopped] always runStart s

/-- PLOT_RESIZE would take an enabled hopper, or slots of installed programs (R111). -/
def shrinks (s : State) (p : Nat) (a : Acreage) : Bool :=
  let pl := s.plot p
  (pl.hoppers.any fun x => decide (a.hoppers ≤ x.1) && (x.2.en || x.2.enabled)) || decide (a.progSlots < pl.progs.length)

/-- PLOT_RESIZE past its gates (R106, R111, R129). -/
def runResize (s : State) (d : Adm) : State :=
  let a := acrOf d.acr
  if shrinks s d.pid a then admFail s d stPolicy 0x03
  else match poolFault s d.pid a with
    | some k => admFail s d stPolicy (BitVec.ofNat 8 (0x10 + k))
    | none =>
      let s1 := s.modPlot d.pid fun pl => { pl with acr := a, deficit := min pl.deficit a.weight }
      forwardAdmin (admOk (saveRecord s1 d.pid) d) d

/-- PLOT_RESIZE. -/
def execPlotResize (s : State) : Res := plotCmd 0x105 acrArgs createdToStopped always runResize s

/-- CREATED to RESETTING (Table 3.3). -/
def createdToResetting : List PlotSt := [.created, .opened, .stopping, .stopped, .resetting]

/-- PLOT_RESET past its gates: it starts or joins the reset, clears ARMED, and completes at step 7 (R95, R96, R122). -/
def runReset (s : State) (d : Adm) : State :=
  let s1 := if (s.plot d.pid).st = .resetting then s else startReset s d.pid .resetting
  saveRecord (s1.modPlot d.pid fun pl => { pl with armed := false, resetWait := pl.resetWait ++ [d] }) d.pid

/-- PLOT_RESET. -/
def execPlotReset (s : State) : Res := plotCmd 0x106 (inlenIs 4) createdToResetting always runReset s

/-- PLOT_REMOVE needs a session of the plot where its registry holds a Security Officer card (R103). -/
def removeQuorum (s : State) (d : Adm) : Bool := !holdsCard s d.pid 0 || sessionLive s d.pid 0

/-- PLOT_REMOVE past its gates: the removal starts, or waits for the running reset (R102, R126). One removal at a time. -/
def runRemove (s : State) (d : Adm) : State :=
  if !auditRoom s then admFail s d stAudit 0x20
  else if (s.plot d.pid).removeWait.isSome then admFail s d stNotOpen 0x01
  else
    let s1 := reserve s
    let s2 := if (s.plot d.pid).st = .resetting then s1 else startReset s1 d.pid .removing
    s2.modPlot d.pid fun pl => { pl with removeWait := some d }

/-- PLOT_REMOVE; a tampered module serves it (R438). -/
def execPlotRemove (s : State) : Res :=
  .next (admin 0x107 false true notDecom (fun s d => plotNamed d && inlenIs 4 s d) (plotIn createdToResetting) removeQuorum
    (notStandby runRemove) s)

/-- PLOT_POLICY_STAGE past its gates (R132). -/
def runStage (r : HostRead) (s : State) (d : Adm) : State :=
  admRead s d 512 r fun s b =>
    if policyOk b then
      let s1 := s.modPlot d.pid fun pl => { pl with shadow := b, shadowValid := true }
      forwardData (admOk (saveRecord s1 d.pid) d) d b
    else admFail s d stPolicy 0x06

/-- PLOT_POLICY_STAGE. -/
def execPlotPolicyStage (r : HostRead) (s : State) : Res :=
  plotCmd 0x108 (fun _ d => d.inlen == 4 && d.extLen == 512) createdToStopped always (runStage r) s

/-- PLOT_POLICY_COMMIT past its gates: the sets swap, the record is written, POLICY_CHG is set; the drill meets its new
R at once (R133, R134, R403). -/
def runCommit (s : State) (d : Adm) : State :=
  let pl := s.plot d.pid
  if !pl.shadowValid then admFail s d stPolicy 0x05
  else if !auditRoom s then admFail s d stAudit 0x20
  else
    let s1 := (reserve s).setPlot d.pid { pl with active := pl.shadow, shadow := pl.active }
    let dr := pl.drill
    let s2 := if dr.inst && decide (dr.c < polReseed pl.active) && decide (polReseed pl.shadow ≤ dr.c) then
        drillCheck s1 d.pid else s1
    let s3 := writeReserved (saveRecord s2 d.pid) 0x1003 d.pid (le 4 d.tag.toNat ++ cut pl.shadow 508 4)
    forwardAdmin (admOk (plotEvent s3 d.pid 5) d) d

/-- PLOT_POLICY_COMMIT. -/
def execPlotPolicyCommit (s : State) : Res := plotCmd 0x109 (inlenIs 4) createdToStopped always runCommit s

/-- Every state of Table 3.1. -/
def anyState : List PlotSt := [.absent, .created, .opened, .stopping, .stopped, .resetting, .removing]

/-- PLOT_QUERY past its gates: the acreage record, zeros for an ABSENT plot (R104). -/
def runQuery (s : State) (d : Adm) : State := admResult s d (acrBytes (s.plot d.pid).acr)

/-- PLOT_QUERY. -/
def execPlotQuery (s : State) : Res :=
  .next (admin 0x10A false true always (fun _ d => plotNamed d && d.inlen == 4 && decide (64 ≤ d.resLen))
    (plotIn anyState) always (notStandby runQuery) s)

/-! ### Drawers -/

/-- The message checks of R137. -/
def msgOk (b : Bytes) : Bool := byteAt b 0 == 1 || (byteAt b 0 == 2 && decide (byteAt b 4 ≤ 56))

/-- PF0 vector 1: a drawer event for the manager (Table 2.9). -/
def drawerVec (s : State) : State := raiseVec s .pf0 1

/-- DRAWER_SEND past its gates (R138). -/
def runSend (s : State) (d : Adm) : State :=
  if (s.plot d.pid).outValid then admFail s d stPolicy 0x04
  else
    let s1 := s.modPlot d.pid fun pl => { pl with drwOut := cut d.inl 4 64, outValid := true }
    admOk (plotEvent s1 d.pid 1) d

/-- DRAWER_SEND. -/
def execDrawerSend (s : State) : Res :=
  .next (admin 0x110 false true notDecom (fun _ d => plotNamed d && d.inlen == 68 && msgOk (cut d.inl 4 64))
    (plotIn createdToStopped) always (notStandby runSend) s)

/-- DRAWER_RECV past its gates (R136). -/
def runRecv (s : State) (d : Adm) : State :=
  let pl := s.plot d.pid
  if pl.inBusy then
    let s1 := s.setPlot d.pid { pl with inBusy := false, drwCopy := [] }
    admResult (plotEvent s1 d.pid 2) d (fit 64 pl.drwCopy)
  else admResult s d []

/-- DRAWER_RECV. -/
def execDrawerRecv (s : State) : Res :=
  .next (admin 0x111 false true notDecom (fun _ d => plotNamed d && d.inlen == 4 && decide (64 ≤ d.resLen))
    (plotIn createdToStopped) always (notStandby runRecv) s)

/-- The driver reaches Window V of a plot that is not ABSENT (R35, R43). -/
def windowV (s : State) (p : Nat) : Bool := reach s (vfOf p) && decide ((s.plot p).st ≠ .absent)

/-- IN_VALID: the driver sends DRW_IN (R135, R137). DESIGN CHOICE (log 115): IN_BUSY is looked at before the version, so that a message
that fails both sets IN_REFUSED alone. -/
def execInValid (p : PlotId) (s : State) : Res :=
  .next (
    let pl := s.plot p
    if !windowV s p then s
    else if pl.inBusy then s.setPlot p { pl with inRefused := true, inRefCnt := bump pl.inRefCnt }
    else
      let m := mread pl.drwIn 0 64
      if !msgOk m then s.setPlot p { pl with badVer := true, badVerCnt := bump pl.badVerCnt }
      else drawerVec (s.setPlot p { pl with inBusy := true, drwCopy := m }))

/-- OUT_ACK: the driver acknowledges the outbound message (R139). -/
def execOutAck (p : PlotId) (s : State) : Res :=
  .next (
    let pl := s.plot p
    if !windowV s p || !pl.outValid then s
    else drawerVec (s.setPlot p { pl with outValid := false, drwOut := [], outAcked := true, outAckCnt := bump pl.outAckCnt }))

/-- PLOT_TICK: the plot's age tick period elapses; the counter advances and the period is that of the active set
(R286, R290). -/
def execPlotTick (p : PlotId) (s : State) : Res :=
  .next (if (s.plot p).st = .absent then s
    else (advanceTo s (s.plot p).tickDue).modPlot p fun pl =>
        { pl with tick := pl.tick + 1, tickPeriod := polTick pl.active + 1,
                  tickDue := pl.tickDue + 1000 * (polTick pl.active + 1) })

/-! ### PCIe resets -/

/-- MSI-X of a function returns to its reset value: disabled, every Mask bit set, no pending bit (R78). -/
def clearMsix (s : State) (f : Fn) : State := s.setMsix f Msix.zero

/-- An FLR of the VF of plot p (R37, R78). -/
def flr (s : State) (p : Nat) : State := resetPlot (clearMsix s (vfOf p)) p

/-- Every VF is treated as if it had received an FLR (R36). -/
def flrAll (s : State) : State :=
  let s1 := { s with link := { s.link with msix := s.link.msix.filter fun x => x.1 == 0 } }
  (s1.plots.map (·.1)).foldl resetPlot s1

/-- VF_FLR: the host resets a VF. -/
def execVfFlr (p : PlotId) (s : State) : Res := .next (if reach s (.vf p) then flr s p else s)

/-- VF_ENABLE_CLEAR: the host clears VF Enable (R36). -/
def execVfEnableClear (s : State) : Res :=
  .next (if reach s .pf0 && s.link.vfEnable then
      flrAll { s with link := { s.link with vfEnable := false } } else s)

/-- VF_ENABLE_SET: the host sets VF Enable with NumVFs, at most 1,024 (R35, Table 2.1). -/
def execVfEnableSet (numVfs : Nat) (s : State) : Res :=
  .next (if reach s .pf0 && !s.link.vfEnable && decide (numVfs ≤ 1024) then
      { s with link := { s.link with vfEnable := true, numVfs := numVfs } } else s)

/-- An admin command that runs or waits finishes without a completion entry (R494). -/
def silence (d : Adm) : Adm := { d with silent := true }

/-- The admin commands that have started finish silently; those the steward has not started are discarded with the
hopper (R493, R494). -/
def silenceAll (s : State) : State :=
  let front (l : List Adm) : List Adm := match l with
    | d :: _ => if s.rng.keyWait.isSome then [silence d] else []
    | [] => []
  { s with
    adm := { s.adm with queue := front s.adm.queue },
    plots := tmap Plot.zero (fun _ x =>
      { x with resetWait := x.resetWait.map silence, removeWait := x.removeWait.map silence }) s.plots,
    rng := { s.rng with keyWait := s.rng.keyWait.map silence, capture := s.rng.capture.map fun x => (x.1, silence x.2) },
    kp := { s.kp with walkq := s.kp.walkq.map fun x => (x.1, match x.2 with | .admin d => .admin (silence d) | l => l) },
    clu := { s.clu with pairAdm := s.clu.pairAdm.map silence },
    lcs := { s.lcs with change := match s.lcs.change with
      | .reconfig d m => .reconfig (silence d) m
      | .activate d b => .activate (silence d) b
      | .swap d => .swap (silence d)
      | .none => .none } }

/-- Manager-owned registers return to their reset values (R493): PLT_DRW, the event registers of the units, the next
configurations, CLU_PAIR_CFG and CLU_SWAP_BUF. -/
def clearManager (s : State) : State :=
  { s with
    plots := tmap Plot.zero (fun _ x => { x with outAcked := false }) s.plots,
    yreg := { s.yreg with event := 0 }, lan := { s.lan with event := 0 },
    pke := { s.pke with event := 0, cfgNext := s.pke.cfg }, rng := { s.rng with event := 0 },
    kpr := { s.kpr with event := 0 }, evr := { s.evr with event := 0 },
    clu := { s.clu with event := 0, portNext := [], hold := false, swapBuf := 0 } }

/-- The admin hopper is disabled and its registers are reset; held entries and messages of PF0 go (R493). -/
def clearAdminHopper (s : State) : State :=
  { s with adm := { s.adm with hop := Hopper.zero },
           link := { s.link with held := s.link.held.filter fun h => match h with
             | .entry .admin _ => false
             | .vector .pf0 _ => false
             | .data .pf0 _ _ => false
             | .read .pf0 _ _ => false
             | _ => true } }

/-- What an FLR of PF0 does: PF0's state, the admin hopper, the manager-owned registers, and every VF as R36 (R493). -/
def pf0Reset (s : State) : State :=
  let s1 := clearManager (clearAdminHopper (silenceAll s))
  flrAll { (clearMsix s1 .pf0) with link := { (clearMsix s1 .pf0).link with vfEnable := false, numVfs := 0 } }

/-- PF0_FLR: the host resets PF0. -/
def execPf0Flr (s : State) : Res := .next (if reach s .pf0 then pf0Reset s else s)

/-- Endpoint state and configuration space are reset, every plot runs its reset, the admin hopper is disabled and
manager-owned registers are reset (R493). -/
def endpointReset (s : State) : State :=
  let s1 := pf0Reset s
  { s1 with link := { msix := [], perst := s1.link.perst } }

/-- PERST_N: the host asserts PERST_N, or a hot reset arrives (R493, R494). -/
def execPerstN (s : State) : Res :=
  .next (if s.pwr.good then let s1 := endpointReset s; { s1 with link := { s1.link with perst := true } }
         else { s with link := { s.link with perst := true } })

/-- PERST_N_RELEASE: PERST_N is released, or the hot reset ends; the link trains where the module has power (R34). -/
def execPerstNRelease (s : State) : Res :=
  .next { s with link := { s.link with perst := false, trained := s.pwr.good && decide (s.lcs.phase ≠ .inert) } }

end Sys2Proof.Machine
end

