-- ==== Sys2Proof/Machine/Curves.lean ====
section
/-! DEFINITION. The curve and public-key admin commands (R378 to R381, R363). -/

namespace Sys2Proof.Machine

/-- The ranges of a curve record's header (Table 9.9). -/
def curveHeader (b : Bytes) : Bool :=
  decide (byteAt b 0 ≤ 15) && byteAt b 1 == 0 && decide (192 ≤ fld b 2 2) && decide (fld b 2 2 ≤ 640) &&
    decide (1 ≤ byteAt b 4) && zeros b 5 3

/-- A KIT entry or vault record of plot p uses a loaded curve's PSET (R381). -/
def curveUsed (s : State) (p ps : Nat) : Bool :=
  (s.kp.slots.any fun x => x.2.entry && x.2.plot == p && x.2.asym && x.2.pset == ps) ||
    s.vlt.recs.any fun x => x.2.plot == p && x.2.kind == 1 && x.2.pset == ps

/-- A loaded curve's PSET. -/
def curvePset (slot : Nat) : Nat := 0x0210 + slot

/-- The payload of the curve records: slot and PSET (Table 14.3). -/
def curvePayload (slot : Nat) : Bytes := le 1 slot ++ le 2 (curvePset slot)

/-- A curve that passed its checks is kept, with its record (R380). -/
def keepCurve (s : State) (d : Adm) (b : Bytes) : State :=
  let slot := byteAt b 0
  let s1 := (reserve s).modPlot d.pid fun pl => { pl with curves := tset [] slot b pl.curves }
  forwardData (admOk (writeReserved (saveRecord s1 d.pid) 0x1030 d.pid (curvePayload slot)) d) d b

/-- A curve record has been read: its checks in order, with the prime tests' bases from P0 (R380). -/
def loadCurve (s : State) (d : Adm) (b : Bytes) : State :=
  let slot := byteAt b 0
  if !curveHeader b then admFail s d stPolicy 0x02
  else if !(curveOf s d.pid (curvePset slot)).isEmpty then admFail s d stPolicy 0x40
  else
    let g := privDraws s 0 (curveDraws / 64 - s.rng.keyGot)
    if g.2 ≠ 0 then keyHeld g.1 d (curveDraws / 64 - g.2)
    else
      let s1 := drawn (keyServed g.1) curveDraws
      match curveCheck b g.1.free with
      | some i => admFail s1 d stPolicy (BitVec.ofNat 8 (0x48 + i))
      | none =>
        if !auditRoom s1 then admFail s1 d stAudit 0x20
        else keepCurve s1 d b

/-- PKE_CURVE_LOAD past its gates; it waits while P0 has no output for the bases (R380, R411). -/
def runCurveLoad (r : HostRead) (s : State) (d : Adm) : State :=
  admRead { s with rng := { s.rng with keyWait := none } } d 488 r fun s b => loadCurve s d b

/-- PKE_CURVE_LOAD. -/
def execPkeCurveLoad (r : HostRead) (s : State) : Res :=
  plotCmd 0x140 (fun s d => inlenIs 4 s d && d.extLen == 488) createdToStopped always (runCurveLoad r) s

/-- PKE_CURVE_CLEAR past its gates (R381). -/
def runCurveClear (s : State) (d : Adm) : State :=
  let slot := byteAt d.inl 4
  if curveUsed s d.pid (curvePset slot) then admFail s d stPolicy 0x41
  else if !auditRoom s then admFail s d stAudit 0x20
  else
    let s1 := (reserve s).modPlot d.pid fun pl => { pl with curves := tset [] slot [] pl.curves }
    forwardAdmin (admOk (writeReserved (saveRecord s1 d.pid) 0x1031 d.pid (curvePayload slot)) d) d

/-- PKE_CURVE_CLEAR. -/
def execPkeCurveClear (s : State) : Res :=
  plotCmd 0x141 (fun s d => inlenIs 5 s d && decide (byteAt d.inl 4 ≤ 15)) createdToStopped always runCurveClear s

/-- Parameter sets of PKE_PUBKEY_LOAD (Table 9.7). -/
def pubkeySets : List Nat := [0x0301, 0x0302, 0x0303, 0x0304, 0x0401, 0x0402, 0x0403, 0x0501, 0x0502, 0x0503]

/-- The operands of PKE_PUBKEY_LOAD. -/
def pubName (d : Adm) : W64 := BitVec.ofNat 64 (fld d.inl 4 8)
def pubSet (d : Adm) : Nat := fld d.inl 12 2
def pubAttr (d : Adm) : Nat := byteAt d.inl 14

/-- INLEN and operand ranges of PKE_PUBKEY_LOAD. -/
def pubArgs (s : State) (d : Adm) : Bool :=
  d.inlen == 16 && pubName d != 0 && pubkeySets.contains (pubSet d) && (pubAttr d == 1 || pubAttr d == 2) &&
    decide (byteAt d.inl 15 ≤ 7) && d.extLen == pubBytes s d.pid (pubSet d)

/-- ATTR suits the PSET: signatures verify, agreements and encapsulations agree. -/
def pubSuits (d : Adm) : Bool :=
  let sign := psetAlg (pubSet d) == 0x35 || pubSet d == 0x0301 || pubSet d == 0x0303
  (pubAttr d == 1) == sign

/-- What PKE_PUBKEY_LOAD learns. -/
def pubLearn (d : Adm) (key : Bytes) : Learn :=
  { plot := d.pid, name := pubName d, age := BitVec.ofNat 3 (byteAt d.inl 15),
    slot := asymSlot (pubSet d) key (if pubAttr d = 1 then 2 ^ 14 else 2 ^ 15) 0 }

/-- The learning of a public key has ended: its record, or its status (R102, R378). -/
def pubkeyDone (s : State) (d : Adm) (l : Learn) (st : BitVec 16) : State :=
  if st = stOK ∨ st = stExisting then
    forwardData (admEnd (writeReserved s 0x1032 d.pid (le 8 (pubName d).toNat ++ le 2 (pubSet d))) d st) d l.slot.body
  else admFail (unreserve s) d st 0

/-- A public key has been read (R363, R378). -/
def loadPubkey (s : State) (d : Adm) (b : Bytes) : State :=
  if !pubkeyOk (pubSet d) [] b || !pubSuits d then admFail s d stPolicy 0x42
  else if (s.plot d.pid).acr.vltQuota = 0 then admFail s d stQuota 0
  else if !auditRoom s then admFail s d stAudit 0x20
  else
    let l := pubLearn d b
    match learnFor (reserve s) l (.admin d) with
    | (s1, some st) => pubkeyDone s1 d l st
    | (s1, none) => s1

/-- PKE_PUBKEY_LOAD past its gates. -/
def runPubkeyLoad (r : HostRead) (s : State) (d : Adm) : State := admRead s d d.extLen r fun s b => loadPubkey s d b

/-- PKE_PUBKEY_LOAD. -/
def execPkePubkeyLoad (r : HostRead) (s : State) : Res := plotCmd 0x142 pubArgs createdToStopped always (runPubkeyLoad r) s

end Sys2Proof.Machine
end

