-- ==== Sys2Proof/Machine/Programs.lean ====
section
/-! DEFINITION. The program admin commands (R232 to R240). -/

namespace Sys2Proof.Machine

/-- ISALVL.EMUL of revision B1 (R4, R199). -/
def isaEmul : Nat := 2

/-- A live Security Officer session of the plot, whose registry holds such a card (R235). -/
def plotSO (s : State) (d : Adm) : Bool := holdsCard s d.pid 0 && sessionLive s d.pid 0

/-- A quorum-bound program command (Table 6.3). -/
def progCmd (code : BitVec 16) (args : State → Adm → Bool) (run : State → Adm → State) (s : State) : Res :=
  plotCmd code args createdToStopped plotSO run s

/-- A recorded act that needs room in the recorder: what it changes, its record, the plot's record in flash (R102, R496). -/
def recorded (s : State) (d : Adm) (code : BitVec 16) (payload data : Bytes) (act : State → State) : State :=
  if !auditRoom s then admFail s d stAudit 0x20
  else forwardData (admOk (writeReserved (saveRecord (act (reserve s)) d.pid) code d.pid payload) d) d data

/-- The signer ID of a signer command. -/
def signerId (d : Adm) : W64 := BitVec.ofNat 64 (fld d.inl 4 8)

/-- A signer is added to the plot, with its record (R236). -/
def addSigner (s : State) (d : Adm) (key : Bytes) : State :=
  recorded s d 0x1020 (le 8 (signerId d).toNat) key fun s =>
    s.modPlot d.pid fun pl => { pl with signers := pl.signers ++ [(signerId d, key)] }

/-- PROG_SIGNER_ADD past its gates (R236). -/
def runSignerAdd (r : HostRead) (s : State) (d : Adm) : State :=
  let pl := s.plot d.pid
  admRead s d 97 r fun s key =>
    if byteAt key 0 ≠ 4 then admFail s d stPolicy 0x02
    else if 4 ≤ pl.signers.length ∨ pl.signers.any (fun x => x.1 == signerId d) then admFail s d stPolicy 0x35
    else addSigner s d key

/-- PROG_SIGNER_ADD. -/
def execProgSignerAdd (r : HostRead) (s : State) : Res :=
  progCmd 0x120 (fun s d => inlenIs 12 s d && signerId d != 0 && d.extLen == 97) (runSignerAdd r) s

/-- PROG_SIGNER_REMOVE past its gates (R236). -/
def runSignerRemove (s : State) (d : Adm) : State :=
  if !((s.plot d.pid).signers.any fun x => x.1 == signerId d) then admFail s d stPolicy 0x36
  else recorded s d 0x1021 (le 8 (signerId d).toNat) [] fun s =>
    s.modPlot d.pid fun pl => { pl with signers := pl.signers.filter fun x => x.1 != signerId d }

/-- PROG_SIGNER_REMOVE. -/
def execProgSignerRemove (s : State) : Res := progCmd 0x121 (inlenIs 12) runSignerRemove s

/-! ### Images -/

/-- The fields of an image header (Table 6.2). -/
def imgId (b : Bytes) : Nat := fld b 6 2
def imgCode (b : Bytes) : Nat := fld b 8 4
def imgEntry (b : Bytes) : Nat := fld b 12 4
def imgVersion (b : Bytes) : W32 := BitVec.ofNat 32 (fld b 16 4)
def imgSigner (b : Bytes) : W64 := BitVec.ofNat 64 (fld b 24 8)

/-- Magic, format, lengths and reserved fields (R232, R233). -/
def imgOk (b : Bytes) : Bool :=
  cut b 0 4 == [0x53, 0x4D, 0x50, 0x47] && byteAt b 4 == 1 && decide (1 ≤ byteAt b 5) && decide (0x400 ≤ imgId b) &&
    decide (imgId b ≤ 0xFFF) && imgCode b % 4 == 0 && decide (4 ≤ imgCode b) && decide (imgCode b ≤ 65376) &&
    imgEntry b % 4 == 0 && decide (imgEntry b < imgCode b) && zeros b 20 4 && zeros b 32 32 && b.length == 160 + imgCode b

/-- Granules of a code length (R234). -/
def granules (n : Nat) : Nat := (n + 1023) / 1024

/-- A granule of the customer range is taken by an image (R228). -/
def granuleUsed (s : State) (g : Nat) : Bool :=
  s.prog.images.any fun x => decide (x.2.granule ≤ g) && decide (g < x.2.granule + granules x.2.codeLen)

/-- The lowest run of `n` free granules. -/
def findGranules (s : State) (n : Nat) : Option Nat :=
  (List.range 320).find? fun g => decide (g + n ≤ 320) && (List.range n).all fun i => !granuleUsed s (g + i)

/-- The program table entry of an ID. -/
def progEntry (pl : Plot) (id : Nat) : Option Nat := (pl.progs.find? fun x => x.1 == id).map (·.2)

/-- An image that its program table no longer names gives up its granules once nobody runs it (R238, R239). -/
def unname (t : Tbl Image) (i : Nat) : Tbl Image :=
  tmod Image.zero i (fun g => if g.users = 0 then Image.zero else { g with named := false }) t

/-- The plot's program table points the ID at a new image (R238). -/
def placeImage (s : State) (p : Nat) (b : Bytes) (g : Nat) : State :=
  let i := s.prog.next
  let img : Image := { granule := g, codeLen := imgCode b, entry := imgEntry b, version := imgVersion b, signer := imgSigner b,
                       code := cut b 64 (imgCode b), named := true }
  let old := (progEntry (s.plot p) (imgId b)).toList
  let s1 := { s with prog := { s.prog with images := tset Image.zero i img (old.foldl unname s.prog.images), next := i + 1 } }
  s1.modPlot p fun pl => { pl with progs := (pl.progs.filter fun x => x.1 != imgId b) ++ [(imgId b, i)] }

/-- The payload of the program records: ID and VERSION (Table 14.3). -/
def progPayload (id : Nat) (v : W32) : Bytes := le 2 id ++ le 4 v.toNat

/-- PROG_INSTALL past its gates (Table 6.5). -/
def install (s : State) (d : Adm) (b : Bytes) : State :=
  let pl := s.plot d.pid
  let old := progEntry pl (imgId b)
  if !imgOk b then admFail s d stPolicy 0x30
  else if isaEmul < byteAt b 5 then admFail s d stPolicy 0x32
  else if old.isNone ∧ pl.acr.progSlots ≤ pl.progs.length then admFail s d stPolicy 0x33
  else match pl.signers.find? fun x => x.1 == imgSigner b with
    | none => admFail s d stPolicy 0x31
    | some k =>
      if !Config.sigVerify 1 k.2 (cut b 0 (64 + imgCode b)) (cut b (64 + imgCode b) 96) then admFail s d stPolicy 0x31
      else match findGranules s (granules (imgCode b)) with
        | none => admFail s d stPolicy 0x34
        | some g => recorded s d 0x1022 (progPayload (imgId b) (imgVersion b)) b fun s => placeImage s d.pid b g

/-- The read of the image, then its checks. -/
def runInstall (r : HostRead) (s : State) (d : Adm) : State :=
  if d.extLen = 0 then admFail s d stPolicy 0x30 else admRead s d d.extLen r fun s b => install s d b

/-- PROG_INSTALL. -/
def execProgInstall (r : HostRead) (s : State) : Res := progCmd 0x122 (inlenIs 4) (runInstall r) s

/-- PROG_REMOVE past its gates (R239). -/
def runProgRemove (s : State) (d : Adm) : State :=
  let id := fld d.inl 4 2
  match progEntry (s.plot d.pid) id with
  | none => admFail s d stPolicy 0x36
  | some i =>
    recorded s d 0x1023 (progPayload id (tget Image.zero s.prog.images i).version) [] fun s =>
      { s with prog := { s.prog with images := unname s.prog.images i } }.modPlot d.pid fun pl =>
        { pl with progs := pl.progs.filter fun x => x.1 != id }

/-- PROG_REMOVE. -/
def execProgRemove (s : State) : Res :=
  progCmd 0x123 (fun s d => inlenIs 6 s d && decide (0x400 ≤ fld d.inl 4 2) && decide (fld d.inl 4 2 ≤ 0xFFF)) runProgRemove s

/-- The entries of PROG_LIST, by ID (R240). -/
def progList (s : State) (p : Nat) : Bytes :=
  ((s.plot p).progs.mergeSort fun a b => decide (a.1 ≤ b.1)).flatMap fun x =>
    let g := tget Image.zero s.prog.images x.2
    le 2 x.1 ++ [0, 0] ++ le 4 g.version.toNat ++ le 8 g.signer.toNat

/-- PROG_LIST past its gates. -/
def runProgList (s : State) (d : Adm) : State := admResult s d (progList s d.pid)

/-- PROG_LIST (R240, R438, R488). -/
def execProgList (s : State) : Res :=
  .next (admin 0x124 false true always (fun s d => plotNamed d && inlenIs 4 s d && decide (1024 ≤ d.resLen))
    (plotIn [.created, .opened, .stopping, .stopped, .resetting, .removing]) always (notStandby runProgList) s)

end Sys2Proof.Machine
end

