-- ==== Sys2Proof/Machine/StartOps.lean ====
section
/-! DEFINITION. What ends and begins a module start (13, Table 13.3): the loss of everything volatile, a restart, a failed
start (R501), the fuses (R483), the life-cycle registers (R510) and the zeroisations of Table 11.6. -/

namespace Sys2Proof.Machine

/-! ### Fuses and life-cycle registers -/

/-- A fuse group is burned, unburned or neither (R483). -/
def burned (n : Nat) : Bool := decide (14 ≤ n)
def unburned (n : Nat) : Bool := decide (n ≤ 2)

/-- The life-cycle state of the fuse groups (Table 13.1): 5 stands for SCRAPPED, 6 for LOST. -/
def decodeFuses : List Nat → Nat
  | [] => 0
  | n :: ns => if burned n then (let r := decodeFuses ns; if r = 6 then 6 else r + 1)
               else if unburned n && ns.all unburned then 0 else 6

/-- The 16 fuses of a group are blown (R484); none is ever unblown (R483). -/
def blow (l : List Nat) (g : Nat) : List Nat := l.modify g (max 16)

/-- LCS_STAT (R510). -/
def lcsStat (s : State) : Nat :=
  flag s.lcs.fallow 16 + flag s.kpr.fallowReq 12 + decodeFuses s.lcs.fuses * 2 ^ 8 + s.lcs.state.toNat

/-- A bank (R506): false is A. -/
def State.bank (s : State) (b : Bool) : Bank := if b then s.lcs.bankB else s.lcs.bankA
/-- The state with a bank replaced. -/
def State.setBank (s : State) (b : Bool) (x : Bank) : State :=
  { s with lcs := if b then { s.lcs with bankB := x } else { s.lcs with bankA := x } }

/-- LCS_START (R510). -/
def lcsStart (s : State) : Nat :=
  s.lcs.startMs.toNat * 2 ^ 16 + s.lcs.cause.toNat * 2 ^ 12 + flag s.lcs.bankB.valid 3 + flag s.lcs.bankA.valid 2 +
    flag s.lcs.pref 1 + flag s.lcs.bank 0

/-- LCS_LASTFAIL (R510). -/
def lcsLastFail (s : State) : Nat :=
  s.lcs.lastAtt.toNat * 2 ^ 16 + s.lcs.lastTest.toNat * 2 ^ 8 + s.lcs.lastReason.toNat

/-- LCS_FW[b] (R510). -/
def lcsFw (b : Bank) : Nat := flag b.valid 63 + b.svn.toNat * 2 ^ 32 + b.version.toNat

/-! ### Zeroisation -/

/-- The cabinet is zeroised; the registries that flash keeps sealed under it stay there and can no longer be read, so the module
treats them as empty; Sd goes (R424, R433, R436, R539). -/
def zeroCabinet (s : State) : State :=
  { s with kpr := { s.kpr with cab := {} }, cust := { s.cust with regs := [] }, clu := { s.clu with hasSd := false } }

/-- The privileged drills ask for their instantiation (R402, Table 10.5). -/
def bootRng (s : State) : State :=
  [0, 1, 2, 3].foldl (fun s k => wantSeed (s.modPriv k fun d => { d with queued := true }) (.priv k)) s

/-- Step 3 of Table 11.6 on a module that runs no plot: the volatile key plane, the drills and the conditioner's buffer are
zeroised; the drills instantiate afresh. -/
def zeroKeyPlane (s : State) : State :=
  bootRng { s with kp := {}, rpl := {}, lan := { s.lan with ctx := [] }, pke := { s.pke with slots := [], mac := [], waitq := [], splitq := [] },
                   yokes := [], owed := [], rng := { s.rng with priv := [], halves := [], reqs := [], started := false },
                   stw := { s.stw with mem := [], buf := [] } }

/-! ### Resets of the main die -/

/-- The customer images of the plots that flash records; what only a running transaction held is gone. -/
def keptImages (t : Tbl Image) : Tbl Image :=
  tmap Image.zero (fun _ g => if g.named then { g with users := 0 } else Image.zero) t

/-- Everything volatile is lost (R32, Table 13.3). The keeper, fuses, flash, firmware banks and the recorder's ring stay;
`link` says whether the PCIe link and configuration space stay, `power` whether main power does. The MSI-X tables are window
registers: they are as after reset, MSI-X Enable and Function Mask stay (R433, log 17). -/
def wipe (s : State) (link power : Bool) (ph : Phase) : State :=
  { s with
    link := if link then
        { s.link with held := [], msix := tmap Msix.zero (fun _ m => { Msix.zero with enable := m.enable, fnMask := m.fnMask }) s.link.msix }
      else { perst := s.link.perst, trained := power && !s.link.perst },
    adm := {}, disp := {}, plots := [], yokes := [], yreg := {}, stw := {},
    prog := { s.prog with images := keptImages s.prog.images },
    kp := {}, rpl := {}, vlt := {}, lan := {}, pke := {}, rng := {}, owed := [],
    kpr := { s.kpr with eventCnt := [], event := if power then s.kpr.event else 0 },
    hdg := {}, dbg := {}, cust := { ped := s.cust.ped, cards := s.cust.cards, regs := openRegistries s },
    lcs := { s.lcs with phase := ph, fallow := false, change := .none, counted := false, restoring := false },
    evr := { s.evr with reserved := 0, event := 0, waiting := if power then s.evr.waiting else [] },
    clu := { hasSd := s.clu.hasSd },
    pwr := { good := power, vio := s.pwr.vio, pwrgd := s.pwr.pwrgd, conLvl := s.pwr.conLvl, vin := s.pwr.vin, smbadr := s.pwr.smbadr,
             charged := power && s.pwr.charged, pll := if power then s.pwr.pll else 0 } }

/-- A reset that starts the module again, main power present: sessions end, everything volatile goes, the noise sources and
drills come up (R477, R493). -/
def restart (s : State) (cause : BitVec 4) (link : Bool) (ends : Nat) : State :=
  let s1 := wipe (endSession (endSession s 0 ends) 1 ends) link true .reset
  bootRng { s1 with lcs := { s1.lcs with cause := cause, since := s.now } }

/-- A recorder without a record begins a new epoch: 16 bytes from P0 once that serves them, RECORDER_INIT with SEQ 0, then the
records that waited (R401, R409, R515). -/
def newEpoch (s : State) : State :=
  if (s.evr.recs.any fun x => x.2.used) || !privReady s 0 then s
  else
    let n := newSecret (privGen s 0) 16
    let s1 := { n.1 with evr := { n.1.evr with epoch := some n.2, seq := 0, acked := 0, read := 0, anyAck := false,
                                               anyRead := false, baseSeq := 0, baseTag := [], lastTag := [], waiting := [] } }
    s.evr.waiting.foldl (fun s r => keepEvent s s.evr r) (event s1 0x3000 modScope (freeBytes n.2 16))

/-- Step 1 of Table 13.2 for the counters: the start-failure and module-start counters advance, the counts are copied to flash,
and after a keeper power-on they are restored from it and copied back, so that no later loss makes them go backwards, KPOR is cleared and a Tamper record is written (R427). -/
def countStart (s : State) : State :=
  if s.lcs.counted then s
  else
    let s0 := { s with lcs := { s.lcs with counted := true } }
    let k := s0.kpr
    if k.kpor then
      let st : Nat := decodeFuses s.lcs.fuses
      let k1 := { k with opmin := s.flash.opmin + 60, pwrcyc := s.flash.pwrcyc + 1, starts := s.flash.starts + 1, startfail := 1,
                         kpor := false, lcs := BitVec.ofNat 4 st }
      let s1 := { s0 with kpr := k1, flash := { s.flash with opmin := k1.opmin, pwrcyc := k1.pwrcyc, starts := k1.starts } }
      event s1 0x3001 modScope (le 2 0 ++ le 2 0x8000 ++ le 4 k1.opmin.toNat ++ le 4 k1.pwrcyc.toNat ++
        le 1 0 ++ le 1 (k1.temp.toInt / 10 % 256).toNat ++ le 2 0)
    else
      let k1 := { k with starts := k.starts + 1, startfail := if k.startfail = 255 then 255 else k.startfail + 1 }
      { s0 with kpr := k1, flash := { s.flash with pwrcyc := k1.pwrcyc, starts := k1.starts } }

/-- The start under way is a fallow start (R502). -/
def fallowStart (s : State) : Bool := decide (4 ≤ s.kpr.startfail.toNat) || s.kpr.fallowReq

/-- A start fails: its reason, its test, the attempt, a record where the recorder is reachable, and a restart (R501).
`ran` says whether a bank's firmware ran (R500). -/
def startFail (s : State) (reason test : Byte) (ran : Bool) : State :=
  let s1 := { s with lcs := { s.lcs with lastReason := reason, lastTest := test, lastAtt := s.kpr.startfail,
                                         prefFailed := ran && s.lcs.bank == s.lcs.pref } }
  let s2 := if s1.evr.epoch.isSome then event s1 0x0041 modScope (le 4 (lcsLastFail s1)) else s1
  restart s2 6 true 7

end Sys2Proof.Machine
end

