-- ==== Sys2Proof/Machine/Keeper.lean ====
section
/-! DEFINITION. The keeper: tamper sensing and response, the tamper log, the counters, the SMBus view, rearming (11). -/

namespace Sys2Proof.Machine

def LogRec.zero : LogRec := {}

/-! ### Registers -/

/-- Records not handed over (R443). -/
def unxfer (k : Keeper) : Nat := tcount (fun _ r => r.used && !r.xfer) k.log

/-- The full tamper response is active: VENDOR to DECOMMISSIONED (R432). -/
def armed (k : Keeper) : Bool := decide (1 ≤ k.lcs.toNat) && decide (k.lcs.toNat ≤ 4)

/-- KPR_STAT (R447). -/
def kprStat (k : Keeper) : Nat :=
  unxfer k * 2 ^ 16 + k.lcs.toNat * 2 ^ 8 + flag k.ksrc 5 + flag k.logLost 4 + flag k.batLow 3 + flag (armed k) 2 +
    flag k.kpor 1 + flag k.tampered 0

/-- KPR_VOLT (R447). -/
def kprVolt (k : Keeper) : Nat := k.temp.toNat * 2 ^ 16 + k.kvbat % 2 ^ 16

/-- A tamper log record's 16 bytes (Table 11.9). -/
def LogRec.bytes (r : LogRec) : Bytes :=
  if !r.used then List.replicate 16 0
  else le 2 r.seq.toNat ++ le 2 r.cause.toNat ++ le 4 r.minutes.toNat ++ le 4 r.pwrcyc.toNat ++
    le 1 (flag r.main 0 + flag r.xfer 1 + flag r.test 2) ++ le 1 r.temp.toNat ++ le 2 r.rep.toNat

/-- A KPR_EVENT flag with its counter; the flags are on the main die (R447, R576): 0 TAMPER, 1 BAT_LOW, 2 LOG_LOST. -/
def kprEvent (s : State) (b : Nat) : State :=
  if s.pwr.good then
    { s with kpr := { s.kpr with event := s.kpr.event ||| BitVec.ofNat 3 (2 ^ b), eventCnt := bumpAt s.kpr.eventCnt b } }
  else s

/-! ### The tamper log -/

/-- Slots of the log by age: the oldest record first, by its SEQ (R441). -/
def oldest (k : Keeper) (p : LogRec → Bool) : Option Nat :=
  ((List.range 16).filter fun i => let r := tget LogRec.zero k.log i; r.used && p r).foldl (fun best i =>
    match best with
    | none => some i
    | some j =>
      if (k.logSeq - (tget LogRec.zero k.log j).seq).toNat < (k.logSeq - (tget LogRec.zero k.log i).seq).toNat then some i
      else best) none

/-- The slot a new record takes, and whether a record that was not handed over is lost (R442). -/
def logSlot (k : Keeper) : Nat × Bool :=
  match (List.range 16).find? fun i => !(tget LogRec.zero k.log i).used with
  | some i => (i, false)
  | none => match oldest k (·.xfer) with
    | some i => (i, false)
    | none => ((oldest k fun _ => true).getD 0, true)

/-- The newest record. -/
def newestLog (k : Keeper) : LogRec :=
  match k.newest with
  | some i => tget LogRec.zero k.log i
  | none => LogRec.zero

/-- A trip is logged: in the open window its bit joins the record; a trip with the newest record's CAUSE repeats it; any other
makes a new record, whose window opens (R441, R442). -/
def logTrip (s : State) (cause : BitVec 16) (temp : BitVec 8) (test : Bool) : State :=
  let k := s.kpr
  let n := newestLog k
  match k.newest with
  | some i =>
    if n.used && k.window then
      { s with kpr := { k with log := tset LogRec.zero i { n with cause := n.cause ||| cause } k.log } }
    else if n.used && n.cause == cause then
      { s with kpr := { k with log := tset LogRec.zero i { n with rep := if n.rep = 0xFFFF then n.rep else n.rep + 1 } k.log } }
    else put s k
  | none => put s k
where
  put (s : State) (k : Keeper) : State :=
    let x := logSlot k
    let r : LogRec := { used := true, seq := k.logSeq, cause := cause, minutes := k.opmin, pwrcyc := k.pwrcyc, main := s.pwr.good,
                        test := test, temp := temp }
    let s1 := { s with kpr := { k with log := tset LogRec.zero x.1 r k.log, logSeq := k.logSeq + 1, newest := some x.1,
                                       window := true, logLost := k.logLost || x.2 } }
    if x.2 then kprEvent s1 2 else s1

/-- LOG_WINDOW_CLOSE: the newest record is closed (R442). -/
def execLogWindowClose (s : State) : Res := .next { s with kpr := { s.kpr with window := false } }

/-! ### Tamper -/

/-- The bit on TLOOP_OUTn: a fresh pseudo-random bit each millisecond while the keeper has supply (R431). The board's loop brings it
back to TLOOP_INn; two samples of an enabled loop that differ from it arrive as TAMPER with cause 11 + n (Table 11.5, log 122). -/
def loopOut (s : State) (n : Nat) : Option Bool :=
  if s.kpr.powered then some (Config.loopBit n (s.now / 1000)) else none

/-- A sensor can trip now: the keeper has supply, the sensor is active (Table 11.5) and has not tripped already (R448). -/
def senses (s : State) (c : Nat) : Bool :=
  s.kpr.powered && !s.kpr.live.getLsbD c && (s.pwr.good || !(c == 6 || c == 7 || c == 9)) &&
    (c < 11 || s.kpr.loopCfg.getLsbD (c - 11))

/-- The response of Table 11.6, or that of R434 in KEEP: the cabinet, the latch and the cause; with main power present also
everything volatile, the flag, vector 2, the log and a recommissioning start. -/
def tamperResponse (s : State) (bit : BitVec 16) (temp : BitVec 8) : State :=
  let s1 := zeroCabinet { s with kpr := { s.kpr with tampered := true, cause := s.kpr.cause ||| bit } }
  let s2 := logTrip s1 bit temp false
  if s.lcs.phase = .inert then s2
  else if s.pwr.good ∧ !s.pwr.shutdown then
    restart (modEvent (kprEvent { s2 with pwr := { s2.pwr with modOk := false } } 0)) 5 true 6
  else s2

/-- A sensor trips: in TEST it is logged only (R432), elsewhere the response runs. -/
def trip (s : State) (c : Nat) (temp : BitVec 8) : State :=
  if !senses s c then s
  else
    let bit : BitVec 16 := BitVec.ofNat 16 (2 ^ c)
    let s1 := { s with kpr := { s.kpr with live := s.kpr.live ||| bit } }
    if s.kpr.lcs = 0 then logTrip s1 bit temp true else tamperResponse s1 bit temp

/-- TAMPER: a sensor of Table 11.5 trips. -/
def execTamper (cause : Fin 15) (temp : BitVec 8) (s : State) : Res := .next (trip s cause.val temp)

/-- TAMPER_CONDITION_CLEAR: the sensor's TMP_LIVE bit returns to 0 (R447). -/
def execTamperConditionClear (cause : Fin 15) (s : State) : Res :=
  .next { s with kpr := { s.kpr with live := s.kpr.live &&& ~~~(BitVec.ofNat 16 (2 ^ cause.val)) } }

/-! ### Supply and counters -/

/-- KEEPER_POWER_ON: the node rises to 1.55 V after the keeper lost all supply: its state is that of Table 16.3, with
TAMPERED, KPOR and cause bit 15 set (R606, R437). -/
def execKeeperPowerOn (s : State) : Res :=
  .next (if s.kpr.powered then s
    else { s with kpr := { kvbat := s.kpr.kvbat, temp := s.kpr.temp, ksrc := s.kpr.ksrc, batLow := decide (s.kpr.kvbat < 2400) } })

/-- KEEPER_SUPPLY_LOSS: without main power the node falls below 1.20 V and the keeper loses all its state (R606). -/
def execKeeperSupplyLoss (s : State) : Res :=
  .next (if s.pwr.good || !s.kpr.powered then s
    else
      let s1 := zeroCabinet s
      { s1 with kpr := { powered := false, kvbat := s.kpr.kvbat, temp := s.kpr.temp, ksrc := s.kpr.ksrc, tampered := false,
                         kpor := false, cause := 0, loopCfg := 0 } })

/-- KEEPER_SOURCE_SWITCH: KVBAT or KRAIL supplies the node (R417). -/
def execKeeperSourceSwitch (toBattery : Bool) (s : State) : Res := .next { s with kpr := { s.kpr with ksrc := toBattery } }

/-- BAT_LOW: KVBAT has fallen below 2.4 V; every fall sets the event (R419, R575). -/
def execBatLow (s : State) : Res :=
  .next (if s.kpr.powered then kprEvent { s with kpr := { s.kpr with batLow := true } } 1 else s)

/-- BAT_LOW_CLEAR: KVBAT has risen to 2.5 V (R419). -/
def execBatLowClear (s : State) : Res := .next { s with kpr := { s.kpr with batLow := false } }

/-- OPERATING_MINUTE: a whole minute with main power present; every 60th the count goes to flash (R426, R427). -/
def execOperatingMinute (s : State) : Res :=
  .next (if s.kpr.powered && s.pwr.good then
      let n := s.kpr.opmin + 1
      let s1 := { s with kpr := { s.kpr with opmin := n } }
      if n.toNat % 60 = 0 then { s1 with flash := { s1.flash with opmin := n } } else s1
    else s)

/-- KPR_VOLT_UPDATE: the measured supply and temperature (R447). -/
def execKprVoltUpdate (kvbatMv : BitVec 16) (temp : BitVec 16) (s : State) : Res :=
  .next (if s.kpr.powered then { s with kpr := { s.kpr with kvbat := kvbatMv.toNat, temp := temp } } else s)

/-! ### Admin commands -/

/-- TMP_LOOP_SET needs a session once the manager registry holds a Security Officer card (R439). -/
def loopQuorum (s : State) (d : Adm) : Bool := !holdsCard s modScope 0 || managerSO s d

/-- TMP_LOOP_SET past its gates: the enables, the disabled loops no longer sensed, the record (R431, R439). -/
def runLoopSet (s : State) (d : Adm) : State :=
  let m := byteAt d.inl 4
  let keep : BitVec 16 := BitVec.ofNat 16 (0x87FF + m * 2 ^ 11)
  admOk (event { s with kpr := { s.kpr with loopCfg := BitVec.ofNat 4 m, live := s.kpr.live &&& keep } } 0x3002 modScope
    (le 1 m)) d

/-- TMP_LOOP_SET. -/
def execTmpLoopSet (s : State) : Res :=
  .next (admin 0x160 false true notDecom (fun _ d => d.inlen == 5 && noPlot d && decide (byteAt d.inl 4 < 16)) always loopQuorum
    runLoopSet s)

/-- New cabinet secrets, the registry resealed, the vault empty, the latch clear (R440 steps 2 to 5). -/
def rearm (s : State) (d : Adm) : State :=
  let k := s.free + 1
  let s0 := drawn s 225
  let s1 := { s0 with
    kpr := { s.kpr with cause := 0, tampered := false, startfail := 0 },
    vlt := { s.vlt with recs := [] },
    pwr := { s.pwr with modOk := s.pwr.modOk || s.lcs.phase == Phase.full } }
  let s2 := s1.setCab fun c => { c with crk := k, vaultKey := k + 32, tagKey := k + 96, vaultSeed := k + 128, domain := k + 160 }
  admOk (event (resealRegistries s2) 0x3003 modScope []) d

/-- The key generations of TMP_REARM: 224 bytes of secrets, at most 64 each (R401, R404, Table 11.3). -/
def rearmKeys : Nat := 4

/-- TMP_REARM past its gates (R440); it waits for P0's fresh reseeds. -/
def runRearm (s : State) (d : Adm) : State :=
  if !s.kpr.tampered then admFail s d stPolicy 0x50
  else if s.plots.any (fun x => x.2.st != .absent) then admFail s d stPolicy 0x51
  else if s.kpr.live ≠ 0 then admFail s d stPolicy 0x52
  else if s.lcs.state = 4 then admFail s d stPolicy 0x53
  else
    let n := rearmKeys - s.rng.keyGot
    let g := keyGens s 0 n
    if g.2 = 0 then rearm (keyServed g.1) d else keyHeld g.1 d (rearmKeys - g.2)

/-- TMP_REARM. -/
def execTmpRearm (s : State) : Res :=
  .next (admin 0x161 false true always (fun _ d => d.inlen == 4 && noPlot d) always
    (fun s d => s.lcs.state == 0 || managerSO s d) runRearm s)

/-! ### SMBus -/

/-- The target answers: VIO is there, the keeper has supply, the module is not inert (R444, R492). -/
def smbusUp (s : State) : Bool := s.pwr.vio && s.kpr.powered && s.lcs.phase != .inert

/-- The target's 7-bit address: 0x5C + SMBADR, as the straps were read when VIO came up (R444). -/
def smbAddr (s : State) : BitVec 7 := BitVec.ofNat 7 (0x5C + s.pwr.smbadr.toNat)

/-- CRC-8 with the polynomial x^8 + x^2 + x + 1, most significant bit first: the PEC's (PRESUMED SMBus's, log 121). -/
def crc8 (b : Bytes) : Byte :=
  b.foldl (fun c x => (List.range 8).foldl (fun c _ => if c.getLsbD 7 then (c <<< 1) ^^^ 0x07 else c <<< 1) (c ^^^ x)) 0

/-- The PEC of a Block Read: over the address with W, the command code, the address with R, the count and the data (log 121). -/
def smbPec (s : State) (code : Nat) (b : Bytes) : Byte :=
  let a := 2 * (smbAddr s).toNat
  crc8 (le 1 a ++ le 1 code ++ le 1 (a + 1) ++ le 1 b.length ++ b)

/-- A Block Read: a snapshot at its command byte, and the PEC that goes after it where the host clocks it (R444 to R446). -/
def smbRead (code : Nat) (b : Bytes) (s : State) : Res :=
  .next (if smbusUp s then emit s (.smbus (smbAddr s) (some (b, smbPec s code b))) else s)

/-- A Block Read of n bytes of a register (R445). -/
def smbus (code n v : Nat) (s : State) : Res := smbRead code (le n v) s

/-- Device ID. -/
def execSmbusDeviceId (s : State) : Res := smbus 0 2 0x9600 s
/-- KPR_STAT. -/
def execSmbusKprStat (s : State) : Res := smbus 1 4 (kprStat s.kpr) s
/-- TMP_CAUSE. -/
def execSmbusTmpCause (s : State) : Res := smbus 2 4 s.kpr.cause.toNat s
/-- TMP_LIVE. -/
def execSmbusTmpLive (s : State) : Res := smbus 3 4 s.kpr.live.toNat s
/-- KPR_OPMIN. -/
def execSmbusKprOpmin (s : State) : Res := smbus 4 4 s.kpr.opmin.toNat s
/-- KPR_PWRCYC. -/
def execSmbusKprPwrcyc (s : State) : Res := smbus 5 4 s.kpr.pwrcyc.toNat s
/-- KPR_STARTFAIL. -/
def execSmbusKprStartfail (s : State) : Res := smbus 6 4 s.kpr.startfail.toNat s
/-- KPR_VOLT. -/
def execSmbusKprVolt (s : State) : Res := smbus 7 4 (kprVolt s.kpr) s
/-- TMP_LOOP_CFG. -/
def execSmbusTmpLoopCfg (s : State) : Res := smbus 8 4 s.kpr.loopCfg.toNat s
/-- KPR_STARTS. -/
def execSmbusKprStarts (s : State) : Res := smbus 9 4 s.kpr.starts.toNat s
/-- TMP_LOG[i]. -/
def execSmbusTmpLog (i : Fin 16) (s : State) : Res :=
  smbRead (0x10 + i.val) (tget LogRec.zero s.kpr.log i.val).bytes s
/-- SMBUS_WRITE: the first data byte of a write, or a command code that Table 11.10 does not define, is not acknowledged (R446). -/
def execSmbusWrite (s : State) : Res := .next (if smbusUp s then emit s (.smbus (smbAddr s) none) else s)

end Sys2Proof.Machine
end

