-- ==== Sys2Proof/Machine/Start.lean ====
section
/-! DEFINITION. The module start (Table 13.2), its full service, the steward's watchdog, the life-cycle commands and the
stop-change-restart (13). -/

namespace Sys2Proof.Machine

/-! ### The module start -/

/-- A module that serves nobody and answers on its TAP only (R487, R491, R492). -/
def inert (s : State) (st : BitVec 4) : State :=
  let s1 := wipe s false true .inert
  { s1 with pwr := { s1.pwr with pll := 0 }, lcs := { s1.lcs with state := st } }

/-- The first start in SCRAPPED: banks, flash and the recorder are erased, the keeper's cabinet, counters, log and mirror are
zeroised, the trim fuses are blown (R490, R491). -/
def scrap (s : State) : State :=
  let s1 := inert s 5
  { s1 with
    flash := {}, evr := {}, prog := {},
    kpr := { powered := s.kpr.powered, kvbat := s.kpr.kvbat, temp := s.kpr.temp, ksrc := s.kpr.ksrc, batLow := s.kpr.batLow,
             tampered := s.kpr.tampered, kpor := false, cause := s.kpr.cause, live := s.kpr.live, loopCfg := s.kpr.loopCfg,
             lcs := 0 },
    cust := {}, clu := {},
    lcs := { s1.lcs with bankA := {}, bankB := {}, trimBlown := true, state := 5, lastReason := 0, lastTest := 0, lastAtt := 0,
                         prefFailed := false } }

/-- A slot that a power loss left torn is overwritten by the record that says so (R517). -/
def tornRecord (s : State) : State := if s.evr.torn then event s 0x0050 modScope (le 4 s.evr.wpos) else s

/-- A fallow start: the steward runs its ROM and the admin hopper is live, with no plot restored (R502, R503). -/
def fallowEnter (s : State) : State :=
  let s1 := { s with lcs := { s.lcs with fallow := true, phase := .live }, adm := { s.adm with live := true } }
  newEpoch <| event (tornRecord s1) 0x3023 modScope (if s.kpr.fallowReq then [0x09] else [s.lcs.lastReason])

/-- The mirror is neither the fused state nor the one before it (R428, R488). -/
def mirrorBad (s : State) (st : Nat) : Bool := s.kpr.lcs.toNat != st && s.kpr.lcs.toNat + 1 != st

/-- The cabinet's check word fails while TAMPERED = 0, from TEST to OPERATIONAL (R425); `word` is false where the SRAM no longer holds
what the keeper wrote. -/
def checkBad (s : State) (st : Nat) (word : Bool) : Bool :=
  decide (st ≤ 3) && !s.kpr.tampered && !(s.kpr.cab.verifies && word)

/-- The bank whose firmware runs: the preferred one first, or the other where the previous start failed on the preferred one
(R499, R500); false is A. -/
def chooseBank (s : State) (ok : Bool × Bool) : Option Bool :=
  let good (b : Bool) : Bool := (s.bank b).valid && (if b then ok.2 else ok.1)
  let first := if s.lcs.prefFailed && (s.bank !s.lcs.pref).valid then !s.lcs.pref else s.lcs.pref
  if good first then some first else if good (!first) then some (!first) else none

/-- A cabinet for a state that has just been entered (R488): CUSTODY empties the manager registry; DECOMMISSIONED zeroises the
cabinet and erases plot records, program images and registries, with a record; so does a start in it that finds
any of these left, the mirror having been lost. -/
def enterLcs (s : State) (st : Nat) : State :=
  let left := st = 4 && !(s.flash.plots.isEmpty && s.flash.regs.isEmpty && s.prog.images.isEmpty)
  if s.kpr.lcs.toNat + 1 ≠ st && !left then s
  else
    let s1 := if st = 2 then s.setRegistry modScope Registry.zero
      else if st = 4 then
        let s0 := zeroKeyPlane (zeroCabinet s)
        event { s0 with flash := { s0.flash with plots := [], regs := [] }, prog := { s0.prog with images := [] } } 0x3021 modScope
          [3, 4]
      else s
    { s1 with kpr := { s1.kpr with lcs := BitVec.ofNat 4 st } }

/-- One record of the tamper log goes to the event recorder, if there is room (R443, R520). -/
def handOne (s : State) : State :=
  match oldest s.kpr (!·.xfer) with
  | none => s
  | some i =>
    if room s.evr < 1 then s
    else
      let r := tget LogRec.zero s.kpr.log i
      let s1 := event s 0x3001 modScope r.bytes 2
      { s1 with kpr := { s1.kpr with log := tset LogRec.zero i { r with xfer := true } s1.kpr.log } }

/-- The tamper log is handed over in SEQ order; LOG_LOST clears when the handover is complete (R443). -/
def handOver (s : State) : State :=
  let s1 := (List.range 16).foldl (fun s _ => handOne s) s
  if unxfer s1.kpr = 0 then { s1 with kpr := { s1.kpr with logLost := false } } else s1

/-- A plot as restore makes it from its flash record (R496): CREATED, without version, keys or windows. -/
def restored (s : State) (r : PlotRec) : Plot :=
  { st := .created, armed := r.armed, acr := r.acr, active := r.active, shadow := r.shadow, shadowValid := r.shadowValid,
    progs := r.progs, signers := r.signers, curves := r.curves, dtid := r.dtid, tickPeriod := polTick r.active + 1,
    tickDue := s.now + 1000 * (polTick r.active + 1) }

/-- Ahead of plot restore the drills of the flash directory's plots ask for their instantiation, in ascending order (Table 10.5
step 7). -/
def seedPlots (s : State) : State :=
  s.flash.plots.foldl (fun s x => wantSeed (s.modDrill x.1 fun d => { d with queued := true }) (.plot x.1)) s

/-- Every plot of the flash directory has its drill instantiated (R402, R409). -/
def plotsSeeded (s : State) : Bool := s.flash.plots.all fun x => (s.plot x.1).drill.inst

/-- Plot restore: every plot of the flash directory comes back and finds its drill instantiated (R496, Table 10.5). -/
def restorePlots (s : State) : State :=
  s.flash.plots.foldl (fun s x => s.setPlot x.1 { restored s x.2 with drill := (s.plot x.1).drill }) s

/-- The admin hopper becomes live once the hold-up store is charged (Table 13.2 step 10). -/
def goLive (s : State) : State :=
  if s.lcs.phase = .starting ∧ s.pwr.charged ∧ !s.lcs.restoring then
    { s with lcs := { s.lcs with phase := .live }, adm := { s.adm with live := true } }
  else s

/-- The secrets of a start: 64 bytes for the seeds of the KIT and the replay table and 32 for the slots' tag key, two requests of P0
(R270, R275, R401). -/
def startSecrets (s : State) : State :=
  let n := newSecret (privGen (privGen s 0) 0) 96
  { n.1 with kp := { n.1.kp with seed := n.2, tagKey := n.2 + 64 }, rpl := { n.1.rpl with seed := n.2 + 32 } }

/-- The firmware runs (Table 13.2 steps 8 and 9): the vendor library of its image is there (R231), the first epoch opens, a torn slot
is recorded, the tamper log is handed over, the start's secrets are drawn, the vault is empty, the state of the fuses is entered, the
plots are restored. -/
def firmware (s : State) (st : Nat) : State :=
  let s1 := startSecrets (newEpoch { s with lcs := { s.lcs with restoring := false },
                                            prog := { s.prog with lib := Config.vendorLibrary (s.bank s.lcs.bank).data } })
  let s2 := { s1 with vlt := { ready := true } }
  goLive (restorePlots (enterLcs (handOver (tornRecord s2)) st))

/-- What ends a start before full service: the reason, the test and whether a bank's firmware ran (Table 13.5). The hedgerow
regions the firmware loads are not given by the spec: the table stays as reset leaves it (log 40). -/
def startFault (s : State) (env : StartEnv) (st : Nat) : Option (Byte × Byte × Bool) :=
  if mirrorBad s st || checkBad s st env.checkWord then some (0x07, 0, false)
  else match env.katFail with
    | some t => some (0x03, t, false)
    | none =>
      if !env.dramOk then some (0x04, 0, false)
      else match chooseBank s env.imageOk with
        | none => some (0x01, 0, false)
        | some _ => if env.vaultOk then none else some (0x02, 0, true)

/-- The start goes on to its firmware once every plot drill of the flash directory is instantiated (R409, Table 13.2 steps 5 to 9). -/
def finishRestore (s : State) : State :=
  if s.lcs.restoring && s.lcs.phase == .starting && plotsSeeded s then firmware s s.lcs.state.toNat else s

/-- MODULE_START past its trigger: the fuses, the counters, the decision for a normal or a fallow start, the tests, the bank,
and the firmware once the privileged drills are instantiated (R488, R490, R497 to R503). -/
def moduleStart (s : State) (env : StartEnv) : State :=
  let st := decodeFuses s.lcs.fuses
  if s.lcs.phase ≠ .reset || !s.pwr.good || s.pwr.shutdown then s
  else if s.lcs.trimBlown || st = 6 then inert s (if st = 6 then 6 else 5)
  else if st = 5 then scrap s
  else
    let s0 := countStart s
    let s1 := { s0 with lcs := { s0.lcs with state := BitVec.ofNat 4 st } }
    if fallowStart s1 then fallowEnter s1
    else
      let b := (chooseBank s1 env.imageOk).getD s1.lcs.pref
      match startFault s1 env st with
      | some (reason, test, ran) => startFail (if ran then { s1 with lcs := { s1.lcs with bank := b } } else s1) reason test ran
      | none =>
        if !s1.rng.started then s1
        else finishRestore (seedPlots { s1 with lcs := { s1.lcs with bank := b, phase := .starting, restoring := true } })

/-- MODULE_START: the steward ROM runs the start sequence. -/
def execModuleStart (env : StartEnv) (s : State) : Res := .next (moduleStart s env)

/-- Full service (Table 13.2 step 11): the units that passed, the engine configuration (R358), the start-failure counter,
MOD_OK unless TAMPERED, the preferred bank (R500), the record. -/
def serve (s : State) (tests : InstanceTests) : State :=
  let cfg : Tbl W32 := if s.kpr.tampered then [] else s.flash.pkeCfg.getD []
  let s1 := { s with
    yreg := { s.yreg with live := tests.yokes, retired := 0 }, lan := { s.lan with live := tests.lanes, retired := 0 },
    pke := { s.pke with live := tests.engines, retired := 0, cfg := cfg, cfgNext := cfg },
    kpr := { s.kpr with startfail := 0 }, pwr := { s.pwr with modOk := !s.kpr.tampered },
    lcs := { s.lcs with phase := .full, prefFailed := false, startMs := BitVec.ofNat 16 ((s.now - s.lcs.since) / 1000) } }
  let s2 := if s1.lcs.bank = s1.lcs.pref then s1
    else event { s1 with lcs := { s1.lcs with pref := s1.lcs.bank } } 0x0042 modScope
      (le 1 (flag s1.lcs.pref 0) ++ le 1 (flag s1.lcs.bank 0))
  event s2 0x0040 modScope (le 4 (lcsStart s2))

/-- FULL_SERVICE: the instance tests have ended and the claim is met; too few units fail the start (R498, R501). -/
def execFullService (tests : InstanceTests) (s : State) : Res :=
  .next (if s.lcs.phase ≠ .live || s.lcs.fallow || !s.rng.claim then s
    else if ones tests.lanes < 28 || decide (ones tests.engines < 16) then startFail s 0x03 0 true
    else if ones tests.yokes < 56 || decide (3 ≤ tests.faults) then startFail s 0x06 0 true
    else serve s tests)

/-- The steward has not serviced its watchdog for 100 ms; while a debugger holds it halted the watchdog does not run. During a
start that counts as a failure with reason 0x05, else the module restarts (R469, R493, R501). -/
def stewardDog (s : State) : State :=
  if !s.pwr.good || s.pwr.shutdown || s.stw.halted then s
  else match s.lcs.phase with
    | .off => s
    | .inert => s
    | .full => restart s 2 true 7
    | .reset => let s1 := countStart s; if fallowStart s1 then restart s1 2 true 7 else startFail s1 0x05 0 false
    | .starting => startFail s 0x05 0 true
    | .live => if s.lcs.fallow then restart s 2 true 7 else startFail s 0x05 0 true

/-- STEWARD_WATCHDOG. -/
def execStewardWatchdog (s : State) : Res := .next (stewardDog s)

/-! ### Life-cycle commands (Table 13.4) -/

/-- INLEN n and bytes 0 to 3 zero (R510). -/
def lcsArgs (n : Nat) (_ : State) (d : Adm) : Bool := d.inlen == n && noPlot d

/-- Every record has been exported (R489). -/
def allExported (s : State) : Bool := s.evr.recs.all fun x => !x.2.used || exported s.evr x.2

/-- LCS_ADVANCE past its gates: the target, the supplies, for SCRAPPED the exports; then the record and the burn of the next
group (R484, R485, R489). The burn runs to its end under the hold-up store (R486). -/
def runAdvance (s : State) (d : Adm) : State :=
  let st := s.lcs.state.toNat
  let t := byteAt d.inl 4
  if t ≠ st + 1 || decide (decodeFuses s.lcs.fuses ≠ st) then admFail s d stPolicy 0x70
  else if s.kpr.kvbat < 2400 || !s.pwr.charged then admFail s d stPolicy 0x71
  else if t = 5 && !allExported s then admFail s d stAudit 0x20
  else
    let s1 := event { s with lcs := { s.lcs with fuses := blow s.lcs.fuses st } } 0x3020 modScope (le 1 st ++ le 1 t)
    admOk s1 d

/-- LCS_ADVANCE. -/
def execLcsAdvance (s : State) : Res :=
  .next (admin 0x180 false false always (fun s d => lcsArgs 5 s d && decide (byteAt d.inl 4 ≤ 5)) always
    (fun s d => s.lcs.state == 0 || managerSO s d) runAdvance s)

/-- The 64 bytes of LCS_STATUS (R610). -/
def statusBytes (s : State) : Bytes :=
  le 4 (lcsStat s) ++ le 4 (lcsStart s) ++ le 4 (lcsLastFail s) ++ le 4 0 ++ le 8 (lcsFw s.lcs.bankA) ++
    le 8 (lcsFw s.lcs.bankB) ++ List.replicate 32 0

/-- LCS_STATUS. -/
def execLcsStatus (s : State) : Res :=
  .next (admin 0x181 true true always (fun s d => lcsArgs 4 s d && decide (64 ≤ d.resLen)) always always
    (fun s d => admResult s d (statusBytes s)) s)

/-- The header of a firmware image is well formed and the image has its length (R506). -/
def fwHeaderOk (b : Bytes) : Bool :=
  cut b 0 4 == [0x53, 0x4D, 0x46, 0x57] && byteAt b 4 == 1 && zeros b 5 3 && zeros b 14 2 && zeros b 20 44 &&
    decide (b.length = 64 + fld b 16 4 + 96 + 4627) && decide (b.length ≤ 96 * 2 ^ 20)

/-- The SVN and both signatures of an image (R499). -/
def fwSigned (b : Bytes) : Bool :=
  let n := 64 + fld b 16 4
  decide (Config.minSvn.toNat ≤ fld b 12 2) && Config.sigVerify 1 (Config.fwKey 1) (cut b 0 n) (cut b n 96) &&
    Config.sigVerify 2 (Config.fwKey 2) (cut b 0 n) (cut b (n + 96) 4627)

/-- The final chunk is written: the image is verified, the bank marked, the record written (R507). -/
def fwVerify (s : State) (d : Adm) (b : Bool) (data : Bytes) : State :=
  let ok := fwHeaderOk data && fwSigned data
  let k : Bank := { valid := ok, svn := BitVec.ofNat 16 (fld data 12 2), version := BitVec.ofNat 32 (fld data 8 4), data := data }
  let s1 := event (s.setBank b k) 0x0043 modScope
    (le 1 (flag b 0) ++ le 4 k.version.toNat ++ le 2 k.svn.toNat ++ le 1 (flag ok 0))
  if ok then admOk s1 d else admFail s1 d stPolicy (if fwHeaderOk data then 0x73 else 0x72)

/-- FW_LOAD past its gates: the chunk goes into the bank that is not running, in order (R507). -/
def runFwLoad (r : HostRead) (s : State) (d : Adm) : State :=
  let b := !s.lcs.bank
  let ofs := fld d.inl 4 4
  let k := s.bank b
  if ofs ≠ 0 ∧ (k.valid ∨ ofs ≠ k.data.length) ∨ 96 * 2 ^ 20 < ofs + d.extLen then admFail s d stPolicy 0x72
  else admRead s d d.extLen r fun s data =>
    let all := if ofs = 0 then data else k.data ++ data
    if bit (byteAt d.inl 8) 0 then fwVerify s d b all
    else admOk (s.setBank b { k with valid := false, data := all }) d

/-- FW_LOAD. -/
def execFwLoad (r : HostRead) (s : State) : Res :=
  .next (admin 0x182 true true notDecom (fun s d => lcsArgs 12 s d && fld d.inl 4 4 % 65536 == 0 && decide (byteAt d.inl 8 ≤ 1) &&
    zeros d.inl 9 3) always always (runFwLoad r) s)

/-- A stop-change-restart begins: every OPEN plot is stopped and noted to return (R509 step 1). DESIGN CHOICE (log 116): this stop leaves
ARMED as it is, so an FLR meanwhile ends CREATED with ARMED 1 (R96, R142). -/
def beginChange (s : State) (c : Change) : State :=
  let one (s : State) (p : Nat) : State :=
    if (s.plot p).st = .opened then stopPlot (s.modPlot p fun pl => { pl with reopen := true }) p else s
  { (s.plots.map (·.1)).foldl one s with lcs := { ((s.plots.map (·.1)).foldl one s).lcs with change := c } }

/-- A command that would begin a change waits while another is under way (R99). -/
def changing (s : State) : Bool := decide (s.lcs.change ≠ .none)

/-- FW_ACTIVATE past its gates (R508, R510). -/
def runActivate (s : State) (d : Adm) : State :=
  let b := decide (byteAt d.inl 4 = 1)
  if !(s.bank b).valid then admFail s d stPolicy 0x74
  else
    let s1 := event s 0x3025 modScope (le 1 (flag b 0) ++ le 4 (s.bank b).version.toNat)
    beginChange s1 (.activate d b)

/-- FW_ACTIVATE. -/
def execFwActivate (s : State) : Res :=
  .next (if changing s then s
    else admin 0x183 false false notDecom (fun s d => lcsArgs 5 s d && decide (byteAt d.inl 4 ≤ 1)) always always runActivate s)

/-- START_CNT_RESET: the counter and FALLOW_REQ are cleared and the module restarts (R504). -/
def execStartCntReset (s : State) : Res :=
  .next (admin 0x184 true false notDecom (lcsArgs 4) always managerSO (fun s _ =>
    let s1 := event s 0x3026 modScope (le 1 s.kpr.startfail.toNat)
    restart { s1 with kpr := { s1.kpr with startfail := 0, fallowReq := false } } 4 true 7) s)

/-- FALLOW_REQUEST: FALLOW_REQ is set and the module restarts (R505). -/
def execFallowRequest (s : State) : Res :=
  .next (admin 0x185 false false notDecom (lcsArgs 4) always managerSO (fun s _ =>
    let s1 := event s 0x3027 modScope []
    restart { s1 with kpr := { s1.kpr with fallowReq := true } } 4 true 7) s)

/-- MOD_RECONFIG past its gates (R509, R510). -/
def runReconfig (s : State) (d : Adm) : State :=
  beginChange (event s 0x3028 modScope (le 1 (byteAt d.inl 4))) (.reconfig d (BitVec.ofNat 3 (byteAt d.inl 4)))

/-- MOD_RECONFIG. -/
def execModReconfig (s : State) : Res :=
  .next (if changing s then s
    else admin 0x186 false false notDecom (fun s d => lcsArgs 5 s d && decide (byteAt d.inl 4 < 8)) always always runReconfig s)

/-! ### Stop-change-restart -/

/-- EtherTypes a port refuses (R530). -/
def etypeBad (c : W64) : Bool :=
  let e := (c.extractLsb' 16 16).toNat
  decide (e < 0x600) || [0x800, 0x806, 0x86DD, 0x8100, 0x88A8, 0x8808].contains e

/-- A port takes its new configuration, or keeps the old one with CFG_ERR (R530). -/
def applyPort (s : State) (k : Nat) : State :=
  let c := tget portDefault s.clu.portNext k
  if etypeBad c then cluFlag s 6 else { s with clu := { s.clu with portCfg := tset portDefault k c s.clu.portCfg } }

/-- MOD_RECONFIG bit 1: both ports are configured and drop their sessions (R509, R530). -/
def applyPorts (s : State) : State := startAll (dropSessions (applyPort (applyPort s 0) 1))

/-- A configuration word with a LEN of 1 to 5 (R356). -/
def cfgLenOk (v : W32) : Bool := let n := (v.extractLsb' 4 3).toNat; decide (1 ≤ n) && decide (n ≤ 5)

/-- The configuration that the engines take: PKE_CFG_NEXT, but the old word where its LEN is no length (R356, log 127). -/
def nextCfg (s : State) : Tbl W32 :=
  (List.range 32).foldl (fun t e => tset 0x50 e
    (let v := tget 0x50#32 s.pke.cfgNext e; if cfgLenOk v then v else pkeCfg s e) t) []

/-- MOD_RECONFIG bit 2: the engines are zeroised and take PKE_CFG_NEXT, which flash keeps (R357, R358, R509). -/
def applyEngines (s : State) : State :=
  { s with pke := { s.pke with cfg := nextCfg s, slots := [], mac := [] },
           flash := { s.flash with pkeCfg := some (nextCfg s) } }

/-- Every plot that was OPEN and is STOPPED now returns to OPEN (R509 step 3). -/
def reopenPlots (s : State) : State :=
  (s.plots.map (·.1)).foldl (fun s p =>
    if (s.plot p).reopen then
      let s1 := s.modPlot p fun pl => { pl with reopen := false }
      if (s.plot p).st = .stopped then startPlot s1 p else s1
    else s) s

/-- No plot is OPEN or STOPPING. -/
def allStopped (s : State) : Bool := s.plots.all fun x => x.2.st != .opened && x.2.st != .stopping

/-- STOP_CHANGE_RESTART_APPLY: once every plot is STOPPED the change is applied; a firmware activation restarts the module and
writes no completion entry (R508 to R510). A plot that opened meanwhile is stopped first. -/
def execStopChangeRestartApply (s : State) : Res :=
  .next (
    match s.lcs.change with
    | .reconfig d m =>
      if !allStopped s then beginChange s (.reconfig d m)
      else
        let s1 := if m.getLsbD 1 then applyPorts s else s
        let s2 := if m.getLsbD 2 then applyEngines s1 else s1
        admOk (reopenPlots { s2 with lcs := { s2.lcs with change := .none } }) d
    | .activate d b =>
      if !allStopped s then beginChange s (.activate d b)
      else restart { s with lcs := { s.lcs with pref := b } } 3 true 7
    | _ => s)

end Sys2Proof.Machine
end

