-- ==== Sys2Proof/Machine/Cluster.lean ====
section
/-! DEFINITION. The cluster admin commands (R566) and the forming and ending of a yoked pair (R552, R561, R563). -/

namespace Sys2Proof.Machine

/-! ### Membership -/

/-- A cluster command: valid in OPERATIONAL only (R566). -/
def cluCmd (code : BitVec 16) (args quorum : State → Adm → Bool) (run : State → Adm → State) (s : State) : Res :=
  .next (admin code false false (fun s _ => s.lcs.state == 3) args always quorum run s)

/-- INLEN n, bytes 0 to 3 zero. -/
def cluArgs (n : Nat) (_ : State) (d : Adm) : Bool := d.inlen == n && noPlot d

/-- Every session is dropped and the member table emptied; the domain's secrets stay in the cabinet. -/
def leaveDomain (s : State) : State :=
  let s1 := dropSessions { s with clu := { s.clu with joined := false } }
  settleWaits { s1 with clu := { s1.clu with members := [], sess := [], hsWait := [], rehoming := [], early := [], heldClaims := [],
                                             node := 0, domain := 0, ver := 0, caKey := [], cert := [] } }

/-- CLU_JOIN's operands. -/
def joinNode (d : Adm) : Nat := fld d.inl 4 2
def joinDomain (d : Adm) : W32 := BitVec.ofNat 32 (fld d.inl 8 4)
def joinFounder (d : Adm) : Bool := bit (byteAt d.inl 6) 0

/-- The key and certificate are there: they are checked, and the module is a member; a founder has drawn the domain seed
(R538, R539). A node that joins keeps a seed the cabinet holds (log 63). -/
def joinWith (s : State) (d : Adm) (b : Bytes) : State :=
  let ca := cut b 0 97
  let cert := b.drop 97
  if 4095 < joinNode d ∨ byteAt ca 0 ≠ 4 ∨
      Config.certOk ca (joinDomain d) (joinNode d) Config.identityChain cert = false then admFail s d stPolicy 0x90
  else
    let s1 := leaveDomain s
    let s2 := { s1 with clu := { s1.clu with joined := true, node := joinNode d, domain := joinDomain d, caKey := ca, cert := cert } }
    let s3 := if joinFounder d then
        let n := newSecret s2 32
        let s4 := n.1.setCab fun c => { c with domain := n.2 }
        { s4 with clu := { s4.clu with hasSd := true } }
      else s2
    admOk s3 d

/-- CLU_JOIN past its gates; a founder's waits for P0's fresh reseed (R404, R411). -/
def runJoin (r : HostRead) (s : State) (d : Adm) : State :=
  let g := if joinFounder d then keyGen s 0 else (s, true)
  if g.2 then admRead (keyServed g.1) d d.extLen r fun s b => joinWith s d b
  else keyHeld g.1 d 0

/-- CLU_JOIN. -/
def execCluJoin (r : HostRead) (s : State) : Res :=
  cluCmd 0x1A0 (fun s d => cluArgs 12 s d && decide (byteAt d.inl 6 ≤ 1) && byteAt d.inl 7 == 0 && decide (98 ≤ d.extLen) &&
    decide (d.extLen ≤ 2145)) managerSO (runJoin r) s

/-- One 16-byte member table entry (R538). -/
def memberOf (b : Bytes) : Member :=
  { node := fld b 0 2, mask := BitVec.ofNat 8 (byteAt b 2), ver := BitVec.ofNat 8 (byteAt b 3), mac := cut b 4 6 }

/-- A member table entry is well formed. -/
def memberOk (b : Bytes) : Bool := decide (fld b 0 2 ≤ 4095) && decide (1 ≤ byteAt b 3) && zeros b 10 6

/-- The entries of a member table. -/
def tableEntries (b : Bytes) : List Bytes := (List.range (b.length / 16)).map fun i => cut b (16 * i) 16

/-- The domain version of a member table: the lowest of its entries, at most 2 (R537). -/
def domainVer (l : List Member) : Nat := l.foldl (fun v m => min v m.ver.toNat) 2

/-- A member table is taken: sessions of nodes it no longer lists are dropped, tenants rehomed, missing sessions begin
(R538, R551). -/
def takeMembers (s : State) (l : List Member) : State :=
  let gone := (s.clu.sess.map (·.1)).filter fun p => !(l.any fun m => m.node == p)
  let s1 := { s with clu := { s.clu with members := l, ver := BitVec.ofNat 2 (domainVer l) } }
  let s2 := gone.foldl (fun s p => { (sessDown s p) with clu := { (sessDown s p).clu with
    sess := (sessDown s p).clu.sess.filter fun x => x.1 != p, hsWait := (sessDown s p).clu.hsWait.filter (· != p) } }) s1
  startAll (rehomeAll s (settleWaits s2))

/-- CLU_MEMBERS past its gates. -/
def runMembers (r : HostRead) (s : State) (d : Adm) : State :=
  if !s.clu.joined then admFail s d stPolicy 0x93
  else admRead s d d.extLen r fun s b =>
    let es := tableEntries b
    let l := es.map memberOf
    if es.all memberOk && l.any (fun m => m.node == s.clu.node) && decide ((l.map (·.node)).eraseDups.length = l.length) then
      admOk (takeMembers s l) d
    else admFail s d stPolicy 0x91

/-- CLU_MEMBERS. -/
def execCluMembers (r : HostRead) (s : State) : Res :=
  cluCmd 0x1A1 (fun s d => cluArgs 4 s d && decide (16 ≤ d.extLen) && d.extLen % 16 == 0) always (runMembers r) s

/-- CLU_LEAVE past its gates: no SHARE_FORGET goes out, the plots keep their bindings (R546). -/
def runLeave (s : State) (d : Adm) : State :=
  if !s.clu.joined then admFail s d stPolicy 0x93 else admOk (leaveDomain s) d

/-- CLU_LEAVE. -/
def execCluLeave (s : State) : Res := cluCmd 0x1A2 (cluArgs 4) managerSO runLeave s

/-- A plot is bound to a DTID, or unbound with 0; the change is announced and its tenants rehomed (R540, R551). -/
def bindPlot (s : State) (p : Nat) (dtid : W32) : State :=
  announce s (saveRecord (s.modPlot p fun pl => { pl with dtid := dtid }) p)

/-- A resynchronisation of one tenant with every version 2 peer that binds it (R547). -/
def resync (s : State) (dtid : W32) : State :=
  ((peers s).filter fun n => (s.sess n).hs == .up && decide (2 ≤ (s.sess n).ver.toNat) && (s.sess n).binds.contains dtid).foldl
    (fun s n => sendShared (sendMsg s n (.syncReq dtid)) n dtid) s

/-- CLU_PLOT_BIND past its gates. -/
def runBind (s : State) (d : Adm) : State :=
  let dt := BitVec.ofNat 32 (fld d.inl 4 4)
  let taken := s.plots.any fun x => x.1 != d.pid && x.2.dtid == dt && x.2.st != .absent
  if !s.clu.joined then admFail s d stPolicy 0x93
  else if !createdToStopped.contains (s.plot d.pid).st || (dt != 0 && taken) then admFail s d stPolicy 0x92
  else
    let s1 := bindPlot s d.pid dt
    forwardAdmin (admOk (if bit (byteAt d.inl 8) 0 then resync s1 dt else s1) d) d

/-- CLU_PLOT_BIND; an ABSENT plot ends it PLOT_NOT_OPEN (Table 3.11). -/
def execCluPlotBind (s : State) : Res :=
  .next (admin 0x1A3 false false (fun s _ => s.lcs.state == 3)
    (fun _ d => d.inlen == 9 && plotNamed d && decide (byteAt d.inl 8 ≤ 1)) (fun s d => decide ((s.plot d.pid).st ≠ .absent)) always
    (notStandby runBind) s)

/-! ### Forming a pair (R552, R553) -/

/-- The 64-byte header of an installed image as far as the module keeps it, with its code (Table 6.2). -/
def imageBytes (id : Nat) (g : Image) : Bytes :=
  [0x53, 0x4D, 0x50, 0x47, 1, 0] ++ le 2 id ++ le 4 g.codeLen ++ le 4 g.entry ++ le 4 g.version.toNat ++ le 4 0 ++
    le 8 g.signer.toNat ++ List.replicate 32 0 ++ g.code

/-- A plot's record as it is sent to the standby (R496, R553). -/
def plotCopy (s : State) (p : Nat) (pl : Plot) : PlotCopy :=
  { id := Fin.ofNat 1024 p, armed := pl.armed, acr := acrBytes pl.acr, active := pl.active, shadow := pl.shadow,
    shadowValid := pl.shadowValid, dtid := pl.dtid, signers := pl.signers,
    images := pl.progs.map fun x => imageBytes x.1 (tget Image.zero s.prog.images x.2), curves := pl.curves }

/-- The version of the firmware that runs, and PKE_CFG of every engine, which the two modules of a pair have alike (R552). -/
def runningFw (s : State) : W32 := (s.bank s.lcs.bank).version
def engineCfg (s : State) : List W32 := (List.range 32).map (pkeCfg s)

/-- What the module reports of itself in PAIR_STATE. -/
def pairInfo (s : State) (role : BitVec 2) (plots : List PlotCopy) : PairInfo :=
  { role := role, fw := runningFw s, pke := engineCfg s, swapBuf := s.clu.swapBuf != 0, plots := plots }

/-- Both modules run the same firmware version and have the same PKE_CFG (R552). -/
def pairAlike (s : State) (i : PairInfo) : Bool := i.fw == runningFw s && i.pke == engineCfg s

/-- Every plot is ABSENT. -/
def allAbsent (s : State) : Bool := s.plots.all fun x => x.2.st == .absent

/-- The conditions of R552 this module sees for a pair with a peer. -/
def pairOk (s : State) (peer : Nat) : Bool :=
  s.clu.joined && s.lcs.state == 3 && !s.kpr.tampered && (s.sess peer).hs == .up && s.clu.role == 0 && !s.clu.syncing

/-- CLU_PAIR past its gates: the standby's manager names the active; the active's sends PAIR_STATE (Table 15.6 step 1) and its
command completes at step 5. -/
def runPair (s : State) (d : Adm) : State :=
  let n := fld d.inl 4 2
  if !s.clu.joined then admFail s d stPolicy 0x93
  else if !pairOk s n then admFail s d stPolicy 0x94
  else if byteAt d.inl 6 = 1 then
    (if allAbsent s then admOk { s with clu := { s.clu with willing := true, peer := n } } d else admFail s d stPolicy 0x94)
  else
    sendMsg { s with clu := { s.clu with peer := n, syncing := true, willing := false, pairAdm := some d } } n
      (.pairState (pairInfo s 1 ((s.plots.filter fun x => x.2.st != .absent).map fun x => plotCopy s x.1 x.2)))

/-- CLU_PAIR. DESIGN CHOICE (log 113): the peer's node ID has no range of its own in Table 15.9, and one above 4,095, which no member
has, fails a condition of R552 (0x94). -/
def execCluPair (s : State) : Res :=
  cluCmd 0x1A4 (fun s d => cluArgs 8 s d && decide (byteAt d.inl 6 ≤ 1) && byteAt d.inl 7 == 0) managerSO runPair s

/-- The active's CLU_PAIR fails: a condition of R552 does not hold. -/
def pairFail (s : State) : State :=
  match s.clu.pairAdm with
  | some d => admFail { s with clu := { s.clu with syncing := false, willing := false, pairAdm := none } } d stPolicy 0x94
  | none => s

/-! ### The end of a pair -/

/-- Forwarded transactions that still run are squashed, their results discarded (Table 15.7 step 2). -/
def squashForwarded (s : State) : State :=
  ((s.yokes.filter fun x => match x.2.tx with | some t => t.fwd | none => false).map (·.1)).foldl squashTx s

/-- Every CREATED plot that is armed and whose driver asks for it opens. -/
def openAll (s : State) : State := (s.plots.map (·.1)).foldl tryOpen s

/-- The pair ends here: a standby's forwarded transactions go, the module is unpaired, its plots may open (Table 15.7 steps 2
and 3, R561, R563). -/
def leavePair (s : State) : State := openAll (unpair (squashForwarded s))

/-- CLU_UNPAIR past its gates; the peer is told. -/
def runUnpair (s : State) (d : Adm) : State :=
  if s.clu.role = 0 then admFail s d stPolicy 0x95
  else admOk (leavePair (sendMsg s s.clu.peer (.pairState (pairInfo s 0 [])))) d

/-- CLU_UNPAIR. -/
def execCluUnpair (s : State) : Res := cluCmd 0x1A5 (cluArgs 4) always runUnpair s

/-- CLU_SWAP past its gates: every OPEN plot stops (Table 15.8 step 1). -/
def runSwap (s : State) (d : Adm) : State :=
  if s.clu.role ≠ 1 then admFail s d stPolicy 0x95
  else if s.clu.suspect || !s.clu.peerSwap then admFail s d stPolicy 0x97
  else beginChange s (.swap d)

/-- CLU_SWAP; it waits while another change is under way. -/
def execCluSwap (s : State) : Res := if changing s then .next s else cluCmd 0x1A6 (cluArgs 4) managerSO runSwap s

/-- CLU_PROMOTE past its gates: a held standby takes over (R560). -/
def runPromote (s : State) (d : Adm) : State :=
  if s.clu.role ≠ 3 then admFail s d stPolicy 0x95 else admOk (leavePair s) d

/-- CLU_PROMOTE. -/
def execCluPromote (s : State) : Res := cluCmd 0x1A7 (cluArgs 4) managerSO runPromote s

end Sys2Proof.Machine
end

