-- ==== Sys2Proof/Machine/Custodians.lean ====
section
/-! DEFINITION. Custodians: registries, card authentication, quorum sessions, ceremonies (12, R470 to R481). -/

namespace Sys2Proof.Machine

/-! ### Authentication (R475) -/

/-- The operation code of an interaction (CUST_STAT.OP). -/
def CustOp.code : CustOp → Nat
  | .idle => 0
  | .enrol => 1
  | .assembly => 2
  | .ceremony => 3

/-- The hash of a card's key (R471). -/
def keyHash (key : Bytes) : Bytes := Config.hash 1 key

/-- The public key of the card in a slot; empty where the slot is free. -/
def cardIn (s : State) (slot : Nat) : Bytes := tget [] s.cust.cards slot

/-- A live session holds the slot with its anchor (R478). -/
def anchored (s : State) (slot : Nat) : Bool :=
  [0, 1].any fun k => match s.session k with | some x => x.slot == slot | none => false

/-- A slot is free of anchors (R478). -/
def slotFree (s : State) : Bool := !(anchored s 0 && anchored s 1)

/-- An authentication fails: the result is shown and recorded; an enrolment ends with it, an assembly or ceremony waits for
another custodian (R475, Table 14.3). -/
def authFail (s : State) (last : BitVec 4) : State :=
  let s1 := event s 0x2006 s.cust.scope (le 1 s.cust.role ++ le 1 last.toNat)
  if s1.cust.op = .enrol then endInteraction s1 last
  else { s1 with cust := { s1.cust with last := last, step := .card, part := [] } }

/-- The operation is shown on the PED and the challenge is drawn from P1 (R475 step 3). Without output of P1 the
authentication does not begin (log 45). -/
def challenge (s : State) (slot role ix : Nat) : State :=
  if !privReady s 1 then s
  else
    let s1 := drawn (privGen s 1) 32
    emit { s1 with cust := { s1.cust with step := .pin, slot := slot, role := role, chal := s.free } }
      (.ped (le 1 ix ++ le 1 s.cust.op.code))

/-- A card was inserted for the interaction in progress: the lookup of its key (R475 step 2); an enrolment has none. -/
def beginAuth (s : State) (slot : Nat) (key : Bytes) : State :=
  let h := keyHash key
  let reg := s.registry s.cust.scope
  let found := reg.cards.find? fun c => c.hash == h
  match s.cust.op with
  | .idle => s
  | .enrol => if found.isSome then authFail s 6 else challenge s slot s.cust.role 0
  | .assembly =>
    match found with
    | some c => if c.role = s.cust.role then challenge s slot c.role c.ix else authFail s 4
    | none => authFail s 4
  | .ceremony =>
    match found with
    | some c => if 1 ≤ c.role ∧ c.role ≤ 3 ∧ bit (byteAt s.cust.cer.inl 14) (c.role - 1) then challenge s slot c.role c.ix
                else authFail s 4
    | none => authFail s 4

/-- CARD_INSERT: a card is in a slot and its public key is read (R475 step 1). -/
def execCardInsert (slot : Fin 2) (key : Bytes) (s : State) : Res :=
  .next (if !s.pwr.good || s.pwr.shutdown || !(cardIn s slot.val).isEmpty then s
    else
      let s1 := { s with cust := { s.cust with cards := tset [] slot.val key s.cust.cards } }
      if s1.cust.op ≠ .idle ∧ s1.cust.step = .card ∧ !anchored s1 slot.val then beginAuth s1 slot.val key else s1)

/-- What a card signs (R475 step 5). -/
def signed (s : State) : Bytes :=
  freeBytes s.cust.chal 32 ++ le 8 Config.serial.toNat ++ le 2 s.cust.scope ++ le 1 s.cust.role ++ le 1 s.cust.op.code

/-- The lowest index a role of a registry does not use (R471). -/
def freeIx (r : Registry) (role : Nat) : Nat :=
  ((List.range 16).find? fun i => !(r.cards.any fun c => c.role == role && c.ix == i)).getD 0

/-- Cards of a role (N of R471). -/
def roleCards (r : Registry) (role : Nat) : Nat := (r.cards.filter fun c => c.role == role).length

/-- M of a role; 2 where it was never set (R473). -/
def roleM (r : Registry) (role : Nat) : Nat := tget 2 r.m role

/-- The payload of the card records: role, index, 16 bytes of the key hash (Table 14.3). -/
def cardPayload (role ix : Nat) (h : Bytes) : Bytes := le 1 role ++ le 1 ix ++ fit 16 h

/-- The enrolment is complete: the card is in the registry (R471, R473, R481). -/
def enrolled (s : State) (h : Bytes) : State :=
  let c := s.cust
  let r := s.registry c.scope
  let ix := freeIx r c.role
  let s1 := s.setRegistry c.scope { r with cards := r.cards ++ [{ hash := h, role := c.role, ix := ix }] }
  idleAfter (writeReserved s1 0x2001 c.scope (cardPayload c.role ix h)) 1

/-- The Mth custodian is counted: the session is live for 15 minutes, anchored by that card (R476, R477). -/
def sessionOpens (s : State) (h : Bytes) : State :=
  let c := s.cust
  let k := if (s.session 0).isNone then 0 else 1
  let x : Session := { scope := c.scope, role := c.role, slot := c.slot, anchor := h, ends := s.now + 900000000 }
  let s1 := writeReserved (s.setSession k (some x)) 0x2004 c.scope (le 1 c.role ++ le 1 (cardIx (s.registry c.scope) h))
  idleAfter s1 1

/-- A custodian has authenticated (R475 step 6): enrolled, counted for the quorum, or about to enter a component. -/
def authenticated (s : State) : State :=
  let h := keyHash (cardIn s s.cust.slot)
  if s.cust.counted.contains h then authFail s 6
  else match s.cust.op with
    | .idle => s
    | .enrol => enrolled s h
    | .assembly =>
      let l := s.cust.counted ++ [h]
      let s1 := { s with cust := { s.cust with counted := l, step := .card } }
      if s.cust.need ≤ l.length then sessionOpens s1 h else s1
    | .ceremony => { s with cust := { s.cust with step := .digits } }

/-- CARD_RESPONSE: the card answers the PIN verification or signs the challenge (R475 steps 4 and 5). -/
def execCardResponse (slot : Fin 2) (a : CardAnswer) (s : State) : Res :=
  .next (if s.cust.op = .idle || s.cust.slot ≠ slot.val then s
    else match s.cust.step, a with
      | .cardPin, .pinOk => emit { s with cust := { s.cust with step := .sign } } (.card slot.val (freeBytes s.cust.chal 32))
      | .cardPin, .pinRefused => authFail s 5
      | .sign, .signature b =>
        if Config.sigVerify 3 (cardIn s slot.val) (signed s) b then authenticated s else authFail s 3
      | _, _ => s)

/-! ### Ceremonies (R479) -/

/-- The operands of KEY_CEREMONY. -/
def cerAlg (d : Adm) : Nat := byteAt d.inl 12
def cerK (d : Adm) : Nat := byteAt d.inl 13
def cerMask (d : Adm) : Nat := byteAt d.inl 14
def cerAttr (d : Adm) : Nat := fld d.inl 16 4

/-- What a ceremony learns (R277, R479). -/
def cerLearn (d : Adm) (key : Bytes) : Learn :=
  { plot := d.pid, name := BitVec.ofNat 64 (fld d.inl 4 8), age := BitVec.ofNat 3 (byteAt d.inl 15),
    pinned := bit (byteAt d.inl 20) 0, shared := bit (byteAt d.inl 20) 1,
    slot := symSlot (cerAlg d) key (cerAttr d) 0 }

/-- The learning of a ceremony's key has ended: its record, CUST_KCV, the PED and result 1; a refusal is result 7 (R479, R480). -/
def ceremonyDone (s : State) (l : Learn) (st : BitVec 16) : State :=
  if s.cust.op ≠ .ceremony then s
  else if st = stOK ∨ st = stExisting then
    let d := s.cust.cer
    let s1 := writeReserved (if st = stOK then shareOut s l else s) 0x1013 l.plot (keyPayload l.name l.slot)
    let s2 := emit { s1 with cust := { s1.cust with kcv := BitVec.ofNat 24 (fldBE l.slot.kcv 0 3) } } (.ped (fit 3 l.slot.kcv))
    forwardData (idleAfter s2 1) d (l.slot.material.take l.slot.len.toNat)
  else endInteraction s 7

/-- All components are there: the groups, the key's rules, the learning (R479 steps 2 and 3). -/
def ceremonyKey (s : State) : State :=
  let d := s.cust.cer
  let key := s.cust.xored
  let l0 := cerLearn d key
  if s.cust.groups.toNat ≠ cerMask d || key.all (· == 0) || (isTdes (cerAlg d) && weakTdes key) ||
      !policyAdmits (s.plot d.pid).active (cerAlg d) (derives l0.slot.attr) 0 || !sharedOk s l0 then endInteraction s 7
  else
    let r := sharedLearn s l0
    match learnFor r.1 r.2 .ceremony with
    | (s1, some st) => ceremonyDone s1 r.2 st
    | (s1, none) => s1

/-- The ceremony is bound to a lane context, whose sealed register `xored` stands for; one that found none free when it began
binds as its next component is confirmed (R478, R479). -/
def bindCeremony (s : State) : State :=
  match s.cust.ctx, allocCtx s with
  | none, some i =>
    ungateL ({ s with cust := { s.cust with ctx := some i } }.modCtx i fun x => { x with bound := .ceremony }) (i / 8)
  | _, _ => s

/-- A component is confirmed: it is XORed into the ceremony's sealed register and its custodian counts (R479 step 1). -/
def component (s : State) : State :=
  let c := (bindCeremony s).cust
  let h := keyHash (cardIn s c.slot)
  let x := if c.xored.isEmpty then c.part else xorBytes c.xored c.part
  let s1 := { bindCeremony s with cust := { c with
    counted := c.counted ++ [h], groups := c.groups ||| BitVec.ofNat 3 (2 ^ (c.role - 1)), xored := x, part := [],
    step := .card } }
  if c.need ≤ c.counted.length + 1 then ceremonyKey s1 else s1

/-- What an accepted frame of the console does (R475 step 4, R479 step 1). -/
def consoleMsg (s : State) (m : ConsoleMsg) : State :=
  if s.cust.op = .idle then s
  else match s.cust.step, m with
    | .pin, .pin => emit { s with cust := { s.cust with step := .cardPin } } (.card s.cust.slot [])
    | .digits, .digits hex =>
      if hex.length = 2 * algLen (cerAlg s.cust.cer) 0 then
        let part := ofNibbles (hex.map (·.toNat))
        emit { s with cust := { s.cust with part := part, step := .confirm } } (.ped (kcvSym (cerAlg s.cust.cer) part))
      else s
    | .confirm, .confirm => component s
    | _, _ => s

/-- CONSOLE_FRAME: a frame of the enrolled PED; one whose tag fails or whose sequence number was used is dropped, and the
third drop in a row restarts the console session (R474). -/
def execConsoleFrame (seq : W32) (tagOk : Bool) (m : ConsoleMsg) (s : State) : Res :=
  .next (if !s.pwr.good || s.cust.ped.isEmpty then s
    else if !tagOk || decide (seq.toNat < s.cust.conSeq.toNat) then
      (if 2 ≤ s.cust.conBad then { s with cust := { s.cust with conSeq := 0, conBad := 0 } }
       else { s with cust := { s.cust with conBad := s.cust.conBad + 1 } })
    else consoleMsg { s with cust := { s.cust with conSeq := seq + 1, conBad := 0 } } m)

/-! ### Withdrawals and times -/

/-- The authentication or component entry under way at a slot is over for want of its card, result 7 (R475, R480). -/
def cardGone (s : State) (slot : Nat) : State :=
  if s.cust.op = .idle || s.cust.step = .card || s.cust.slot ≠ slot then s
  else if s.cust.op = .ceremony then endInteraction s 7
  else authFail s 7

/-- CARD_WITHDRAW: a card leaves its slot; an anchor's session ends (R475, R477, R480). -/
def execCardWithdraw (slot : Fin 2) (s : State) : Res :=
  .next (
    let s1 := [0, 1].foldl (fun s k => match s.session k with
      | some x => if x.slot = slot.val then endSession s k 2 else s
      | none => s) (cardGone s slot.val)
    { s1 with cust := { s1.cust with cards := tset [] slot.val [] s1.cust.cards } })

/-- CARD_OVERCURRENT: the interface deactivates the card, which cannot go on (R586). -/
def execCardOvercurrent (slot : Fin 2) (s : State) : Res := .next (cardGone s slot.val)

/-- AUTH_STEP_TIMEOUT: a step has waited 120 s, result 2 (R475). -/
def execAuthStepTimeout (s : State) : Res := .next (if s.cust.op = .idle then s else authFail s 2)

/-- ASSEMBLY_TIMEOUT: an assembly has not reached M within 10 minutes, result 2 (R476). -/
def execAssemblyTimeout (s : State) : Res := .next (if s.cust.op = .assembly then endInteraction s 2 else s)

/-- SESSION_EXPIRY: 15 minutes after it became live a session ends (R477). -/
def execSessionExpiry (k : Fin 2) (s : State) : Res :=
  .next (match s.session k.val with
    | some x => endSession (advanceTo s x.ends) k.val 1
    | none => s)

/-! ### Commands (Table 12.5) -/

/-- The manager scope. -/
def isManager (d : Adm) : Bool := d.pid == modScope

/-- The scope a command names is the manager function or a plot that is not ABSENT (Table 3.11). -/
def scopeThere (s : State) (d : Adm) : Bool := isManager d || decide ((s.plot d.pid).st ≠ .absent)

/-- A custodian command of either scope: in the manager scope it runs in fallow mode, on a tampered module and in
DECOMMISSIONED, in a plot scope not (R438, R488, R503). It may not name an ABSENT plot (Table 3.11). -/
def custCmd (code : BitVec 16) (args : State → Adm → Bool) (quorum : State → Adm → Bool) (run : State → Adm → State)
    (s : State) : Res :=
  .next (match s.adm.queue with
    | [] => s
    | d :: _ =>
      let m := isManager d
      admin code m m (fun s d => m || notDecom s d) (fun s d => scopeNamed d && args s d) scopeThere quorum run s)

/-- A live Security Officer session of the command's own scope. -/
def scopeSO (s : State) (d : Adm) : Bool := sessionLive s d.pid 0

/-- The exception of R472 for the scope. -/
def firstCards (s : State) (d : Adm) : Bool :=
  if isManager d then s.lcs.state == 2 || s.lcs.state == 4 || s.kpr.tampered
  else decide ((s.plot d.pid).st = .created)

/-- The role a custodian command names. -/
def roleOf (d : Adm) : Nat := byteAt d.inl 4

/-- Role, scope and plot state are valid (detail 0x61): the role exists, a plot is not ABSENT. -/
def roleOk (s : State) (d : Adm) : Bool :=
  decide (roleOf d ≤ 4) && scopeThere s d

/-- An interaction begins, with its slot of the recorder reserved (R478, R520). -/
def beginOp (s : State) (d : Adm) (op : CustOp) (need : Nat) : State :=
  let s1 := reserve s
  { s1 with cust := { s1.cust with op := op, need := need, scope := d.pid, role := if op = .ceremony then 0 else roleOf d,
                                   counted := [], step := .card, part := [], xored := [], groups := 0 } }

/-- CUST_ENROL past its gates. -/
def runEnrol (s : State) (d : Adm) : State :=
  if s.cust.op ≠ .idle || !slotFree s then admFail s d stPolicy 0x60
  else if !roleOk s d then admFail s d stPolicy 0x61
  else if 16 ≤ roleCards (s.registry d.pid) (roleOf d) then admFail s d stPolicy 0x62
  else if s.cust.ped.isEmpty then admFail s d stPolicy 0x66
  else if !auditRoom s then admFail s d stAudit 0x20
  else admOk (beginOp s d .enrol 1) d

/-- CUST_ENROL. -/
def execCustEnrol (s : State) : Res :=
  custCmd 0x170 (fun _ d => d.inlen == 6 && zeros d.inl 5 1)
    (fun s d => scopeSO s d || (roleOf d == 0 && !holdsCard s d.pid 0 && firstCards s d)) runEnrol s

/-- Sessions whose anchor is a card end with its revocation (R477). -/
def endAnchored (s : State) (scope : Nat) (h : Bytes) : State :=
  [0, 1].foldl (fun s k => match s.session k with
    | some x => if x.scope = scope ∧ x.anchor = h then endSession s k 4 else s
    | none => s) s

/-- CUST_REVOKE past its gates (R473, R477). -/
def runRevoke (s : State) (d : Adm) : State :=
  let h := cut d.inl 4 32
  let r := s.registry d.pid
  match r.cards.find? fun c => c.hash == h with
  | none => admFail s d stPolicy 0x61
  | some c =>
    if roleCards r c.role ≤ roleM r c.role then admFail s d stPolicy 0x64
    else if !auditRoom s then admFail s d stAudit 0x20
    else
      let s1 := endAnchored (reserve s) d.pid h
      let s2 := s1.setRegistry d.pid { r with cards := r.cards.filter fun x => x.hash != h }
      admOk (writeReserved s2 0x2002 d.pid (cardPayload c.role c.ix h)) d

/-- CUST_REVOKE. -/
def execCustRevoke (s : State) : Res := custCmd 0x171 (fun _ d => d.inlen == 36) scopeSO runRevoke s

/-- CUST_SET_M past its gates (R473). -/
def runSetM (s : State) (d : Adm) : State :=
  let r := s.registry d.pid
  let m := byteAt d.inl 5
  if !roleOk s d then admFail s d stPolicy 0x61
  else if m < 2 || 8 < m || roleCards r (roleOf d) < m then admFail s d stPolicy 0x63
  else if !auditRoom s then admFail s d stAudit 0x20
  else
    let s1 := (reserve s).setRegistry d.pid { r with m := tset 2 (roleOf d) m r.m }
    admOk (writeReserved s1 0x2003 d.pid (le 1 (roleOf d) ++ le 1 m)) d

/-- CUST_SET_M. -/
def execCustSetM (s : State) : Res := custCmd 0x172 (fun _ d => d.inlen == 6) scopeSO runSetM s

/-- CUST_SESSION_OPEN past its gates: an assembly begins (R476, R478). -/
def runSessionOpen (s : State) (d : Adm) : State :=
  if s.cust.op ≠ .idle then admFail s d stPolicy 0x60
  else if !roleOk s d then admFail s d stPolicy 0x61
  else if sessionLive s d.pid (roleOf d) || ((s.session 0).isSome && (s.session 1).isSome) then admFail s d stPolicy 0x65
  else if s.cust.ped.isEmpty then admFail s d stPolicy 0x66
  else if !auditRoom s then admFail s d stAudit 0x20
  else admOk (beginOp s d .assembly (roleM (s.registry d.pid) (roleOf d))) d

/-- CUST_SESSION_OPEN. -/
def execCustSessionOpen (s : State) : Res :=
  custCmd 0x173 (fun _ d => d.inlen == 6 && zeros d.inl 5 1) always runSessionOpen s

/-- CUST_SESSION_END past its gates (R477). -/
def runSessionEnd (s : State) (d : Adm) : State :=
  match [0, 1].find? fun k => match s.session k with
      | some x => x.scope == d.pid && x.role == roleOf d
      | none => false with
  | none => admFail s d stPolicy 0x61
  | some k => if !auditRoom s then admFail s d stAudit 0x20 else admOk (endSession s k 3) d

/-- CUST_SESSION_END. -/
def execCustSessionEnd (s : State) : Res :=
  custCmd 0x174 (fun _ d => d.inlen == 6 && zeros d.inl 5 1) always runSessionEnd s

/-- The attribute bits that some row of Table 7.3 gives for an algorithm. -/
def attrBits (alg : Nat) : Nat :=
  (usageTable.filter fun r => r.algs.contains (if isTdes alg then cT else cA)).foldl (fun n r => n ||| r.bits) 0

/-- The parameters of a ceremony (detail 0x67). -/
def cerOk (d : Adm) : Bool :=
  [0x01, 0x02, 0x10, 0x11, 0x12].contains (cerAlg d) && decide (2 ≤ cerK d) && decide (cerK d ≤ 8) && decide (1 ≤ cerMask d) &&
    decide (cerMask d ≤ 7) && decide (byteAt d.inl 15 ≤ 7) && decide (byteAt d.inl 20 ≤ 3) && fld d.inl 4 8 != 0 &&
    cerAttr d &&& attrBits (cerAlg d) == cerAttr d

/-- KEY_CEREMONY past its gates: a lane context is bound and the ceremony begins (R478, R479). -/
def runCeremony (s : State) (d : Adm) : State :=
  if s.cust.op ≠ .idle || !slotFree s then admFail s d stPolicy 0x60
  else if isManager d || !createdToStopped.contains (s.plot d.pid).st then admFail s d stPolicy 0x61
  else if s.cust.ped.isEmpty then admFail s d stPolicy 0x66
  else if !cerOk d then admFail s d stPolicy 0x67
  else if !auditRoom s then admFail s d stAudit 0x20
  else
    let s1 := beginOp s d .ceremony (cerK d)
    admOk (bindCeremony { s1 with cust := { s1.cust with cer := d, ctx := none } }) d

/-- KEY_CEREMONY; a standby refuses it (R554). -/
def execKeyCeremony (s : State) : Res :=
  .next (admin 0x175 false false notDecom (fun _ d => scopeNamed d && d.inlen == 24 && zeros d.inl 21 3) scopeThere scopeSO
    (notStandby runCeremony) s)

/-- CUST_CANCEL past its gates: the interaction of the scope ends with result 7 (R480). -/
def runCancel (s : State) (d : Adm) : State :=
  if s.cust.op = .idle || s.cust.scope ≠ d.pid then admFail s d stPolicy 0x61 else admOk (endInteraction s 7) d

/-- CUST_CANCEL. -/
def execCustCancel (s : State) : Res := custCmd 0x176 (fun _ d => d.inlen == 4) always runCancel s

/-- PED_ENROL past its gates: the console's PED is enrolled and its session starts anew (R472, R474). -/
def runPedEnrol (r : HostRead) (s : State) (d : Adm) : State :=
  if !isManager d then admFail s d stPolicy 0x61
  else admRead s d 65 r fun s key =>
    if byteAt key 0 ≠ 4 then admFail s d stPolicy 0x02
    else if !auditRoom s then admFail s d stAudit 0x20
    else
      let s1 := { reserve s with cust := { s.cust with ped := key, conSeq := 0, conBad := 0 } }
      admOk (writeReserved s1 0x2007 modScope (keyHash key)) d

/-- PED_ENROL. -/
def execPedEnrol (r : HostRead) (s : State) : Res :=
  custCmd 0x177 (fun _ d => d.inlen == 4 && d.extLen == 65)
    (fun s d => scopeSO s d || (s.cust.ped.isEmpty && (!isManager d || firstCards s d))) (runPedEnrol r) s

end Sys2Proof.Machine
end

