-- ==== Sys2Proof/Machine/Debug.lean ====
section
/-! DEFINITION. The hedgerow table's holds and region writes, debug accesses, and debug authorisation (12, R449 to R469). -/

namespace Sys2Proof.Machine

/-! ### Holds (R458 to R460) -/

/-- HOLD_SET: the steward writes 1 to HDG_CTL.HOLD; new checked accesses wait (R458). -/
def execHoldSet (s : State) : Res :=
  .next (if s.hdg.hold then s else { s with hdg := { s.hdg with hold := true, since := s.now } })

/-- HELD: the accesses admitted before the hold have finished (R458). -/
def execHeld (s : State) : Res := .next (if s.hdg.hold then { s with hdg := { s.hdg with held := true } } else s)

/-- HOLD_LONG: a hold has lasted 20 µs; it goes on (R460). -/
def execHoldLong (s : State) : Res :=
  .next (if s.hdg.hold then
      let s1 := advanceTo s (s.hdg.since + 20)
      hdgCount { s1 with hdg := { s1.hdg with long := true } } 2
    else s)

/-- An access of a debug master under class 7: refused, a read returns zeros and a write is dropped; permitted, it reads or
writes the fabric memory (R455, R457). -/
def debugAccess (s : State) (addr : W32) (a : DbgAccess) : State :=
  let at' := addr.toNat
  match a with
  | .read n =>
    match hedgeCheck s 7 0 at' n with
    | (s1, true) => emit s1 (.debug (mread s1.stw.mem at' n))
    | (s1, false) => emit s1 (.debug (List.replicate n 0))
  | .exec n =>
    match hedgeCheck s 7 2 at' n with
    | (s1, true) => emit s1 (.debug (mread s1.stw.mem at' n))
    | (s1, false) => emit s1 (.debug (List.replicate n 0))
  | .write b =>
    match hedgeCheck s 7 1 at' b.length with
    | (s1, true) => { s1 with stw := { s1.stw with mem := mwrite s1.stw.mem at' b } }
    | (s1, false) => s1

/-- HOLD_RELEASE: HOLD is cleared; held accesses are checked against the edited table in arrival order (R458). -/
def execHoldRelease (s : State) : Res :=
  .next (
    let w := s.hdg.waiting
    w.foldl (fun s x => debugAccess s x.1 x.2) { s with hdg := { s.hdg with hold := false, held := false, waiting := [] } })

/-! ### Region writes -/

/-- A region write is refused: CFG_ERR with its counter (R452, R457). -/
def hdgCfgErr (s : State) : State := hdgCount { s with hdg := { s.hdg with cfgErr := true } } 3

/-- HDG_CFG: LOCK is set only; EN stays 0 where SIZE lies outside 15 to 32 (R452, R457). -/
def writeCfg (s : State) (r : Nat) (v : W32) : State :=
  let w := v &&& 0x80FF013F#32
  let bad := hdgEn w && (decide (hdgSize w < 15) || decide (32 < hdgSize w))
  let w1 := if bad then w &&& ~~~(0x100#32) else w
  let s1 := { s with hdg := { s.hdg with cfg := tset 0 r w1 s.hdg.cfg } }
  if bad then hdgCfgErr s1 else s1

/-- HDG_REGION_WRITE: the steward writes a register of a region; a locked region ignores it (R450, R451, R457). Only the
permissions of classes 0 to 8 exist, all in the low half. -/
def execHdgRegionWrite (r : Fin 256) (g : HdgReg) (value : W32) (s : State) : Res :=
  .next (
    let i := r.val
    if hdgLock (tget 0 s.hdg.cfg i) then hdgCfgErr s
    else match g with
      | .base => { s with hdg := { s.hdg with base := tset 0 i (value &&& 0xFFFFF000#32) s.hdg.base } }
      | .cfg => writeCfg s i value
      | .permLo => { s with hdg := { s.hdg with perm := tset 0 i ((value &&& 0x07FFFFFF#32).setWidth 64) s.hdg.perm } }
      | .permHi => s)

/-! ### The TAP -/

/-- The TAP works: VIO and main power are there (R593, R597). -/
def tapUp (s : State) : Bool := s.pwr.vio && s.pwr.good

/-- The TAP answers more than BYPASS and IDCODE: not in LOST or SCRAPPED (R462). -/
def tapFull (s : State) : Bool := tapUp s && decide (s.lcs.state.toNat ≤ 4) && s.lcs.phase != .inert

/-- The rights a debugger has: all of them in TEST without authorisation, else those granted (Table 12.2). -/
def rights (s : State) : BitVec 4 := if s.lcs.state = 0 then 0xF else s.dbg.rights

/-- DEBUG_MEM_ACCESS: with the MEM right; during a hold it waits (R457, R458). -/
def execDebugMemAccess (addr : W32) (a : DbgAccess) (s : State) : Res :=
  .next (if !tapFull s || !(rights s).getLsbD 2 then s
    else if s.hdg.hold then { s with hdg := { s.hdg with waiting := s.hdg.waiting ++ [(addr, a)] } }
    else debugAccess s addr a)

/-- A core is halted or goes on, under STW or TIL (12). -/
def setHalted (s : State) (c : CoreId) (h : Bool) : State :=
  match c with
  | .steward => if (rights s).getLsbD 0 then { s with stw := { s.stw with halted := h } } else s
  | .tiller y => if (rights s).getLsbD 1 then s.modYoke y fun k => { k with halted := h } else s

/-- DEBUG_HALT: a debugger halts the steward or a yoke (R469). -/
def execDebugHalt (c : CoreId) (s : State) : Res := .next (if tapFull s then setHalted s c true else s)

/-- DEBUG_RESUME: the halted core goes on. -/
def execDebugResume (c : CoreId) (s : State) : Res := .next (if tapFull s then setHalted s c false else s)

/-- BYPASS: the one-bit bypass register, in every state. -/
def execBypass (s : State) : Res := .next (if tapUp s then emit s (.jtag [0]) else s)

/-- IDCODE, in every state (R462). -/
def execIdcode (s : State) : Res := .next (if tapUp s then emit s (.jtag (le 4 Config.idcode.toNat)) else s)

/-- SAMPLE: not in LOST or SCRAPPED (Table 12.2). -/
def execSample (s : State) : Res :=
  .next (if tapFull s then emit (drawn s 1) (.jtag (Config.boundary s.free)) else s)

/-- EXTEST: in TEST and VENDOR only (Table 12.2). -/
def execExtest (s : State) : Res :=
  .next (if tapFull s && decide (s.lcs.state.toNat ≤ 1) then emit (drawn s 1) (.jtag (Config.boundary s.free)) else s)

/-! ### Challenge and token -/

/-- The 64-byte challenge record (R463). -/
def challengeRec (s : State) (nonce : Bytes) (r : BitVec 4) : Bytes :=
  nonce ++ le 8 Config.serial.toNat ++ le 1 s.lcs.state.toNat ++ [0xB1] ++ le 1 r.toNat ++ [0] ++ le 4 s.kpr.opmin.toNat ++
    List.replicate 16 0

/-- DBG_CHALLENGE: a challenge record with a nonce from P1; the old challenge and its consent are void (R463, R466). Without
output of P1 there is no answer (log 44). -/
def execDbgChallenge (r : BitVec 4) (s : State) : Res :=
  .next (if !tapFull s || !privReady s 1 then s
    else
      let c := challengeRec s (freeBytes s.free 32) r
      let s1 := drawn (privGen s 1) 32
      emit { s1 with dbg := { s1.dbg with challenge := some (c, r), consent := none } } (.jtag c))

/-- CHALLENGE_EXPIRY: 10 minutes of the keeper clock; a consent lasts no longer (R463, R466). -/
def execChallengeExpiry (s : State) : Res := .next { s with dbg := { s.dbg with challenge := none, consent := none } }

/-- The rights a state can grant (Table 12.2). -/
def stateRights (st : BitVec 4) : BitVec 4 :=
  match st.toNat with
  | 0 => 0xF
  | 1 => 0x7
  | 3 => 0x7
  | 4 => 0xF
  | _ => 0

/-- The record of a token: rights and ZEROISED (Table 14.3). -/
def dbgPayload (s : State) (r : Nat) : Bytes := le 1 r ++ le 1 (flag s.dbg.zeroised 0)

/-- A token is accepted (R464, R465). -/
def tokenOk (s : State) (t : Bytes) : Bool :=
  match s.dbg.challenge with
  | none => false
  | some (c, asked) =>
    let h := Config.hash 1 c
    let r := byteAt t 36
    cut t 0 4 == [0x44, 0x42, 0x47, 0x54] && cut t 4 32 == fit 32 h && decide (r < 16) && zeros t 37 3 &&
      cut t 40 8 == le 8 Config.serial.toNat && zeros t 48 16 &&
      (BitVec.ofNat 4 r &&& ~~~(asked &&& stateRights s.lcs.state)) == 0 &&
      Config.sigVerify 1 (Config.fwKey 3) (cut t 0 64) (cut t 64 96) &&
      (s.lcs.state != 3 || s.dbg.consent == some (fit 32 h, BitVec.ofNat 4 r))

/-- The pools of a plot whose keys and fingerprints are gone. -/
def emptyPools (pl : Plot) : Plot := { pl with kitUse := 0, kcUse := 0, rplUse := 0, vltUse := 0, drill := { queued := true } }

/-- Every plot runs its reset to the end and loses ARMED (R467 step 1). -/
def resetAll (s : State) : State :=
  (s.plots.map (·.1)).foldl (fun s p =>
    let s1 := if (s.plot p).st = .absent ∨ (s.plot p).st = .removing then s
      else resetComplete (if (s.plot p).st = .resetting then s else startReset s p .resetting) p
    saveRecord (s1.modPlot p fun pl => { pl with armed := false }) p) s

/-- The plots that are not ABSENT. -/
def livePlots (s : State) : List Nat := (s.plots.filter fun x => x.2.st != .absent).map (·.1)

/-- Plot key material is zeroised before rights are granted in OPERATIONAL (R467 step 2); the plots' drills instantiate afresh. -/
def zeroPlotKeys (s : State) : State :=
  let s1 := resetAll s
  let s2 := { s1 with
    kp := { s1.kp with kit := [], ovf := [], slots := [], pairs := [], walkq := [], oldSeed := 0, run := false, sweep := 0 },
    rpl := { s1.rpl with tbl := [], ovf := [] },
    vlt := { s1.vlt with recs := [] },
    lan := { s1.lan with ctx := [] }, pke := { s1.pke with slots := [], mac := [], waitq := [], splitq := [] },
    yokes := tmap Yoke.zero (fun _ y => { y with bench := [] }) s1.yokes, owed := [],
    plots := tmap Plot.zero (fun _ x => if x.st = PlotSt.absent then x else emptyPools x) s1.plots }
  (livePlots s2).foldl (fun s p => wantSeed s (.plot p)) s2

/-- New seeds, whose requests P0 has served: those of the KIT and the replay table, whose contents are gone, and of every plot; with
the old plot seeds their registries go (R424, R467 step 3). -/
def newSeeds (s : State) : State :=
  let live := livePlots s
  let n := newSecret s (64 + 6 * live.length)
  let seeds : Tbl Nat := (List.range live.length).foldl (fun t i => tset 0 (live.getD i 0) (n.2 + 64 + 6 * i) t) []
  { n.1.setCab (fun c => { c with plotSeed := seeds }) with
    kp := { n.1.kp with seed := n.2 }, rpl := { n.1.rpl with seed := n.2 + 32 },
    cust := { n.1.cust with regs := n.1.cust.regs.filter fun x => x.1 == modScope } }

/-- The rights are granted until the next module start, with their record (R465, R467 step 4, R469). -/
def grantNow (s : State) (r : BitVec 4) : State :=
  event { s with dbg := { s.dbg with rights := s.dbg.rights ||| r, granted := true } } 0x3012 modScope (dbgPayload s r.toNat)

/-- The key generations that the new seeds take, 64 bytes each (R401, R404). -/
def grantKeys (s : State) : Nat := (64 + 6 * (livePlots s).length + 63) / 64

/-- A grant in OPERATIONAL goes on as far as P0 serves the new seeds (R404, R467 steps 3 and 4, log 131). -/
def grantOn (s : State) : State :=
  match s.dbg.grant with
  | none => s
  | some r =>
    let g := keyGens s 0 (grantKeys s - s.dbg.got)
    if g.2 ≠ 0 then { g.1 with dbg := { g.1.dbg with got := grantKeys s - g.2 } }
    else
      let s1 := newSeeds { g.1 with dbg := { g.1.dbg with grant := none, got := 0, zeroised := true } }
      settleWaits (grantNow s1 r)

/-- What a state asks for before a grant, and the grant (Table 12.2, R467, R468). -/
def grantRights (s : State) (r : BitVec 4) : State :=
  if s.lcs.state = 3 then
    let s1 := zeroPlotKeys s
    grantOn { s1 with dbg := { s1.dbg with grant := some (r ||| s1.dbg.grant.getD 0), got := 0 } }
  else if s.lcs.state = 4 then
    let s1 := zeroKeyPlane (zeroCabinet s)
    grantNow { s1 with dbg := { s1.dbg with zeroised := true } } r
  else grantNow s r

/-- A token of 160 bytes: it consumes the challenge; accepted, its rights are granted until the next module start; refused, it
is counted and recorded (R464, R465, R469). -/
def takeToken (s : State) (t : Bytes) : State :=
  let r := byteAt t 36
  let s1 := { s with dbg := { s.dbg with challenge := none, consent := none } }
  if tokenOk s t then grantRights s1 (BitVec.ofNat 4 r)
  else
    event { s1 with dbg := { s1.dbg with failCnt := bump s1.dbg.failCnt } } 0x3011 modScope (dbgPayload s1 r)

/-- DBG_TOKEN. -/
def execDbgToken (token : Bytes) (s : State) : Res :=
  if token.length ≠ 160 then .fault .malformed
  else .next (if tapFull s then takeToken s token else s)

/-- DBG_CONSENT past its gates: the customer's consent to a token with these rights for this challenge (R466, R481). -/
def runConsent (s : State) (d : Adm) : State :=
  if d.pid ≠ modScope then admFail s d stPolicy 0x61
  else if !auditRoom s then admFail s d stAudit 0x20
  else
    let h := cut d.inl 4 32
    let s1 := { reserve s with dbg := { s.dbg with consent := some (h, BitVec.ofNat 4 (byteAt d.inl 36)) } }
    admOk (writeReserved s1 0x2008 modScope h) d

/-- DBG_CONSENT: in OPERATIONAL only (Table 12.5). -/
def execDbgConsent (s : State) : Res :=
  .next (admin 0x178 false false (fun s _ => s.lcs.state == 3)
    (fun _ d => d.inlen == 40 && scopeNamed d && decide (byteAt d.inl 36 < 16) && zeros d.inl 37 3) always managerSO runConsent s)

end Sys2Proof.Machine
end

