-- ==== Sys2Proof/Machine/Engines.lean ====
section
/-! DEFINITION. The engine jobs (09): what each type does on its engine (R364 to R377), the end of a validation window
(R373), squash and detach (R390, R391). -/

namespace Sys2Proof.Machine

/-- An engine job under way: its yoke and number, its transaction and descriptor, its type, parameter set and engine, the
body of its key and the record of its loaded curve. -/
structure EJ where
  y     : Nat
  j     : Nat
  t     : Tx
  d     : Bytes
  ty    : Nat
  ps    : Nat
  e     : Nat
  slot  : Option Nat
  body  : Bytes
  curve : Bytes
  deriving DecidableEq, Repr

/-- The parameters of a job for its computation: PARAM and the curve. -/
def EJ.par (q : EJ) : Bytes := jParam q.d ++ q.curve

/-- No other job is in its validation window on the engine of slot i (R367: one job runs at a time). -/
def slotTurn (s : State) (x : Nat × Nat) (i : Nat) : Bool :=
  match (s.eslot (if i % 2 = 0 then i + 1 else i - 1)).job with
  | none => true
  | some z => z == x || match jobOf s z with
    | some (_, k) => k.st != .windowed
    | none => true

/-- Job j of yoke y, where it is an engine job of the type in the given stage; a SPLIT job needs both halves placed (R370), and
the engines the PKE PLL (R25). -/
def engReady (s : State) (y j ty : Nat) (st : JobSt) : Option EJ :=
  match jobOf s (y, j) with
  | none => none
  | some (t, x) =>
    if pllUp s 3 && x.engine && x.st == st && jType x.desc == ty && (jFlags x.desc == 0 || x.unit2.isSome) && slotTurn s (y, j) x.unit then
      let ps := engPset s t x.desc
      let slot := (engHandle t x.desc).map (·.slot)
      some { y := y, j := j, t := t, d := x.desc, ty := ty, ps := ps, e := x.unit / 2, slot := if engKeyed ty then slot else none,
             body := match slot with
               | some i => (s.slot i).body
               | none => [],
             curve := if loadedSet ps then curveOf s t.plot ps else [] }
    else none

/-- IN and IN2 as the engine reads them. -/
def EJ.inp (q : EJ) (s : State) : Bytes := benchRange s q.y q.j (jIn q.d)
def EJ.inp2 (q : EJ) (s : State) : Bytes := benchRange s q.y q.j (jIn2 q.d)

/-- The shelves of a slot that hold private or secret values (Table 9.11). -/
def secretShelf (ty ps i : Nat) : Bool :=
  let within (a b : Nat) : Bool := decide (a ≤ i) && decide (i ≤ b)
  if rsaSet ps then (ty == 0x01 || ty == 0x03) && (within 2 6 || within 9 31)
  else if ecSet ps then within 6 7 || (ty == 0x12 && within 13 14) || within 15 63
  else match psetAlg ps with
    | 0x34 => within 0 3 || within 13 63
    | 0x35 => within 0 31 || within 48 63
    | _ => within 4 5 || within 10 63

/-- The operand that an operation has at a position of its slot's shelves: what the spec names at it from the key's body, the curve and the
job's input; the rest, encodings, results and work, as the computation leaves it (R382, Table 9.11, log 128). -/
def engOperand (q : EJ) (inp inp2 : Bytes) (i : Nat) : Nat :=
  let rest := leNat (Config.engShelf q.ty q.ps q.body (inp ++ inp2) (q.par) i)
  let half := inp2.length / 2
  if rsaSet q.ps then
    (match i with
      | 0 => (Config.rsaPublic q.body).1
      | 1 => (Config.rsaPublic q.body).2
      | 2 => if q.ty = 0x02 then beNat inp2 else rest
      | 7 => if q.ty = 0x02 then rest else beNat inp
      | _ => rest)
  else if ecSet q.ps then
    let curve := if loadedSet q.ps then q.curve else Config.namedCurve q.ps
    if i < 6 then beNat (cut curve (8 + 80 * i) 80)
    else (match i with
      | 8 => if q.ty = 0x10 ∨ q.ty = 0x11 then beNat inp else rest
      | 9 => if q.ty = 0x11 then beNat (inp2.take half) else rest
      | 10 => if q.ty = 0x11 then beNat (inp2.drop half) else rest
      | 11 => if q.ty = 0x12 then beNat (cut inp 1 ((inp.length - 1) / 2)) else rest
      | 12 => if q.ty = 0x12 then beNat (inp.drop (1 + (inp.length - 1) / 2)) else rest
      | _ => rest)
  else (match i with
    | 7 => if q.ty = 0x15 then leNat (inp2.take half) else rest
    | 8 => if q.ty = 0x15 then leNat (inp2.drop half) else rest
    | 9 => if q.ty = 0x16 then leNat inp else rest
    | _ => rest)

/-- The positions an operation uses (Table 9.11). -/
def engPositions (ty ps : Nat) : Nat := if rsaSet ps then (if ty = 0x02 then 16 else 32) else 64

/-- A job's operands are placed in the shelves of its slot, or of both slots of a SPLIT job (R370, R382). -/
def placeOps (s : State) (q : EJ) (inp inp2 : Bytes) : State :=
  let l := shelfLen s q.e
  let sh := (List.range (engPositions q.ty q.ps)).foldl (fun t i => tset 0 i (engOperand q inp inp2 i % 2 ^ l) t) []
  let put (s : State) (i : Nat) : State := s.modEslot i fun x => { x with shelves := sh }
  match jobOf s (q.y, q.j) with
  | none => s
  | some (_, x) => match x.unit2 with
    | some u => put (put s x.unit) u
    | none => put s x.unit

/-- The key of a job is used: USES counts (R318). -/
def EJ.use (q : EJ) (s : State) : State :=
  match q.slot with
  | some i => useSlot s i
  | none => s

/-! ### Outcomes -/

/-- A learning of an engine job begins; its output is kept until it ends (R365, R306). -/
def engLearn (s : State) (q : EJ) (l : Learn) (out : Bytes) : State :=
  match learnFor s l (.engineJob q.y q.j) with
  | (s1, some st) => engEnd s1 q.y q.j st out
  | (s1, none) => modJob s1 q.y q.j fun x => { x with st := .learning, out := out, noRand := (plotGen s l.plot).isNone }

/-- The learning of an engine job that waited for the walk token has ended. -/
def engLearned (s : State) (y j : Nat) (st : BitVec 16) : State :=
  match jobOf s (y, j) with
  | some (_, x) => engEnd s y j st x.out
  | none => s

/-- The requested symmetric key of Table 9.3's learn layout, with its bytes (R365). -/
def symLearn (q : EJ) (key : Bytes) : Learn :=
  let p := jParam q.d
  { plot := q.t.plot, name := BitVec.ofNat 64 (fld p 0 8), age := BitVec.ofNat 3 (byteAt p 8),
    slot := symSlot (byteAt p 9) key (fld p 12 4) 0 }

/-- LEN of the requested key (R365). -/
def learnLen (q : EJ) : Nat := algLen (byteAt (jParam q.d) 9) (byteAt (jParam q.d) 10)

/-- HKDF-SHA-256 of a shared secret (R365). -/
def kdf (q : EJ) (z : Bytes) : Bytes := fit (learnLen q) (Config.hkdf256 z [] (cut (jParam q.d) 16 16) (learnLen q))

/-- An end-of-operation invariant of the listed kinds fails (R375). -/
def invFails (ev : EngEv) (kinds : List Nat) : Option Nat :=
  match ev with
  | .invFail k => if kinds.contains k.val then some k.val else none
  | _ => none

/-- The invariants hold and the job goes on, or one fails (R375). -/
def invGate (s : State) (q : EJ) (ev : EngEv) (kinds : List Nat) (k : State → State) : State :=
  match invFails ev kinds with
  | some i => invariantFault s q.y q.j q.e i q.t.plot q.ty
  | none => k s

/-- A draw for the job; while the drill is empty the job waits for it (R333, R366). -/
def withDraw (s : State) (q : EJ) (k : State → Bytes → State) : State :=
  match txRandom s q.y q.j 64 with
  | none => modJob s q.y q.j fun x => { x with noRand := true }
  | some (s1, b) => k s1 b

/-- A job whose result is a string of a fixed length. -/
def engResult (s : State) (q : EJ) (n : Nat) (rnd : Bytes) : Bytes := fit n (Config.pkeResult q.ty q.ps q.body (q.inp s) q.par rnd)

/-- A shared secret is turned into a key, unless all of it is zero (R365, reason 20). -/
def agreeKey (s : State) (q : EJ) (ev : EngEv) (kinds : List Nat) (z : Bytes) : State :=
  if z.all (· == 0) then invariantFault s q.y q.j q.e 4 q.t.plot q.ty
  else invGate s q ev kinds fun s => let k := kdf q z; engLearn s q (symLearn q k) (kcvSym (byteAt (jParam q.d) 9) k)

/-- The verify outcome (R374, reason 8). -/
def verifyEnd (s : State) (q : EJ) : State :=
  if Config.pkeVerify q.ps q.body (q.inp s) (q.inp2 s) q.par then engEnd s q.y q.j stOK []
  else reject s q.y q.j q.e 8

/-! ### Jobs with a validation window -/

/-- A job starts on its engine, its input read from the bench: an uncorrectable bit error there is a fault of its yoke, a corrected one is
counted (R146); its operands are placed (R382). -/
def engStart (s : State) (q : EJ) (ev : EngEv) (run : State → State) : State :=
  if ev = .benchUnc ∧ readsBench q.d then yokeFault s q.y 2
  else run (placeOps (benchNote s q.y (ev == .eccCorr && readsBench q.d)) q (q.inp s) (q.inp2 s))

/-- A job with a window starts: its key is used and its window runs (R373). -/
def openWindow (ty : Nat) (y : YokeId) (j : JobIx) (ev : EngEv) (s : State) : Res :=
  .next (match engReady s y.val j.val ty .running with
    | none => s
    | some q => engStart s q ev fun s => modJob (q.use s) y.val j.val fun x => { x with st := .windowed, ev := ev })

/-- RSA decryption past its window: OAEP, the length, the recheck, the learning (R365, R374, R375). -/
def rsaOpen (s : State) (q : EJ) (ev : EngEv) : State :=
  match Config.oaepDecode q.body (q.inp s) with
  | none => reject s q.y q.j q.e 7
  | some m =>
    if m.length ≠ learnLen q then reject s q.y q.j q.e 7
    else invGate s q ev [0] fun s => engLearn s q (symLearn q m) (kcvSym (byteAt (jParam q.d) 9) m)

/-- The input checks of a window (Table 9.5, reasons 0 to 6), then the computation (R373, R374). -/
def closeWindow (s : State) (q : EJ) (ev : EngEv) : State :=
  match inputReason q.ty q.ps q.body q.curve (q.inp s) (q.inp2 s) with
  | some r => reject s q.y q.j q.e r
  | none =>
    match q.ty with
    | 0x03 => rsaOpen s q ev
    | 0x12 => agreeKey s q ev [1, 4] (engResult s q (fieldBytes s q.t.plot q.ps) [])
    | 0x16 => agreeKey s q ev [4] (engResult s q (uBytes q.ps) [])
    | _ => verifyEnd s q

/-- The job of a windowed stage, whatever its type. -/
def windowed (s : State) (y j : Nat) : Option (EJ × EngEv) :=
  match jobOf s (y, j) with
  | none => none
  | some (_, x) => (engReady s y j (jType x.desc) .windowed).map fun q => (q, x.ev)

/-- VALIDATION_WINDOW_END: the checks of the window decide (R373). -/
def execValidationWindowEnd (y : YokeId) (j : JobIx) (s : State) : Res :=
  .next (match windowed s y.val j.val with
    | none => s
    | some (q, ev) => closeWindow s q ev)

/-- RSA_VERIFY. -/
def execRsaVerify (y : YokeId) (j : JobIx) (ev : EngEv) (s : State) : Res := openWindow 0x02 y j ev s
/-- RSA_DECRYPT. -/
def execRsaDecrypt (y : YokeId) (j : JobIx) (ev : EngEv) (s : State) : Res := openWindow 0x03 y j ev s
/-- ECDSA_VERIFY. -/
def execEcdsaVerify (y : YokeId) (j : JobIx) (ev : EngEv) (s : State) : Res := openWindow 0x11 y j ev s
/-- ECDH. -/
def execEcdh (y : YokeId) (j : JobIx) (ev : EngEv) (s : State) : Res := openWindow 0x12 y j ev s
/-- EDDSA_VERIFY. -/
def execEddsaVerify (y : YokeId) (j : JobIx) (ev : EngEv) (s : State) : Res := openWindow 0x15 y j ev s
/-- X25519_X448. -/
def execX25519X448 (y : YokeId) (j : JobIx) (ev : EngEv) (s : State) : Res := openWindow 0x16 y j ev s
/-- MLDSA_VERIFY. -/
def execMldsaVerify (y : YokeId) (j : JobIx) (ev : EngEv) (s : State) : Res := openWindow 0x23 y j ev s

/-! ### Jobs without a window -/

/-- A job without a window runs to its end. -/
def engRow (ty : Nat) (y : YokeId) (j : JobIx) (ev : EngEv) (s : State) (run : State → EJ → State) : Res :=
  .next (match engReady s y.val j.val ty .running with
    | none => s
    | some q => engStart s q ev fun s => run s q)

/-- A signature of `n` bytes is released once its check holds (R375, reason 18, and the listed others). -/
def signEnd (s : State) (q : EJ) (ev : EngEv) (kinds : List Nat) (n : Nat) (rnd : Bytes) : State :=
  invGate (q.use s) q ev kinds fun s => engEnd s q.y q.j stOK (engResult s q n rnd)

/-- RSA_SIGN, whole or in two halves (R370, R375). -/
def execRsaSign (y : YokeId) (j : JobIx) (ev : EngEv) (s : State) : Res :=
  engRow 0x01 y j ev s fun s q => signEnd s q ev [0, 2] (modBytes q.ps) []

/-- ECDSA_SIGN: its nonce is drawn from the plot's drill (R366). -/
def execEcdsaSign (y : YokeId) (j : JobIx) (ev : EngEv) (s : State) : Res :=
  engRow 0x10 y j ev s fun s q => withDraw s q fun s rnd => signEnd s q ev [1, 2] (2 * orderBytes s q.t.plot q.ps) rnd

/-- EDDSA_SIGN, deterministic (R366). -/
def execEddsaSign (y : YokeId) (j : JobIx) (ev : EngEv) (s : State) : Res :=
  engRow 0x14 y j ev s fun s q => signEnd s q ev [2] (sigBytes q.ps) []

/-- MLDSA_SIGN: its randomness is drawn from the plot's drill (R366). -/
def execMldsaSign (y : YokeId) (j : JobIx) (ev : EngEv) (s : State) : Res :=
  engRow 0x22 y j ev s fun s q => withDraw s q fun s rnd => signEnd s q ev [2] (sigBytes q.ps) rnd

/-- A generated private key with its public key (R364): the learning needs vault quota. -/
def keyPair (s : State) (q : EJ) (rnd : Bytes) : State :=
  let p := jParam q.d
  let priv := Config.pkeGenerate q.ps q.curve rnd
  let out := fit (pubBytes s q.t.plot q.ps) (Config.pkePublic q.ps q.curve priv)
  let l : Learn := { plot := q.t.plot, name := BitVec.ofNat 64 (fld p 0 8), age := BitVec.ofNat 3 (byteAt p 8),
                     pinned := bit (byteAt p 9) 0, slot := asymSlot q.ps priv (fld p 12 4) 0 }
  if (s.plot q.t.plot).acr.vltQuota = 0 then engEnd s q.y q.j stQuota [] else engLearn s q l out

/-- EC_KEY_PAIR_GENERATION: a draw, the consistency check, the learning, the public key (R364). -/
def execEcKeyPairGeneration (y : YokeId) (j : JobIx) (ev : EngEv) (s : State) : Res :=
  engRow 0x13 y j ev s fun s q => withDraw s q fun s rnd => invGate s q ev [1, 3] fun s => keyPair s q rnd

/-- MLKEM_ENCAPSULATE: K and the ciphertext from a draw; OUT is the ciphertext (R365, R366). -/
def execMlkemEncapsulate (y : YokeId) (j : JobIx) (ev : EngEv) (s : State) : Res :=
  engRow 0x20 y j ev s fun s q => withDraw s q fun s rnd =>
    invGate (q.use s) q ev [] fun s =>
      let r := engResult s q (ctBytes q.ps + 32) rnd
      engLearn s q (symLearn q (kdf q (r.drop (ctBytes q.ps)))) (r.take (ctBytes q.ps))

/-- MLKEM_DECAPSULATE: K, or the implicit-rejection key of FIPS 203, is learned either way (R372). -/
def execMlkemDecapsulate (y : YokeId) (j : JobIx) (ev : EngEv) (s : State) : Res :=
  engRow 0x21 y j ev s fun s q =>
    invGate (q.use s) q ev [] fun s =>
      let k := kdf q (engResult s q 32 [])
      engLearn s q (symLearn q k) (kcvSym (byteAt (jParam q.d) 9) k)

/-! ### Attach, squash, detach -/

/-- ATTACH: the granted engine is attached and the job ends OK at once (R384). -/
def execAttach (y : YokeId) (j : JobIx) (s : State) : Res :=
  .next (match jobOf s (y.val, j.val) with
    | none => s
    | some (_, x) =>
      if x.engine && x.st == .running && jType x.desc == 0x40 then
        modJob s y.val j.val fun x => { x with st := .ended, status := stOK }
      else s)

/-- ENGINE_SQUASH_COMPLETE: the shelves of a squashed slot are zeroed and read back, the slot is free, and the squash is reported: an entry
that waited for it is written (R83, R391). -/
def execEngineSquashComplete (e : EngId) (slot : Fin 2) (s : State) : Res :=
  .next (let i := 2 * e.val + slot.val
    if (s.eslot i).squash then pumpEng (slotFreed (s.modEslot i fun _ => {}) i) else s)

/-- ENGINE_DETACH_COMPLETE: the shelves are zero, PKE_PCSTAT is clear and the engine is free (R390). -/
def execEngineDetachComplete (e : EngId) (s : State) : Res :=
  .next (if (s.mac e.val).detach then pumpEng (s.modMac e.val fun _ => {}) else s)

end Sys2Proof.Machine
end

