-- ==== Sys2Proof/Machine/KeyPlane.lean ====
section
/-! DEFINITION. The key plane's own work: rehash (R282 to R285), the sweeper (R288, R299), the vault's save and load (R308 to
R310). -/

namespace Sys2Proof.Machine

/-! ### Rehash -/

/-- A rehash that was asked for begins once P0 serves the draw of the new seed pair (R282, R404). -/
def beginRehash (s : State) : State :=
  if s.kp.rehash && privReady s 0 then
    let r := newSecret (privGen s 0) 32
    { r.1 with kp := { r.1.kp with rehash := false, oldSeed := s.kp.seed, seed := r.2, run := true, sweep := 0 } }
  else s

/-- The steward writes 1 to KIT_CTL.REHASH while no rehash runs (R282). -/
def startRehash (s : State) : State :=
  if s.kp.run then s else beginRehash { s with kp := { s.kp with rehash := true } }

/-- KIT_REHASH. -/
def execKitRehash (s : State) : Res := .next (startRehash s)

/-- An entry that moves needs the walk token: no way of its candidates is free or dead (R277). -/
def moveWalks (s : State) (e : KitEntry) : Bool := (freeWay s (cands s.kp e.plot e.name)).isNone

/-- A place for an entry that moves: a free or dead way of its candidates, a walk, the overflow store, an eviction (R277,
R284). -/
def moveEntry (s : State) (e : KitEntry) : State :=
  let bs := cands s.kp e.plot e.name
  let at' (s : State) (i : Nat) : State := let s1 := dropEntry s i; { s1 with kp := kitPut s1.kp i e }
  match freeWay s bs with
  | some i => at' s i
  | none =>
    match bs.head?.bind fun b => walkFrom s.kp 16 1 b [] with
    | some (path, d) => at' { s with kp := movePath s.kp d path.reverse } (path.headD 0)
    | none =>
      match freeOvf s.kp with
      | some i => at' s i
      | none =>
        match evictee s bs with
        | some i => at' s i
        | none =>
          let s1 := (rehashReq s e.derived).modPlot e.plot fun pl => { pl with kitUse := pl.kitUse - 1 }
          freeSlotIfDone (s1.modSlot e.slot fun x => { x with entry := false }) e.slot

/-- The last step of a rehash: overflow entries whose new candidates have room move there (R285). -/
def drainOverflow (s : State) : State :=
  (ovfPlaces s.kp).foldl (fun s i =>
    let e := kitAt s.kp i
    match freeWay s (cands s.kp e.plot e.name) with
    | some j => let s1 := dropEntry s j; { s1 with kp := kitPut (kitPut s1.kp j e) i KitEntry.zero }
    | none => s) s

/-- One bucket is swept (R284); past the last the rehash ends (R285). Where an entry of the bucket needs the walk token, the sweep takes
its turn behind the insertions that already wait for it (R279). -/
def sweepBucket (s : State) : State :=
  if !s.kp.run then beginRehash s
  else
    let ways := waysOf s.kp.sweep
    let es := (ways.map (kitAt s.kp)).filter (·.valid)
    let cleared := ways.foldl (fun k i => kitPut k i KitEntry.zero) s.kp
    let s0 := { s with kp := { cleared with sweep := s.kp.sweep + 1 } }
    if (s.kp.walkq.any fun x => !x.1.parked) && es.any (moveWalks s0) then s else
    let s1 := es.foldl moveEntry s0
    if kitBuckets ≤ s1.kp.sweep then
      let s2 := drainOverflow s1
      { s2 with kp := { s2.kp with run := false, sweep := 0, oldSeed := 0, rehashCnt := bump s2.kp.rehashCnt } }
    else s1

/-- REHASH_SWEEP. -/
def execRehashSweep (s : State) : Res := .next (sweepBucket s)

/-! ### The sweeper -/

/-- The dead KIT entries among some places go (R288). -/
def sweepKit (s : State) (l : List Nat) : State :=
  l.foldl (fun s i => let e := kitAt s.kp i; if e.valid && !entryLive s e then dropEntry s i else s) s

/-- The dead fingerprints among some places go (R299). -/
def sweepRpl (s : State) (l : List Nat) : State :=
  l.foldl (fun s i => let e := rplAt s.rpl i; if e.valid && !rplLive s e then rplDrop s i else s) s

/-- SWEEPER_VISIT: a bucket or an overflow store is visited. -/
def execSweeperVisit (t : SweepTarget) (s : State) : Res :=
  .next (match t with
    | .kitBucket b => sweepKit s (waysOf b.val)
    | .kitOverflow => sweepKit s (ovfPlaces s.kp)
    | .rplBucket b => sweepRpl s (waysOf b.val)
    | .rplOverflow => sweepRpl s (s.rpl.ovf.map fun x => rplWays + x.1))

/-! ### The vault -/

/-- The root key of plot p (R423). -/
def rootKey (s : State) (p : Nat) : Bytes :=
  Config.hkdf256 (secretBytes s.kpr.cab.crk 32) [] ([0x50, 0x4C, 0x4F, 0x54] ++ le 2 p ++ secretBytes (tget 0 s.kpr.cab.plotSeed p) 6) 32

/-- ORDER of a record. -/
def VRec.order (r : VRec) : Nat := r.orderHi.toNat * 2 ^ 32 + r.orderLo.toNat

/-- Bytes 0 to 63 of a record (Table 7.10). -/
def VRec.head (r : VRec) : Bytes :=
  [1] ++ le 1 r.kind.toNat ++ le 2 r.plot ++ le 4 (bodyLen r) ++ le 8 r.name.toNat ++ le 8 r.order ++ le 4 r.attr.toNat ++
    [r.alg, r.len] ++ le 1 (r.age.toNat + flag r.pinned 3 + flag r.shared 4) ++ [0] ++ le 4 r.expiry.toNat ++ fit 3 r.kcv ++ [0] ++
    cut r.nonce 0 12 ++ List.replicate 12 0

/-- The additional authenticated data of a record: bytes 0 to 63 and 112 to 127 (R304). -/
def recAad (b : Bytes) : Bytes := cut b 0 64 ++ cut b 112 16

/-- A record as VAULT_SAVE writes it: SECRET and TAG under the record key and NONCE; a body behind it, its own nonce in its first 12
bytes, encrypted the same way (R304, R309). -/
def VRec.image (root : Bytes) (r : VRec) : Bytes :=
  let key := Config.recordKey root
  let aad := r.head ++ List.replicate 16 0
  let secret := fit 32 (if r.kind = 2 then [] else r.material)
  r.head ++ fit 48 (Config.gcmSeal key (cut r.nonce 0 12) aad secret) ++ List.replicate 16 0 ++
    (if r.kind = 1 then
      fit (bodyRoom (bodyLen r)) (cut r.nonce 12 12 ++ fit (16 + r.body.length) (Config.gcmSeal key (cut r.nonce 12 12) aad r.body))
     else [])

/-- The secret and the decrypted body of a record's 128 bytes and its body; none where a tag does not match (R304). -/
def openRec (root b body : Bytes) : Option (Bytes × Bytes) :=
  let key := Config.recordKey root
  match Config.gcmOpen key (cut b 40 12) (recAad b) (cut b 64 32) (cut b 96 16) with
  | none => none
  | some x =>
    if byteAt b 1 ≠ 1 then some (x, [])
    else (Config.gcmOpen key (cut body 0 12) (recAad b) (cut body 12 (body.length - 28)) (cut body (body.length - 16) 16)).map fun y => (x, y)

/-- The plot's records above MARK, in ascending ORDER (R309). -/
def savedRecords (s : State) (p mark : Nat) : List VRec :=
  ((s.vlt.recs.map (·.2)).filter fun r => r.used && r.authentic && r.plot == p && decide (mark < r.order)).mergeSort fun a b =>
    decide (a.order ≤ b.order)

/-- Whole records as far as a length allows. -/
def packRecords (root : Bytes) : Nat → List VRec → Bytes
  | _, [] => []
  | n, r :: rs => if vltCost r ≤ n then r.image root ++ packRecords root (n - vltCost r) rs else []

/-- The plot's tombstones at or below MARK are freed (R309). -/
def freeTombstones (s : State) (p mark : Nat) : State :=
  s.vlt.recs.foldl (fun s x =>
    if x.2.plot == p && x.2.kind == 2 && decide (x.2.order ≤ mark) then vltSet s x.1 VRec.zero else s) s

/-- The plot's records above MARK that fail the checks of R304 are treated as absent and recorded. -/
def saveFailures (s : State) (p mark : Nat) : State :=
  (s.vlt.recs.filter fun x => x.2.used && !x.2.authentic && x.2.plot == p && decide (mark < x.2.order)).foldl
    (fun s x => event s 0x0030 p (le 8 x.2.name.toNat)) s

/-- VAULT_SAVE past its gates; it waits while the vault cannot be reached (R31). -/
def runSave (s0 : State) (d : Adm) : State :=
  if !vaultUp s0 then requeue s0 d else
  let mark := fld d.inl 4 8
  let s := saveFailures s0 d.pid mark
  let out := packRecords (rootKey s d.pid) d.resLen (savedRecords s d.pid mark)
  forwardAdmin (admResult (freeTombstones s d.pid mark) d out) d

/-- VAULT_SAVE. -/
def execVaultSave (s : State) : Res :=
  plotCmd 0x130 (fun s d => inlenIs 12 s d && decide (128 ≤ d.resLen)) createdToStopped always runSave s

/-- The record that 128 bytes, a body's nonce and an opened secret and body spell. -/
def readRec (b nonce : Bytes) (x : Bytes × Bytes) : VRec :=
  let kind := byteAt b 1
  { used := true, kind := BitVec.ofNat 2 kind, plot := fld b 2 2, name := BitVec.ofNat 64 (fld b 8 8),
    orderHi := BitVec.ofNat 32 (fld b 20 4), orderLo := BitVec.ofNat 32 (fld b 16 4), attr := BitVec.ofNat 32 (fld b 24 4),
    alg := BitVec.ofNat 8 (byteAt b 28), len := BitVec.ofNat 8 (byteAt b 29), age := BitVec.ofNat 3 (byteAt b 30),
    pinned := bit (byteAt b 30) 3, shared := bit (byteAt b 30) 4, expiry := BitVec.ofNat 32 (fld b 32 4), kcv := cut b 36 3,
    material := if kind = 2 then [] else fit 32 x.1, pset := if kind = 1 then fld x.1 8 2 else 0,
    body := if kind = 1 then x.2 else [], nonce := cut b 40 12 ++ nonce }

/-- A loaded record is kept; its body has a new place here (R302, R310). -/
def keepRec (s : State) (i : Nat) (r : VRec) : State :=
  if r.kind = 1 then
    match bodySpot s (some i) (unitsOf r.body) with
    | some u => vltSet (drawn s 8) i { r with material := le 8 u ++ r.material.drop 8 }
    | none => s
  else vltSet s i r

/-- One record of VAULT_LOAD: it is kept, or refused (R310). -/
def loadRec (s : State) (p : Nat) (b body : Bytes) : State × Bool :=
  if fld b 2 2 ≠ p then (s, false)
  else match openRec (rootKey s p) b body with
    | none => (event s 0x0030 p (cut b 8 8), false)
    | some x =>
      let r := readRec b (cut body 0 12) x
      if !bodyOk s r then (vltFull s, false)
      else match vltFind s p r.name with
      | some i =>
        let old := tget VRec.zero s.vlt.recs i
        if vltQuotaBytes (s.plot p) < (s.plot p).vltUse - vltCost old + vltCost r then (s, false)
        else if r.order ≤ old.order then (s, true) else (keepRec s i r, true)
      | none =>
        if vltQuotaBytes (s.plot p) < (s.plot p).vltUse + vltCost r then (s, false)
        else match vltPlace s p r.name with
          | none => (vltFull s, false)
          | some i => (keepRec s i r, true)

/-- The records of a saved image, in turn: the loaded and the refused are counted (R310). -/
def loadRecs (p : Nat) : Nat → Bytes → State → Nat → Nat → State × Nat × Nat
  | 0, _, s, a, r => (s, a, r)
  | fuel + 1, b, s, a, r =>
    if b.length < 128 then (s, a, r)
    else
      let n := if byteAt b 1 = 1 then fld b 4 4 else 0
      let q := loadRec s p (cut b 0 128) (cut b 128 (min n b.length))
      loadRecs p fuel (b.drop (128 + bodyRoom n)) q.1 (if q.2 then a + 1 else a) (if q.2 then r else r + 1)

/-- VAULT_LOAD past its gates; it waits while the vault cannot be reached (R31). -/
def runLoad (r : HostRead) (s : State) (d : Adm) : State :=
  if !vaultUp s then requeue s d else
  let go (s : State) (b : Bytes) : State :=
    let x := loadRecs d.pid 512 b s 0 0
    forwardData (admEnd x.1 d stOK (le 4 x.2.1 ++ le 4 x.2.2)) d b
  if d.extLen = 0 then go s [] else admRead s d d.extLen r go

/-- VAULT_LOAD. -/
def execVaultLoad (r : HostRead) (s : State) : Res :=
  plotCmd 0x131 (fun s d => inlenIs 4 s d && d.extLen % 128 == 0) createdToStopped always (runLoad r) s

end Sys2Proof.Machine
end

