-- ==== Sys2Proof/Machine/Lanes.lean ====
section
/-! DEFINITION. The lane jobs but the key-block jobs (08): PIN jobs, CVV, EMV, DUKPT, MACs, hashes, GCM_DEC, FF1, CIPHER. -/

namespace Sys2Proof.Machine

/-! ### PIN jobs -/

/-- PIN_IN and PIN_OUT admit a format (R334). -/
def pinInOk (t : Tx) (f : Nat) : Bool := f != 2 && bit (polPinIn t.policy) f
def pinOutOk (t : Tx) (f : Nat) : Bool := bit (polPinOut t.policy) f

/-- PIN_XLATE: keys, ranges and PARAM (Table 8.5). -/
def specXlate (_ : State) (_ : Bytes) (t : Tx) (d : Bytes) (_ : Nat) : LaneSpec :=
  let p := jParam d
  let a := byteAt p 0
  let b := byteAt p 1
  { k1 := true, k2 := true,
    static := decide (a ≤ 4) && decide (b ≤ 4) && zeros p 14 18 && panField p 2 (fmtPan a || fmtPan b) &&
      (jIn d).2 == pinLen a && noRange (jIn2 d) && decide (pinLen b ≤ (jOut d).2),
    use := fun k1 k2 _ => hasAttr k1.attr 7 && hasAttr k2.attr 6 && pinAlg a k1.alg && pinAlg b k2.alg,
    pin := pinInOk t a && pinOutOk t b }

/-- PIN_XLATE: the block under key 1 becomes a block under key 2 (R330 to R334). -/
def compXlate (s : State) (x : LJ) : Comp :=
  let p := jParam x.d
  match openPin s x (byteAt p 0) 2 with
  | .error st => .fin s st [] none []
  | .ok pin =>
    match sealPin s x (byteAt p 1) x.k2.key pin with
    | none => .wait
    | some (s1, b) => .fin s1 stOK b none [.encFail, .decFail]

/-- PIN_XLATE. -/
def execPinXlate (y : YokeId) (j : JobIx) (ev : LaneEv) (s : State) : Res := laneRow 0x01 specXlate compXlate y j ev s

/-- PIN_OPEN: keys, ranges and PARAM (Table 8.5). -/
def specOpen (_ : State) (_ : Bytes) (t : Tx) (d : Bytes) (_ : Nat) : LaneSpec :=
  let p := jParam d
  let a := byteAt p 0
  { k1 := true, sout := true,
    static := decide (a ≤ 4) && byteAt p 1 == 0 && zeros p 14 18 && panField p 2 (fmtPan a) && (jIn d).2 == pinLen a &&
      noRange (jIn2 d) && (jOut d).2 == 0,
    use := fun k1 _ _ => hasAttr k1.attr 7 && pinAlg a k1.alg,
    pin := pinInOk t a }

/-- PIN_OPEN: the PIN of a block goes to a sealed register, tagged with its length (R251, R331). -/
def compOpen (s : State) (x : LJ) : Comp :=
  match openPin s x (byteAt (jParam x.d) 0) 2 with
  | .error st => .fin s st [] none []
  | .ok pin => .fin s stOK [] (some { tag := .pin pin.length, val := pin.map (BitVec.ofNat 8) }) [.decFail]

/-- PIN_OPEN. -/
def execPinOpen (y : YokeId) (j : JobIx) (ev : LaneEv) (s : State) : Res := laneRow 0x02 specOpen compOpen y j ev s

/-- PIN_RESEAL: keys, ranges and PARAM (Table 8.5). -/
def specReseal (_ : State) (_ : Bytes) (t : Tx) (d : Bytes) (_ : Nat) : LaneSpec :=
  let p := jParam d
  let b := byteAt p 1
  { k2 := true, sin := true,
    static := byteAt p 0 == 0 && decide (b ≤ 4) && zeros p 14 18 && panField p 2 (fmtPan b) && (jIn d).2 == 0 &&
      noRange (jIn2 d) && decide (pinLen b ≤ (jOut d).2),
    use := fun _ k2 r => hasAttr k2.attr 6 && pinAlg b k2.alg && isPin r,
    pin := pinOutOk t b }

/-- PIN_RESEAL: a sealed PIN becomes a block under key 2. -/
def compReseal (s : State) (x : LJ) : Comp :=
  match sealPin s x (byteAt (jParam x.d) 1) x.k2.key (pinOf x.sin) with
  | none => .wait
  | some (s1, b) => .fin s1 stOK b none [.encFail]

/-- PIN_RESEAL. -/
def execPinReseal (y : YokeId) (j : JobIx) (ev : LaneEv) (s : State) : Res := laneRow 0x03 specReseal compReseal y j ev s

/-- What the PIN verify jobs share: the PIN from a block under key 1, or from SIN with IN_FMT and IN_LEN 0 (R335, R336). -/
def specVerify (t : Tx) (d : Bytes) (panAlways : Bool) (i2 : Nat) (rest : Bool) (key2 : KeyV → Bool) : LaneSpec :=
  let p := jParam d
  let a := byteAt p 0
  let sl := byteAt d 4 != 0
  { k1 := !sl, k2 := true, sin := sl,
    static := decide (a ≤ 4) && (if sl then a == 0 && (jIn d).2 == 0 else (jIn d).2 == pinLen a) &&
      panField p 2 (panAlways || (!sl && fmtPan a)) && (if i2 = 0 then (jIn2 d).2 == 0 else (jIn2 d).2 == i2) &&
      noRange (jOut d) && rest,
    use := fun k1 k2 r => (if sl then isPin r else hasAttr k1.attr 7 && pinAlg a k1.alg) && hasAttr k2.attr 8 && key2 k2,
    pin := sl || pinInOk t a }

/-- The PIN a verify job checks. -/
def verifyPin (s : State) (x : LJ) : Except (BitVec 16) (List Nat) :=
  if byteAt x.d 4 ≠ 0 then .ok (pinOf x.sin) else openPin s x (byteAt (jParam x.d) 0) 2

/-- A verdict; the input block was decrypted into the context (R322, R339). -/
def verdict (s : State) (x : LJ) (ok : Bool) (bad : BitVec 16) : Comp :=
  .fin s (if ok then stOK else bad) [] none (if byteAt x.d 4 = 0 then [.decFail] else [])

/-- PIN_VER_3624: PARAM (Table 8.6). -/
def spec3624 (_ : State) (_ : Bytes) (t : Tx) (d : Bytes) (_ : Nat) : LaneSpec :=
  let p := jParam d
  let n := byteAt p 1
  let ofs := nibbles (cut p 22 6)
  specVerify t d false 8
    (decide (4 ≤ n) && decide (n ≤ 12) && (nibbles (cut p 14 8)).all (decide <| · ≤ 9) && (ofs.take n).all (decide <| · ≤ 9) &&
      (ofs.drop n).all (· == 15) && zeros p 28 4)
    fun k => isTdes k.alg

/-- PIN_VER_3624 (R337). -/
def comp3624 (s : State) (x : LJ) : Comp :=
  match verifyPin s x with
  | .error st => .fin s st [] none []
  | .ok pin =>
    let p := jParam x.d
    let n := byteAt p 1
    let d := nibbles (tdesEnc x.k2.key (x.inp2 s))
    let tab := nibbles (cut p 14 8)
    let ofs := nibbles (cut p 22 6)
    verdict s x (decide (n ≤ pin.length) &&
      (List.range n).all fun i => pin.getD i 0 == (tab.getD (d.getD i 0) 0 + ofs.getD i 0) % 10) stPinMismatch

/-- PIN_VER_3624. -/
def execPinVer3624 (y : YokeId) (j : JobIx) (ev : LaneEv) (s : State) : Res := laneRow 0x04 spec3624 comp3624 y j ev s

/-- PIN_VER_PVV: PARAM (Table 8.6). -/
def specPvv (_ : State) (_ : Bytes) (t : Tx) (d : Bytes) (_ : Nat) : LaneSpec :=
  let p := jParam d
  specVerify t d true 0
    (decide (byteAt p 1 ≤ 6) && (nibbles (cut p 14 2)).all (decide <| · ≤ 9) && zeros p 16 16)
    fun k => k.alg == 0x01

/-- PIN_VER_PVV (R338). -/
def compPvv (s : State) (x : LJ) : Comp :=
  match verifyPin s x with
  | .error st => .fin s st [] none []
  | .ok pin =>
    let p := jParam x.d
    let pan := panDigits p 2
    let tsp := (pan.drop (pan.length - 12)).take 11 ++ [byteAt p 1] ++ pin.take 4
    verdict s x (scanDigits 4 (tdesEnc x.k2.key (ofNibbles tsp)) == nibbles (cut p 14 2)) stPinMismatch

/-- PIN_VER_PVV. -/
def execPinVerPvv (y : YokeId) (j : JobIx) (ev : LaneEv) (s : State) : Res := laneRow 0x05 specPvv compPvv y j ev s

/-! ### CVV -/

/-- FLAGS.VERIFY. -/
def jVerify (d : Bytes) : Bool := bit (jFlags d) 1

/-- Three BCD digits and then 0xF. -/
def bcd3 (p : Bytes) (ofs : Nat) : Bool :=
  let d := nibbles (cut p ofs 2)
  (d.take 3).all (decide <| · ≤ 9) && d.getD 3 0 == 15

/-- CVV: key, PARAM (R340). -/
def specCvv (_ : State) (_ : Bytes) (_ : Tx) (d : Bytes) (_ : Nat) : LaneSpec :=
  let p := jParam d
  { k1 := true, verify := true,
    static := panOk p 0 && (nibbles (cut p 12 2)).all (decide <| · ≤ 9) && bcd3 p 14 && zeros p 18 14 &&
      (if jVerify d then bcd3 p 16 else zeros p 16 2 && decide (2 ≤ (jOut d).2)) && (jIn d).2 == 0 && (jIn2 d).2 == 0,
    use := fun k1 _ _ => hasAttr k1.attr 9 && (k1.alg == 0x01 || k1.alg == 0x10) }

/-- The three CVV digits (R340). -/
def cvvDigits (key : Bytes) (alg : Nat) (p : Bytes) : List Nat :=
  let ds := panDigits p 0 ++ nibbles (cut p 12 2) ++ (nibbles (cut p 14 2)).take 3
  let b := ofNibbles (ds ++ List.replicate (32 - ds.length) 0)
  let ka := cut key 0 8
  let r := if isAes alg then Config.aesEnc key b
    else Config.desEnc ka (Config.desDec (cut key 8 8) (Config.desEnc ka (xorBytes (Config.desEnc ka (cut b 0 8)) (cut b 8 8))))
  scanDigits 3 r

/-- CVV (R340). -/
def compCvv (s : State) (x : LJ) : Comp :=
  let p := jParam x.d
  let v := cvvDigits x.k1.key x.k1.alg p
  if jVerify x.d then .fin s (if v == (nibbles (cut p 16 2)).take 3 then stOK else stCvv) [] none []
  else .fin s stOK (ofNibbles v) none []

/-- CVV. -/
def execCvv (y : YokeId) (j : JobIx) (ev : LaneEv) (s : State) : Res := laneRow 0x06 specCvv compCvv y j ev s

/-! ### EMV and DUKPT -/

/-- ARQC_ARPC: inputs and PARAM (Table 8.7). -/
def specArqc (_ : State) (_ : Bytes) (_ : Tx) (d : Bytes) (_ : Nat) : LaneSpec :=
  let p := jParam d
  let m := byteAt p 0
  let n := byteAt p 1
  { k1 := true,
    static := (m == 1 || m == 2) && decide (n ≤ 8) && panOk p 2 && (nibbles (cut p 14 1)).all (decide <| · ≤ 9) &&
      byteAt p 15 == 0 && zeros p (24 + n) (8 - n) &&
      (if m = 1 then n == 0 && zeros p 20 4 && decide (8 ≤ (jOut d).2) else zeros p 18 2 && decide (4 ≤ (jOut d).2)) &&
      decide (1 ≤ (jIn d).2) && decide ((jIn d).2 ≤ 256) && (jIn2 d).2 == 8,
    use := fun k1 _ _ => hasAttr k1.attr 11 && (k1.alg == 0x01 || isAes k1.alg) }

/-- The 16 digits of EMV Book 2 option A: the rightmost of PAN and PSN, left-padded with 0. -/
def emvDigits (p : Bytes) : List Nat :=
  let d := panDigits p 2 ++ nibbles (cut p 14 1)
  let r := d.drop (d.length - 16)
  List.replicate (16 - r.length) 0 ++ r

/-- The MAC of ARQC and ARPC: 8 bytes (R342). -/
def emvMac (aes : Bool) (sk msg : Bytes) : Bytes :=
  if aes then (Config.cmac true sk msg).take 8 else (mac9797 3 sk (pad9797 2 msg)).take 8

/-- The verdict on an ARQC and its ARPC under the session key, with the keys derived for it (R342). -/
def arpc (s : State) (x : LJ) (aes : Bool) (sk : Bytes) (ls : List Learn) : Comp :=
  let p := jParam x.d
  let arqc := x.inp2 s
  if emvMac aes sk (x.inp s) != arqc then .derived s stCryptogram [] none ls
  else
    let out := if byteAt p 0 = 1 then
        let v := xorBytes arqc (cut p 18 2 ++ List.replicate 6 0)
        if aes then (Config.aesEnc sk (v ++ List.replicate 8 0)).take 8 else tdesEnc sk v
      else (emvMac aes sk (arqc ++ cut p 20 4 ++ cut p 24 (byteAt p 1))).take 4
    .derived s stOK out none ls

/-- ARQC_ARPC: the master and session keys by their derived entries, or derived and learned; then the verdict (R342). -/
def compArqc (s : State) (x : LJ) : Comp :=
  let p := jParam x.d
  let aes := isAes x.k1.alg
  let n1 := derivedName 3 (identity x.k1.name x.k1.kcv ++ ofNibbles (panDigits p 2) ++ cut p 14 1)
  match deriveKey s x 0 n1 0x800 (Config.emvMaster aes x.k1.key (ofNibbles (emvDigits p))) with
  | (s1, .fail st) => .fin s1 st [] none []
  | (s1, .conflict) => .conflict s1 []
  | (s1, .got mk l1) =>
    let n2 := derivedName 4 (identity n1 (kcvSym x.k1.alg mk) ++ cut p 16 2)
    match deriveKey s1 x 1 n2 0x30 (Config.emvSession aes mk (cut p 16 2)) with
    | (s2, .fail st) => .derived s2 st [] none l1
    | (s2, .conflict) => .conflict s2 l1
    | (s2, .got sk l2) => arpc s2 x aes sk (l1 ++ l2)

/-- ARQC_ARPC. -/
def execArqcArpc (y : YokeId) (j : JobIx) (ev : LaneEv) (s : State) : Res := laneRow 0x07 specArqc compArqc y j ev s

/-- The KSN of DUKPT_DERIVE, and its counter (R343, R344). -/
def ksn (p : Bytes) : Bytes := cut p 4 (byteAt p 2)
def ksnCounter (p : Bytes) : Nat :=
  if byteAt p 2 = 12 then beNat ((ksn p).drop 8) else beNat (ksn p) % 2 ^ 21
/-- The initial key ID (R344). -/
def ksnId (p : Bytes) : Bytes :=
  if byteAt p 2 = 12 then (ksn p).take 8 else be 10 (beNat (ksn p) / 2 ^ 21 * 2 ^ 21)

/-- The bits of a number that are 1, of 32. -/
def ones32 (n : Nat) : Nat := ones (BitVec.ofNat 32 n)

/-- DUKPT_DERIVE: key, PARAM (R343, R344). -/
def specDukpt (_ : State) (_ : Bytes) (_ : Tx) (d : Bytes) (_ : Nat) : LaneSpec :=
  let p := jParam d
  let l := byteAt p 2
  let c := ksnCounter p
  { k1 := true, sout := true, dukpt := true,
    static := decide (byteAt p 0 ≤ 2) && byteAt p 1 == 0 && (l == 12 || l == 10) && byteAt p 3 == 0 &&
      zeros p (4 + l) (12 - l) && zeros p 16 16 && c != 0 && decide (ones32 c ≤ (if l = 12 then 16 else 10)) &&
      (jIn d).2 == 0 && (jIn2 d).2 == 0 && (jOut d).2 == 0,
    use := fun k1 _ _ => (hasAttr k1.attr 10 || hasAttr k1.attr 19) && (if l = 12 then isAes k1.alg else isTdes k1.alg) }

/-- The attribute of a working key's USAGE (R343). -/
def usageAttr (u : Nat) : W32 := if u = 0 then 0x80 else if u = 1 then 0x20 else 0x02

/-- The working key for its sealed register. -/
def workingKey (x : LJ) (key : Bytes) : Sealed :=
  { tag := .key (BitVec.ofNat 8 x.k1.alg) (usageAttr (byteAt (jParam x.d) 0)) x.k1.expiry, val := key }

/-- The working key from an initial key, learned where it is a PIN key; `ls` has the initial key where that was derived too (R345). -/
def dukptFrom (s : State) (x : LJ) (ik : Bytes) (name : W64) (ls : List Learn) : Comp :=
  let p := jParam x.d
  let wk := Config.dukptWorking (isAes x.k1.alg) ik (ksn p) (byteAt p 0)
  if byteAt p 0 = 0 then
    if x.ev = .race true then .conflict s ls
    else .derived s stOK [] (some (workingKey x wk)) (ls ++ [derivedOf x.t.plot name x.k1.alg 0x80 wk])
  else if ls.isEmpty then .fin s stOK [] (some (workingKey x wk)) [.derFail]
  else .derived s stOK [] (some (workingKey x wk)) ls

/-- DUKPT_DERIVE (R345). -/
def compDukpt (s : State) (x : LJ) : Comp :=
  let p := jParam x.d
  let id := identity x.k1.name x.k1.kcv
  let name := derivedName 2 (id ++ ksn p)
  match (if byteAt p 0 = 0 then derivedLook s x 1 name else (s, .miss)) with
  | (s1, .key wk) => .fin s1 stOK [] (some (workingKey x wk)) []
  | (s1, .fail st) => .fin s1 st [] none []
  | (s1, .miss) =>
    if hasAttr x.k1.attr 10 then
      match deriveKey s1 x 0 (derivedName 1 (id ++ ksnId p)) 0x80000 (Config.dukptInitial (isAes x.k1.alg) x.k1.key (ksnId p)) with
      | (s2, .fail st) => .fin s2 st [] none []
      | (s2, .conflict) => .conflict s2 []
      | (s2, .got ik ls) => dukptFrom s2 x ik name ls
    else dukptFrom s1 x x.k1.key name []

/-- DUKPT_DERIVE. -/
def execDukptDerive (y : YokeId) (j : JobIx) (ev : LaneEv) (s : State) : Res := laneRow 0x08 specDukpt compDukpt y j ev s

/-! ### MACs and hashes -/

/-- The running state of a multi-part job: type, key and PARAM without PART match (R349). -/
def partState (ty : Nat) (k : KeyV) (param : Bytes) (r : Sealed) : Bool := r.tag == .state ty k.ref k.id param

/-- PARAM with its PART byte cleared. -/
def noPart (p : Bytes) (at' : Nat) : Bytes := p.set at' 0

/-- What MAC and hash jobs share: `at'` is PART's place, `macLen` the MAC's length, `minBlk` the least block of any algorithm,
`blk` the block under a key (R348, R349). -/
def specParts (ty : Nat) (d : Bytes) (at' outLen minBlk : Nat) (keyed : Bool) (param : Bool) (alg : KeyV → Bool)
    (blk : KeyV → Nat) : LaneSpec :=
  let p := jParam d
  let part := byteAt p at'
  let mid := part == 1 || part == 2
  let n := (jIn d).2
  { k1 := keyed, sin := part == 2 || part == 3, sout := mid, verify := keyed, part := part != 0,
    static := param && decide (part ≤ 3) && (!mid || (!jVerify d && n != 0 && n % minBlk == 0)) &&
      (if jVerify d then (jIn2 d).2 == outLen else (jIn2 d).2 == 0 && (mid || decide (outLen ≤ (jOut d).2))),
    use := fun k1 _ r => alg k1 && (!mid || n % blk k1 == 0) &&
      (!keyed || (if mid then hasAttr k1.attr 4 || hasAttr k1.attr 5
                  else if jVerify d then hasAttr k1.attr 5 else hasAttr k1.attr 4)) &&
      (part == 0 || part == 1 || partState ty k1 (noPart p at') r) }

/-- A MAC or hash job over what the earlier parts supplied and its own input: `f` is the value over a whole message. -/
def compParts (ty at' outLen : Nat) (f : LJ → Bytes → Bytes) (s : State) (x : LJ) : Comp :=
  let p := jParam x.d
  let part := byteAt p at'
  let msg := (if part = 2 ∨ part = 3 then x.sin.parts else []) ++ x.inp s
  if part = 1 ∨ part = 2 then
    .fin s stOK [] (some { tag := .state ty x.k1.ref x.k1.id (noPart p at'), parts := msg,
                               val := fit 32 (Config.runState ty x.k1.key (noPart p at') msg) }) []
  else
    let v := (f x msg).take outLen
    if jVerify x.d then .fin s (if v == x.inp2 s then stOK else stMac) [] none []
    else .fin s stOK v none []

/-- CMAC (R348). -/
def specCmac (_ : State) (_ : Bytes) (_ : Tx) (d : Bytes) (_ : Nat) : LaneSpec :=
  let p := jParam d
  let m := byteAt p 0
  specParts 0x0B d 1 m 8 true (decide (4 ≤ m) && decide (m ≤ 16) && zeros p 2 30)
    (fun k => isAes k.alg || (isTdes k.alg && decide (m ≤ 8))) (fun k => blockLen (isAes k.alg))

/-- CMAC. -/
def execCmac (y : YokeId) (j : JobIx) (ev : LaneEv) (s : State) : Res :=
  laneRow 0x0B specCmac (fun s x => compParts 0x0B 1 (byteAt (jParam x.d) 0)
    (fun x m => Config.cmac (isAes x.k1.alg) x.k1.key m) s x) y j ev s

/-- MAC9797 (R348). -/
def specMac9797 (_ : State) (_ : Bytes) (_ : Tx) (d : Bytes) (_ : Nat) : LaneSpec :=
  let p := jParam d
  let a := byteAt p 0
  let m := byteAt p 2
  specParts 0x0C d 3 m 8 true
    ((a == 1 || a == 3) && (byteAt p 1 == 1 || byteAt p 1 == 2) && decide (4 ≤ m) && decide (m ≤ 8) && zeros p 4 28)
    (fun k => if a = 3 then k.alg == 0x01 else isTdes k.alg) (fun _ => 8)

/-- MAC9797. -/
def execMac9797 (y : YokeId) (j : JobIx) (ev : LaneEv) (s : State) : Res :=
  laneRow 0x0C specMac9797 (fun s x => compParts 0x0C 3 (byteAt (jParam x.d) 2)
    (fun x m => mac9797 (byteAt (jParam x.d) 0) x.k1.key (pad9797 (byteAt (jParam x.d) 1) m)) s x) y j ev s

/-- HMAC (R348). -/
def specHmac (_ : State) (_ : Bytes) (_ : Tx) (d : Bytes) (_ : Nat) : LaneSpec :=
  let p := jParam d
  let m := byteAt p 0
  specParts 0x0D d 1 m 64 true (decide (16 ≤ m) && decide (m ≤ 32) && zeros p 2 30) (fun k => k.alg == 0x20) (fun _ => 64)

/-- HMAC. -/
def execHmac (y : YokeId) (j : JobIx) (ev : LaneEv) (s : State) : Res :=
  laneRow 0x0D specHmac (fun s x => compParts 0x0D 1 (byteAt (jParam x.d) 0)
    (fun x m => Config.hmac256 x.k1.key m) s x) y j ev s

/-- Digest bytes and block of a HASH algorithm (Table 8.8). -/
def digestLen (a : Nat) : Nat := [0, 32, 48, 64, 32, 48, 64].getD a 0
def digestBlock (a : Nat) : Nat := [1, 64, 128, 128, 136, 104, 72].getD a 1

/-- HASH (R348). -/
def specHash (_ : State) (_ : Bytes) (_ : Tx) (d : Bytes) (_ : Nat) : LaneSpec :=
  let p := jParam d
  let a := byteAt p 0
  specParts 0x11 d 1 (digestLen a) (digestBlock a) false (decide (1 ≤ a) && decide (a ≤ 6) && zeros p 2 30)
    (fun _ => true) (fun _ => digestBlock a)

/-- HASH. -/
def execHash (y : YokeId) (j : JobIx) (ev : LaneEv) (s : State) : Res :=
  laneRow 0x11 specHash (fun s x => compParts 0x11 1 (digestLen (byteAt (jParam x.d) 0))
    (fun x m => Config.hash (byteAt (jParam x.d) 0) m) s x) y j ev s

/-! ### GCM_DEC, FF1, CIPHER -/

/-- GCM_DEC: PARAM and lengths (R350). -/
def specGcm (_ : State) (_ : Bytes) (_ : Tx) (d : Bytes) (_ : Nat) : LaneSpec :=
  let p := jParam d
  let aad := fld p 12 2
  let ct := (jIn d).2 - aad
  { k1 := true,
    static := decide (aad ≤ 1024) && decide (12 ≤ byteAt p 14) && decide (byteAt p 14 ≤ 16) && zeros p 15 17 &&
      decide (aad + 1 ≤ (jIn d).2) && decide (ct ≤ 16384) && (jIn2 d).2 == byteAt p 14 && decide (ct ≤ (jOut d).2),
    use := fun k1 _ _ => hasAttr k1.attr 1 && isAes k1.alg }

/-- GCM_DEC: no plaintext before the tag matches (R350). -/
def compGcm (s : State) (x : LJ) : Comp :=
  let p := jParam x.d
  let b := x.inp s
  let aad := fld p 12 2
  match Config.gcmOpen x.k1.key (cut p 0 12) (b.take aad) (b.drop aad) (x.inp2 s) with
  | none => .fin s stMac [] none []
  | some pt => .fin s stOK (fit (b.length - aad) pt) none []

/-- GCM_DEC. -/
def execGcmDec (y : YokeId) (j : JobIx) (ev : LaneEv) (s : State) : Res := laneRow 0x0E specGcm compGcm y j ev s

/-- FF1: PARAM, lengths and numerals (R351). -/
def specFf1 (_ : State) (inp : Bytes) (_ : Tx) (d : Bytes) (_ : Nat) : LaneSpec :=
  let p := jParam d
  let radix := byteAt p 0
  let n := (jIn d).2
  { k1 := true,
    static := decide (2 ≤ radix) && decide (radix ≤ 36) && decide (byteAt p 1 ≤ 1) && decide (byteAt p 2 ≤ 14) &&
      byteAt p 3 == 0 && zeros p 18 14 && decide (6 ≤ n) && decide (n ≤ 54) && (jIn2 d).2 == 0 && decide (n ≤ (jOut d).2) &&
      inp.all (fun b => decide (b.toNat < radix)) && decide (1000000 ≤ radix ^ n),
    use := fun k1 _ _ => hasAttr k1.attr 12 && isAes k1.alg }

/-- FF1 (R351). -/
def compFf1 (s : State) (x : LJ) : Comp :=
  let p := jParam x.d
  .fin s stOK (fit (jIn x.d).2
    (Config.ff1 (byteAt p 1 == 1) x.k1.key (byteAt p 0) (cut p 4 (byteAt p 2)) (x.inp s))) none []

/-- FF1. -/
def execFf1 (y : YokeId) (j : JobIx) (ev : LaneEv) (s : State) : Res := laneRow 0x0F specFf1 compFf1 y j ev s

/-- CIPHER: PARAM and lengths; what depends on the key's algorithm is checked with the key (R352). -/
def specCipher (_ : State) (_ : Bytes) (_ : Tx) (d : Bytes) (_ : Nat) : LaneSpec :=
  let p := jParam d
  let mode := byteAt p 0
  let n := (jIn d).2
  { k1 := true,
    static := decide (mode ≤ 2) && decide (byteAt p 1 ≤ 1) && zeros p 2 14 && (mode != 0 || zeros p 16 16) && decide (1 ≤ n) &&
      decide (n ≤ 16384) && (mode == 2 || n % 8 == 0) && (jIn2 d).2 == 0 && decide (n ≤ (jOut d).2),
    use := fun k1 _ _ => hasAttr k1.attr (byteAt p 1) &&
      (if isAes k1.alg then mode == 2 || n % 16 == 0 else isTdes k1.alg && zeros p 24 8) }

/-- CIPHER: ECB, CBC or CTR (R352). -/
def compCipher (s : State) (x : LJ) : Comp :=
  let p := jParam x.d
  let aes := isAes x.k1.alg
  let w := blockLen aes
  let bl := blocks w (x.inp s)
  let dec := byteAt p 1 == 1
  let iv := cut p 16 w
  let out := match byteAt p 0 with
    | 0 => bl.map (if dec then blockDec aes x.k1.key else blockEnc aes x.k1.key)
    | 1 => if dec then cbcDec aes x.k1.key iv bl else cbcEnc aes x.k1.key iv bl
    | _ => ctr aes x.k1.key (beNat iv) bl
  .fin s stOK (fit (jIn x.d).2 out.flatten) none []

/-- CIPHER. -/
def execCipher (y : YokeId) (j : JobIx) (ev : LaneEv) (s : State) : Res := laneRow 0x10 specCipher compCipher y j ev s

end Sys2Proof.Machine
end

