-- ==== Sys2Proof/Machine/Reile.lean ====
section
/-! DEFINITION. The Reile link (15): port events, the handshake and rekey, acknowledgements and resends, bindings, shared keys
and shared claims. -/

namespace Sys2Proof.Machine

/-! ### Ports and single frames -/

/-- PORT_LINK_CHANGE: a port's link comes up or goes down (R528, R567); sessions that had no port begin. -/
def execPortLinkChange (k : PortId) (up : Bool) (s : State) : Res :=
  .next (if !s.pwr.good || tget false s.clu.link k.val == up then s
    else
      let s0 := { s with clu := { s.clu with link := tset false k.val up s.clu.link } }
      let s1 := cluFlag { s0 with pwr := { s0.pwr with pll := reilePll s0 } } 0
      if up then startAll s1 else s1)

/-- FOREIGN_FRAME: a frame that does not carry the configured EtherType or tag is dropped and counted (R529). -/
def execForeignFrame (k : PortId) (s : State) : Res :=
  .next { s with clu := { s.clu with rxDrop := bumpAt s.clu.rxDrop k.val } }

/-! ### Handshake (R535) -/

/-- The checks of a HELLO: domain, member table, certificates. -/
def helloOk (s : State) (h : Hdr) (domain : W32) (chain cert : Bytes) : Bool :=
  domain == s.clu.domain && (member s h.src.toNat).isSome &&
    Config.certOk s.clu.caKey domain h.src.toNat chain cert

/-- A HELLO is received: a session that was up is over at the peer, and begins anew (log 60); the initiator goes on to KEX. -/
def gotHello (s : State) (h : Hdr) (domain : W32) (chain cert : Bytes) : State :=
  let s := fecNote s h
  let p := h.src.toNat
  if !s.clu.joined || h.dst.toNat ≠ s.clu.node || p = s.clu.node then s
  else if !helloOk s h domain chain cert then hsFail s p
  else
    let s1 := sessDown s p
    let s2 := if (s1.sess p).hs = .idle then startHs s1 p else s1
    let x := s2.sess p
    if x.hs ≠ .helloSent then s2
    else
      let mine := helloBytes 2 s.clu.node s.clu.domain Config.identityChain s.clu.cert
      let theirs := helloBytes h.ver.toNat p domain chain cert
      let s3 := s2.setSess p { x with chain := chain, peerVer := if h.ver.toNat < 2 then 1 else 2, heard := true, port := h.port.val,
                                      script := if initiator s2 p then mine ++ theirs else theirs ++ mine }
      if initiator s3 p then wantKey s3 p else s3

/-- HELLO (Table 15.3 step 1). -/
def execHello (h : Hdr) (domain : W32) (chain nodeCert : Bytes) (s : State) : Res := .next (gotHello s h domain chain nodeCert)

/-- A handshake frame from a member with which a handshake is under way. -/
def hsFrame (s : State) (h : Hdr) (st : Hs) (run : State → Nat → Sess → State) : State :=
  let s := fecNote s h
  let p := h.src.toNat
  let x := s.sess p
  if addressed s h && x.hs == st && x.heard then run s p x else s

/-- KEX: the responder answers with KEX_REPLY once P2 gives its ephemeral key (Table 15.3 steps 2 and 3). -/
def execKex (h : Hdr) (ek point : Bytes) (s : State) : Res :=
  .next (hsFrame s h .helloSent fun s p x =>
    if initiator s p then s
    else wantKey (s.setSess p { x with hs := .kexGot, kex := (ek, point), script := x.script ++ ek ++ point }) p)

/-- The peer's ECDSA P-384 signature over the SHA-384 of the transcript with `part` behind it, under its attestation key (R535). -/
def peerSigned (x : Sess) (part sig : Bytes) : Bool := Config.sigVerify 1 x.chain (Config.hash 2 (x.script ++ part)) sig

/-- The initiator has a verified KEX_REPLY: the shared secrets, and FINISH with its signature over the transcript including the reply
(Table 15.3 step 4). -/
def sendFinish (s : State) (p : Nat) (ct point sig : Bytes) : State :=
  let x := s.sess p
  let script := x.script ++ ct ++ point ++ sig
  let g := signScript s script
  sendHs (g.1.setSess p { x with script := script, secret := Config.kemDecaps x.eph ct ++ Config.dheShared point x.eph }) p 0x04 g.2

/-- KEX_REPLY: the initiator verifies it, sends FINISH, and the session is up (Table 15.3 steps 4 and 5). -/
def execKexReply (h : Hdr) (ct point sig : Bytes) (s : State) : Res :=
  .next (hsFrame s h .kexSent fun s p x =>
    if peerSigned x (ct ++ point) sig then sessUp (sendFinish s p ct point sig) p else hsFail s p)

/-- The key phase changes with the next frame and the new keys with it, the old ones being accepted still; the version becomes the
domain's (R536, R537). -/
def toggle (s : State) (p : Nat) : State :=
  let x := s.sess p
  s.setSess p { x with kph := !x.kph, overlap := true, rk := .idle, ver := sessVer s x,
                       keys := sessKeys x.secret x.script (sessVer s x), oldKeys := x.keys, script := [], kex := ([], []), secret := [],
                       eph := 0 }

/-- FINISH: the responder verifies it and the session is up; inside a session it ends a rekey (Table 15.3 step 5, R536). -/
def execFinish (h : Hdr) (sig : Bytes) (s : State) : Res :=
  .next (
    if (s.sess h.src.toNat).hs = .up then
      receive s { h with ackReq := false } fun s p =>
        let x := s.sess p
        if x.rk ≠ .replySent then s else if peerSigned x [] sig then toggle s p else hsFail s p
    else hsFrame s h .replySent fun s p x => if peerSigned x [] sig then sessUp s p else hsFail s p)

/-- REKEY_THRESHOLD: a direction has sent 2^40 frames under its key; its sender starts a rekey (R536). -/
def execRekeyThreshold (peer : BitVec 12) (s : State) : Res :=
  .next (let p := peer.toNat
    let x := s.sess p
    if x.hs = .up ∧ x.rk = .idle then wantKey (s.setSess p { x with rk := .helloSent }) p else s)

/-- REKEY: the peer starts a rekey and is answered. Of two that meet, the lower node ID's goes on (log 62). -/
def execRekey (h : Hdr) (ek point : Bytes) (s : State) : Res :=
  .next (receive s { h with ackReq := false } fun s p =>
    let x := s.sess p
    if x.rk = .idle ∨ p < s.clu.node then
      wantKey (s.setSess p { x with rk := .kexGot, kex := (ek, point), script := ek ++ point, got := 0 }) p
    else s)

/-- REKEY_REPLY: the starter verifies it, sends FINISH and toggles KPH (R536). -/
def execRekeyReply (h : Hdr) (ct point sig : Bytes) (s : State) : Res :=
  .next (receive s { h with ackReq := false } fun s p =>
    let x := s.sess p
    if x.rk ≠ .kexSent then s
    else if peerSigned x (ct ++ point) sig then toggle (sendFinish s p ct point sig) p else hsFail s p)

/-- PHASE_OVERLAP_END: 1 ms after the change the old phase is accepted no longer (R536). -/
def execPhaseOverlapEnd (peer : BitVec 12) (s : State) : Res :=
  .next (s.setSess peer.toNat { s.sess peer.toNat with overlap := false, oldKeys := [] })

/-! ### Acknowledgements -/

/-- ACK: the frames it lists are acknowledged (R534). -/
def gotAck (seqs : List W64) (s : State) (p : Nat) : State :=
  let x := s.sess p
  s.setSess p { x with unacked := x.unacked.filter fun u => !seqs.contains u.1 }

/-- ACK. -/
def execAck (h : Hdr) (seqs : List W64) (s : State) : Res := .next (receive s h (gotAck seqs))

/-- The port a resend takes: the other one where both reach the peer (R534). -/
def otherPort (s : State) (p k : Nat) : Nat :=
  let l := portsOf s p
  if l.length = 2 then 1 - k else l.headD k

/-- RESEND_TIMER: 20 µs without an acknowledgement the message goes in a new frame; after 32 resends the session is declared
down (R534). -/
def execResendTimer (peer : BitVec 12) (seq : W64) (s : State) : Res :=
  .next (
    let p := peer.toNat
    let x := s.sess p
    match x.unacked.find? fun u => u.1 == seq with
    | none => s
    | some u =>
      if x.hs ≠ .up then s
      else if 32 ≤ u.2.2 then sessDown s p
      else
        let k := otherPort s p x.port
        let q := x.txSeq + 1
        (emit s (msgFrame s k p q u.2.1)).setSess p
          { x with txSeq := q, port := k, unacked := x.unacked.filter (fun v => v.1 != seq) ++ [(q, u.2.1, u.2.2 + 1)] })

/-! ### Bindings and shared keys -/

/-- BIND: the peer's bindings; tenants whose member set changes are rehomed, and at a session's start every SHARED entry of a
common tenant is sent (R540, R547, R551). -/
def gotBind (dtids : List W32) (s : State) (p : Nat) : State :=
  let x := s.sess p
  let s1 := s.setSess p { x with binds := dtids, synced := true }
  let s2 := rehomeAll s s1
  if x.synced then s2 else ((ownDtids s2).filter fun d => dtids.contains d).foldl (fun s d => sendShared s p d) s2

/-- BIND. -/
def execBind (h : Hdr) (dtids : List W32) (s : State) : Res := .next (receive s h (gotBind dtids))

/-- An update's key as a learning on the local plot (R542, R544). -/
def updLearn (p : Nat) (u : ShareUpd) : Learn :=
  { plot := p, name := u.name, age := u.age, pinned := true, shared := true, pair := some (u.stamp, u.origin.toNat),
    slot := { material := u.material, attr := u.attr, alg := u.alg, len := u.len, kcv := u.kcv, expiry := u.expiry } }

/-- A pair is lower: by stamp, then by node ID (Table 15.5). -/
def pairLt (a b : BitVec 48 × Nat) : Bool :=
  decide (a.1.toNat < b.1.toNat) || (a.1 == b.1 && decide (a.2 < b.2))

/-- The update pair of a SHARED entry. -/
def pairOfEntry (s : State) (p : Nat) (name : W64) : BitVec 48 × Nat :=
  match s.kp.pairs.find? fun x => x.1 == p && x.2.1 == name with
  | some x => x.2.2
  | none => (0, 0)

/-- A replicated learning has ended: one that was not learned is flagged (R544). -/
def shareDone (s : State) (st : BitVec 16) : State := if st = stOK ∨ st = stExisting then s else cluFlag s 3

/-- A replicated key is learned under R277 with the checks of R258, R267 and R107; a refusal sets REPL_REJ (Table 15.5). -/
def shareIn (s : State) (peer : Nat) (l : Learn) : State :=
  if weakSlot l.slot || !policyAdmits (s.plot l.plot).active l.slot.alg.toNat (derives l.slot.attr) 0 then cluFlag s 3
  else match learnFor s l (.share peer) with
    | (s1, some st) => shareDone s1 st
    | (s1, none) => s1

/-- SHARE_LEARN is received (R542, R544, Table 15.5). -/
def gotShare (u : ShareUpd) (s : State) (peer : Nat) : State :=
  match boundPlot s u.dtid with
  | none => s
  | some p =>
    let s0 := if s.clu.stamp.toNat < u.stamp.toNat then { s with clu := { s.clu with stamp := u.stamp } } else s
    let l := updLearn p u
    match kitFind s0 p u.name false with
    | none => shareIn s0 peer l
    | some i =>
      let e := kitAt s0.kp i
      let x := s0.slot e.slot
      let mine := pairOfEntry s0 p u.name
      let came := (u.stamp, u.origin.toNat)
      if !e.shared then shareIn s0 peer l
      else if x.material == u.material && x.alg == u.alg && x.attr == u.attr then
        (if pairLt came mine then
          { s0 with kp := { s0.kp with pairs := dropPair s0.kp.pairs p u.name ++ [(p, u.name, u.stamp, u.origin.toNat)] } }
         else s0)
      else if pairLt came mine then shareIn (cluFlag (dropEntry s0 i) 2) peer l
      else cluFlag s0 2

/-- SHARE_LEARN. -/
def execShareLearn (h : Hdr) (u : ShareUpd) (s : State) : Res := .next (receive s h (gotShare u))

/-- SHARE_FORGET is received: the entry goes where it holds the same pair (R542, R545). -/
def gotForget (dtid : W32) (name : W64) (stamp : BitVec 48) (origin : BitVec 12) (s : State) : State :=
  let s0 := if s.clu.stamp.toNat < stamp.toNat then { s with clu := { s.clu with stamp := stamp } } else s
  match boundPlot s0 dtid with
  | none => s0
  | some p =>
    match kitFind s0 p name false with
    | some i =>
      if (kitAt s0.kp i).shared ∧ pairOfEntry s0 p name = (stamp, origin.toNat) then dropEntry s0 i else s0
    | none => s0

/-- SHARE_FORGET. -/
def execShareForget (h : Hdr) (dtid : W32) (name : W64) (stamp : BitVec 48) (origin : BitVec 12) (s : State) : Res :=
  .next (receive s h fun s _ => gotForget dtid name stamp origin s)

/-- SYNC_REQ, from version 2: every SHARED entry of the tenant goes to the peer (R547). -/
def gotSync (dtid : W32) (s : State) (p : Nat) : State := sendShared s p dtid

/-- SYNC_REQ. -/
def execSyncReq (h : Hdr) (dtid : W32) (s : State) : Res := .next (receive s h (inV2 (gotSync dtid)))

/-! ### Shared claims -/

/-- CLAIM reaches its home: it is answered, or waits for the rehoming or the domain seed (R539, R549, R551). -/
def gotClaim (dtid : W32) (fp : BitVec 96) (s : State) (p : Nat) : State :=
  if homeHolds s dtid then { s with clu := { s.clu with heldClaims := s.clu.heldClaims ++ [(p, dtid, fp)] } }
  else serveClaim s p dtid fp

/-- CLAIM. -/
def execClaim (h : Hdr) (dtid : W32) (fp : BitVec 96) (s : State) : Res := .next (receive s h (gotClaim dtid fp))

/-- CLAIM_REPLY (R549 step 5, R550). -/
def execClaimReply (h : Hdr) (dtid : W32) (fp : BitVec 96) (a : ClaimAnswer) (s : State) : Res :=
  .next (receive s h fun s _ => claimAnswered s dtid fp a)

/-- REHOME: the fingerprints are recorded as claims are; the last message of a node ends its part (R551). -/
def gotRehome (dtid : W32) (fps : List (BitVec 96)) (last : Bool) (s : State) (p : Nat) : State :=
  let s1 := match boundPlot s dtid with
    | some q => fps.foldl (fun s fp => (rplRecord s q fp true false).1) s
    | none => s
  if last then rehomeDone s1 dtid p else s1

/-- REHOME. -/
def execRehome (h : Hdr) (dtid : W32) (fps : List (BitVec 96)) (last : Bool) (s : State) : Res :=
  .next (receive s h (gotRehome dtid fps last))

end Sys2Proof.Machine
end

