-- ==== Sys2Proof/Machine/Pair.lean ====
section
/-! DEFINITION. Yoked pairs at work (15): the copy to the standby, the forwarded stream, digests and acknowledgements, takeover
and swap, packed frames, and the dispatcher's step of an active and a standby (R113, R553 to R565). -/

namespace Sys2Proof.Machine

/-! ### Pairing (Table 15.6) -/

/-- The standby's cabinet takes the secrets of the active; their values are not seen (log 3), each is a new draw. -/
def takeCabinet (s : State) (ps : List Nat) : State :=
  let n0 := newSecret s 32
  let n1 := newSecret n0.1 96
  let n2 := newSecret n1.1 32
  let s1 := n2.1.setCab fun c => { c with crk := n0.2, vaultKey := n1.2, tagKey := n1.2 + 64, vaultSeed := n2.2 }
  ps.foldl (fun s p =>
    let n := newSecret s 6
    n.1.setSeed p n.2) (resealRegistries s1)

/-- One plot record of the active becomes a CREATED plot of the standby, with its programs, and goes to flash. -/
def takePlot (s : State) (c : PlotCopy) : State :=
  let p := c.id.val
  let pl : Plot := { armed := c.armed, acr := acrOf c.acr, active := c.active, shadow := c.shadow, shadowValid := c.shadowValid,
                     dtid := c.dtid, signers := c.signers, curves := c.curves.foldl (fun t x => tset [] x.1 x.2 t) [],
                     tickPeriod := polTick c.active + 1, tickDue := s.now + 1000 * (polTick c.active + 1) }
  let s1 := enterState (s.setPlot p pl) p .created
  let s2 := c.images.foldl (fun s b => match findGranules s (granules (imgCode b)) with
    | some g => placeImage s p b g
    | none => s) s1
  saveRecord s2 p

/-- The standby takes part (Table 15.6 step 2) where its own conditions of R552 hold, and says so; else it answers no. -/
def joinPair (s : State) (p : Nat) (i : PairInfo) : State :=
  if s.clu.willing && s.clu.peer == p && s.clu.pairAdm.isNone && pairOk s p && allAbsent s && pairAlike s i then
    let s1 := takeCabinet s (i.plots.map (·.id.val))
    let s2 := i.plots.foldl takePlot { s1 with clu := { s1.clu with syncing := true, willing := false } }
    sendMsg s2 p (.pairState (pairInfo s2 2 []))
  else sendMsg s p (.pairState (pairInfo s 0 []))

/-- PAIR_STATE is received: from the active it asks for a pair; from the standby it agrees and reports CLU_SWAP_BUF; ROLE 0
refuses a pair or ends one (R552, R563, R565). -/
def gotPairState (i : PairInfo) (s : State) (p : Nat) : State :=
  if i.role = 1 then joinPair s p i
  else if s.clu.peer ≠ p then s
  else if i.role = 2 then
    (if s.clu.pairAdm.isSome then
      (if pairAlike s i then { s with clu := { s.clu with willing := true, peerSwap := i.swapBuf } } else pairFail s)
    else { s with clu := { s.clu with peerSwap := i.swapBuf } })
  else if i.role = 0 then
    (if s.clu.pairAdm.isSome then pairFail s else if s.clu.role ≠ 0 then leavePair s else s)
  else s

/-- PAIR_STATE. -/
def execPairState (h : Hdr) (i : PairInfo) (s : State) : Res := .next (receive s h (gotPairState i))

/-- The slot and the entry of a copied key, its update pair with it. -/
def copyKey (k : KeyPlane) (c : PairKey) : KeyPlane :=
  let x : Slot := { used := true, material := c.material, attr := c.attr, alg := c.alg, len := c.len, kcv := c.kcv, entry := true,
                    asym := c.asym, vaulted := c.vaulted, plot := c.plot.val, expiry := c.expiry, uses := c.uses, pset := c.pset,
                    body := c.body }
  let e : KitEntry := { valid := true, name := c.name, plot := c.plot.val, slot := c.slot, stamp := c.stamp, age := c.age,
                        pinned := c.pinned, derived := c.derived, shared := c.shared, vaulted := c.vaulted }
  let k1 := kitPut { k with slots := tset Slot.zero c.slot (tagged k x) k.slots } c.place e
  match c.pair with
  | some (st, o) => { k1 with pairs := k1.pairs ++ [(c.plot.val, c.name, st, o.toNat)] }
  | none => k1

/-- A copied fingerprint. -/
def copyFp (r : Replay) (c : PairFp) : Replay :=
  rplPut r c.place { valid := true, fp := c.fp, plot := c.plot.val, stamp := c.stamp, shared := c.shared, claim := c.claim }

/-- A copied vault record. -/
def copyRec (t : Tbl VRec) (c : PairRec) : Tbl VRec :=
  let r : VRec :=
    { used := true, kind := c.kind, plot := c.plot.val, name := c.name, orderHi := c.orderHi, orderLo := c.orderLo,
      attr := c.attr, alg := c.alg, len := c.len, age := c.age, pinned := c.pinned, expiry := c.expiry, kcv := c.kcv,
      material := c.material, pset := c.pset, body := c.body, nonce := c.nonce }
  tset VRec.zero c.place r t

/-- Pool use of a plot counted from what was copied (R312). -/
def countUse (s : State) (p : Nat) (pl : Plot) : Plot :=
  { pl with kitUse := tcount (fun _ e => e.valid && e.plot == p) s.kp.kit + tcount (fun _ e => e.valid && e.plot == p) s.kp.ovf,
            kcUse := tcount (fun _ x => x.used && x.plot == p) s.kp.slots,
            rplUse := tcount (fun _ e => e.valid && e.plot == p) s.rpl.tbl + tcount (fun _ e => e.valid && e.plot == p) s.rpl.ovf,
            vltUse := (s.vlt.recs.filter fun x => x.2.used && x.2.plot == p).foldl (fun n x => n + vltCost x.2) 0 }

/-- The standby takes steps 3 and 4 of Table 15.6: the vault, the KIT and replay table with their seeds, the key cache, the
drill states and the plot transaction counters. -/
def takeCopy (s : State) (c : PairCopy) : State :=
  let n := newSecret s 64
  let kp0 : KeyPlane := { n.1.kp with kit := [], ovf := [], slots := [], pairs := [], seed := n.2, oldSeed := 0, run := false,
                                      sweep := 0 }
  let rpl0 : Replay := { n.1.rpl with tbl := [], ovf := [], seed := n.2 + 32 }
  let s1 := { n.1 with
    kp := c.keys.foldl copyKey kp0,
    rpl := c.fps.foldl copyFp rpl0,
    vlt := { n.1.vlt with recs := c.recs.foldl copyRec [], seq := c.vltSeq } }
  let s2 := c.plots.foldl (fun s x => s.modPlot x.1.val fun pl =>
    { pl with txcnt := x.2.1, drill := { inst := true, c := x.2.2 } }) s1
  { s2 with plots := tmap Plot.zero (countUse s2) s2.plots,
            rng := { s2.rng with reqs := s2.rng.reqs.filter fun r => match r with | .plot _ => false | .priv _ => true } }

/-- Forwarding starts at dispatch sequence 0 in a role (Table 15.6 step 5). -/
def beginPair (s : State) (role : BitVec 2) : State :=
  cluFlag { s with clu := { s.clu with
    role := role, syncing := false, willing := false, suspect := false, pairAdm := none, swapTest := 0, seq := 0, batch := 0,
    acked := 0, digests := [], closed := [], sent := [], stream := [], aborts := [], heldDig := [], lastHb := s.now } } 5

/-- Every completion so far counts as covered when the pair forms (R559, log 72). -/
def coverAll (s : State) : State :=
  { s with plots := tmap Plot.zero (fun _ pl => { pl with covered := pl.txcnt.setWidth 32 }) s.plots }

/-- PAIR_COPY_DONE: the copy ends, on the active and on the standby (R553). -/
def execPairCopyDone (c : PairCopy) (s : State) : Res :=
  .next (if !s.clu.syncing then s
    else match s.clu.pairAdm with
      | some d => if s.clu.willing then admOk (coverAll (beginPair s 1)) d else s
      | none => beginPair (takeCopy s c) 2)

/-! ### Admin outcomes on the standby (R554) -/

/-- The forwarded command as the standby's steward applies it: it writes no completion. -/
def outcomeAdm (o : PairOutcome) : Adm :=
  { code := o.code, tag := BitVec.ofNat 32 (fld o.desc 0 4), inlen := 72, inl := cut o.desc 4 72, silent := true }

/-- The removal of a plot on the standby. -/
def removeMirror (s : State) (d : Adm) : State :=
  let s1 := startReset (reserve s) d.pid .removing
  removalComplete (s1.modPlot d.pid fun pl => { pl with resetDone := true, removeWait := some d }) d.pid

/-- The key of a ceremony is learned on the standby (R479, R554). -/
def learnMirror (s : State) (d : Adm) (key : Bytes) : State :=
  let r := sharedLearn s (cerLearn d key)
  let q := learnKeyWalk r.1 r.2
  if q.2 = stOK ∨ q.2 = stExisting then event q.1 0x1013 d.pid (keyPayload r.2.name r.2.slot) else q.1

/-- What each forwarded outcome does to the standby's records and key plane. -/
def mirror (s : State) (d : Adm) (data : Bytes) : State :=
  let p := d.pid
  match d.code.toNat with
  | 0x101 => createPlot (reserve s) d
  | 0x102 => runOpen s d
  | 0x103 => runStop s d
  | 0x104 => saveRecord (s.modPlot p fun pl => { pl with armed := true }) p
  | 0x105 =>
    saveRecord (s.modPlot p fun pl => { pl with acr := acrOf d.acr, deficit := min pl.deficit (acrOf d.acr).weight }) p
  | 0x106 => saveRecord ((clearWindow s p).modPlot p fun pl => { pl with armed := false }) p
  | 0x107 => removeMirror s d
  | 0x108 => saveRecord (s.modPlot p fun pl => { pl with shadow := fit 512 data, shadowValid := true }) p
  | 0x109 => runCommit s d
  | 0x120 => addSigner s d (fit 97 data)
  | 0x121 => runSignerRemove s d
  | 0x122 => install s d data
  | 0x123 => runProgRemove s d
  | 0x130 => freeTombstones s p (fld d.inl 4 8)
  | 0x131 => (loadRecs p 512 data s 0 0).1
  | 0x140 => keepCurve s d (fit 488 data)
  | 0x141 => runCurveClear s d
  | 0x142 => loadPubkey s d data
  | 0x175 => learnMirror s d data
  | 0x1A3 => bindPlot s p (BitVec.ofNat 32 (fld d.inl 4 4))
  | _ => s

/-- An outcome is applied; the standby's own admin hopper sees nothing of it. -/
def applyAdmin (s : State) (o : PairOutcome) : State :=
  if o.ok then { mirror s (outcomeAdm o) (o.desc.drop 76) with adm := s.adm } else s

/-! ### The stream (R554 to R556) -/

/-- The yoke that runs the forwarded transaction of a sequence number. -/
def fwdYoke (s : State) (q : W64) : Option Nat :=
  (s.yokes.find? fun x => match x.2.tx with | some t => t.fwd && t.seqNo == q | none => false).map (·.1)

/-- Admin outcomes at the front of the stream are applied. -/
def settle : List Msg → State → State
  | .pairAdmin o :: rest, s => settle rest (applyAdmin s o)
  | l, s => { s with clu := { s.clu with stream := l } }

/-- XFER data a message carries for a dispatch. -/
def feedOf (q : W64) : Msg → Option Bytes
  | .pairStream d => if d.seq = q ∧ d.desc = [] then some d.staged else none
  | _ => none

/-- The standby's step: the dispatch at the front of the stream starts on a free yoke, with what has come for its XFERs; the
admin outcomes behind it follow (R554). -/
def streamStep (s : State) : State :=
  match s.clu.stream with
  | .pairStream d :: rest =>
    if d.desc = [] then settle rest s
    else match pickYoke s with
      | none => s
      | some y =>
        let feed := rest.filterMap (feedOf d.seq)
        let s1 := dispatchFwd (drawn s 1) d y
        let s2 := s1.modTx y fun t => if t.fwd ∧ t.seqNo = d.seq then { t with feed := feed } else t
        settle (rest.filter fun m => (feedOf d.seq m).isNone) s2
  | .pairAdmin o :: rest => settle rest (applyAdmin s o)
  | _ :: rest => settle rest s
  | [] => s

/-- DISPATCH: the dispatcher's step (R113, R114); a standby takes its dispatches from the stream (R554). -/
def execDispatch (s : State) : Res := .next (if standby s then streamStep s else dispatchStep s)

/-- A message of the active reaches its standby, which accepts no stream once it is held (R560, Table 15.7 step 1). -/
def fromActive (run : State → State) (s : State) (p : Nat) : State :=
  if s.clu.role = 2 ∧ s.clu.peer = p then run s else s

/-- XFER data reaches the program that waits for it, or is kept (R554). -/
def feedXfer (s : State) (y : Nat) (b : Bytes) : State :=
  match s.tx y with
  | none => s
  | some t => match t.wait with
    | .hostRead _ _ => xferRead s y (if b.isEmpty then .failed else .data b)
    | _ => s.modTx y fun t => { t with feed := t.feed ++ [b] }

/-- PAIR_STREAM is received. -/
def gotStream (d : PairDispatch) : State → Nat → State :=
  fromActive fun s =>
    let keep := { s with clu := { s.clu with stream := s.clu.stream ++ [.pairStream d] } }
    if d.desc = [] then
      match fwdYoke s d.seq with
      | some y => feedXfer s y d.staged
      | none => if s.clu.stream.isEmpty then s else keep
    else keep

/-- PAIR_STREAM. -/
def execPairStream (h : Hdr) (d : PairDispatch) (s : State) : Res := .next (receive s h (gotStream d))

/-- PAIR_ADMIN is received: applied at its place in the order of dispatch (R554). -/
def gotAdmin (o : PairOutcome) : State → Nat → State :=
  fromActive fun s =>
    if s.clu.stream.isEmpty then applyAdmin s o else { s with clu := { s.clu with stream := s.clu.stream ++ [.pairAdmin o] } }

/-- PAIR_ADMIN. -/
def execPairAdmin (h : Hdr) (o : PairOutcome) (s : State) : Res := .next (receive s h (gotAdmin o))

/-- A message is the dispatch of a sequence number. -/
def isDispatch (q : W64) : Msg → Bool
  | .pairStream d => d.seq == q && !d.desc.isEmpty
  | _ => false

/-- PAIR_ABORT is received: the copy stops at that boundary, or ends earlier by itself (R556). -/
def gotAbort (q bounds : W64) : State → Nat → State :=
  fromActive fun s =>
    match fwdYoke s q with
    | some y =>
      let s1 := s.modTx y fun t => { t with stopAt := some bounds }
      if (match s1.tx y with | some t => t.atStop | none => false) then stopCopy s1 y else s1
    | none =>
      if s.clu.stream.any (isDispatch q) then { s with clu := { s.clu with aborts := s.clu.aborts ++ [(q, bounds)] } } else s

/-- PAIR_ABORT. -/
def execPairAbort (h : Hdr) (seq boundaries : W64) (s : State) : Res := .next (receive s h (gotAbort seq boundaries))

/-! ### Digests and acknowledgements (R557 to R559) -/

/-- PAIR_DIGEST is received: the standby compares when its own is ready; the active meets a standby's digest only where the two
differ. -/
def gotDigest (first : W64) (n : Nat) (dg : Bytes) (s : State) (p : Nat) : State :=
  if s.clu.peer ≠ p then s
  else if standby s then digestCheck { s with clu := { s.clu with heldDig := s.clu.heldDig ++ [(first, n, dg)] } }
  else if s.clu.role = 1 ∧ batchDigest s first n ≠ some dg then diverge s first
  else s

/-- PAIR_DIGEST. -/
def execPairDigest (h : Hdr) (first : W64) (count : Nat) (digest : Bytes) (s : State) : Res :=
  .next (receive s h (gotDigest first count digest))

/-- COVERED of a plot: just below the lowest COUNT of an ended transaction of an unacknowledged batch, else the plot's count;
COUNTs are compared modulo 2^32 from the present COVERED (R559). -/
def coveredOf (s : State) (p : Nat) (pl : Plot) : W32 :=
  let counts := (s.clu.digests.filter fun d => d.2.1 == p && d.2.2.2.isSome).map (·.2.2.1)
  match counts with
  | [] => pl.txcnt.setWidth 32
  | c :: cs => cs.foldl (fun a b => if (b - pl.covered).toNat < (a - pl.covered).toNat then b else a) c - 1

/-- PAIR_ACK is received: the batch is acknowledged and COVERED advances (R557, R559). -/
def gotPairAck (first : W64) (n : Nat) (s : State) (p : Nat) : State :=
  if s.clu.role ≠ 1 ∨ s.clu.peer ≠ p ∨ s.clu.suspect ∨ !s.clu.sent.contains (first, n) then s
  else
    let s1 := forgetBatch { s with clu := { s.clu with sent := s.clu.sent.filter (· != (first, n)), acked := first } } first n
    { s1 with plots := tmap Plot.zero (fun p pl => { pl with covered := coveredOf s1 p pl }) s1.plots }

/-- PAIR_ACK. -/
def execPairAck (h : Hdr) (first : W64) (count : Nat) (s : State) : Res := .next (receive s h (gotPairAck first count))

/-- BATCH_CLOSE: 200 µs have passed without a dispatch (R557). -/
def execBatchClose (s : State) : Res := .next (if s.clu.role = 1 then closeBatch s else s)

/-! ### Heartbeats and takeover (R560, R561) -/

/-- HEARTBEAT is received. -/
def gotHeartbeat (s : State) (p : Nat) : State :=
  if s.clu.role ≠ 0 ∧ s.clu.peer = p then { s with clu := { s.clu with lastHb := s.now } } else s

/-- HEARTBEAT. -/
def execHeartbeat (h : Hdr) (_ _ : W64) (s : State) : Res := .next (receive s h gotHeartbeat)

/-- HEARTBEAT_SEND: a module of a pair sends its heartbeat on a live port: the last dispatch sequence and the last acknowledged
batch. -/
def execHeartbeatSend (k : PortId) (s : State) : Res :=
  .next (
    let p := s.clu.peer
    let x := s.sess p
    if s.clu.role = 0 ∨ x.hs ≠ .up ∨ !portUp s k.val then s
    else
      let q := x.txSeq + 1
      (emit s (msgFrame s k.val p q (.heartbeat (s.clu.seq - 1) s.clu.acked))).setSess p { x with txSeq := q })

/-- 500 µs after the last heartbeat. -/
def silence500 (s : State) : State := advanceTo s (s.clu.lastHb + 500)

/-- STANDBY_TAKEOVER: no heartbeat for 500 µs; the standby promotes itself, or is held (Table 15.7). -/
def execStandbyTakeover (s : State) : Res :=
  .next (
    if s.clu.role ≠ 2 then s
    else
      let s1 := silence500 s
      if s1.clu.suspect || s1.clu.hold then cluFlag { s1 with clu := { s1.clu with role := 3 } } 5 else leavePair s1)

/-- ACTIVE_UNPAIR: no heartbeat reaches the active for 500 µs (R561). -/
def execActiveUnpair (s : State) : Res := .next (if s.clu.role = 1 then leavePair (silence500 s) else s)

/-! ### Planned swap (Table 15.8) -/

/-- The DMA test of the new active: 4 KiB are written to CLU_SWAP_BUF and read back; whether they come back equal is the host's
side and open (log 3). -/
def swapTest (s : State) : State × Bool :=
  let b := freeBytes s.free 4096
  (drawn (issueRead (issueWrite s .pf0 s.clu.swapBuf b) .pf0 s.clu.swapBuf 4096) 4096, Config.freeBool (s.free + 4096))

/-- PAIR_SWAP is received: the standby becomes active and tests its host side; on a failure the roles swap back. -/
def gotSwap : State → Nat → State :=
  fromActive fun s =>
    let t := swapTest s
    let s1 := cluFlag (drawn t.1 1) 5
    if t.2 then
      openAll { s1 with clu := { s1.clu with role := 1, swapTest := 1, seq := 0, batch := 0, digests := [], closed := [], sent := [],
                                             lastHb := s1.now } }
    else { s1 with clu := { s1.clu with swapTest := 2 } }

/-- PAIR_SWAP. -/
def execPairSwap (h : Hdr) (s : State) : Res := .next (receive s h gotSwap)

/-- Nothing of the stream is unacknowledged. -/
def allAcked (s : State) : Bool := s.clu.batch == s.clu.seq && s.clu.closed.isEmpty && s.clu.sent.isEmpty

/-- The former active is the standby: its plots are CREATED with ARMED kept, and it reports its own CLU_SWAP_BUF. -/
def becomeStandby (s : State) : State :=
  let s1 := { s with clu := { s.clu with role := 2, swapTest := 1, seq := 0, batch := 0, digests := [], lastHb := s.now } }
  let one (s : State) (p : Nat) : State :=
    if (s.plot p).st = .stopped then
      enterState (s.modPlot p fun pl => { pl with reopen := false, openPend := false, version := 0 }) p .created
    else s
  let s2 := (s1.plots.map (·.1)).foldl one s1
  sendMsg (cluFlag s2 5) s2.clu.peer (.pairState (pairInfo s2 2 []))

/-- The swap fails: the plots return to OPEN, the command ends with detail 0x97. -/
def swapBack (s : State) (d : Adm) : State :=
  admFail (reopenPlots { s with lcs := { s.lcs with change := .none } }) d stPolicy 0x97

/-- SWAP_PLOTS_STOPPED: every plot is STOPPED and the last batch acknowledged; PAIR_SWAP is sent, and the new active's DMA test
passes or fails. Until then the open batch closes and the plots go on stopping. -/
def execSwapPlotsStopped (dmaOk : Bool) (s : State) : Res :=
  .next (
    match s.lcs.change with
    | .swap d =>
      if s.clu.role ≠ 1 || s.clu.suspect then swapBack s d
      else if !allStopped s then beginChange s (.swap d)
      else if !allAcked s then closeBatch s
      else
        let s1 := sendMsg s s.clu.peer .pairSwap
        if dmaOk then admOk (becomeStandby { s1 with lcs := { s1.lcs with change := .none } }) d
        else swapBack { s1 with clu := { s1.clu with swapTest := 2 } } d
    | _ => s)

/-! ### Packed frames (R533) -/

/-- One message of a packed frame. -/
def gotMsg (s : State) (p : Nat) : Msg → State
  | .heartbeat _ _ => gotHeartbeat s p
  | .ack l => gotAck l s p
  | .bind l => gotBind l s p
  | .shareLearn u => gotShare u s p
  | .shareForget d n st o => gotForget d n st o s
  | .syncReq d => inV2 (gotSync d) s p
  | .claim d fp => gotClaim d fp s p
  | .claimReply d fp a => claimAnswered s d fp a
  | .rehome d l z => gotRehome d l z s p
  | .pairState i => gotPairState i s p
  | .pairStream d => gotStream d s p
  | .pairAdmin o => gotAdmin o s p
  | .pairAbort q b => gotAbort q b s p
  | .pairDigest f n d => gotDigest f n d s p
  | .pairAck f n => gotPairAck f n s p
  | .pairSwap => gotSwap s p

/-- PACKED: up to 16 messages in one frame, from version 2 (R533). -/
def execPacked (h : Hdr) (ms : List Msg) (s : State) : Res :=
  .next (receive s h (inV2 fun s p => if ms.length ≤ 16 then ms.foldl (fun s m => gotMsg s p m) s else s))

end Sys2Proof.Machine
end

