-- ==== Sys2Proof/Machine/Power.lean ====
section
/-! DEFINITION. Supplies, resets by pin, PLLs, power states and clock gating (01, 17). -/

namespace Sys2Proof.Machine

/-! ### Supplies -/

/-- MAIN_POWER_GOOD: VIN, VIO and PWRGD are good; CON_LVL is sampled, the power-cycle count advances and a start begins
(R426, R491, R493, R580, R591). VIN outside 10.8 V to 13.2 V gives none (Table 0.1, R591). A SCRAPPED or LOST module stays as it is
(R487, R492). -/
def execMainPowerGood (p : PowerPins) (s : State) : Res :=
  .next (if s.pwr.good || decide (p.vinMv.toNat < 10800) || decide (13200 < p.vinMv.toNat) || s.pwr.shutdown || !s.pwr.vio || !s.kpr.powered || s.lcs.phase == .inert || s.lcs.trimBlown then s
    else
      let s1 := { s with
        pwr := { s.pwr with good := true, pwrgd := true, conLvl := p.conLvl, vin := p.vinMv.toNat },
        lcs := { s.lcs with phase := .reset, cause := 0, since := s.now },
        kpr := { s.kpr with pwrcyc := s.kpr.pwrcyc + 1 },
        link := { s.link with trained := !s.link.perst } }
      bootRng s1)

/-- A record write may be under way as power goes: the slot at the write position is then torn, and what it held is gone; its
SEQ and TAG are the base (R517, R519). Whether one is under way is a free choice (log 3). -/
def tearSlot (s : State) : State :=
  let e := s.evr
  if Config.freeBool s.free && decide (1 ≤ room e) && e.epoch.isSome then
    let old := tget EvRec.zero e.recs e.wpos
    let e1 := if old.used then { e with baseSeq := old.seq, baseTag := old.tag } else e
    { drawn s 1 with evr := { e1 with torn := true, recs := tset EvRec.zero e.wpos EvRec.zero e1.recs } }
  else drawn s 1

/-- The main die stops as on loss of main power: everything volatile is zeroised (R32). -/
def powerOff (s : State) : State :=
  wipe (tearSlot s) false false (if s.lcs.phase = .inert then .inert else .off)

/-- As main power falls, a battery below 1.5 V trips the keeper's supply sensor (R421). -/
def supplyTrip (s : State) : State :=
  if s.kpr.kvbat < 1500 then trip s 4 (BitVec.ofNat 8 (s.kpr.temp.toInt / 10 % 256).toNat) else s

/-- MAIN_POWER_LOSS: PWRGD low, or VIN out of range (R592); it also ends a thermal shutdown, in which KRAIL still held the keeper's
node (R417, R599). -/
def execMainPowerLoss (s : State) : Res :=
  .next (
    let s0 := { s with pwr := { s.pwr with pwrgd := false, shutdown := false } }
    if s.pwr.good then supplyTrip (powerOff s0) else if s.pwr.shutdown then supplyTrip s0 else s0)

/-- THERMAL_SHUTDOWN: the junction reaches 112 °C; the module stops as on loss of main power and stays in KEEP (R599). -/
def execThermalShutdown (s : State) : Res :=
  .next (if s.pwr.good then
      let s1 := powerOff s
      { s1 with pwr := { s1.pwr with shutdown := true } }
    else s)

/-- The reset of MRST_N: the volatile key plane is zeroised and the module starts again, its PCIe link with it (Table 13.3);
after a thermal shutdown the start is a main power-on's but for the count (R599). -/
def mrstReset (s : State) : State :=
  if s.lcs.phase = .inert then s
  else if s.pwr.shutdown then
    bootRng { s with pwr := { s.pwr with shutdown := false, good := true },
                     lcs := { s.lcs with phase := .reset, cause := 1, since := s.now },
                     link := { s.link with trained := !s.link.perst } }
  else if s.pwr.good then restart s 1 false 7
  else s

/-- MRST_N: a low pulse. Under 1 µs it is ignored, from 10 µs on it is a reset, between them either (R595). Without VIO the
module treats MRST_N as released (R593). -/
def execMrstN (pulse : MrstPulse) (s : State) : Res :=
  .next (if !s.pwr.vio then s
    else match pulse with
      | .long => mrstReset s
      | .short => s
      | .middle => if Config.freeBool s.free then mrstReset (drawn s 1) else drawn s 1)

/-- VIO_LOSS: service goes on; MOD_OK, the LEDs, SMBus and JTAG stop (R593). -/
def execVioLoss (s : State) : Res := .next { s with pwr := { s.pwr with vio := false } }

/-- VIO_RETURN: PWRGD is read again, and the SMBADR straps where VIO was absent (R444, R593). -/
def execVioReturn (p : VioPins) (s : State) : Res :=
  let s1 := { s with pwr := { s.pwr with vio := true, smbadr := if s.pwr.vio then s.pwr.smbadr else p.smbadr } }
  if !p.pwrgd then execMainPowerLoss s1 else .next { s1 with pwr := { s1.pwr with pwrgd := true } }

/-- HOLDUP_STORE_CHARGED: the store is charged, which the admin hopper waits for (R594, Table 13.2 step 10). -/
def execHoldupStoreCharged (s : State) : Res :=
  .next (if s.pwr.good then goLive { s with pwr := { s.pwr with charged := true } } else s)

/-! ### PLLs and power states -/

/-- PLLs that run in DOZE: the fabric PLL, and the Reile PLLs while a port is up (Table 1.3). -/
def dozePll (s : State) (k : Nat) : Bool := k == 0 || (k == 5 && (portUp s 0 || portUp s 1))

/-- In DOZE the PCIe link is in L1 (Table 1.4). -/
def linkL1 (s : State) : Bool := s.pwr.doze && s.link.trained

/-- PLL_LOCK: a PLL is locked and its units can run; the vault leaves self-refresh with its PLL (R25, R29, R31). -/
def execPllLock (pll : Fin 6) (s : State) : Res :=
  .next (if s.pwr.good && !s.pwr.shutdown && (!s.pwr.doze || dozePll s pll.val) then
      let s1 := { s with pwr := { s.pwr with pll := s.pwr.pll ||| BitVec.ofNat 6 (2 ^ pll.val) } }
      if pll.val = 4 then { s1 with vlt := { s1.vlt with selfRefresh := false } } else s1
    else s)

/-- No transaction or admin command is in flight (R28). -/
def quiet (s : State) : Bool :=
  s.yokes.all (fun x => x.2.tx.isNone) && s.adm.queue.isEmpty && s.adm.hop.inflight == 0 &&
    s.plots.all (fun x => x.2.hoppers.all fun h => h.2.acc.isEmpty || h.2.halted)

/-- DOZE_ENTRY: FLOOR permits it, nothing is in flight, and no doorbell has come for DOZE_DELAY ms (R28); the DRAM goes into
self-refresh and the PLLs stop (R31). -/
def execDozeEntry (s : State) : Res :=
  .next (if s.pwr.good && s.lcs.phase == .full && s.pwr.floor == 0 && quiet s && !s.pwr.doze then
      let s1 := advanceTo s (s.disp.lastDb + 1000 * max 1 s.pwr.dozeDelay.toNat)
      let up := (List.range 6).foldl (fun n k => n + flag (dozePll s k && s.pwr.pll.getLsbD k) k) 0
      { s1 with pwr := { s1.pwr with doze := true, pll := BitVec.ofNat 6 up }, vlt := { s1.vlt with selfRefresh := true } }
    else s)

/-- PWR_POLICY_WRITE: the manager writes PWR_POLICY; a FLOOR above 0 leaves DOZE (Table 1.5, 01). -/
def execPwrPolicyWrite (value : W32) (s : State) : Res :=
  .next (if reach s .pf0 then
      let f := value.extractLsb' 0 2
      { s with pwr := { s.pwr with dozeDelay := value.extractLsb' 16 16, floor := f, doze := s.pwr.doze && f == 0 } }
    else s)

/-- A unit has work (R609). -/
def busy (s : State) : UnitId → Bool
  | .yoke y => (s.tx y.val).isSome
  | .lane l => (List.range 8).any fun c => let x := s.ctx (8 * l.val + c); x.job.isSome || x.bound != .free
  | .engine e =>
    (s.eslot (2 * e.val)).job.isSome || (s.eslot (2 * e.val + 1)).job.isSome || (s.mac e.val).tx.isSome

/-- UNIT_GATE: a unit without work for 4 µs gates its clock, unless FLOOR holds ACTIVE (R27, R609); the current falls, and engine job
starts that were held back may go (R584). -/
def execUnitGate (u : UnitId) (s : State) : Res :=
  .next (if !s.pwr.good || busy s u || decide (2 ≤ s.pwr.floor.toNat) then s
    else
      let s1 := gate u s
      if s.pwr.vin < 11400 then pumpEng s1 else s1)
where
  /-- The clock of a unit gates. -/
  gate (u : UnitId) (s : State) : State :=
    match u with
      | .yoke y => { s with pwr := { s.pwr with gatedY := s.pwr.gatedY ||| BitVec.ofNat 64 (2 ^ y.val) } }
      | .lane l => { s with pwr := { s.pwr with gatedL := s.pwr.gatedL ||| BitVec.ofNat 32 (2 ^ l.val) } }
      | .engine e => { s with pwr := { s.pwr with gatedE := s.pwr.gatedE ||| BitVec.ofNat 32 (2 ^ e.val) } }

/-- LED_ACT sinks current: some plot is OPEN and a transaction has completed within the last 100 ms (R581). -/
def ledActPin (s : State) : Bool := s.pwr.good && s.pwr.ledAct && s.plots.any fun x => x.2.st == .opened

/-- LED_FLT sinks current: in fallow mode, or while a yoke, a lane or an engine is retired (R581). -/
def ledFltPin (s : State) : Bool :=
  s.pwr.good && (s.lcs.fallow || s.yreg.retired != 0 || s.lan.retired != 0 || s.pke.retired != 0)

/-- LED_TMP sinks current: main power is present and TAMPERED = 1 (R581). -/
def ledTmpPin (s : State) : Bool := s.pwr.good && s.kpr.tampered

/-- LED_ACT_TIMEOUT: 100 ms without a completed transaction (R581). -/
def execLedActTimeout (s : State) : Res := .next { s with pwr := { s.pwr with ledAct := false } }

end Sys2Proof.Machine
end

