-- ==== Sys2Proof/Machine/Recorder.lean ====
section
/-! DEFINITION. The export of the event recorder and its acknowledgement (14, R519, R522, R523). -/

namespace Sys2Proof.Machine

/-- The oldest record that no EVR_ACK has covered. -/
def oldestOpen (e : Recorder) : Option W32 :=
  e.recs.foldl (fun best x =>
    if x.2.used && !exported e x.2 then
      match best with
      | none => some x.2.seq
      | some q => if (e.seq - q).toNat < (e.seq - x.2.seq).toNat then some x.2.seq else best
    else best) none

/-- The record with a SEQ, where the ring holds it. -/
def recordAt (e : Recorder) (q : W32) : Option EvRec :=
  match e.recs.find? fun x => x.2.used && x.2.seq == q with
  | some x => some x.2
  | none => none

/-- Up to `n` consecutive records from a SEQ. -/
def recordsFrom (e : Recorder) : Nat → W32 → List EvRec
  | 0, _ => []
  | n + 1, q => match recordAt e q with
    | some r => r :: recordsFrom e n (q + 1)
    | none => []

/-- The first SEQ an export copies (R522). -/
def exportFrom (e : Recorder) (q : W32) : W32 :=
  if q = 0 || (recordAt e q).isNone then (oldestOpen e).getD e.seq else q

/-- Bytes 0 to 127 of the export seal (Table 14.4). -/
def sealHead (e : Recorder) (first : W32) (rs : List EvRec) : Bytes :=
  [0x45, 0x56, 0x52, 0x53, 1, 0, 0, 0] ++ le 8 Config.serial.toNat ++ fit 16 (freeBytes (e.epoch.getD 0) 16) ++
    le 4 first.toNat ++ le 4 rs.length ++ le 4 e.baseSeq.toNat ++ le 4 0 ++ fit 8 e.baseTag ++
    fit 8 ((rs.getLast?.map (·.tag)).getD []) ++ fit 48 (Config.hash 2 (rs.flatMap EvRec.bytes)) ++ List.replicate 16 0

/-- EVR_EXPORT past its gates: the seal and as many records as fit; EVR_READ rises to the last one copied (R522). -/
def runExport (s : State) (d : Adm) : State :=
  let e := s.evr
  let first := exportFrom e (BitVec.ofNat 32 (fld d.inl 4 4))
  let rs := recordsFrom e ((d.resLen - 224) / 64) first
  let head := sealHead e first rs
  let s1 := drawn s 1
  let last := first + BitVec.ofNat 32 (rs.length - 1)
  let s2 := if rs.isEmpty || (e.anyRead && decide ((e.read - last).toNat < 2 ^ 31)) then s1
    else { s1 with evr := { e with read := last, anyRead := true } }
  admResult s2 d (head ++ fit 96 (Config.attestSign head s.free) ++ rs.flatMap EvRec.bytes)

/-- EVR_EXPORT. -/
def execEvrExport (s : State) : Res :=
  .next (admin 0x190 true true always (fun _ d => d.inlen == 8 && noPlot d && decide (288 ≤ d.resLen) && decide (d.resLen ≤ 65536))
    always always runExport s)

/-- EVR_ACK past its gates: every record up to the operand is exported, and the act is recorded (R519, R523). -/
def runAck (s : State) (d : Adm) : State :=
  let e := s.evr
  let q : W32 := BitVec.ofNat 32 (fld d.inl 4 4)
  if !e.anyRead || decide ((e.read - e.acked).toNat < (q - e.acked).toNat) then admFail s d stPolicy 0x80
  else admOk (event { s with evr := { e with acked := q, anyAck := true } } 0x3024 modScope (le 4 q.toNat)) d

/-- EVR_ACK: with an Auditor session of the manager once its registry holds an Auditor card (R523). -/
def execEvrAck (s : State) : Res :=
  .next (admin 0x191 true true always (fun _ d => d.inlen == 8 && noPlot d) always
    (fun s _ => !holdsCard s modScope 4 || sessionLive s modScope 4) runAck s)

end Sys2Proof.Machine
end

