-- ==== Sys2Proof/Machine/Rng.lean ====
section
/-! DEFINITION. The noise sources, the conditioner, the steward's random port and raw-sample mode (10). -/

namespace Sys2Proof.Machine

/-! ### The steward's port -/

/-- The staging buffer takes what the selected drill gives now: after a fresh reseed where PR asked for one, else one
generate request once fewer than 8 bytes are left (R407, R408). -/
def stageRandom (s : State) : State :=
  let k := s.stw.sel.toNat
  let fill (s : State) : State :=
    { drawn s 64 with stw := { s.stw with buf := freeBytes s.free 64, prPend := false } }
  if s.stw.prPend then (let r := keyGen s k; if r.2 then fill r.1 else r.1)
  else if s.stw.buf.length < 8 && privReady s k then fill (privGen s k)
  else s

/-- RNG_SCTL_PR: the staging buffer is discarded and refilled after a fresh reseed (R408). -/
def execRngSctlPr (s : State) : Res := .next (stageRandom { s with stw := { s.stw with buf := [], prPend := true } })

/-- RNG_SCTL_SEL: another drill is selected and the staging buffer is discarded; a PR that waited is at its end (R407). -/
def execRngSctlSel (sel : BitVec 2) (s : State) : Res :=
  .next (stageRandom (settleWaits { s with stw := { s.stw with sel := sel, buf := [], prPend := false } }))

/-- RNG_DATA_READ: the steward has 8 bytes, which are consumed; an empty buffer reads 0 and counts an underrun (R407, R409). -/
def execRngDataRead (s : State) : Res :=
  .next (if 8 ≤ s.stw.buf.length then
      stageRandom { s with stw := { s.stw with rngOut := BitVec.ofNat 64 (fld s.stw.buf 0 8), buf := s.stw.buf.drop 8 } }
    else { s with stw := { s.stw with rngOut := 0, underrun := true, underrunCnt := bump s.stw.underrunCnt } })

/-! ### Claim and conditioner -/

/-- The claim is evaluated again: its loss discards the buffer and is flagged and recorded; so is its return (R399). -/
def evalClaim (s : State) : State :=
  let met := claimMet s
  if s.rng.claim && !met then
    let s1 := rngEvent { s with rng := { s.rng with claim := false, halves := [] } } 1
    event s1 0x0021 modScope (le 4 (condStat s1))
  else if !s.rng.claim && met then
    let s1 := { s with rng := { s.rng with claim := true } }
    if tget 0 s.rng.eventCnt 1 = 0 then s1 else event s1 0x0022 modScope (le 4 (condStat s1))
  else s

/-- The first epoch of a fallow start, which waits for no random number, opens as P0 comes up (R409, R515, log 130). -/
def fallowEpoch (s : State) : State := if s.lcs.fallow then newEpoch s else s

/-- CONDITIONER_BLOCK: a 512-bit block is delivered into the buffer of 8 while the claim is met (R398, R399); it serves what
waits: seedings, the steward's port, a session handshake, a debug grant, the start that restores plots (R400, R409, R535). -/
def execConditionerBlock (s : State) : Res :=
  .next (if s.pwr.good && s.rng.claim && !s.rng.raw then
      fallowEpoch (grantOn (hsPump (stageRandom (finishRestore (pump (condBlock s))))))
    else s)

/-! ### Sources -/

/-- HEALTH_TEST_FAILURE: a LIVE source delivers samples on which its repetition count or adaptive proportion test fails (R395,
Table 10.3 steps 1, 2); samples on which neither fails change nothing. -/
def execHealthTestFailure (i : Fin 20) (samples : List Bool) (s : State) : Res :=
  .next (if s.pwr.good && (s.src i.val).st == .live && testFail s i.val samples != 0 then
      let x := s.src i.val
      let t := testFail s i.val samples
      let s1 := s.setSrc i.val { x with st := .excluded, lastTest := t, failCnt := bump x.failCnt }
      evalClaim (event (rngEvent s1 0) 0x0020 modScope (le 1 i.val ++ le 1 t.toNat))
    else s)

/-- SOURCE_RETEST_START: 1 s after a failure an EXCLUDED source is tested again (Table 10.3 step 3). -/
def execSourceRetestStart (i : Fin 20) (s : State) : Res :=
  .next (if s.pwr.good && (s.src i.val).st == .excluded then s.setSrc i.val { s.src i.val with st := .starting } else s)

/-- STARTUP_TEST_END: the startup test has run both tests over 1,024 consecutive samples. A pass makes the source LIVE; a failure
excludes it, and the 16th retest that fails in a row makes it DEAD (R395, R396, Table 10.3 step 4). The first test of a start is no
retest. -/
def execStartupTestEnd (i : Fin 20) (samples : List Bool) (s : State) : Res :=
  if samples.length ≠ 1024 then .fault .malformed
  else .next (let x := s.src i.val
    if !s.pwr.good || x.st != .starting then s
    else if testFail s i.val samples = 0 then evalClaim (s.setSrc i.val { x with st := .live, retests := 0 })
    else
      let n := if x.lastTest = 0 then 0 else x.retests + 1
      s.setSrc i.val { x with st := if 16 ≤ n then .dead else .excluded, retests := n, lastTest := 1 })

/-- CLAIM_START_TIMEOUT: 1.1 s after main power good the claim is not met and the start fails (R410). -/
def execClaimStartTimeout (s : State) : Res :=
  .next (
    if (s.lcs.phase == .starting || s.lcs.phase == .live) && !s.lcs.fallow && !s.rng.claim then startFail s 0x03 0xE0 true
    else if s.lcs.phase == .reset && s.pwr.good && !s.pwr.shutdown && !s.rng.claim then
      let s1 := countStart s
      if fallowStart s1 then s else startFail s1 0x03 0xE0 false
    else s)

/-! ### Mask keys -/

/-- MASK_KEY_REFRESH: a lane or engine takes a new mask key from P3, or goes on with its old one (R405). -/
def execMaskKeyRefresh (u : UnitId) (s : State) : Res :=
  .next (
    let go (put : State → Nat → State) : State :=
      if privReady s 3 then (let r := newSecret (privGen s 3) 32; put r.1 r.2) else rngEvent s 3
    match u with
    | .yoke _ => s
    | .lane l => go fun s k => { s with lan := { s.lan with maskNo := tset 0 l.val k s.lan.maskNo } }
    | .engine e => go fun s k => { s with pke := { s.pke with maskNo := tset 0 e.val k s.pke.maskNo } })

/-! ### Raw-sample mode -/

/-- The quorum of RNG_RAW_CAPTURE: a Security Officer session of the manager in CUSTODY and OPERATIONAL (R413). -/
def rawQuorum (s : State) (d : Adm) : Bool := (s.lcs.state != 2 && s.lcs.state != 3) || managerSO s d

/-- RNG_RAW_CAPTURE past its gates: the drills and the conditioner stop and the capture begins (Table 10.7 steps 1, 2). -/
def runRaw (s : State) (d : Adm) : State :=
  let src := byteAt d.inl 4
  let s1 := event s 0x3022 modScope (le 1 src ++ le 4 d.resLen)
  rngEvent { s1 with rng := { s1.rng with raw := true, halves := [], capture := some (src, d) } } 2

/-- RNG_RAW_CAPTURE; while one capture runs the steward runs no other command (R99). -/
def execRngRawCapture (s : State) : Res :=
  .next (if s.rng.raw then s
    else admin 0x150 false false always (fun _ d => d.inlen == 5 && noPlot d && decide (byteAt d.inl 4 ≤ 19) &&
      decide (1 ≤ d.resLen) && decide (d.resLen ≤ 65536)) always rawQuorum runRaw s)

/-- Every drill is marked to reseed before its next output and queues at once (Table 10.7 step 4). -/
def markAll (s : State) : State :=
  let s1 := [0, 1, 2, 3].foldl (fun s k =>
    if (s.priv k).inst then
      let s1 := if (s.priv k).fresh then { s with rng := { s.rng with prWait := s.rng.prWait ||| BitVec.ofNat 4 (2 ^ k) } } else s
      wantSeed (s1.modPriv k fun d => { d with must := true, queued := true, fresh := false }) (.priv k)
    else s) s
  (s1.plots.map (·.1)).foldl markReseed s1

/-- RAW_CAPTURE_END: the samples, packed as Table 10.7 says, are in the result buffer, the mode ends and the command
completes (Table 10.7 steps 3 to 5). -/
def execRawCaptureEnd (samples : List Bool) (s : State) : Res :=
  .next (match s.rng.capture with
    | none => s
    | some (_, d) =>
      let s1 := markAll { s with rng := { s.rng with raw := false, capture := none } }
      admResult s1 d (fit d.resLen (packBits samples)))

/-- ADMIN_BOUND_EXPIRED: a command whose key generation still waits at its time bound ends with NO_ENTROPY (R411). -/
def execAdminBoundExpired (s : State) : Res :=
  .next (match s.rng.keyWait, s.adm.queue with
    | some d, _ :: rest =>
      admFail (keyServed { s with adm := { s.adm with queue := rest } }) d stNoEntropy 0
    | _, _ => s)

end Sys2Proof.Machine
end

