-- ==== Sys2Proof/Machine/Shelves.lean ====
section
/-! DEFINITION. The multiply-accumulate commands of Table 9.12 (R387 to R389): the command at the front of an attached
engine's queue runs to its end. -/

namespace Sys2Proof.Machine

/-- A shelf of L bits takes a value. -/
def Mac.put (m : Mac) (l i v : Nat) : Mac := { m with shelves := tset 0 i (v % 2 ^ l) m.shelves }

/-- The front command of engine e's queue, where it has the given OP: it runs and leaves the queue (R387). -/
def macCmd (op : Nat) (run : State → Nat → Mac → W64 → State × Mac) (e : EngId) (s : State) : Res :=
  let m := s.mac e.val
  .next (match m.queue with
    | [] => s
    | w :: rest =>
      if m.tx.isSome && !m.detach && pcOp w == op then
        let r := run s (shelfLen s e.val) m w
        r.1.modMac e.val fun _ => { r.2 with queue := rest }
      else s)

/-- A command that writes one shelf from what the shelves hold. -/
def macPut (op : Nat) (f : Nat → Mac → W64 → Nat) (e : EngId) (s : State) : Res :=
  macCmd op (fun s l m w => (s, m.put l (pcD w) (f l m w))) e s

/-- ZERO. -/
def execZero (e : EngId) (s : State) : Res := macPut 0x01 (fun _ _ _ => 0) e s
/-- COPY. -/
def execCopy (e : EngId) (s : State) : Res := macPut 0x02 (fun _ m w => shelf m (pcA w)) e s

/-- MPREP: the context becomes M and D becomes ρ² mod M; an even modulus, or one below 2, sets BADMOD and leaves no
context, and what D then holds is open (R387 to R389, log 3). -/
def execMprep (e : EngId) (s : State) : Res :=
  macCmd 0x03 (fun s l m w =>
    let n := shelf m (pcM w)
    if n % 2 = 0 ∨ n < 2 then
      (drawn s (l / 8), { m.put l (pcD w) (leNat (freeBytes s.free (l / 8))) with modulus := none, badmod := true })
    else (s, { m.put l (pcD w) (2 ^ (2 * l) % n) with modulus := some n })) e s

/-- Half of a value modulo an odd modulus, `k` times over: v·2⁻ᵏ mod n. -/
def halveMod (n : Nat) : Nat → Nat → Nat
  | 0, v => v
  | k + 1, v => halveMod n k (if v % 2 = 0 then v / 2 else (v + n) / 2)

/-- A modular command: D is 0 while no context exists (R389). -/
def modCmd (op : Nat) (f : Nat → Nat → Nat → Nat → Nat) (e : EngId) (s : State) : Res :=
  macPut op (fun l m w => match m.modulus with
    | none => 0
    | some n => f l n (shelf m (pcA w)) (shelf m (pcB w))) e s

/-- MMUL: A·B·ρ⁻¹ mod M. -/
def execMmul (e : EngId) (s : State) : Res := modCmd 0x04 (fun l n a b => halveMod n l (a * b % n)) e s
/-- MADD. -/
def execMadd (e : EngId) (s : State) : Res := modCmd 0x05 (fun _ n a b => (a + b) % n) e s
/-- MSUB. -/
def execMsub (e : EngId) (s : State) : Res := modCmd 0x06 (fun _ n a b => (a % n + (n - b % n)) % n) e s

/-- MAC: D + 1 and D take their sum with A·B; a carry out of 2L bits sets CARRY. -/
def execMac (e : EngId) (s : State) : Res :=
  macCmd 0x07 (fun s l m w =>
    let v := shelf m (pcD w + 1) * 2 ^ l + shelf m (pcD w) + shelf m (pcA w) * shelf m (pcB w)
    (s, { (m.put l (pcD w) v).put l (pcD w + 1) (v / 2 ^ l) with carry := m.carry || decide (2 ^ (2 * l) ≤ v) })) e s

/-- q of a command. -/
def pcq (w : W64) : Nat := if pcQ w then 8380417 else 3329
/-- Bits of a coefficient. -/
def coefBits (w : W64) : Nat := if pcQ w then 32 else 16

/-- The 256 coefficients of a shelf, modulo q (R388). -/
def coefs (w : W64) (v : Nat) : List Nat := (List.range 256).map fun i => v / 2 ^ (coefBits w * i) % 2 ^ coefBits w % pcq w

/-- A shelf's value from coefficients. -/
def pack (w : W64) : List Nat → Nat
  | [] => 0
  | c :: cs => c % pcq w + 2 ^ coefBits w * pack w cs

/-- The bits of a number reversed, of `n`. -/
def bitRev : Nat → Nat → Nat
  | 0, _ => 0
  | n + 1, v => v % 2 * 2 ^ n + bitRev n (v / 2)

/-- ζ to the bit-reversed exponent i: 17 over 7 bits for FIPS 203, 1753 over 8 bits for FIPS 204. -/
def zeta (w : W64) (i : Nat) : Nat := if pcQ w then 1753 ^ bitRev 8 i % 8380417 else 17 ^ bitRev 7 i % 3329

/-- One layer of the forward NTT: blocks of 2·len coefficients, block b of `n` with ζ number n + b. -/
def nttLayer (w : W64) (len : Nat) : Nat → Nat → List Nat → List Nat
  | 0, _, f => f
  | k + 1, i, f =>
    let a := f.take len
    let t := ((f.drop len).take len).map (zeta w i * · % pcq w)
    ((a.zip t).map fun x => (x.1 + x.2) % pcq w) ++ ((a.zip t).map fun x => (x.1 + (pcq w - x.2)) % pcq w) ++
      nttLayer w len k (i + 1) (f.drop (2 * len))

/-- The forward NTT of FIPS 203 or FIPS 204: layers of len 128 and down, to 2 or to 1. -/
def ntt (w : W64) (f : List Nat) : List Nat :=
  (if pcQ w then [128, 64, 32, 16, 8, 4, 2, 1] else [128, 64, 32, 16, 8, 4, 2]).foldl
    (fun f len => nttLayer w len (128 / len) (128 / len) f) f

/-- One layer of the inverse NTT: ζ numbers fall from i. -/
def inttLayer (w : W64) (len : Nat) : Nat → Nat → List Nat → List Nat
  | 0, _, f => f
  | k + 1, i, f =>
    let x := (f.take len).zip ((f.drop len).take len)
    (x.map fun x => (x.1 + x.2) % pcq w) ++ (x.map fun x => zeta w i * (x.2 + (pcq w - x.1)) % pcq w) ++
      inttLayer w len k (i - 1) (f.drop (2 * len))

/-- The inverse NTT of FIPS 203 or FIPS 204, with its factor 128⁻¹ or 256⁻¹. -/
def intt (w : W64) (f : List Nat) : List Nat :=
  ((if pcQ w then [1, 2, 4, 8, 16, 32, 64, 128] else [2, 4, 8, 16, 32, 64, 128]).foldl
    (fun f len => inttLayer w len (128 / len) (256 / len - 1) f) f).map ((if pcQ w then 8347681 else 3303) * · % pcq w)

/-- The base-case products of FIPS 203 of two polynomials in the NTT domain, two coefficients at a time. -/
def baseMul : Nat → List Nat → List Nat → List Nat
  | i, a0 :: a1 :: a, b0 :: b1 :: b =>
    (a0 * b0 + a1 * b1 % 3329 * (17 ^ (2 * bitRev 7 i + 1) % 3329)) % 3329 :: (a0 * b1 + a1 * b0) % 3329 :: baseMul (i + 1) a b
  | _, _, _ => []

/-- NTT (R388). -/
def execNtt (e : EngId) (s : State) : Res := macPut 0x08 (fun _ m w => pack w (ntt w (coefs w (shelf m (pcA w))))) e s
/-- INTT (R388). -/
def execIntt (e : EngId) (s : State) : Res := macPut 0x09 (fun _ m w => pack w (intt w (coefs w (shelf m (pcA w))))) e s

/-- Two polynomials joined coefficient by coefficient. -/
def zipCoefs (f : Nat → Nat → Nat) (m : Mac) (w : W64) : List Nat :=
  ((coefs w (shelf m (pcA w))).zip (coefs w (shelf m (pcB w)))).map fun x => f x.1 x.2

/-- PWMUL: base-case multiplication for 3329, pointwise for 8380417. -/
def execPwmul (e : EngId) (s : State) : Res :=
  macPut 0x0A (fun _ m w => pack w (if pcQ w then zipCoefs (· * ·) m w
    else baseMul 0 (coefs w (shelf m (pcA w))) (coefs w (shelf m (pcB w))))) e s
/-- PADD. -/
def execPadd (e : EngId) (s : State) : Res := macPut 0x0B (fun _ m w => pack w (zipCoefs (· + ·) m w)) e s

end Sys2Proof.Machine
end

