-- ==== Sys2Proof/Machine/Tiller.lean ====
section
/-! DEFINITION. The Swimomos instructions 0x01 to 0x62 and 0xE0 to 0xE2 (05), the steward's events and watchdog
(R186, R493) and the end of a yoke's reset (R187). -/

namespace Sys2Proof.Machine

/-! ### Shapes -/

/-- An ordinary instruction with an operand: its checks, its operand, then its effect on the registers, and the
post-increment. -/
def operandIns (c : CoreId) (i : Ins) (signed : Bool) (modes : List Nat) (sz3 reads : Bool) (cost : Nat)
    (f : Core → W64 → Core) (s : State) : Res :=
  .next (runIns c i.hw i.e false (fun s k0 =>
    match checks k0 0 (i.sub == 0 || (signed && i.sub == 1)) true (i.modeOk k0 modes sz3) (i.privOk k0) with
    | some t => .trap s t
    | none =>
      let k := macStall k0 (reads || i.readsMac)
      (opval s c k i (i.sub == 1)).bind fun s v => .ok s { core := i.post (f k v.1), cost := cost + v.2 }) s)

/-- An ordinary instruction with no operand. -/
def plainIns (c : CoreId) (i : Ins) (fmt rep reads : Bool) (cost : Nat) (f : Core → Core) (s : State) : Res :=
  .next (runIns c i.hw i.e false (fun s k0 =>
    match checks k0 0 (i.sub == 0) rep fmt true with
    | some t => .trap s t
    | none => .ok s { core := f (macStall k0 reads), cost := cost }) s)

/-! ### Arithmetic and logic -/

/-- The effect of a result with its flags on A (R197). -/
def setA (k : Core) (r : W64 × Flags) : Core := { k with a := r.1, fl := r.2 }

/-- ADD: A := A + v. -/
def execAdd (c : CoreId) (i : Ins) (s : State) : Res :=
  operandIns c i true allModes false true 1 (fun k v => setA k (addFlags k.fl k.a v false)) s

/-- ADC: A := A + v + C. -/
def execAdc (c : CoreId) (i : Ins) (s : State) : Res :=
  operandIns c i true allModes false true 1 (fun k v => setA k (addFlags k.fl k.a v k.fl.c)) s

/-- SUB: A := A − v. -/
def execSub (c : CoreId) (i : Ins) (s : State) : Res :=
  operandIns c i true allModes false true 1 (fun k v => setA k (subFlags k.fl k.a v false)) s

/-- SBC: A := A − v − C. -/
def execSbc (c : CoreId) (i : Ins) (s : State) : Res :=
  operandIns c i true allModes false true 1 (fun k v => setA k (subFlags k.fl k.a v k.fl.c)) s

/-- CMP: the flags of A − v. -/
def execCmp (c : CoreId) (i : Ins) (s : State) : Res :=
  operandIns c i true allModes false true 1 (fun k v => { k with fl := (subFlags k.fl k.a v false).2 }) s

/-- AND: A := A and v. -/
def execAnd (c : CoreId) (i : Ins) (s : State) : Res :=
  operandIns c i true allModes false true 1 (fun k v => setA k (k.a &&& v, k.fl.zn (k.a &&& v))) s

/-- OR: A := A or v. -/
def execOr (c : CoreId) (i : Ins) (s : State) : Res :=
  operandIns c i true allModes false true 1 (fun k v => setA k (k.a ||| v, k.fl.zn (k.a ||| v))) s

/-- XOR: A := A xor v. -/
def execXor (c : CoreId) (i : Ins) (s : State) : Res :=
  operandIns c i true allModes false true 1 (fun k v => setA k (k.a ^^^ v, k.fl.zn (k.a ^^^ v))) s

/-- TST: the flags of A and v. -/
def execTst (c : CoreId) (i : Ins) (s : State) : Res :=
  operandIns c i true allModes false true 1 (fun k v => { k with fl := k.fl.zn (k.a &&& v) }) s

/-- NEG: A := 0 − A, as SUB with A' = 0. -/
def execNeg (c : CoreId) (i : Ins) (s : State) : Res :=
  plainIns c i i.noOperand true true 1 (fun k => setA k (subFlags k.fl 0 k.a false)) s

/-- NOT: A := not A. -/
def execNot (c : CoreId) (i : Ins) (s : State) : Res :=
  plainIns c i i.noOperand true true 1 (fun k => setA k (~~~k.a, k.fl.zn (~~~k.a))) s

/-! ### Loads, stores and the stack -/

/-- LDA: A := v. -/
def execLda (c : CoreId) (i : Ins) (s : State) : Res :=
  operandIns c i true allModes false false 1 (fun k v => { k with a := v }) s

/-- A load of X or Y; where the mode increments that register the increment is not applied (R607). -/
def loadIndex (c : CoreId) (i : Ins) (own : Nat) (f : Core → W64 → Core) (s : State) : Res :=
  .next (runIns c i.hw i.e false (fun s k0 =>
    match checks k0 0 (i.sub == 0 || i.sub == 1) true (i.modeOk k0 allModes false) (i.privOk k0) with
    | some t => .trap s t
    | none =>
      let k := macStall k0 i.readsMac
      (opval s c k i (i.sub == 1)).bind fun s v =>
        .ok s { core := if i.mode.toNat = own then f k v.1 else f (i.post k) v.1, cost := 1 + v.2 }) s)

/-- LDX: X := v (R607). -/
def execLdx (c : CoreId) (i : Ins) (s : State) : Res := loadIndex c i 4 (fun k v => { k with x := v }) s

/-- LDY: Y := v (R607). -/
def execLdy (c : CoreId) (i : Ins) (s : State) : Res := loadIndex c i 5 (fun k v => { k with y := v }) s

/-- LDSP: SP := v. -/
def execLdsp (c : CoreId) (i : Ins) (s : State) : Res :=
  operandIns c i true allModes false false 1 (fun k v => { k with sp := v }) s

/-- A store of A, X or Y to memory or a register (R198, R199, R607). -/
def storeIns (c : CoreId) (i : Ins) (reads : Bool) (get : Core → W64) (s : State) : Res :=
  .next (runIns c i.hw i.e false (fun s k0 =>
    match checks k0 0 (i.sub == 0) (i.mode != 7 || !loopReg i.rn) (i.modeOk k0 storeModes false) (i.privOk k0) with
    | some t => .trap s t
    | none =>
      let k := macStall k0 reads
      if i.mode = 7 then .ok s { core := k.setReg i.rn (get k) }
      else (store s c i.hw (i.addr k) i.bytes (get k)).bind fun s _ => .ok s { core := i.post k }) s)

/-- STA: store A. -/
def execSta (c : CoreId) (i : Ins) (s : State) : Res := storeIns c i true (·.a) s

/-- STX: store X. -/
def execStx (c : CoreId) (i : Ins) (s : State) : Res := storeIns c i false (·.x) s

/-- STY: store Y. -/
def execSty (c : CoreId) (i : Ins) (s : State) : Res := storeIns c i false (·.y) s

/-- A word is pushed: the store at SP − 8, then SP (R192, R200). -/
def pushWord (s : State) (c : CoreId) (hw : Hw) (k : Core) (v : W64) : Acc Core :=
  (store s c hw (k.sp - 8) 8 v).bind fun s _ => .ok s { k with sp := k.sp - 8 }

/-- PUSH: the operand is read, then pushed (R200). -/
def execPush (c : CoreId) (i : Ins) (s : State) : Res :=
  .next (runIns c i.hw i.e false (fun s k0 =>
    match checks k0 0 (i.sub == 0) true (i.modeOk k0 allModes true) (i.privOk k0) with
    | some t => .trap s t
    | none =>
      let k := macStall k0 i.readsMac
      (opval s c k i false).bind fun s v =>
        (pushWord s c i.hw k v.1).bind fun s k => .ok s { core := i.post k, cost := 1 + v.2 }) s)

/-- POP: the register takes the word at SP, then SP := SP + 8; POP SP takes the word (R199, R200). -/
def execPop (c : CoreId) (i : Ins) (s : State) : Res :=
  .next (runIns c i.hw i.e false (fun s k =>
    match checks k 0 (i.sub == 0) (!loopReg i.rn) (i.modeOk k [7] true) (i.privOk k) with
    | some t => .trap s t
    | none => (load s c i.hw k.sp 8).bind fun s v =>
        .ok s { core := ({ k with sp := k.sp + 8 } : Core).setReg i.rn v, cost := 1 + loadCost c k.sp }) s)

/-- LEAX and LEAY: the effective address, with no access (R201). -/
def leaIns (c : CoreId) (i : Ins) (f : Core → W64 → Core) (s : State) : Res :=
  .next (runIns c i.hw i.e false (fun s k =>
    match checks k 0 (i.sub == 0) true (i.modeOk k [1, 2, 3, 6] false) true with
    | some t => .trap s t
    | none => .ok s { core := f k (i.ea k) }) s)

/-- LEAX. -/
def execLeax (c : CoreId) (i : Ins) (s : State) : Res := leaIns c i (fun k v => { k with x := v }) s

/-- LEAY. -/
def execLeay (c : CoreId) (i : Ins) (s : State) : Res := leaIns c i (fun k v => { k with y := v }) s

/-! ### Multiply, multiply-accumulate, divide -/

/-- The result of a multiply, with the time it was issued (R202). -/
def setProduct (k : Core) (r : W64 × W64 × Flags) : Core :=
  { k with ah := r.1, a := r.2.1, fl := r.2.2, macAt := some k.cyc }

/-- MUL: AH:A := A × v, unsigned. -/
def execMul (c : CoreId) (i : Ins) (s : State) : Res :=
  operandIns c i false allModes false true 1 (fun k v => setProduct k (mulFlags k.fl k.a v)) s

/-- MULS: AH:A := A × v, signed. -/
def execMuls (c : CoreId) (i : Ins) (s : State) : Res :=
  operandIns c i false allModes false true 1 (fun k v => setProduct k (mulsFlags k.fl k.a v)) s

/-- CLRM: AH := 0; A := 0. -/
def execClrm (c : CoreId) (i : Ins) (s : State) : Res :=
  plainIns c i i.noOperand true false 1 (fun k => { k with ah := 0, a := 0 }) s

/-- The two addresses of a paired form (Table 5.6). -/
def pairedAddr (k : Core) (i : Ins) : W64 × W64 :=
  if i.mode = 4 then (k.x, k.y)
  else (indexed k.x (8 * (i.f16.extractLsb' 8 8).signExtend 64), indexed k.y (8 * (i.f16.extractLsb' 0 8).signExtend 64))

/-- A paired operand lies in a region it may lie in, 8-byte aligned; in the steward's mode the fabric decides (R203). -/
def pairedOk (c : CoreId) (l : List Region) (a : W64) : Option Trap :=
  match c with
  | .steward => none
  | .tiller _ => if !rangeIn l a.toNat 8 then some .benchFault else if a.toNat % 8 ≠ 0 then some .misalign else none

/-- The post-increments of a paired form (Table 5.6). -/
def pairedPost (k : Core) (i : Ins) : Core := if i.mode = 4 then { k with x := k.x + 8, y := k.y + 8 } else k

/-- MACD, MACS and MACC: the two operands, then the step; MACC also stores its second operand's word (R203). -/
def macIns (c : CoreId) (i : Ins) (stores : Bool) (f : Core → Nat → Nat → Core × W64) (s : State) : Res :=
  .next (runIns c i.hw i.e false (fun s k =>
    match checks k 0 (i.sub == 0) true
        ((i.mode == 2 || (i.mode == 4 && i.f16 == 0)) && i.sz == 3 && !i.e) true with
    | some t => .trap s t
    | none =>
      let a := pairedAddr k i
      match (pairedOk c readable a.1).or (pairedOk c (if stores then writable else readable) a.2) with
      | some t => .trap s t
      | none =>
        (load s c i.hw a.1 8).bind fun s p1 => (load s c i.hw a.2 8).bind fun s p2 =>
          let r := f { k with macAt := some k.cyc } p1.toNat p2.toNat
          let k1 := pairedPost r.1 i
          if stores then (store s c i.hw a.2 8 r.2).bind fun s _ => .ok s { core := k1 } else .ok s { core := k1 }) s)

/-- AH:A as one number. -/
def accOf (k : Core) : Nat := k.ah.toNat * 2 ^ 64 + k.a.toNat

/-- AH:A and the flags take a 128-bit result. -/
def setAcc (k : Core) (r : Nat × Flags) : Core :=
  { k with ah := BitVec.ofNat 64 (r.1 / 2 ^ 64), a := BitVec.ofNat 64 r.1, fl := r.2 }

/-- MACD: AH:A := AH:A + p1 × p2, unsigned. -/
def execMacd (c : CoreId) (i : Ins) (s : State) : Res :=
  macIns c i false (fun k p q => (setAcc k (macdFlags k.fl (accOf k) p q), 0)) s

/-- MACS: AH:A := AH:A + p1 × p2, signed. -/
def execMacs (c : CoreId) (i : Ins) (s : State) : Res :=
  macIns c i false (fun k p q => (setAcc k (macsFlags k.fl (accOf k) p q), 0)) s

/-- MACC: one row step; the low word is stored, AH takes the carry word, A is unchanged. -/
def execMacc (c : CoreId) (i : Ins) (s : State) : Res :=
  macIns c i true (fun k p q =>
    let r := maccFlags k.fl k.a.toNat k.ah.toNat p q
    ({ k with ah := BitVec.ofNat 64 r.2.1, fl := r.2.2 }, BitVec.ofNat 64 r.1)) s

/-- DIVU and DIVS; a zero divisor traps with TC.DZTRAP = 1 (R203). The 34 cycles include a bench operand. -/
def divIns (c : CoreId) (i : Ins) (signed : Bool) (s : State) : Res :=
  .next (runIns c i.hw i.e false (fun s k0 =>
    match checks k0 0 (i.sub == 0) true (i.modeOk k0 allModes false) (i.privOk k0) with
    | some t => .trap s t
    | none =>
      let k := macStall k0 true
      (opval s c k i false).bind fun s v =>
        if v.1 = 0 ∧ k.dztrap then .trap s .divZero
        else
          let r := divFlags k.fl signed k.a v.1
          .ok s { core := i.post { k with a := r.1, ah := r.2.1, fl := r.2.2 },
                  cost := 34 + (if v.2 ≤ 1 then 0 else v.2 + 1) }) s)

/-- DIVU. -/
def execDivu (c : CoreId) (i : Ins) (s : State) : Res := divIns c i false s

/-- DIVS. -/
def execDivs (c : CoreId) (i : Ins) (s : State) : Res := divIns c i true s

/-! ### Shifts and bit operations -/

/-- The shift count of an operand: bits [7:0]. -/
def shiftCount (v : W64) : Nat := (v.extractLsb' 0 8).toNat
/-- The bit number of an operand: bits [5:0]. -/
def bitNo (v : W64) : Nat := (v.extractLsb' 0 6).toNat

/-- SHL. -/
def execShl (c : CoreId) (i : Ins) (s : State) : Res :=
  operandIns c i false allModes false true 1 (fun k v => setA k (shlFlags k.fl k.a (shiftCount v))) s

/-- SHR. -/
def execShr (c : CoreId) (i : Ins) (s : State) : Res :=
  operandIns c i false allModes false true 1 (fun k v => setA k (shrFlags k.fl k.a (shiftCount v))) s

/-- SAR. -/
def execSar (c : CoreId) (i : Ins) (s : State) : Res :=
  operandIns c i false allModes false true 1 (fun k v => setA k (sarFlags k.fl k.a (shiftCount v))) s

/-- ROL. -/
def execRol (c : CoreId) (i : Ins) (s : State) : Res :=
  operandIns c i false allModes false true 1 (fun k v => setA k (rolFlags k.fl k.a (shiftCount v))) s

/-- ROR. -/
def execRor (c : CoreId) (i : Ins) (s : State) : Res :=
  operandIns c i false allModes false true 1 (fun k v => setA k (rorFlags k.fl k.a (shiftCount v))) s

/-- The word with only bit b set. -/
def bitMask (b : Nat) : W64 := 1 <<< b

/-- BSET: A[b] := 1. -/
def execBset (c : CoreId) (i : Ins) (s : State) : Res :=
  operandIns c i false allModes false true 1
    (fun k v => setA k (k.a ||| bitMask (bitNo v), k.fl.zn (k.a ||| bitMask (bitNo v)))) s

/-- BCLR: A[b] := 0. -/
def execBclr (c : CoreId) (i : Ins) (s : State) : Res :=
  operandIns c i false allModes false true 1
    (fun k v => setA k (k.a &&& ~~~bitMask (bitNo v), k.fl.zn (k.a &&& ~~~bitMask (bitNo v)))) s

/-- BTST: Z := not A[b]. -/
def execBtst (c : CoreId) (i : Ins) (s : State) : Res :=
  operandIns c i false allModes false true 1
    (fun k v => { k with fl := { k.fl with z := !k.a.getLsbD (bitNo v) } }) s

/-- CLZ: the leading zero bits of A. -/
def execClz (c : CoreId) (i : Ins) (s : State) : Res :=
  plainIns c i i.noOperand true true 1
    (fun k => let r : W64 := BitVec.ofNat 64 (leadingZeros k.a); setA k (r, k.fl.zn r)) s

/-- POPC: the one bits of A. -/
def execPopc (c : CoreId) (i : Ins) (s : State) : Res :=
  plainIns c i i.noOperand true true 1
    (fun k => let r : W64 := BitVec.ofNat 64 (ones k.a); setA k (r, k.fl.zn r)) s

/-- BSWP: the byte-reversed low bytes of A at size SZ, 16 bits or more (R204). -/
def execBswp (c : CoreId) (i : Ins) (s : State) : Res :=
  plainIns c i (i.mode == 0 && i.f16 == 0 && i.sz != 0) true true 1
    (fun k => let r := byteSwap i.bytes k.a; setA k (r, k.fl.zn r)) s

/-! ### Branches, calls, returns -/

/-- A branch target: the instruction's address plus 4 × OFS (R161). -/
def target (k : Core) (i : InsB) : W32 := k.pc + 4 * i.ofs.signExtend 32

/-- B*cond* (R164, R205). -/
def execBcond (c : CoreId) (i : InsB) (s : State) : Res :=
  .next (runIns c i.hw i.e false (fun s k0 =>
    match checks k0 0 true false (!i.e) true with
    | some t => .trap s t
    | none =>
      let k := macStall k0 (i.cond != 0)
      if k.fl.cond i.cond.toNat then .ok s { core := k, flow := .jump (target k i), cost := 2 }
      else .ok s { core := k }) s)

/-- CALL: the return address is pushed; COND must be 0. -/
def execCall (c : CoreId) (i : InsB) (s : State) : Res :=
  .next (runIns c i.hw i.e false (fun s k =>
    match checks k 0 true false (!i.e && i.cond == 0) true with
    | some t => .trap s t
    | none => (pushWord s c i.hw k ((k.pc + 4).setWidth 64)).bind fun s k1 =>
        .ok s { core := k1, flow := .jump (target k i), cost := 2 }) s)

/-- RET: PC takes the word at SP (R206). -/
def execRet (c : CoreId) (i : Ins) (s : State) : Res :=
  .next (runIns c i.hw i.e false (fun s k =>
    match checks k 0 (i.sub == 0) false i.noOperand true with
    | some t => .trap s t
    | none => (load s c i.hw k.sp 8).bind fun s v =>
        .ok s { core := { k with sp := k.sp + 8 }, flow := .jump (v.setWidth 32), cost := 2 + loadCost c k.sp }) s)

/-- JMP: PC takes the operand (R206). -/
def execJmp (c : CoreId) (i : Ins) (s : State) : Res :=
  .next (runIns c i.hw i.e false (fun s k0 =>
    match checks k0 0 (i.sub == 0) false (i.modeOk k0 storeModes true) (i.privOk k0) with
    | some t => .trap s t
    | none =>
      let k := macStall k0 i.readsMac
      (opval s c k i false).bind fun s v =>
        .ok s { core := i.post k, flow := .jump (v.1.setWidth 32), cost := 2 + v.2 }) s)

/-- CALLR: the address after the instruction is pushed, then PC takes the operand (R206). -/
def execCallr (c : CoreId) (i : Ins) (s : State) : Res :=
  .next (runIns c i.hw i.e false (fun s k0 =>
    match checks k0 0 (i.sub == 0) false (i.modeOk k0 storeModes true) (i.privOk k0) with
    | some t => .trap s t
    | none =>
      let k := macStall k0 i.readsMac
      (opval s c k i false).bind fun s v =>
        (pushWord s c i.hw k ((nextPc k i.e).setWidth 64)).bind fun s k1 =>
          .ok s { core := i.post k1, flow := .jump (v.1.setWidth 32), cost := 2 + v.2 }) s)

/-- RTE: FL[5:0] from SFL, LBASE 0, INTRAP 0, on at EPC (R181, R207). -/
def execRte (c : CoreId) (i : Ins) (s : State) : Res :=
  .next (runIns c i.hw i.e false (fun s k =>
    match checks k 0 (i.sub == 0) false (i.noOperand && k.intrap) true with
    | some t => .trap s t
    | none => .ok s { core := { k with fl := k.fl.write k.sfl.toNat, lbase := 0, intrap := false },
                      flow := .jump k.epc, cost := 2 }) s)

/-! ### Loops and repeats -/

/-- The encoding of a LOOP that R168 and Table 5.9 accept. -/
def loopFmt (k : Core) (i : InsL) : Bool :=
  (if i.s then !i.e && i.cnt == 0 else !i.e || (i.cnt == 0 && decide (3 ≤ i.ends.toNat))) &&
    decide ((nextPc k i.e).toNat < k.pc.toNat + 4 * i.ends.toNat)

/-- The count of a LOOP (R168). -/
def loopCount (k : Core) (i : InsL) : W32 :=
  if i.s then k.x.setWidth 32 else if i.e then i.ext else i.cnt.setWidth 32

/-- LOOP: a level is activated, or with a count of 0 skipped as a sequential arrival (R168, R169). -/
def execLoop (c : CoreId) (i : InsL) (s : State) : Res :=
  .next (runIns c i.hw i.e false (fun s k =>
    match checks k 0 true false (loopFmt k i) true with
    | some t => .trap s t
    | none =>
      let le : W32 := k.pc + BitVec.ofNat 32 (4 * i.ends.toNat)
      let n := loopCount k i
      if k.ldepth = 3 then .trap s .loopOverflow
      else if n = 0 then .ok s { core := k, flow := .skip le }
      else .ok s { core := { (k.modLvl k.ldepth.toNat fun _ => { ls := nextPc k i.e, le := le, lc := n }) with
                             ldepth := k.ldepth + 1 } }) s)

/-- LPOP: the innermost active level is cancelled (R172). -/
def execLpop (c : CoreId) (i : Ins) (s : State) : Res :=
  .next (runIns c i.hw i.e false (fun s k =>
    match checks k 0 (i.sub == 0) false (i.noOperand && !i.e) true with
    | some t => .trap s t
    | none =>
      if k.ldepth = k.lbase then .trap s .loopUnderflow
      else .ok s { core := { k with ldepth := k.ldepth - 1 } }) s)

/-- RPT: the next instruction runs n times (R174, R208). -/
def execRpt (c : CoreId) (i : InsP) (s : State) : Res :=
  .next (runIns c i.hw i.e false (fun s k =>
    match checks k 0 true false (!i.e && i.mbz == 0 && (!i.s || i.n1 == 0)) true with
    | some t => .trap s t
    | none =>
      let x := (k.x.extractLsb' 0 8).toNat
      .ok s { core := k, flow := .rep (if i.s then (if x = 0 then 256 else x) else i.n1.toNat + 1) }) s)

/-! ### Privileged instructions and the steward's events -/

/-- WAIT: the steward stops until an event is pending that R186 lets it take, and takes it (R225). -/
def execWait (c : CoreId) (i : Ins) (s : State) : Res :=
  .next (runIns c i.hw i.e false (fun s k =>
    match checks k 2 (i.sub == 0) true i.noOperand true with
    | some t => .trap s t
    | none => .ok { s with stw := { s.stw with waiting := k.priv } } { core := k }) s)

/-- FENCE: every earlier fabric access has completed in this model; only the PC advances (R225). -/
def execFence (c : CoreId) (i : Ins) (s : State) : Res :=
  .next (runIns c i.hw i.e false (fun s k =>
    match checks k 2 (i.sub == 0) true i.noOperand true with
    | some t => .trap s t
    | none => .ok s { core := k }) s)

/-- The event an EVACK names: its immediate at its size (R158, R225). -/
def evackNo (i : Ins) : Nat := (fitVal i.bytes false i.disp).toNat

/-- EVACK: pending event k is cleared; k above 15 traps (R225). -/
def execEvack (c : CoreId) (i : Ins) (s : State) : Res :=
  .next (runIns c i.hw i.e false (fun s k0 =>
    match checks k0 2 (i.sub == 0) true (i.modeOk k0 [0] false && decide (evackNo i ≤ 15)) true with
    | some t => .trap s t
    | none => .ok { s with stw := { s.stw with
        events := s.stw.events &&& ~~~(BitVec.ofNat 16 (2 ^ evackNo i)) } } { core := k0 }) s)

/-- STEWARD_EVENT: event k becomes pending; with TC.IE = 1 and no handler running the steward takes it (R186). -/
def execStewardEvent (k : Fin 16) (s : State) : Res :=
  .next (
    if s.lcs.phase = .off ∨ s.lcs.phase = .reset ∨ s.lcs.phase = .inert then s
    else
      let s1 := { s with stw := { s.stw with events := s.stw.events ||| BitVec.ofNat 16 (2 ^ k.val) } }
      if s1.stw.halted || s1.stw.dead then s1 else pumpEvents s1)

/-- YOKE_RESET_COMPLETE: a faulted yoke has been reset and returns to the dispatch pool, unless it is retired
(R187 step 6). -/
def execYokeResetComplete (y : YokeId) (s : State) : Res :=
  .next (if (s.yoke y).faulted then s.modYoke y fun k => { k with faulted := false, bench := [], core := {} } else s)

end Sys2Proof.Machine
end

