-- ==== Sys2Proof/Machine/WalkToken.lean ====
section
/-! DEFINITION. The walk token (R279): insertions that need relocation run one at a time, in arrival order; and the learnings that
wait for the vault. -/

namespace Sys2Proof.Machine

/-- A learning that waited has ended, and whoever waits for it has its status. -/
def learned (s : State) (l : Learn) (w : Learner) (st : BitVec 16) : State :=
  match w with
  | .laneJob y j => importDone s y j l st
  | .engineJob y j => engLearned s y j st
  | .reload y name => reloadDone s y name st
  | .admin d => pubkeyDone s d l st
  | .ceremony => ceremonyDone s l st
  | .share _ => shareDone s st
  | .derived lane ty =>
    let r := derivedDone s l st
    if r.2 then r.1 else noteLaneFault r.1 lane 3 l.plot ty

/-- A reload or a derived learning writes no vault record. -/
def plainLearner : Learner → Bool
  | .reload _ _ => true
  | .derived _ _ => true
  | _ => false

/-- A waiting learning goes on: from its start where it waited for the vault, else by an insertion that holds the walk token, to its
end (R277, R279). -/
def walked (s : State) (l : Learn) (w : Learner) : State :=
  if l.parked then
    match learnFor s { l with parked := false } w with
    | (s1, some st) => learned s1 l w st
    | (s1, none) => s1
  else
    let r := if plainLearner w then learnWalk s l else learnKeyWalk s l
    learned r.1 l w r.2

/-- A waiting learning can go on: it needs no vault record, or one can be written. -/
def canGo (s : State) (x : Learn × Learner) : Bool := plainLearner x.2 || !vaultWaits s x.1

/-- WALK_TOKEN_TAKEN: the oldest waiting insertion that can go on does so. -/
def execWalkTokenTaken (s : State) : Res :=
  .next (match s.kp.walkq.find? (canGo s) with
    | none => s
    | some x => walked { s with kp := { s.kp with walkq := s.kp.walkq.erase x } } x.1 x.2)

end Sys2Proof.Machine
end

