-- ==== Sys2Proof/Machine/Windows.lean ====
section
/-! DEFINITION. Register writes by the access rules (R10, R11, R42, R43, R49, R569 to R573): a write of 32 aligned bits takes
effect on the fields its writer owns; a write of 64 aligned bits is two of them; every other one has none. A word with a
command of its own has that command's effect. -/

namespace Sys2Proof.Machine

/-- The state a meaning leads to. -/
def Res.state (r : Res) (s : State) : State :=
  match r with
  | .next t => t
  | .fault _ => s
  | .refused _ => s

/-- A 64-bit register with one 32-bit half replaced (R573). -/
def setHalf (old : W64) (hi : Bool) (v : W32) : W64 :=
  if hi then v ++ old.extractLsb' 0 32 else old.extractLsb' 32 32 ++ v

/-- A write-1-to-clear register (R11). -/
def w1c {n : Nat} (old : BitVec n) (v : W32) : BitVec n := old &&& ~~~(v.setWidth n)

/-- Bits 63 to 12 of a bus address. -/
def pageAddr (v : W64) : W64 := v &&& 0xFFFFFFFFFFFFF000#64

/-! ### Hopper registers (R49, R51, R570) -/

/-- A 32-bit write to the register block of a hopper. -/
def writeHop (s : State) (r : HopRef) (reg : Nat) (v : W32) : State :=
  if !reach s (hopFn r) || hopDropped s r then s
  else
    let x := s.hop r
    if reg = 0x00 ∨ reg = 0x04 then (if x.en then s else s.setHop r { x with sqBase := pageAddr (setHalf x.sqBase (reg == 0x04) v) })
    else if reg = 0x08 ∨ reg = 0x0C then (if x.en then s else s.setHop r { x with cqBase := pageAddr (setHalf x.cqBase (reg == 0x0C) v) })
    else if reg = 0x10 then (if v.getLsbD 0 then enableHop s r v else disableHop s r v)
    else if reg = 0x14 then s.setHop r { x with coalTime := v.extractLsb' 16 10, coalCount := v.extractLsb' 0 8 }
    else if reg = 0x18 then s.setHop r { x with dbRefused := x.dbRefused && !v.getLsbD 0, cfgErr := x.cfgErr && !v.getLsbD 1,
                                                fetchErr := x.fetchErr && !v.getLsbD 2, headErr := x.headErr && !v.getLsbD 3 }
    else s

/-! ### The windows -/

/-- A 32-bit write of a driver to its Window V (R42, R43, R141). -/
def writeV (s : State) (p : PlotId) (off : Nat) (v : W32) : State :=
  let pl := s.plot p
  if !windowV s p then s
  else if 0x100 ≤ off ∧ off < 0x500 then writeHop s (.vf p (Fin.ofNat 16 ((off - 0x100) / 64))) ((off - 0x100) % 64) v
  else if 0x1000 ≤ off ∧ off < 0x1040 then s.setPlot p { pl with drwIn := mwrite pl.drwIn (off - 0x1000) (le 4 v.toNat) }
  else if off = 0x1080 then
    let s1 := if v.getLsbD 0 then (execInValid p s).state s else s
    if v.getLsbD 1 then (execOutAck p s1).state s1 else s1
  else if off = 0x1084 then
    s.setPlot p { pl with badVer := pl.badVer && !v.getLsbD 2, inRefused := pl.inRefused && !v.getLsbD 3 }
  else if off = 0x2004 then (if v.getLsbD 0 then openRequest s p v else s.setPlot p { pl with maxver := v.extractLsb' 16 16 })
  else if off = 0x200C then s.setPlot p { pl with vevent := w1c pl.vevent v }
  else if 0x3000 ≤ off ∧ off < 0x3110 then writeMsix s (.vf p) ((off - 0x3000) / 16) (off % 16 / 4) v
  else s

/-- A 32-bit write of the manager to Window D (R570). -/
def writeD (s : State) (off : Nat) (v : W32) : State :=
  if 0x100 ≤ off ∧ off < 0x140 then writeHop s .admin (off - 0x100) v
  else if 0x800 ≤ off ∧ off < 0x840 then writeMsix s .pf0 ((off - 0x800) / 16) (off % 16 / 4) v
  else s

/-- The fields of PKE_CFG_NEXT (R392) and of CLU_PORT_CFG_NEXT (R567). -/
def cfgMask (v : W32) : W32 := v &&& 0x71#32
def portMask (v : W64) : W64 := v &&& 0x3FFFFEFFF#64

/-- A 32-bit write of the manager to Window M (Table 16.1). -/
def writeM (s : State) (off : Nat) (v : W32) : State :=
  if !reach s .pf0 then s
  else if off = 0x10804 then (execPwrPolicyWrite v s).state s
  else if 0x20000 ≤ off ∧ off < 0x30000 ∧ off % 64 = 4 then
    s.modPlot ((off - 0x20000) / 64) fun pl => { pl with outAcked := pl.outAcked && !v.getLsbD 2 }
  else if off = 0x50008 then { s with lan := { s.lan with event := w1c s.lan.event v } }
  else if off = 0x60008 then { s with pke := { s.pke with event := w1c s.pke.event v } }
  else if 0x60180 ≤ off ∧ off < 0x60200 then
    { s with pke := { s.pke with cfgNext := tset 0x50#32 ((off - 0x60180) / 4) (cfgMask v) s.pke.cfgNext } }
  else if off = 0x70004 then { s with rng := { s.rng with event := w1c s.rng.event v } }
  else if off = 0x90030 then { s with evr := { s.evr with event := w1c s.evr.event v } }
  else if 0xA0020 ≤ off ∧ off < 0xA0030 then
    let k := (off - 0xA0020) / 8
    let c := portMask (setHalf (tget portDefault s.clu.portNext k) (off % 8 == 4) v)
    { s with clu := { s.clu with portNext := tset portDefault k c s.clu.portNext } }
  else if off = 0xA0038 then { s with clu := { s.clu with event := w1c s.clu.event v } }
  else if off = 0xA0080 then { s with clu := { s.clu with hold := v.getLsbD 0 } }
  else if off = 0xA0088 ∨ off = 0xA008C then
    { s with clu := { s.clu with swapBuf := pageAddr (setHalf s.clu.swapBuf (off == 0xA008C) v) } }
  else if off = 0xB0010 then { s with yreg := { s.yreg with event := w1c s.yreg.event v } }
  else if off = 0xC0030 then { s with kpr := { s.kpr with event := w1c s.kpr.event v } }
  else s

/-- The register of a hedgerow region at an offset of its 16 bytes. -/
def hdgReg (k : Nat) : HdgReg := if k = 0 then .base else if k = 4 then .cfg else if k = 8 then .permLo else .permHi

/-- A 32-bit write of the steward to a register it owns (Table 16.1). -/
def writeS (s : State) (off : Nat) (v : W32) : State :=
  if !s.pwr.good then s
  else if off = 0x40000 then (if v.getLsbD 0 then startRehash s else s)
  else if off = 0x40004 then { s with kp := { s.kp with req := s.kp.req && !v.getLsbD 17 } }
  else if 0x80000 ≤ off ∧ off < 0x81000 then
    (execHdgRegionWrite (Fin.ofNat 256 ((off - 0x80000) / 16)) (hdgReg (off % 16)) v s).state s
  else if off = 0x81000 then (if v.getLsbD 0 then (execHoldSet s).state s else (execHoldRelease s).state s)
  else if off = 0x81004 then
    { s with hdg := { s.hdg with fault := s.hdg.fault && !v.getLsbD 1,
                                 faultReg := if v.getLsbD 1 then 0 else s.hdg.faultReg, long := s.hdg.long && !v.getLsbD 2,
                                 cfgErr := s.hdg.cfgErr && !v.getLsbD 3 } }
  else s

/-- A 32-bit write of the steward to its RNG port: RNG_SCTL with SEL and PR, and RNG_STAT with its W1C flag (R407, R408). -/
def writeRngPort (s : State) (off : Nat) (v : W32) : State :=
  if !s.pwr.good then s
  else if off = 0 then
    let s1 := (execRngSctlSel (v.extractLsb' 0 2) s).state s
    if v.getLsbD 2 then (execRngSctlPr s1).state s1 else s1
  else if off = 4 then { s with stw := { s.stw with underrun := s.stw.underrun && !v.getLsbD 1 } }
  else s

/-- A 32-bit write to the configuration space of a function, which holds what Table 2.1 lists: at 0 Device Control with
Enable Relaxed Ordering, Max_Payload_Size (up to 512 bytes) and Max_Read_Request_Size (up to 4,096), at 4 the power state,
D0 or D3hot, at 8 the ECRC enables of AER. The places of the fields are PCIe's, the offsets the model's (PRESUMED, log 118). -/
def writeConfig (s : State) (f : Fn) (off : Nat) (v : W32) : State :=
  let c := s.fnCfg f
  if !cfgReach s f then s
  else if off = 0 then
    let m := v.extractLsb' 5 3
    let r := v.extractLsb' 12 3
    s.setFnCfg f { c with relaxed := v.getLsbD 4, mps := if m.toNat ≤ 2 then m else c.mps,
                          mrrs := if r.toNat ≤ 5 then r else c.mrrs }
  else if off = 4 then
    let d := v.extractLsb' 0 2
    s.setFnCfg f { c with d3hot := if d = 3 then true else if d = 0 then false else c.d3hot }
  else if off = 8 then s.setFnCfg f { c with ecrcGen := v.getLsbD 6, ecrcChk := v.getLsbD 8 }
  else s

/-- A 32-bit aligned write of a writer to its register space. -/
def write32 (w : Writer) (off : Nat) (v : W32) (s : State) : State :=
  match w with
  | .managerM => writeM s off v
  | .managerD => writeD s off v
  | .driver p => writeV s p off v
  | .steward => writeS s off v
  | .rngPort => writeRngPort s off v
  | .config f => writeConfig s f off v

/-- The doorbells an offset lies in, with whether it is the tail (R58, R74). -/
def doorbellAt (w : Writer) (off : Nat) : Option (HopRef × Bool) :=
  match w with
  | .driver p => if off < 0x80 then some (.vf p (Fin.ofNat 16 (off / 8)), off % 8 == 0) else none
  | .managerD => if off < 8 then some (.admin, off == 0) else none
  | _ => none

/-- REGISTER_WRITE: a write of `size` bytes at an offset of the writer's window (R573). Doorbells take aligned 32-bit writes
only and count the others (R59). -/
def execRegisterWrite (w : Writer) (offset size : Nat) (value : W64) (s : State) : Res :=
  .next (
    match doorbellAt w offset with
    | some (r, tail) =>
      if size = 4 ∧ offset % 4 = 0 then
        (if tail then tailDb s r (value.toNat % 2 ^ 32) true else headDb s r (value.toNat % 2 ^ 32) true)
      else tailDb s r 0 false
    | none =>
      if size = 4 ∧ offset % 4 = 0 then write32 w offset (value.extractLsb' 0 32) s
      else if size = 8 ∧ offset % 8 = 0 then
        write32 w (offset + 4) (value.extractLsb' 32 32) (write32 w offset (value.extractLsb' 0 32) s)
      else s)

end Sys2Proof.Machine
end

