-- ==== Sys2Proof/Machine/Dispatch.lean ====
section
/-! DEFINITION. The dispatch of a command to its meaning: one arm per constructor of `Instr`. -/

namespace Sys2Proof.Machine

def exec (i : Instr) (s : State) : Host.Outcome State Fault Refusal :=
  match i with
  | .hopTailDb x1 x2 x3 => Sys2Proof.Machine.execHopTailDb x1 x2 x3 s
  | .hopHeadDb x1 x2 x3 => Sys2Proof.Machine.execHopHeadDb x1 x2 x3 s
  | .hopperEnable x1 x2 => Sys2Proof.Machine.execHopperEnable x1 x2 s
  | .hopperDisable x1 x2 => Sys2Proof.Machine.execHopperDisable x1 x2 s
  | .registerWrite x1 x2 x3 x4 => Sys2Proof.Machine.execRegisterWrite x1 x2 x3 x4 s
  | .dispatch => Sys2Proof.Machine.execDispatch s
  | .descriptorArrival x1 x2 => Sys2Proof.Machine.execDescriptorArrival x1 x2 s
  | .stagingReadComplete x1 x2 => Sys2Proof.Machine.execStagingReadComplete x1 x2 s
  | .deadlineExpired x1 => Sys2Proof.Machine.execDeadlineExpired x1 s
  | .tMarginReached x1 => Sys2Proof.Machine.execTMarginReached x1 s
  | .coalescingTimer x1 => Sys2Proof.Machine.execCoalescingTimer x1 s
  | .msixUnmask x1 x2 => Sys2Proof.Machine.execMsixUnmask x1 x2 s
  | .ideIntegrityFailure x1 => Sys2Proof.Machine.execIdeIntegrityFailure x1 s
  | .ideKmQuery x1 => Sys2Proof.Machine.execIdeKmQuery x1 s
  | .ideKmKeyProg x1 x2 x3 x4 => Sys2Proof.Machine.execIdeKmKeyProg x1 x2 x3 x4 s
  | .ideKmKSetGo x1 x2 => Sys2Proof.Machine.execIdeKmKSetGo x1 x2 s
  | .ideKmKSetStop x1 x2 => Sys2Proof.Machine.execIdeKmKSetStop x1 x2 s
  | .spdmGetCertificate x1 => Sys2Proof.Machine.execSpdmGetCertificate x1 s
  | .spdmChallenge x1 => Sys2Proof.Machine.execSpdmChallenge x1 s
  | .spdmGetMeasurements x1 x2 => Sys2Proof.Machine.execSpdmGetMeasurements x1 x2 s
  | .spdmKeyExchange x1 => Sys2Proof.Machine.execSpdmKeyExchange x1 s
  | .vfFlr x1 => Sys2Proof.Machine.execVfFlr x1 s
  | .vfEnableClear => Sys2Proof.Machine.execVfEnableClear s
  | .pf0Flr => Sys2Proof.Machine.execPf0Flr s
  | .perstN => Sys2Proof.Machine.execPerstN s
  | .plotCreate => Sys2Proof.Machine.execPlotCreate s
  | .plotOpen => Sys2Proof.Machine.execPlotOpen s
  | .plotStop => Sys2Proof.Machine.execPlotStop s
  | .plotStart => Sys2Proof.Machine.execPlotStart s
  | .plotResize => Sys2Proof.Machine.execPlotResize s
  | .plotReset => Sys2Proof.Machine.execPlotReset s
  | .resetSequenceComplete x1 => Sys2Proof.Machine.execResetSequenceComplete x1 s
  | .plotRemove => Sys2Proof.Machine.execPlotRemove s
  | .removalSequenceComplete x1 => Sys2Proof.Machine.execRemovalSequenceComplete x1 s
  | .plotPolicyStage x1 => Sys2Proof.Machine.execPlotPolicyStage x1 s
  | .plotPolicyCommit => Sys2Proof.Machine.execPlotPolicyCommit s
  | .plotQuery => Sys2Proof.Machine.execPlotQuery s
  | .drawerSend => Sys2Proof.Machine.execDrawerSend s
  | .drawerRecv => Sys2Proof.Machine.execDrawerRecv s
  | .pltVopenGo x1 x2 => Sys2Proof.Machine.execPltVopenGo x1 x2 s
  | .inValid x1 => Sys2Proof.Machine.execInValid x1 s
  | .outAck x1 => Sys2Proof.Machine.execOutAck x1 s
  | .plotTick x1 => Sys2Proof.Machine.execPlotTick x1 s
  | .add x1 x2 => Sys2Proof.Machine.execAdd x1 x2 s
  | .adc x1 x2 => Sys2Proof.Machine.execAdc x1 x2 s
  | .sub x1 x2 => Sys2Proof.Machine.execSub x1 x2 s
  | .sbc x1 x2 => Sys2Proof.Machine.execSbc x1 x2 s
  | .cmp x1 x2 => Sys2Proof.Machine.execCmp x1 x2 s
  | .and x1 x2 => Sys2Proof.Machine.execAnd x1 x2 s
  | .or x1 x2 => Sys2Proof.Machine.execOr x1 x2 s
  | .xor x1 x2 => Sys2Proof.Machine.execXor x1 x2 s
  | .tst x1 x2 => Sys2Proof.Machine.execTst x1 x2 s
  | .neg x1 x2 => Sys2Proof.Machine.execNeg x1 x2 s
  | .not x1 x2 => Sys2Proof.Machine.execNot x1 x2 s
  | .lda x1 x2 => Sys2Proof.Machine.execLda x1 x2 s
  | .ldx x1 x2 => Sys2Proof.Machine.execLdx x1 x2 s
  | .ldy x1 x2 => Sys2Proof.Machine.execLdy x1 x2 s
  | .ldsp x1 x2 => Sys2Proof.Machine.execLdsp x1 x2 s
  | .sta x1 x2 => Sys2Proof.Machine.execSta x1 x2 s
  | .stx x1 x2 => Sys2Proof.Machine.execStx x1 x2 s
  | .sty x1 x2 => Sys2Proof.Machine.execSty x1 x2 s
  | .push x1 x2 => Sys2Proof.Machine.execPush x1 x2 s
  | .pop x1 x2 => Sys2Proof.Machine.execPop x1 x2 s
  | .leax x1 x2 => Sys2Proof.Machine.execLeax x1 x2 s
  | .leay x1 x2 => Sys2Proof.Machine.execLeay x1 x2 s
  | .mul x1 x2 => Sys2Proof.Machine.execMul x1 x2 s
  | .muls x1 x2 => Sys2Proof.Machine.execMuls x1 x2 s
  | .clrm x1 x2 => Sys2Proof.Machine.execClrm x1 x2 s
  | .macd x1 x2 => Sys2Proof.Machine.execMacd x1 x2 s
  | .macs x1 x2 => Sys2Proof.Machine.execMacs x1 x2 s
  | .macc x1 x2 => Sys2Proof.Machine.execMacc x1 x2 s
  | .divu x1 x2 => Sys2Proof.Machine.execDivu x1 x2 s
  | .divs x1 x2 => Sys2Proof.Machine.execDivs x1 x2 s
  | .shl x1 x2 => Sys2Proof.Machine.execShl x1 x2 s
  | .shr x1 x2 => Sys2Proof.Machine.execShr x1 x2 s
  | .sar x1 x2 => Sys2Proof.Machine.execSar x1 x2 s
  | .rol x1 x2 => Sys2Proof.Machine.execRol x1 x2 s
  | .ror x1 x2 => Sys2Proof.Machine.execRor x1 x2 s
  | .bset x1 x2 => Sys2Proof.Machine.execBset x1 x2 s
  | .bclr x1 x2 => Sys2Proof.Machine.execBclr x1 x2 s
  | .btst x1 x2 => Sys2Proof.Machine.execBtst x1 x2 s
  | .clz x1 x2 => Sys2Proof.Machine.execClz x1 x2 s
  | .popc x1 x2 => Sys2Proof.Machine.execPopc x1 x2 s
  | .bswp x1 x2 => Sys2Proof.Machine.execBswp x1 x2 s
  | .bcond x1 x2 => Sys2Proof.Machine.execBcond x1 x2 s
  | .call x1 x2 => Sys2Proof.Machine.execCall x1 x2 s
  | .ret x1 x2 => Sys2Proof.Machine.execRet x1 x2 s
  | .jmp x1 x2 => Sys2Proof.Machine.execJmp x1 x2 s
  | .callr x1 x2 => Sys2Proof.Machine.execCallr x1 x2 s
  | .rte x1 x2 => Sys2Proof.Machine.execRte x1 x2 s
  | .loop x1 x2 => Sys2Proof.Machine.execLoop x1 x2 s
  | .lpop x1 x2 => Sys2Proof.Machine.execLpop x1 x2 s
  | .rpt x1 x2 => Sys2Proof.Machine.execRpt x1 x2 s
  | .kfnd x1 x2 => Sys2Proof.Machine.execKfnd x1 x2 s
  | .vaultReloadComplete x1 x2 => Sys2Proof.Machine.execVaultReloadComplete x1 x2 s
  | .ljob x1 x2 => Sys2Proof.Machine.execLjob x1 x2 s
  | .pjob x1 x2 => Sys2Proof.Machine.execPjob x1 x2 s
  | .wjob x1 x2 => Sys2Proof.Machine.execWjob x1 x2 s
  | .rand x1 x2 => Sys2Proof.Machine.execRand x1 x2 s
  | .rply x1 x2 => Sys2Proof.Machine.execRply x1 x2 s
  | .xfer x1 x2 => Sys2Proof.Machine.execXfer x1 x2 s
  | .xferReadComplete x1 x2 => Sys2Proof.Machine.execXferReadComplete x1 x2 s
  | .done x1 x2 => Sys2Proof.Machine.execDone x1 x2 s
  | .fail x1 x2 => Sys2Proof.Machine.execFail x1 x2 s
  | .wait x1 x2 => Sys2Proof.Machine.execWait x1 x2 s
  | .fence x1 x2 => Sys2Proof.Machine.execFence x1 x2 s
  | .evack x1 x2 => Sys2Proof.Machine.execEvack x1 x2 s
  | .stewardEvent x1 => Sys2Proof.Machine.execStewardEvent x1 s
  | .stewardWatchdog => Sys2Proof.Machine.execStewardWatchdog s
  | .yokeResetComplete x1 => Sys2Proof.Machine.execYokeResetComplete x1 s
  | .progSignerAdd x1 => Sys2Proof.Machine.execProgSignerAdd x1 s
  | .progSignerRemove => Sys2Proof.Machine.execProgSignerRemove s
  | .progInstall x1 => Sys2Proof.Machine.execProgInstall x1 s
  | .progRemove => Sys2Proof.Machine.execProgRemove s
  | .progList => Sys2Proof.Machine.execProgList s
  | .pinXlate x1 x2 x3 => Sys2Proof.Machine.execPinXlate x1 x2 x3 s
  | .pinOpen x1 x2 x3 => Sys2Proof.Machine.execPinOpen x1 x2 x3 s
  | .pinReseal x1 x2 x3 => Sys2Proof.Machine.execPinReseal x1 x2 x3 s
  | .pinVer3624 x1 x2 x3 => Sys2Proof.Machine.execPinVer3624 x1 x2 x3 s
  | .pinVerPvv x1 x2 x3 => Sys2Proof.Machine.execPinVerPvv x1 x2 x3 s
  | .cvv x1 x2 x3 => Sys2Proof.Machine.execCvv x1 x2 x3 s
  | .arqcArpc x1 x2 x3 => Sys2Proof.Machine.execArqcArpc x1 x2 x3 s
  | .dukptDerive x1 x2 x3 => Sys2Proof.Machine.execDukptDerive x1 x2 x3 s
  | .kbUnwrap x1 x2 x3 => Sys2Proof.Machine.execKbUnwrap x1 x2 x3 s
  | .kbWrap x1 x2 x3 => Sys2Proof.Machine.execKbWrap x1 x2 x3 s
  | .cmac x1 x2 x3 => Sys2Proof.Machine.execCmac x1 x2 x3 s
  | .mac9797 x1 x2 x3 => Sys2Proof.Machine.execMac9797 x1 x2 x3 s
  | .hmac x1 x2 x3 => Sys2Proof.Machine.execHmac x1 x2 x3 s
  | .gcmDec x1 x2 x3 => Sys2Proof.Machine.execGcmDec x1 x2 x3 s
  | .ff1 x1 x2 x3 => Sys2Proof.Machine.execFf1 x1 x2 x3 s
  | .cipher x1 x2 x3 => Sys2Proof.Machine.execCipher x1 x2 x3 s
  | .hash x1 x2 x3 => Sys2Proof.Machine.execHash x1 x2 x3 s
  | .rsaSign x1 x2 x3 => Sys2Proof.Machine.execRsaSign x1 x2 x3 s
  | .rsaVerify x1 x2 x3 => Sys2Proof.Machine.execRsaVerify x1 x2 x3 s
  | .rsaDecrypt x1 x2 x3 => Sys2Proof.Machine.execRsaDecrypt x1 x2 x3 s
  | .ecdsaSign x1 x2 x3 => Sys2Proof.Machine.execEcdsaSign x1 x2 x3 s
  | .ecdsaVerify x1 x2 x3 => Sys2Proof.Machine.execEcdsaVerify x1 x2 x3 s
  | .ecdh x1 x2 x3 => Sys2Proof.Machine.execEcdh x1 x2 x3 s
  | .ecKeyPairGeneration x1 x2 x3 => Sys2Proof.Machine.execEcKeyPairGeneration x1 x2 x3 s
  | .eddsaSign x1 x2 x3 => Sys2Proof.Machine.execEddsaSign x1 x2 x3 s
  | .eddsaVerify x1 x2 x3 => Sys2Proof.Machine.execEddsaVerify x1 x2 x3 s
  | .x25519X448 x1 x2 x3 => Sys2Proof.Machine.execX25519X448 x1 x2 x3 s
  | .mlkemEncapsulate x1 x2 x3 => Sys2Proof.Machine.execMlkemEncapsulate x1 x2 x3 s
  | .mlkemDecapsulate x1 x2 x3 => Sys2Proof.Machine.execMlkemDecapsulate x1 x2 x3 s
  | .mldsaSign x1 x2 x3 => Sys2Proof.Machine.execMldsaSign x1 x2 x3 s
  | .mldsaVerify x1 x2 x3 => Sys2Proof.Machine.execMldsaVerify x1 x2 x3 s
  | .attach x1 x2 => Sys2Proof.Machine.execAttach x1 x2 s
  | .validationWindowEnd x1 x2 => Sys2Proof.Machine.execValidationWindowEnd x1 x2 s
  | .engineSquashComplete x1 x2 => Sys2Proof.Machine.execEngineSquashComplete x1 x2 s
  | .engineDetachComplete x1 => Sys2Proof.Machine.execEngineDetachComplete x1 s
  | .zero x1 => Sys2Proof.Machine.execZero x1 s
  | .copy x1 => Sys2Proof.Machine.execCopy x1 s
  | .mprep x1 => Sys2Proof.Machine.execMprep x1 s
  | .mmul x1 => Sys2Proof.Machine.execMmul x1 s
  | .madd x1 => Sys2Proof.Machine.execMadd x1 s
  | .msub x1 => Sys2Proof.Machine.execMsub x1 s
  | .mac x1 => Sys2Proof.Machine.execMac x1 s
  | .ntt x1 => Sys2Proof.Machine.execNtt x1 s
  | .intt x1 => Sys2Proof.Machine.execIntt x1 s
  | .pwmul x1 => Sys2Proof.Machine.execPwmul x1 s
  | .padd x1 => Sys2Proof.Machine.execPadd x1 s
  | .pkeCurveLoad x1 => Sys2Proof.Machine.execPkeCurveLoad x1 s
  | .pkeCurveClear => Sys2Proof.Machine.execPkeCurveClear s
  | .pkePubkeyLoad x1 => Sys2Proof.Machine.execPkePubkeyLoad x1 s
  | .kitRehash => Sys2Proof.Machine.execKitRehash s
  | .rehashSweep => Sys2Proof.Machine.execRehashSweep s
  | .walkTokenTaken => Sys2Proof.Machine.execWalkTokenTaken s
  | .sweeperVisit x1 => Sys2Proof.Machine.execSweeperVisit x1 s
  | .vaultSave => Sys2Proof.Machine.execVaultSave s
  | .vaultLoad x1 => Sys2Proof.Machine.execVaultLoad x1 s
  | .healthTestFailure x1 x2 => Sys2Proof.Machine.execHealthTestFailure x1 x2 s
  | .sourceRetestStart x1 => Sys2Proof.Machine.execSourceRetestStart x1 s
  | .startupTestEnd x1 x2 => Sys2Proof.Machine.execStartupTestEnd x1 x2 s
  | .conditionerBlock => Sys2Proof.Machine.execConditionerBlock s
  | .maskKeyRefresh x1 => Sys2Proof.Machine.execMaskKeyRefresh x1 s
  | .rngSctlPr => Sys2Proof.Machine.execRngSctlPr s
  | .rngSctlSel x1 => Sys2Proof.Machine.execRngSctlSel x1 s
  | .rngDataRead => Sys2Proof.Machine.execRngDataRead s
  | .claimStartTimeout => Sys2Proof.Machine.execClaimStartTimeout s
  | .rngRawCapture => Sys2Proof.Machine.execRngRawCapture s
  | .rawCaptureEnd x1 => Sys2Proof.Machine.execRawCaptureEnd x1 s
  | .tamper x1 x2 => Sys2Proof.Machine.execTamper x1 x2 s
  | .logWindowClose => Sys2Proof.Machine.execLogWindowClose s
  | .keeperPowerOn => Sys2Proof.Machine.execKeeperPowerOn s
  | .keeperSourceSwitch x1 => Sys2Proof.Machine.execKeeperSourceSwitch x1 s
  | .batLow => Sys2Proof.Machine.execBatLow s
  | .batLowClear => Sys2Proof.Machine.execBatLowClear s
  | .operatingMinute => Sys2Proof.Machine.execOperatingMinute s
  | .kprVoltUpdate x1 x2 => Sys2Proof.Machine.execKprVoltUpdate x1 x2 s
  | .tmpLoopSet => Sys2Proof.Machine.execTmpLoopSet s
  | .tmpRearm => Sys2Proof.Machine.execTmpRearm s
  | .smbusDeviceId => Sys2Proof.Machine.execSmbusDeviceId s
  | .smbusKprStat => Sys2Proof.Machine.execSmbusKprStat s
  | .smbusTmpCause => Sys2Proof.Machine.execSmbusTmpCause s
  | .smbusTmpLive => Sys2Proof.Machine.execSmbusTmpLive s
  | .smbusKprOpmin => Sys2Proof.Machine.execSmbusKprOpmin s
  | .smbusKprPwrcyc => Sys2Proof.Machine.execSmbusKprPwrcyc s
  | .smbusKprStartfail => Sys2Proof.Machine.execSmbusKprStartfail s
  | .smbusKprVolt => Sys2Proof.Machine.execSmbusKprVolt s
  | .smbusTmpLoopCfg => Sys2Proof.Machine.execSmbusTmpLoopCfg s
  | .smbusKprStarts => Sys2Proof.Machine.execSmbusKprStarts s
  | .smbusTmpLog x1 => Sys2Proof.Machine.execSmbusTmpLog x1 s
  | .smbusWrite => Sys2Proof.Machine.execSmbusWrite s
  | .holdSet => Sys2Proof.Machine.execHoldSet s
  | .held => Sys2Proof.Machine.execHeld s
  | .holdRelease => Sys2Proof.Machine.execHoldRelease s
  | .holdLong => Sys2Proof.Machine.execHoldLong s
  | .hdgRegionWrite x1 x2 x3 => Sys2Proof.Machine.execHdgRegionWrite x1 x2 x3 s
  | .debugMemAccess x1 x2 => Sys2Proof.Machine.execDebugMemAccess x1 x2 s
  | .debugHalt x1 => Sys2Proof.Machine.execDebugHalt x1 s
  | .bypass => Sys2Proof.Machine.execBypass s
  | .idcode => Sys2Proof.Machine.execIdcode s
  | .sample => Sys2Proof.Machine.execSample s
  | .extest => Sys2Proof.Machine.execExtest s
  | .dbgChallenge x1 => Sys2Proof.Machine.execDbgChallenge x1 s
  | .dbgToken x1 => Sys2Proof.Machine.execDbgToken x1 s
  | .challengeExpiry => Sys2Proof.Machine.execChallengeExpiry s
  | .dbgConsent => Sys2Proof.Machine.execDbgConsent s
  | .custEnrol => Sys2Proof.Machine.execCustEnrol s
  | .custRevoke => Sys2Proof.Machine.execCustRevoke s
  | .custSetM => Sys2Proof.Machine.execCustSetM s
  | .custSessionOpen => Sys2Proof.Machine.execCustSessionOpen s
  | .custSessionEnd => Sys2Proof.Machine.execCustSessionEnd s
  | .keyCeremony => Sys2Proof.Machine.execKeyCeremony s
  | .custCancel => Sys2Proof.Machine.execCustCancel s
  | .pedEnrol x1 => Sys2Proof.Machine.execPedEnrol x1 s
  | .cardInsert x1 x2 => Sys2Proof.Machine.execCardInsert x1 x2 s
  | .cardWithdraw x1 => Sys2Proof.Machine.execCardWithdraw x1 s
  | .cardOvercurrent x1 => Sys2Proof.Machine.execCardOvercurrent x1 s
  | .cardResponse x1 x2 => Sys2Proof.Machine.execCardResponse x1 x2 s
  | .consoleFrame x1 x2 x3 => Sys2Proof.Machine.execConsoleFrame x1 x2 x3 s
  | .authStepTimeout => Sys2Proof.Machine.execAuthStepTimeout s
  | .assemblyTimeout => Sys2Proof.Machine.execAssemblyTimeout s
  | .sessionExpiry x1 => Sys2Proof.Machine.execSessionExpiry x1 s
  | .lcsAdvance => Sys2Proof.Machine.execLcsAdvance s
  | .lcsStatus => Sys2Proof.Machine.execLcsStatus s
  | .fwLoad x1 => Sys2Proof.Machine.execFwLoad x1 s
  | .fwActivate => Sys2Proof.Machine.execFwActivate s
  | .startCntReset => Sys2Proof.Machine.execStartCntReset s
  | .fallowRequest => Sys2Proof.Machine.execFallowRequest s
  | .modReconfig => Sys2Proof.Machine.execModReconfig s
  | .stopChangeRestartApply => Sys2Proof.Machine.execStopChangeRestartApply s
  | .moduleStart x1 => Sys2Proof.Machine.execModuleStart x1 s
  | .fullService x1 => Sys2Proof.Machine.execFullService x1 s
  | .mainPowerGood x1 => Sys2Proof.Machine.execMainPowerGood x1 s
  | .mainPowerLoss => Sys2Proof.Machine.execMainPowerLoss s
  | .mrstN x1 => Sys2Proof.Machine.execMrstN x1 s
  | .vioLoss => Sys2Proof.Machine.execVioLoss s
  | .vioReturn x1 => Sys2Proof.Machine.execVioReturn x1 s
  | .thermalShutdown => Sys2Proof.Machine.execThermalShutdown s
  | .holdupStoreCharged => Sys2Proof.Machine.execHoldupStoreCharged s
  | .pllLock x1 => Sys2Proof.Machine.execPllLock x1 s
  | .dozeEntry => Sys2Proof.Machine.execDozeEntry s
  | .pwrPolicyWrite x1 => Sys2Proof.Machine.execPwrPolicyWrite x1 s
  | .unitGate x1 => Sys2Proof.Machine.execUnitGate x1 s
  | .evrExport => Sys2Proof.Machine.execEvrExport s
  | .evrAck => Sys2Proof.Machine.execEvrAck s
  | .cluJoin x1 => Sys2Proof.Machine.execCluJoin x1 s
  | .cluMembers x1 => Sys2Proof.Machine.execCluMembers x1 s
  | .cluLeave => Sys2Proof.Machine.execCluLeave s
  | .cluPlotBind => Sys2Proof.Machine.execCluPlotBind s
  | .cluPair => Sys2Proof.Machine.execCluPair s
  | .pairCopyDone x1 => Sys2Proof.Machine.execPairCopyDone x1 s
  | .cluUnpair => Sys2Proof.Machine.execCluUnpair s
  | .cluSwap => Sys2Proof.Machine.execCluSwap s
  | .swapPlotsStopped x1 => Sys2Proof.Machine.execSwapPlotsStopped x1 s
  | .cluPromote => Sys2Proof.Machine.execCluPromote s
  | .portLinkChange x1 x2 => Sys2Proof.Machine.execPortLinkChange x1 x2 s
  | .foreignFrame x1 => Sys2Proof.Machine.execForeignFrame x1 s
  | .hello x1 x2 x3 x4 => Sys2Proof.Machine.execHello x1 x2 x3 x4 s
  | .kex x1 x2 x3 => Sys2Proof.Machine.execKex x1 x2 x3 s
  | .kexReply x1 x2 x3 x4 => Sys2Proof.Machine.execKexReply x1 x2 x3 x4 s
  | .finish x1 x2 => Sys2Proof.Machine.execFinish x1 x2 s
  | .rekey x1 x2 x3 => Sys2Proof.Machine.execRekey x1 x2 x3 s
  | .rekeyReply x1 x2 x3 x4 => Sys2Proof.Machine.execRekeyReply x1 x2 x3 x4 s
  | .rekeyThreshold x1 => Sys2Proof.Machine.execRekeyThreshold x1 s
  | .phaseOverlapEnd x1 => Sys2Proof.Machine.execPhaseOverlapEnd x1 s
  | .heartbeat x1 x2 x3 => Sys2Proof.Machine.execHeartbeat x1 x2 x3 s
  | .heartbeatSend x1 => Sys2Proof.Machine.execHeartbeatSend x1 s
  | .ack x1 x2 => Sys2Proof.Machine.execAck x1 x2 s
  | .resendTimer x1 x2 => Sys2Proof.Machine.execResendTimer x1 x2 s
  | .bind x1 x2 => Sys2Proof.Machine.execBind x1 x2 s
  | .shareLearn x1 x2 => Sys2Proof.Machine.execShareLearn x1 x2 s
  | .shareForget x1 x2 x3 x4 x5 => Sys2Proof.Machine.execShareForget x1 x2 x3 x4 x5 s
  | .syncReq x1 x2 => Sys2Proof.Machine.execSyncReq x1 x2 s
  | .claim x1 x2 x3 => Sys2Proof.Machine.execClaim x1 x2 x3 s
  | .claimReply x1 x2 x3 x4 => Sys2Proof.Machine.execClaimReply x1 x2 x3 x4 s
  | .rehome x1 x2 x3 x4 => Sys2Proof.Machine.execRehome x1 x2 x3 x4 s
  | .pairState x1 x2 => Sys2Proof.Machine.execPairState x1 x2 s
  | .pairStream x1 x2 => Sys2Proof.Machine.execPairStream x1 x2 s
  | .pairAdmin x1 x2 => Sys2Proof.Machine.execPairAdmin x1 x2 s
  | .pairAbort x1 x2 x3 => Sys2Proof.Machine.execPairAbort x1 x2 x3 s
  | .pairDigest x1 x2 x3 x4 => Sys2Proof.Machine.execPairDigest x1 x2 x3 x4 s
  | .pairAck x1 x2 x3 => Sys2Proof.Machine.execPairAck x1 x2 x3 s
  | .pairSwap x1 => Sys2Proof.Machine.execPairSwap x1 s
  | .packed x1 x2 => Sys2Proof.Machine.execPacked x1 x2 s
  | .batchClose => Sys2Proof.Machine.execBatchClose s
  | .standbyTakeover => Sys2Proof.Machine.execStandbyTakeover s
  | .activeUnpair => Sys2Proof.Machine.execActiveUnpair s
  | .keeperSupplyLoss => Sys2Proof.Machine.execKeeperSupplyLoss s
  | .tamperConditionClear x1 => Sys2Proof.Machine.execTamperConditionClear x1 s
  | .debugResume x1 => Sys2Proof.Machine.execDebugResume x1 s
  | .vfEnableSet x1 => Sys2Proof.Machine.execVfEnableSet x1 s
  | .msixMask x1 x2 => Sys2Proof.Machine.execMsixMask x1 x2 s
  | .perstNRelease => Sys2Proof.Machine.execPerstNRelease s
  | .ledActTimeout => Sys2Proof.Machine.execLedActTimeout s
  | .adminBoundExpired => Sys2Proof.Machine.execAdminBoundExpired s

end Sys2Proof.Machine
end

