-- ==== Sys2Proof/WellFormed.lean ====
section
/-! DEFINITION. Which commands exist: byte strings of the lengths the interfaces carry. Whatever else a command's operands hold
is the module's business to accept or refuse, and is its meaning. -/

namespace Sys2Proof

/-- A host read brings nothing or exactly `n` bytes. -/
def readLen (n : Nat) : HostRead → Bool
  | .failed => true
  | .data b => b.length == n

/-- The descriptor a queued deadline ends has 128 bytes (R52). -/
def targetLen : DlTarget → Bool
  | .yoke _ => true
  | .queued _ _ d => d.length == 128

/-- A command that an interface of the module can bring: descriptors of 128 bytes (R52), SPDM nonces of 32 and exchanges of 96
(R87), startup tests of 1,024 samples (R395), debug tokens of 160 (R464), card keys of 65 (R470), at most 64 SEQ values in an ACK and 16 messages in a packed frame
(R533, Table 15.2). -/
def wellFormed : Instr → Bool
  | .hopTailDb _ _ _ => true
  | .hopHeadDb _ _ _ => true
  | .hopperEnable _ _ => true
  | .hopperDisable _ _ => true
  | .registerWrite _ _ _ _ => true
  | .dispatch => true
  | .descriptorArrival _ r => readLen 128 r
  | .stagingReadComplete _ _ => true
  | .deadlineExpired t => targetLen t
  | .tMarginReached _ => true
  | .coalescingTimer _ => true
  | .msixUnmask _ _ => true
  | .ideIntegrityFailure _ => true
  | .ideKmQuery _ => true
  | .ideKmKeyProg _ _ _ _ => true
  | .ideKmKSetGo _ _ => true
  | .ideKmKSetStop _ _ => true
  | .spdmGetCertificate _ => true
  | .spdmChallenge nonce => nonce.length == 32
  | .spdmGetMeasurements _ nonce => nonce.length == 32
  | .spdmKeyExchange exchange => exchange.length == 96
  | .vfFlr _ => true
  | .vfEnableClear => true
  | .pf0Flr => true
  | .perstN => true
  | .plotCreate => true
  | .plotOpen => true
  | .plotStop => true
  | .plotStart => true
  | .plotResize => true
  | .plotReset => true
  | .resetSequenceComplete _ => true
  | .plotRemove => true
  | .removalSequenceComplete _ => true
  | .plotPolicyStage _ => true
  | .plotPolicyCommit => true
  | .plotQuery => true
  | .drawerSend => true
  | .drawerRecv => true
  | .pltVopenGo _ _ => true
  | .inValid _ => true
  | .outAck _ => true
  | .plotTick _ => true
  | .add _ _ => true
  | .adc _ _ => true
  | .sub _ _ => true
  | .sbc _ _ => true
  | .cmp _ _ => true
  | .and _ _ => true
  | .or _ _ => true
  | .xor _ _ => true
  | .tst _ _ => true
  | .neg _ _ => true
  | .not _ _ => true
  | .lda _ _ => true
  | .ldx _ _ => true
  | .ldy _ _ => true
  | .ldsp _ _ => true
  | .sta _ _ => true
  | .stx _ _ => true
  | .sty _ _ => true
  | .push _ _ => true
  | .pop _ _ => true
  | .leax _ _ => true
  | .leay _ _ => true
  | .mul _ _ => true
  | .muls _ _ => true
  | .clrm _ _ => true
  | .macd _ _ => true
  | .macs _ _ => true
  | .macc _ _ => true
  | .divu _ _ => true
  | .divs _ _ => true
  | .shl _ _ => true
  | .shr _ _ => true
  | .sar _ _ => true
  | .rol _ _ => true
  | .ror _ _ => true
  | .bset _ _ => true
  | .bclr _ _ => true
  | .btst _ _ => true
  | .clz _ _ => true
  | .popc _ _ => true
  | .bswp _ _ => true
  | .bcond _ _ => true
  | .call _ _ => true
  | .ret _ _ => true
  | .jmp _ _ => true
  | .callr _ _ => true
  | .rte _ _ => true
  | .loop _ _ => true
  | .lpop _ _ => true
  | .rpt _ _ => true
  | .kfnd _ _ => true
  | .vaultReloadComplete _ _ => true
  | .ljob _ _ => true
  | .pjob _ _ => true
  | .wjob _ _ => true
  | .rand _ _ => true
  | .rply _ _ => true
  | .xfer _ _ => true
  | .xferReadComplete _ _ => true
  | .done _ _ => true
  | .fail _ _ => true
  | .wait _ _ => true
  | .fence _ _ => true
  | .evack _ _ => true
  | .stewardEvent _ => true
  | .stewardWatchdog => true
  | .yokeResetComplete _ => true
  | .progSignerAdd _ => true
  | .progSignerRemove => true
  | .progInstall _ => true
  | .progRemove => true
  | .progList => true
  | .pinXlate _ _ _ => true
  | .pinOpen _ _ _ => true
  | .pinReseal _ _ _ => true
  | .pinVer3624 _ _ _ => true
  | .pinVerPvv _ _ _ => true
  | .cvv _ _ _ => true
  | .arqcArpc _ _ _ => true
  | .dukptDerive _ _ _ => true
  | .kbUnwrap _ _ _ => true
  | .kbWrap _ _ _ => true
  | .cmac _ _ _ => true
  | .mac9797 _ _ _ => true
  | .hmac _ _ _ => true
  | .gcmDec _ _ _ => true
  | .ff1 _ _ _ => true
  | .cipher _ _ _ => true
  | .hash _ _ _ => true
  | .rsaSign _ _ _ => true
  | .rsaVerify _ _ _ => true
  | .rsaDecrypt _ _ _ => true
  | .ecdsaSign _ _ _ => true
  | .ecdsaVerify _ _ _ => true
  | .ecdh _ _ _ => true
  | .ecKeyPairGeneration _ _ _ => true
  | .eddsaSign _ _ _ => true
  | .eddsaVerify _ _ _ => true
  | .x25519X448 _ _ _ => true
  | .mlkemEncapsulate _ _ _ => true
  | .mlkemDecapsulate _ _ _ => true
  | .mldsaSign _ _ _ => true
  | .mldsaVerify _ _ _ => true
  | .attach _ _ => true
  | .validationWindowEnd _ _ => true
  | .engineSquashComplete _ _ => true
  | .engineDetachComplete _ => true
  | .zero _ => true
  | .copy _ => true
  | .mprep _ => true
  | .mmul _ => true
  | .madd _ => true
  | .msub _ => true
  | .mac _ => true
  | .ntt _ => true
  | .intt _ => true
  | .pwmul _ => true
  | .padd _ => true
  | .pkeCurveLoad _ => true
  | .pkeCurveClear => true
  | .pkePubkeyLoad _ => true
  | .kitRehash => true
  | .rehashSweep => true
  | .walkTokenTaken => true
  | .sweeperVisit _ => true
  | .vaultSave => true
  | .vaultLoad _ => true
  | .healthTestFailure _ _ => true
  | .sourceRetestStart _ => true
  | .startupTestEnd _ samples => samples.length == 1024
  | .conditionerBlock => true
  | .maskKeyRefresh _ => true
  | .rngSctlPr => true
  | .rngSctlSel _ => true
  | .rngDataRead => true
  | .claimStartTimeout => true
  | .rngRawCapture => true
  | .rawCaptureEnd _ => true
  | .tamper _ _ => true
  | .logWindowClose => true
  | .keeperPowerOn => true
  | .keeperSourceSwitch _ => true
  | .batLow => true
  | .batLowClear => true
  | .operatingMinute => true
  | .kprVoltUpdate _ _ => true
  | .tmpLoopSet => true
  | .tmpRearm => true
  | .smbusDeviceId => true
  | .smbusKprStat => true
  | .smbusTmpCause => true
  | .smbusTmpLive => true
  | .smbusKprOpmin => true
  | .smbusKprPwrcyc => true
  | .smbusKprStartfail => true
  | .smbusKprVolt => true
  | .smbusTmpLoopCfg => true
  | .smbusKprStarts => true
  | .smbusTmpLog _ => true
  | .smbusWrite => true
  | .holdSet => true
  | .held => true
  | .holdRelease => true
  | .holdLong => true
  | .hdgRegionWrite _ _ _ => true
  | .debugMemAccess _ _ => true
  | .debugHalt _ => true
  | .bypass => true
  | .idcode => true
  | .sample => true
  | .extest => true
  | .dbgChallenge _ => true
  | .dbgToken token => token.length == 160
  | .challengeExpiry => true
  | .dbgConsent => true
  | .custEnrol => true
  | .custRevoke => true
  | .custSetM => true
  | .custSessionOpen => true
  | .custSessionEnd => true
  | .keyCeremony => true
  | .custCancel => true
  | .pedEnrol _ => true
  | .cardInsert _ key => key.length == 65
  | .cardWithdraw _ => true
  | .cardOvercurrent _ => true
  | .cardResponse _ _ => true
  | .consoleFrame _ _ _ => true
  | .authStepTimeout => true
  | .assemblyTimeout => true
  | .sessionExpiry _ => true
  | .lcsAdvance => true
  | .lcsStatus => true
  | .fwLoad _ => true
  | .fwActivate => true
  | .startCntReset => true
  | .fallowRequest => true
  | .modReconfig => true
  | .stopChangeRestartApply => true
  | .moduleStart _ => true
  | .fullService _ => true
  | .mainPowerGood _ => true
  | .mainPowerLoss => true
  | .mrstN _ => true
  | .vioLoss => true
  | .vioReturn _ => true
  | .thermalShutdown => true
  | .holdupStoreCharged => true
  | .pllLock _ => true
  | .dozeEntry => true
  | .pwrPolicyWrite _ => true
  | .unitGate _ => true
  | .evrExport => true
  | .evrAck => true
  | .cluJoin _ => true
  | .cluMembers _ => true
  | .cluLeave => true
  | .cluPlotBind => true
  | .cluPair => true
  | .pairCopyDone _ => true
  | .cluUnpair => true
  | .cluSwap => true
  | .swapPlotsStopped _ => true
  | .cluPromote => true
  | .portLinkChange _ _ => true
  | .foreignFrame _ => true
  | .hello _ _ _ _ => true
  | .kex _ _ _ => true
  | .kexReply _ _ _ _ => true
  | .finish _ _ => true
  | .rekey _ _ _ => true
  | .rekeyReply _ _ _ _ => true
  | .rekeyThreshold _ => true
  | .phaseOverlapEnd _ => true
  | .heartbeat _ _ _ => true
  | .heartbeatSend _ => true
  | .ack _ seqs => decide (seqs.length ≤ 64)
  | .resendTimer _ _ => true
  | .bind _ _ => true
  | .shareLearn _ _ => true
  | .shareForget _ _ _ _ _ => true
  | .syncReq _ _ => true
  | .claim _ _ _ => true
  | .claimReply _ _ _ _ => true
  | .rehome _ _ _ _ => true
  | .pairState _ _ => true
  | .pairStream _ _ => true
  | .pairAdmin _ _ => true
  | .pairAbort _ _ _ => true
  | .pairDigest _ _ _ _ => true
  | .pairAck _ _ _ => true
  | .pairSwap _ => true
  | .packed _ ms => decide (ms.length ≤ 16)
  | .batchClose => true
  | .standbyTakeover => true
  | .activeUnpair => true
  | .keeperSupplyLoss => true
  | .tamperConditionClear _ => true
  | .debugResume _ => true
  | .vfEnableSet _ => true
  | .msixMask _ _ => true
  | .perstNRelease => true
  | .ledActTimeout => true
  | .adminBoundExpired => true

end Sys2Proof
end

