-- ==== Sys2Proof/Safety.lean ====
section
/-! DEFINITION. The terms in which claims about the module are made: a core that comes to its next instruction, an
admin command that passes its gates, a host link that is up, and the invariants of a run. -/

namespace Sys2Proof.Machine

/-! ### Invariants -/

/-- Every waiting command is one that an interface of the module can carry. -/
def QueueOk (s : State) : Prop := s.pending.all wellFormed = true

/-- The memories and the tables that are keyed by plot and yoke are in canonical form (MEMORY: equal contents are
equal data). -/
def Canon (s : State) : Prop :=
  twf Plot.zero s.plots = true ∧ twf Yoke.zero s.yokes = true ∧ Memory.wf s.stw.mem = true ∧
    ∀ y, Memory.wf (s.yoke y).bench = true

/-- No blown fuse of `s` is unblown in `t`: neither of the life-cycle groups nor of the trim (R483, R490). -/
def FusesKept (s t : State) : Prop :=
  (∀ g, s.lcs.fuses.getD g 0 ≤ t.lcs.fuses.getD g 0) ∧ (s.lcs.trimBlown = true → t.lcs.trimBlown = true)

/-- From `s` to `t` the clock has not gone back, no number of a free value is given out again, and what has left the module
stands (logs 2 to 4). -/
def Onward (s t : State) : Prop := s.now ≤ t.now ∧ s.free ≤ t.free ∧ s.out <+: t.out

/-! ### Cores -/

/-- The state in which the next instruction of a core has its effect: FL.T stands as R151 has it at the boundary. -/
def fetched (s : State) (c : CoreId) : State := marginFlag s c

/-- The registers the next instruction of a core finds. -/
def regsOf (s : State) (c : CoreId) : Core := (fetched s c).core c

/-- A core comes to its next instruction and nothing goes before the instruction's own checks: it runs (R20, R149),
no boundary stops its copy (R556), its deadline is ahead (R253), the error codes and the comparison find nothing
(R144, R230), and its words may be fetched (R193). -/
def Comes (s : State) (c : CoreId) (hw : Hw) (ext : Bool) : Prop :=
  active s c = true ∧ copyStops s c = false ∧ overdue s c = false ∧ hw = .ok ∧
    fetchFault (fetched s c) c (regsOf s c) ext = none

/-- The memory a core's loads and stores reach: its bench, or the steward's memory on the fabric (R150, R185). -/
def coreMem (s : State) : CoreId → Mem
  | .tiller y => (s.yoke y).bench
  | .steward => s.stw.mem

/-- A load of `n` bytes at an address below port space is carried out at once: in user mode an aligned address of the bench
(R159); in privileged mode a fabric address, no hold lasting and the hedgerow table granting every byte (R185, R455, R458). -/
def MayLoad (s : State) (c : CoreId) (a : W64) (n : Nat) : Prop :=
  match c with
  | .tiller _ => a.toNat < 0xF000 ∧ a.toNat % n = 0
  | .steward => a.toNat < 2 ^ 32 ∧ s.hdg.hold = false ∧ firstForbidden s.hdg 0 0 a.toNat n = none

/-- A store of `n` bytes at an address below port space is carried out at once: as a load, and on the bench never in the command
region (R159). -/
def MayStore (s : State) (c : CoreId) (a : W64) (n : Nat) : Prop :=
  match c with
  | .tiller _ => a.toNat < 0xF000 ∧ (a.toNat < 0xC000 ∨ 0xE000 ≤ a.toNat) ∧ a.toNat % n = 0
  | .steward => a.toNat < 2 ^ 32 ∧ s.hdg.hold = false ∧ firstForbidden s.hdg 0 1 a.toNat n = none

/-- What such a load reads: the bytes little-endian (R150). -/
def loadedAt (s : State) (c : CoreId) (a : W64) (n : Nat) : W64 := BitVec.ofNat 64 (leNat (mread (coreMem s c) a.toNat n))

/-- The state such a store leaves (R150, R246). -/
def storedAt (s : State) (c : CoreId) (a : W64) (n : Nat) (v : W64) : State :=
  match c with
  | .tiller y => benchPut s y a.toNat (le n v.toNat)
  | .steward => { s with stw := { s.stw with mem := mwrite s.stw.mem a.toNat (le n v.toNat) } }

/-- The operand of an instruction is there at once: an immediate, a register, or memory that may be loaded. -/
def OperandOpen (s : State) (c : CoreId) (k : Core) (i : Ins) : Prop :=
  i.mode = 0 ∨ i.mode = 7 ∨ MayLoad s c (i.addr k) i.bytes

/-- Such an operand's value and the cycles its access adds (R157, R158, R166). -/
def operandOf (s : State) (c : CoreId) (k : Core) (i : Ins) (signed : Bool) : W64 × Nat :=
  if i.mode = 0 then (fitVal i.bytes signed i.disp, 0)
  else if i.mode = 7 then (k.reg i.rn, 0)
  else (fitVal i.bytes signed (loadedAt s c (i.addr k) i.bytes), 1)

/-- A record of `n` bytes at an address can be read or written at once: wholly in one region of a list, and aligned (R211). -/
def MayRecord (a : W64) (n align : Nat) (l : List Region) : Prop := rangeIn l a.toNat n = true ∧ a.toNat % align = 0

/-- The bytes of a record in the bench of a yoke (R211). -/
def benchRecord (s : State) (y : YokeId) (a : W64) (n : Nat) : Bytes := mread (s.yoke y).bench a.toNat n

/-- A job descriptor lies at an address and names ranges that a job may name (R211, R214, R244, R245). -/
def MayDescribe (s : State) (y : YokeId) (a : W64) : Prop :=
  MayRecord a 64 8 readable ∧ rangeOk readable (jIn (benchRecord s y a 64)) = true ∧
    rangeOk readable (jIn2 (benchRecord s y a 64)) = true ∧ rangeOk writable (jOut (benchRecord s y a 64)) = true

/-- An instruction that completed: the registers it leaves, its flow and its cost, on the state `t` its accesses left
(R165, R174 to R177). -/
def retire (s t : State) (c : CoreId) (ext : Bool) (d : Done) : State :=
  passBoundary (t.setCore c (complete1 (regsOf s c) ext d)) c

/-- An instruction that trapped before any access: the entry actions of R179, or the end of R182 and R186. -/
def trapped (s : State) (c : CoreId) (t : Trap) : State :=
  takeTrap (fetched s c) (fetched s c) c t (regsOf s c).pc

/-- The registers as a reader of A, AH or FL finds them once a multiply-accumulate has drained (R167). -/
def settled (k : Core) (reads : Bool) : Core := macStall k reads

/-- An instruction with an operand comes, its form is one it accepts (R147, R158, R194: any mode of `modes`, SUB 01 where
`signed`, size 11 alone where `sz3`) and its operand can be read: the state `t` the access leaves, the value `v` and the
cycles `n` the access adds. `reads` says whether it reads A, AH or FL itself. -/
def ReadsOperand (s t : State) (c : CoreId) (i : Ins) (signed : Bool) (modes : List Nat) (sz3 reads : Bool) (v : W64)
    (n : Nat) : Prop :=
  Comes s c i.hw i.e ∧
    checks (regsOf s c) 0 (i.sub == 0 || (signed && i.sub == 1)) true (i.modeOk (regsOf s c) modes sz3)
      (i.privOk (regsOf s c)) = none ∧
    opval (fetched s c) c (settled (regsOf s c) (reads || i.readsMac)) i (i.sub == 1) = .ok t (v, n)

/-- An instruction without an operand access comes and its checks pass: `rep` says whether a repeat may carry it (R175). -/
def Accepted (s : State) (c : CoreId) (hw : Hw) (ext : Bool) (cls : Nat) (sub rep fmt priv : Bool) : Prop :=
  Comes s c hw ext ∧ checks (regsOf s c) cls sub rep fmt priv = none

/-! ### Admin commands -/

/-- The admin command `d` is next, no earlier one still runs (R99), and no gate of R608 that is common to all commands stops it: its
descriptor is valid and names a command; fallow mode, TAMPERED and a standby stop only commands that they do not serve, which
`fallow`, `tamper` and `standby` say of this one (R503, R438, R554); and the life-cycle state is below `lim`, 4 for a command that
DECOMMISSIONED does not serve (R488). -/
def Serves (s : State) (d : Adm) (rest : List Adm) (fallow tamper standby : Bool := false) (lim : Nat := 4) : Prop :=
  s.adm.queue = d :: rest ∧ d.bad = none ∧ adminBusy s = false ∧ (s.lcs.fallow = true → fallow = true) ∧
    (s.kpr.tampered = true → s.lcs.fallow = true ∨ tamper = true) ∧ s.lcs.state.toNat < lim ∧ (mirrors s = true → standby = true)

/-- The state with the next admin command taken from the steward's queue. -/
def popAdm (s : State) (rest : List Adm) : State := { s with adm := { s.adm with queue := rest } }

/-! ### Lane and engine jobs -/

/-- Job `j` of the transaction `t` on yoke `y` is a lane job of type `ty` that is there to run with the event `ev`, every check of
Table 8.1 that `spec` makes holds, the lane PLL being locked (R25), and its input has no uncorrectable bit error (R146): `q` is the
job with its keys and its sealed input (R321). -/
def LanePast (s : State) (y : YokeId) (j : JobIx) (ev : LaneEv) (ty : Nat)
    (spec : State → Bytes → Tx → Bytes → Nat → LaneSpec) (t : Tx) (x : Job) (q : LJ) : Prop :=
  pllUp s 2 = true ∧ s.tx y.val = some t ∧ laneReady t j.val ty = some x ∧
    laneGate s y.val j.val t x.desc x.unit ev (spec s (benchRange s y.val j.val (jIn x.desc)) t x.desc x.unit) = (s, .ok q) ∧
    (ev = .benchUnc → readsBench x.desc = false)

/-- The state in which a lane job past its checks has read its input: a corrected bit error of it is counted (R146). -/
def laneIn (s : State) (y : YokeId) (ev : LaneEv) (x : Job) : State :=
  benchNote s y.val (ev == .eccCorr && readsBench x.desc)

/-- The state in which it computes: the use of its keys is counted too (R318). -/
def laneAt (s : State) (y : YokeId) (ev : LaneEv) (x : Job) (q : LJ) : State := countUses (laneIn s y ev x) q

/-- Job `j` of yoke `y` is an engine job of type `ty` on its engine, not yet past its window where it has one: `q` is the job
with its key and parameter set (R367, R369). -/
def EngPast (s : State) (y : YokeId) (j : JobIx) (ty : Nat) (q : EJ) : Prop := engReady s y.val j.val ty .running = some q

/-- The state in which job `q` runs on its engine: the corrected bit error that its input met is counted, and its operands stand in the
shelves of its slot (R146, R382). -/
def engAt (s : State) (y : YokeId) (ev : EngEv) (q : EJ) : State :=
  placeOps (benchNote s y.val (ev == .eccCorr && readsBench q.d)) q (q.inp s) (q.inp2 s)

/-! ### The Reile link -/

/-- A frame inside a session that this node accepts: it is addressed to it by a member whose session is up, its tag and key
phase hold, and its SEQ is new and no more than 1,023 below the highest (R531, R532, R536, R538). -/
def FrameIn (s : State) (h : Hdr) : Prop :=
  let x := s.sess h.src.toNat
  addressed s h = true ∧ x.hs = .up ∧ h.tagOk = true ∧ (h.kph = x.kph ∨ x.overlap = true) ∧ h.seq ∉ x.rxSeen ∧
    x.rxHigh.toNat < h.seq.toNat + 1024

/-- The state in which an accepted frame's message has its effect: the codewords FEC met with it are counted, its SEQ is noted, and an
ACK has gone out where one is asked for (R532, R534, R567). -/
def frameTaken (s : State) (h : Hdr) (ack : Bool) : State :=
  let s := fecNote s h
  let p := h.src.toNat
  let x := s.sess p
  let high := if x.rxHigh.toNat < h.seq.toNat then h.seq else x.rxHigh
  let t := s.setSess p { x with
    rxHigh := high, rxSeen := (h.seq :: x.rxSeen).filter fun q => decide (high.toNat < q.toNat + 1024) }
  if ack then sendMsg t p (.ack [h.seq]) else t

end Sys2Proof.Machine
end

