-- ==== Sys2Proof/Certificates/Slice0/Obligations.lean ====
section
/-! DEFINITION. The statements about the module that the provers are asked to prove, family by family. Where a statement
says `exec c s = .next t`, the command completes with that effect and everything the record `t` does not name is as it
was. -/

open Sys2Proof Sys2Proof.Machine

/-- ADD, ADC, SUB, SBC, CMP and the logic instructions in every mode: `v` is the operand, AH, X, Y and SP keep their values
but for the post-increment, and only Z, N, C, V change (R197, R165). -/
def Obligations.ArithmeticAndLogic : Prop :=
  ∀ (s t : State) (c : CoreId) (i : Ins) (v : W64) (n : Nat), ReadsOperand s t c i true allModes false true v n →
    let k := settled (regsOf s c) true
    let add := fun (x : Nat) => k.a + v + BitVec.ofNat 64 x
    let sub := fun (x : Nat) => k.a - v - BitVec.ofNat 64 x
    let addFl := fun (x : Nat) => { k.fl with
      z := add x == 0, n := (add x).msb, c := decide (2 ^ 64 ≤ k.a.toNat + v.toNat + x),
      v := k.a.msb == v.msb && (add x).msb != k.a.msb }
    let subFl := fun (x : Nat) => { k.fl with
      z := sub x == 0, n := (sub x).msb, c := decide (k.a.toNat < v.toNat + x),
      v := k.a.msb != v.msb && (sub x).msb != k.a.msb }
    let cin := if k.fl.c then 1 else 0
    let logFl := fun (r : W64) => { k.fl with z := r == 0, n := r.msb }
    let fin := fun (k : Core) => Host.Outcome.next (retire s t c i.e { core := i.post k, cost := 1 + n })
    exec (.add c i) s = fin { k with a := add 0, fl := addFl 0 } ∧
    exec (.adc c i) s = fin { k with a := add cin, fl := addFl cin } ∧
    exec (.sub c i) s = fin { k with a := sub 0, fl := subFl 0 } ∧
    exec (.sbc c i) s = fin { k with a := sub cin, fl := subFl cin } ∧
    exec (.cmp c i) s = fin { k with fl := subFl 0 } ∧
    exec (.and c i) s = fin { k with a := k.a &&& v, fl := logFl (k.a &&& v) } ∧
    exec (.or c i) s = fin { k with a := k.a ||| v, fl := logFl (k.a ||| v) } ∧
    exec (.xor c i) s = fin { k with a := k.a ^^^ v, fl := logFl (k.a ^^^ v) } ∧
    exec (.tst c i) s = fin { k with fl := logFl (k.a &&& v) }

/-- The shifts by the low 8 bits of the operand: 0 leaves A and C, a count above 63 shifts everything out; rotates are modulo
64 (R204, Table 4.9). The bit instructions name bit b = operand[5:0] of A (R204). The instructions on A without an operand,
and CLRM (R197, R202, R204). -/
def Obligations.ShiftsBitsAndUnary : Prop :=
  (∀ (s t : State) (c : CoreId) (i : Ins) (v : W64) (n : Nat), ReadsOperand s t c i false allModes false true v n →
     let k := settled (regsOf s c) true
     let m := v.toNat % 256
     let fin := fun (r : W64) (cf : Bool) => Host.Outcome.next (retire s t c i.e
       { core := i.post { k with a := r, fl := { k.fl with z := r == 0, n := r.msb, c := cf } }, cost := 1 + n })
     exec (.shl c i) s = fin (k.a <<< m) (if m = 0 then k.fl.c else decide (m ≤ 64) && k.a.getLsbD (64 - m)) ∧
     exec (.shr c i) s = fin (k.a >>> m) (if m = 0 then k.fl.c else k.a.getLsbD (m - 1)) ∧
     exec (.sar c i) s = fin (k.a.sshiftRight m) (if m = 0 then k.fl.c else k.a.getLsbD (min m 64 - 1)) ∧
     exec (.rol c i) s = fin (k.a.rotateLeft m) (if m % 64 = 0 then k.fl.c else (k.a.rotateLeft m).getLsbD 0) ∧
     exec (.ror c i) s = fin (k.a.rotateRight m) (if m % 64 = 0 then k.fl.c else (k.a.rotateRight m).msb)) ∧
  (∀ (s t : State) (c : CoreId) (i : Ins) (v : W64) (n : Nat), ReadsOperand s t c i false allModes false true v n →
     let k := settled (regsOf s c) true
     let b := v.toNat % 64
     ∃ rs rc : W64,
       (∀ j, j < 64 → rs.getLsbD j = (k.a.getLsbD j || decide (j = b)) ∧ rc.getLsbD j = (k.a.getLsbD j && decide (j ≠ b))) ∧
       exec (.bset c i) s = .next (retire s t c i.e
         { core := i.post { k with a := rs, fl := { k.fl with z := rs == 0, n := rs.msb } }, cost := 1 + n }) ∧
       exec (.bclr c i) s = .next (retire s t c i.e
         { core := i.post { k with a := rc, fl := { k.fl with z := rc == 0, n := rc.msb } }, cost := 1 + n }) ∧
       exec (.btst c i) s = .next (retire s t c i.e
         { core := i.post { k with fl := { k.fl with z := !k.a.getLsbD b } }, cost := 1 + n })) ∧
  (∀ (s : State) (c : CoreId) (i : Ins), i.sub = 0 → i.mode = 0 → i.f16 = 0 →
     let k := settled (regsOf s c) true
     let fin := fun (r : W64) (f : Flags) =>
       Host.Outcome.next (retire s (fetched s c) c i.e { core := { k with a := r, fl := f } })
     let logFl := fun (r : W64) => { k.fl with z := r == 0, n := r.msb }
     (i.sz = 0 → Accepted s c i.hw i.e 0 true true true true →
       exec (.neg c i) s = fin (-k.a) { k.fl with
         z := k.a == 0, n := (-k.a).msb, c := k.a != 0, v := k.a.msb && (-k.a).msb } ∧
       exec (.not c i) s = fin (~~~k.a) (logFl (~~~k.a)) ∧
       (∃ r : W64,
         r.toNat = (List.range 64).countP (fun j => (List.range 64).all fun m => !(decide (63 - j ≤ m) && k.a.getLsbD m)) ∧
         exec (.clz c i) s = fin r (logFl r)) ∧
       (∃ r : W64, r.toNat = (List.range 64).countP (fun j => k.a.getLsbD j) ∧ exec (.popc c i) s = fin r (logFl r)) ∧
       exec (.clrm c i) s = .next (retire s (fetched s c) c i.e { core := { regsOf s c with ah := 0, a := 0 } })) ∧
     (i.sz ≠ 0 → Accepted s c i.hw i.e 0 true true true true →
       ∃ r : W64, (∀ j, r.getLsbD j = (decide (j < 8 * i.bytes) && k.a.getLsbD (8 * (i.bytes - 1 - j / 8) + j % 8))) ∧
         exec (.bswp c i) s = fin r (logFl r)))

/-- The multiplies: the 128-bit product goes to AH:A (Table 5.5). DIVU and DIVS: the quotient goes to A and the remainder to
AH; a zero divisor with TC.DZTRAP = 0 leaves A = 0 and the dividend in AH with DZ set; with TC.DZTRAP = 1 it traps (R203,
Table 4.9). MACD, MACS and MACC complete where both words of the paired form may be accessed: the 128-bit accumulation in
AH:A, or the row step whose low word is stored over the second operand (R203, Table 5.6). -/
def Obligations.MultiplyAndDivide : Prop :=
  (∀ (s t : State) (c : CoreId) (i : Ins) (v : W64) (n : Nat), ReadsOperand s t c i false allModes false true v n →
     let k := settled (regsOf s c) true
     let p := k.a.toNat * v.toNat
     let q := k.a.toInt * v.toInt
     let r : BitVec 128 := BitVec.ofInt 128 q
     exec (.mul c i) s = .next (retire s t c i.e { core := i.post { k with
       ah := BitVec.ofNat 64 (p / 2 ^ 64), a := BitVec.ofNat 64 p, macAt := some k.cyc,
       fl := { k.fl with z := p == 0, n := p.testBit 127, c := decide (2 ^ 64 ≤ p) } }, cost := 1 + n }) ∧
     exec (.muls c i) s = .next (retire s t c i.e { core := i.post { k with
       ah := r.extractLsb' 64 64, a := r.extractLsb' 0 64, macAt := some k.cyc,
       fl := { k.fl with z := r == 0, n := r.msb, c := q != (r.extractLsb' 0 64).toInt } }, cost := 1 + n })) ∧
  (∀ (s t : State) (c : CoreId) (i : Ins) (v : W64) (n : Nat), ReadsOperand s t c i false allModes false true v n →
     let k := settled (regsOf s c) true
     let cost := 34 + (if n ≤ 1 then 0 else n + 1)
     let fin := fun (q r : W64) (dz o : Bool) => Host.Outcome.next (retire s t c i.e
       { core := i.post { k with a := q, ah := r, fl := { k.fl with z := q == 0, n := q.msb, v := o, dz := dz } },
         cost := cost })
     (v ≠ 0 → exec (.divu c i) s = fin (k.a / v) (k.a % v) false false ∧
       exec (.divs c i) s = fin (k.a.sdiv v) (k.a.srem v) false (k.a == BitVec.intMin 64 && v == BitVec.allOnes 64)) ∧
     (v = 0 → k.dztrap = false → exec (.divu c i) s = fin 0 k.a true false ∧ exec (.divs c i) s = fin 0 k.a true false) ∧
     (v = 0 → k.dztrap = true →
       exec (.divu c i) s = .next (takeTrap (fetched s c) t c .divZero (regsOf s c).pc) ∧
       exec (.divs c i) s = .next (takeTrap (fetched s c) t c .divZero (regsOf s c).pc))) ∧
  (∀ (s : State) (c : CoreId) (i : Ins),
     Accepted s c i.hw i.e 0 (i.sub == 0) true ((i.mode == 2 || (i.mode == 4 && i.f16 == 0)) && i.sz == 3 && !i.e) true →
     let f := fetched s c
     let k : Core := { regsOf s c with macAt := some (regsOf s c).cyc }
     let a := if i.mode = 4 then k.x else indexed k.x (8 * (i.f16.extractLsb' 8 8).signExtend 64)
     let b := if i.mode = 4 then k.y else indexed k.y (8 * (i.f16.extractLsb' 0 8).signExtend 64)
     let post := fun (k : Core) => if i.mode = 4 then { k with x := k.x + 8, y := k.y + 8 } else k
     let p := loadedAt f c a 8
     let q := loadedAt f c b 8
     let acc := k.ah.toNat * 2 ^ 64 + k.a.toNat
     MayLoad s c a 8 → MayLoad s c b 8 →
     (let r := acc + p.toNat * q.toNat
      exec (.macd c i) s = .next (retire s f c i.e { core := post { k with
        ah := BitVec.ofNat 64 (r / 2 ^ 64), a := BitVec.ofNat 64 r,
        fl := { k.fl with z := BitVec.ofNat 128 r == 0, n := (BitVec.ofNat 128 r).msb, c := decide (2 ^ 128 ≤ r) } } })) ∧
     (let r := (BitVec.ofNat 128 acc).toInt + p.toInt * q.toInt
      let v : BitVec 128 := BitVec.ofInt 128 r
      exec (.macs c i) s = .next (retire s f c i.e { core := post { k with
        ah := v.extractLsb' 64 64, a := v.extractLsb' 0 64,
        fl := { k.fl with z := v == 0, n := v.msb, v := r != v.toInt } } })) ∧
     (MayStore s c b 8 →
       let r := p.toNat * k.a.toNat + q.toNat + k.ah.toNat
       exec (.macc c i) s = .next (retire s (storedAt f c b 8 (BitVec.ofNat 64 (r % 2 ^ 64))) c i.e { core := post { k with
         ah := BitVec.ofNat 64 (r / 2 ^ 64), fl := { k.fl with z := r == 0, n := r.testBit 127, c := false } } })))

/-- Loads: LDA and LDSP from every mode; LDX and LDY, whose own post-increment is not applied (R198, R607). No flag changes.
LEAX and LEAY put the effective address into X and Y with no access (R201). -/
def Obligations.LoadsAndAddresses : Prop :=
  (∀ (s t : State) (c : CoreId) (i : Ins) (v : W64) (n : Nat), ReadsOperand s t c i true allModes false false v n →
     let k := settled (regsOf s c) i.readsMac
     let fin := fun (k : Core) => Host.Outcome.next (retire s t c i.e { core := k, cost := 1 + n })
     exec (.lda c i) s = fin (i.post { k with a := v }) ∧
     exec (.ldsp c i) s = fin (i.post { k with sp := v }) ∧
     exec (.ldx c i) s = fin (if i.mode = 4 then { k with x := v } else { i.post k with x := v }) ∧
     exec (.ldy c i) s = fin (if i.mode = 5 then { k with y := v } else { i.post k with y := v })) ∧
  (∀ (s : State) (c : CoreId) (i : Ins),
     Accepted s c i.hw i.e 0 (i.sub == 0) true (i.modeOk (regsOf s c) [1, 2, 3, 6] false) true →
     let k := regsOf s c
     exec (.leax c i) s = .next (retire s (fetched s c) c i.e { core := { k with x := i.ea k } }) ∧
     exec (.leay c i) s = .next (retire s (fetched s c) c i.e { core := { k with y := i.ea k } }))

/-- STA, STX and STY complete: with a register operand the register takes the value as R147, R148 and R199 say; with a memory
operand below port space the bytes go to the address of the access, and the registers keep their values but for the post-
increment (R198, R607). The last clause is the same for any address that takes the store, port space too. PUSH reads its
operand and stores it at SP − 8, then SP := SP − 8; POP loads its register from SP, then SP := SP + 8; POP SP takes the word
loaded (R199, R200). Both complete where the operand and the stack slot may be accessed; the middle clause is the same for any
operand and slot that can be accessed, port space too. -/
def Obligations.StoresAndStack : Prop :=
  (∀ (s : State) (c : CoreId) (i : Ins),
     Accepted s c i.hw i.e 0 (i.sub == 0) (i.mode != 7 || !loopReg i.rn) (i.modeOk (regsOf s c) storeModes false)
       (i.privOk (regsOf s c)) →
     let k := regsOf s c
     let ka := settled k true
     let f := fetched s c
     (i.mode = 7 →
       exec (.sta c i) s = .next (retire s f c i.e { core := ka.setReg i.rn ka.a }) ∧
       exec (.stx c i) s = .next (retire s f c i.e { core := k.setReg i.rn k.x }) ∧
       exec (.sty c i) s = .next (retire s f c i.e { core := k.setReg i.rn k.y })) ∧
     (i.mode ≠ 7 → MayStore s c (i.addr k) i.bytes →
       exec (.sta c i) s = .next (retire s (storedAt f c (i.addr k) i.bytes k.a) c i.e { core := i.post ka }) ∧
       exec (.stx c i) s = .next (retire s (storedAt f c (i.addr k) i.bytes k.x) c i.e { core := i.post k }) ∧
       exec (.sty c i) s = .next (retire s (storedAt f c (i.addr k) i.bytes k.y) c i.e { core := i.post k })) ∧
     (i.mode ≠ 7 → ∀ t : State,
       (store f c i.hw (i.addr k) i.bytes k.a = .ok t 0 → exec (.sta c i) s = .next (retire s t c i.e { core := i.post ka })) ∧
       (store f c i.hw (i.addr k) i.bytes k.x = .ok t 0 → exec (.stx c i) s = .next (retire s t c i.e { core := i.post k })) ∧
       (store f c i.hw (i.addr k) i.bytes k.y = .ok t 0 → exec (.sty c i) s = .next (retire s t c i.e { core := i.post k })))) ∧
  ((∀ (s : State) (c : CoreId) (i : Ins),
     Accepted s c i.hw i.e 0 (i.sub == 0) true (i.modeOk (regsOf s c) allModes true) (i.privOk (regsOf s c)) →
     let f := fetched s c
     let k := settled (regsOf s c) i.readsMac
     let v := operandOf f c k i false
     OperandOpen s c k i → MayStore s c (k.sp - 8) 8 →
     exec (.push c i) s = .next (retire s (storedAt f c (k.sp - 8) 8 v.1) c i.e
       { core := i.post { k with sp := k.sp - 8 }, cost := 1 + v.2 })) ∧
   (∀ (s t u : State) (c : CoreId) (i : Ins) (v : W64) (n : Nat), ReadsOperand s t c i false allModes true false v n →
     let k := settled (regsOf s c) i.readsMac
     store t c i.hw (k.sp - 8) 8 v = .ok u 0 →
     exec (.push c i) s = .next (retire s u c i.e { core := i.post { k with sp := k.sp - 8 }, cost := 1 + n })) ∧
   (∀ (s : State) (c : CoreId) (i : Ins),
     Accepted s c i.hw i.e 0 (i.sub == 0) (!loopReg i.rn) (i.modeOk (regsOf s c) [7] true) (i.privOk (regsOf s c)) →
     let k := regsOf s c
     let up : Core := { k with sp := k.sp + 8 }
     (MayLoad s c k.sp 8 →
       let v := loadedAt (fetched s c) c k.sp 8
       exec (.pop c i) s = .next (retire s (fetched s c) c i.e { core := up.setReg i.rn v, cost := 2 }) ∧
       (i.rn = 4 → up.setReg i.rn v = { k with sp := v })) ∧
     (∀ (t : State) (v : W64), load (fetched s c) c i.hw k.sp 8 = .ok t v →
       exec (.pop c i) s = .next (retire s t c i.e { core := up.setReg i.rn v, cost := 1 + loadCost c k.sp }))))

/-- Branches, calls and returns complete: where PC goes, what is pushed, and that no flag changes (R161, R164, R205, R206).
The last clause is the same for any operand and stack slot that can be accessed, port space too. RTE returns from a handler:
FL[5:0] from SFL, LBASE and INTRAP cleared, PC from EPC (R181, R207). -/
def Obligations.ControlTransfers : Prop :=
  ((∀ (s : State) (c : CoreId) (i : InsB), Accepted s c i.hw i.e 0 true false (!i.e) true →
     let k := settled (regsOf s c) (i.cond != 0)
     exec (.bcond c i) s = .next (retire s (fetched s c) c i.e
       (if k.fl.cond i.cond.toNat then { core := k, flow := .jump (k.pc + 4 * i.ofs.signExtend 32), cost := 2 }
        else { core := k }))) ∧
   (∀ (s : State) (c : CoreId) (i : InsB), Accepted s c i.hw i.e 0 true false (!i.e && i.cond == 0) true →
     let k := regsOf s c
     let dst := k.pc + 4 * i.ofs.signExtend 32
     (MayStore s c (k.sp - 8) 8 →
       exec (.call c i) s = .next (retire s (storedAt (fetched s c) c (k.sp - 8) 8 ((k.pc + 4).setWidth 64)) c i.e
         { core := { k with sp := k.sp - 8 }, flow := .jump dst, cost := 2 })) ∧
     (∀ t : State, store (fetched s c) c i.hw (k.sp - 8) 8 ((k.pc + 4).setWidth 64) = .ok t 0 →
       exec (.call c i) s = .next (retire s t c i.e { core := { k with sp := k.sp - 8 }, flow := .jump dst, cost := 2 }))) ∧
   (∀ (s : State) (c : CoreId) (i : Ins), Accepted s c i.hw i.e 0 (i.sub == 0) false i.noOperand true →
     let k := regsOf s c
     (MayLoad s c k.sp 8 →
       exec (.ret c i) s = .next (retire s (fetched s c) c i.e
         { core := { k with sp := k.sp + 8 }, flow := .jump ((loadedAt (fetched s c) c k.sp 8).setWidth 32), cost := 3 })) ∧
     (∀ (t : State) (v : W64), load (fetched s c) c i.hw k.sp 8 = .ok t v →
       exec (.ret c i) s = .next (retire s t c i.e
         { core := { k with sp := k.sp + 8 }, flow := .jump (v.setWidth 32), cost := 2 + loadCost c k.sp }))) ∧
   (∀ (s : State) (c : CoreId) (i : Ins),
     Accepted s c i.hw i.e 0 (i.sub == 0) false (i.modeOk (regsOf s c) storeModes true) (i.privOk (regsOf s c)) →
     let f := fetched s c
     let k := settled (regsOf s c) i.readsMac
     let back := k.pc + (if i.e then 8 else 4)
     (let v := operandOf f c k i false
      OperandOpen s c k i →
      exec (.jmp c i) s = .next (retire s f c i.e { core := i.post k, flow := .jump (v.1.setWidth 32), cost := 2 + v.2 }) ∧
      (MayStore s c (k.sp - 8) 8 →
        exec (.callr c i) s = .next (retire s (storedAt f c (k.sp - 8) 8 (back.setWidth 64)) c i.e
          { core := i.post { k with sp := k.sp - 8 }, flow := .jump (v.1.setWidth 32), cost := 2 + v.2 }))) ∧
     (∀ (t : State) (v : W64) (n : Nat), opval f c k i false = .ok t (v, n) →
       exec (.jmp c i) s = .next (retire s t c i.e { core := i.post k, flow := .jump (v.setWidth 32), cost := 2 + n }) ∧
       ∀ u, store t c i.hw (k.sp - 8) 8 (back.setWidth 64) = .ok u 0 →
         exec (.callr c i) s = .next (retire s u c i.e
           { core := i.post { k with sp := k.sp - 8 }, flow := .jump (v.setWidth 32), cost := 2 + n })))) ∧
  (∀ (s : State) (c : CoreId) (i : Ins), (regsOf s c).intrap = true →
     Accepted s c i.hw i.e 0 (i.sub == 0) false i.noOperand true →
     let k := regsOf s c
     let f : Flags := {
       z := k.sfl.getLsbD 0, n := k.sfl.getLsbD 1, c := k.sfl.getLsbD 2, v := k.sfl.getLsbD 3,
       dz := k.sfl.getLsbD 4, k := k.sfl.getLsbD 5, t := k.fl.t }
     exec (.rte c i) s = .next (retire s (fetched s c) c i.e
       { core := { k with fl := f, lbase := 0, intrap := false }, flow := .jump k.epc, cost := 2 }))

/-- LOOP activates a level with its start, end and count, or with a count of 0 goes on past its end; LPOP cancels the
innermost level; RPT repeats the next instruction (R168, R169, R172, R174, R208). -/
def Obligations.LoopsAndRepeats : Prop :=
  (∀ (s : State) (c : CoreId) (i : InsL), Accepted s c i.hw i.e 0 true false (loopFmt (regsOf s c) i) true →
    let k := regsOf s c
    let n : W32 := if i.s then k.x.setWidth 32 else if i.e then i.ext else i.cnt.setWidth 32
    let le : W32 := k.pc + BitVec.ofNat 32 (4 * i.ends.toNat)
    k.ldepth ≠ 3 →
    (n = 0 → exec (.loop c i) s = .next (retire s (fetched s c) c i.e { core := k, flow := .skip le })) ∧
    (n ≠ 0 → exec (.loop c i) s = .next (retire s (fetched s c) c i.e { core := { k with
      lp := tset {} k.ldepth.toNat { ls := k.pc + (if i.e then 8 else 4), le := le, lc := n } k.lp,
      ldepth := k.ldepth + 1 } }))) ∧
  (∀ (s : State) (c : CoreId) (i : Ins), Accepted s c i.hw i.e 0 (i.sub == 0) false (i.noOperand && !i.e) true →
    let k := regsOf s c
    k.ldepth ≠ k.lbase →
    exec (.lpop c i) s = .next (retire s (fetched s c) c i.e { core := { k with ldepth := k.ldepth - 1 } })) ∧
  (∀ (s : State) (c : CoreId) (i : InsP),
    Accepted s c i.hw i.e 0 true false (!i.e && i.mbz == 0 && (!i.s || i.n1 == 0)) true →
    let k := regsOf s c
    let n := if i.s then (if k.x.toNat % 256 = 0 then 256 else k.x.toNat % 256) else i.n1.toNat + 1
    exec (.rpt c i) s = .next (retire s (fetched s c) c i.e { core := k, flow := .rep n }))

/-- R172: LPOP cancels the innermost active level, or traps LOOP_UNDERFLOW where LDEPTH equals LBASE. -/
def Obligations.LoopPop : Prop :=
  ∀ (s : State) (c : CoreId) (i : Ins), Accepted s c i.hw i.e 0 (i.sub == 0) false (i.noOperand && !i.e) true →
    let k := regsOf s c
    (k.ldepth ≠ k.lbase →
      exec (.lpop c i) s = .next (retire s (fetched s c) c i.e { core := { k with ldepth := k.ldepth - 1 } })) ∧
    (k.ldepth = k.lbase → exec (.lpop c i) s = .next (trapped s c .loopUnderflow))

/-- The steward's instructions and events: FENCE only goes on, EVACK clears a pending event, WAIT stops the core. At the
boundary after each, as an event comes, and so while it waits, a steward with TC.IE = 1 and no handler running takes its
lowest pending event: the entry actions of R179 at its vector (R186, R225). A faulted yoke returns to the pool with its bench
and registers zeroised; the steward's watchdog restarts a running module with start cause 2, and during a start it counts as a
failure with reason 0x05 (R187, R469, R493, R501). -/
def Obligations.StewardAndCoreResets : Prop :=
  ((∀ (s : State) (i : Ins), Accepted s .steward i.hw i.e 2 (i.sub == 0) true i.noOperand true →
     let k := regsOf s .steward
     exec (.fence .steward i) s = .next (retire s s .steward i.e { core := k }) ∧
     exec (.wait .steward i) s = .next
       (retire s { s with stw := { s.stw with waiting := true } } .steward i.e { core := k })) ∧
   (∀ (s : State) (i : Ins),
     Accepted s .steward i.hw i.e 2 (i.sub == 0) true (i.modeOk (regsOf s .steward) [0] false && decide (evackNo i ≤ 15)) true →
     exec (.evack .steward i) s = .next (retire s { s with stw := { s.stw with
       events := s.stw.events &&& ~~~BitVec.ofNat 16 (2 ^ evackNo i) } } .steward i.e { core := regsOf s .steward })) ∧
   (∀ (s : State) (k : Fin 16), s.lcs.phase = .starting ∨ s.lcs.phase = .live ∨ s.lcs.phase = .full →
     let c := s.stw.core
     let ev := s.stw.events ||| BitVec.ofNat 16 (2 ^ k.val)
     let t := { s with stw := { s.stw with events := ev } }
     (c.ie = false ∨ c.intrap = true ∨ s.stw.halted = true ∨ s.stw.dead = true → exec (.stewardEvent k) s = .next t) ∧
     (c.ie = true → c.intrap = false → s.stw.halted = false → s.stw.dead = false →
       exec (.stewardEvent k) s = .next (pumpEvents t))) ∧
   (∀ (s : State) (e : Nat), e < 16 → s.stw.events.getLsbD e = true → (∀ j, j < e → s.stw.events.getLsbD j = false) →
     let c := s.stw.core
     pumpEvents s = (if c.ie = true ∧ c.intrap = false then
       { s with stw := { s.stw with waiting := false, core := { c with
           epc := c.pc, sfl := c.fl.bits, cause := BitVec.ofNat 5 (16 + e), rptleft := BitVec.ofNat 9 c.rpt,
           lbase := c.ldepth, intrap := true, pc := c.tv + BitVec.ofNat 32 (0x100 + 0x10 * e), rpt := 0, rptOn := false,
           cyc := c.cyc + 4 } } }
       else s)) ∧
   (∀ s : State, s.stw.events = 0 → pumpEvents s = s)) ∧
  ((∀ (s : State) (y : YokeId), (s.yoke y).faulted = true →
     exec (.yokeResetComplete y) s = .next (s.modYoke y fun k => { k with faulted := false, bench := [], core := {} })) ∧
   (∀ s : State, s.pwr.good = true → s.pwr.shutdown = false → s.stw.halted = false →
     (s.lcs.phase = .full → exec .stewardWatchdog s = .next (restart s 2 true 7)) ∧
     (s.lcs.phase = .starting → exec .stewardWatchdog s = .next (startFail s 5 0 true))))

/-- Accesses that are allowed: a load reads the bytes little-endian and changes nothing; a store writes them, every byte
outside them reads as before, and nothing else changes but what the jobs that have not read their input yet may still meet
there (R150, R152, R157, R246). The same holds on the fabric in privileged mode (R185). What an operand is: an immediate at
its size, a register, or what lies at the effective address, zero- or sign-extended to 64 bits; the address is a register plus
a displacement without wrap, so that a sum outside 64 bits is no address (R157, R158; 05, opval). -/
def Obligations.BenchAndOperands : Prop :=
  ((∀ (s : State) (y : YokeId) (a v : W64) (n : Nat), n ∈ [1, 2, 4, 8] → a.toNat < 0xF000 → a.toNat % n = 0 →
     load s (.tiller y) .ok a n = .ok s (BitVec.ofNat 64 (leNat (mread (s.yoke y).bench a.toNat n))) ∧
     (a.toNat < 0xC000 ∨ 0xE000 ≤ a.toNat →
       ∃ t : State, store s (.tiller y) .ok a n v = .ok t 0 ∧
         t = { s with yokes := t.yokes, free := t.free } ∧ (∀ z, z ≠ y.val → t.yoke z = s.yoke z) ∧
         (Canon s → { t.yoke y with bench := (s.yoke y).bench, tx := s.tx y } = s.yoke y ∧
           (t.tx y).map (fun x => { x with jobs := [] }) = (s.tx y).map (fun x => { x with jobs := [] }) ∧
           (∀ x, s.tx y = some x → x.jobs = [] → t.tx y = some x) ∧
           mread (t.yoke y).bench a.toNat n = le n v.toNat ∧
           ∀ b, b < a.toNat ∨ a.toNat + n ≤ b → mget (t.yoke y).bench b = mget (s.yoke y).bench b))) ∧
   (∀ (s : State) (c : CoreId) (a v : W64) (n : Nat), n ∈ [1, 2, 4, 8] →
     (MayLoad s c a n → load s c .ok a n = .ok s (loadedAt s c a n)) ∧
     (MayStore s c a n → store s c .ok a n v = .ok (storedAt s c a n v) 0)) ∧
   (∀ (s : State) (a v : W64) (n : Nat), n ∈ [1, 2, 4, 8] → Canon s →
     let t := storedAt s .steward a n v
     t = { s with stw := { s.stw with mem := t.stw.mem } } ∧ mread t.stw.mem a.toNat n = le n v.toNat ∧
       ∀ b, b < a.toNat ∨ a.toNat + n ≤ b → mget t.stw.mem b = mget s.stw.mem b)) ∧
  ((∀ (s : State) (c : CoreId) (k : Core) (i : Ins) (signed : Bool),
     let w := 8 * i.bytes
     let ext := fun (v : W64) => if signed then (v.setWidth w).signExtend 64 else (v.setWidth w).setWidth 64
     let disp : W64 := if i.e then i.ext.signExtend 64 else i.f16.signExtend 64
     (i.mode = 0 → opval s c k i signed = .ok s (ext disp, 0)) ∧
     (i.mode = 7 → opval s c k i signed = .ok s (k.reg i.rn, 0)) ∧
     (i.mode ≠ 0 → i.mode ≠ 7 → ∀ t v, load s c i.hw (i.addr k) i.bytes = .ok t v →
       opval s c k i signed = .ok t (ext v, loadCost c (i.addr k))) ∧
     (i.mode = 1 → i.addr k = if i.e then i.ext.setWidth 64 else i.f16.setWidth 64) ∧
     (i.mode = 2 → i.addr k = indexed k.x disp) ∧ (i.mode = 3 → i.addr k = indexed k.y disp) ∧
     (i.mode = 6 → i.addr k = indexed k.sp disp) ∧
     (i.mode = 2 → i.ea k = k.x + disp) ∧ (i.mode = 3 → i.ea k = k.y + disp) ∧ (i.mode = 6 → i.ea k = k.sp + disp) ∧
     (i.mode = 4 → i.addr k = k.x ∧ i.post k = { k with x := k.x + BitVec.ofNat 64 i.bytes }) ∧
     (i.mode = 5 → i.addr k = k.y ∧ i.post k = { k with y := k.y + BitVec.ofNat 64 i.bytes }) ∧
     (i.mode ≠ 4 → i.mode ≠ 5 → i.post k = k)) ∧
   (∀ b d : W64,
     let sum : Int := b.toNat + d.toInt
     (0 ≤ sum → sum < 2 ^ 64 → ((indexed b d).toNat : Int) = sum) ∧
     (sum < 0 ∨ 2 ^ 64 ≤ sum → 2 ^ 63 ≤ (indexed b d).toNat)) ∧
   (∀ i : Ins, i.bytes = if i.sz = 0 then 1 else if i.sz = 1 then 2 else if i.sz = 2 then 4 else 8) ∧
   (∀ (s : State) (c : CoreId) (k : Core) (i : Ins) (signed : Bool), i.hw = .ok → OperandOpen s c k i →
     opval s c k i signed = .ok s (operandOf s c k i signed)))

/-- R159: which bench accesses trap in user mode, and that a trapping access changes no memory and no register: the handler is
entered, or inside one, or with no handler but the vendor's stub, the transaction ends with PROGRAM_TRAP (R179, R182, R183).
-/
def Obligations.BenchAccessTraps : Prop :=
  (∀ (s : State) (y : YokeId) (a v : W64) (n : Nat), n ∈ [1, 2, 4, 8] →
    (0xFFFF < a.toNat → load s (.tiller y) .ok a n = .trap s .benchFault ∧
      store s (.tiller y) .ok a n v = .trap s .benchFault) ∧
    (0xC000 ≤ a.toNat → a.toNat < 0xE000 → store s (.tiller y) .ok a n v = .trap s .benchFault) ∧
    (a.toNat < 0xF000 → a.toNat % n ≠ 0 → load s (.tiller y) .ok a n = .trap s .misalign ∧
      (a.toNat < 0xC000 ∨ 0xE000 ≤ a.toNat → store s (.tiller y) .ok a n v = .trap s .misalign))) ∧
  (∀ (s : State) (y : YokeId) (i : Ins) (t : Trap),
    Accepted s (.tiller y) i.hw i.e 0 (i.sub == 0) true (i.modeOk (regsOf s (.tiller y)) storeModes false)
      (i.privOk (regsOf s (.tiller y))) →
    let c : CoreId := .tiller y
    let k := regsOf s c
    let f := fetched s c
    let entry := if k.intrap = true ∨ k.tv = 0 then endWith f y stTrap
      else f.setCore c (trapEntry k t.cause k.pc (16 * t.cause))
    i.mode ≠ 7 →
    (load f c .ok (i.addr k) i.bytes = .trap f t → exec (.lda c i) s = .next entry) ∧
    (store f c .ok (i.addr k) i.bytes k.a = .trap f t → exec (.sta c i) s = .next entry))

/-- The entry actions of a trap on a tiller, and the end of a transaction whose handler traps, or that has no handler but the
vendor's stub at TV = 0, which emulates no opcode (R179, R182, R183). -/
def Obligations.TrapEntry : Prop :=
  ∀ (s : State) (y : YokeId) (t : Trap),
    let c : CoreId := .tiller y
    let k := regsOf s c
    (k.intrap = false → k.tv ≠ 0 →
      let k1 : Core := { k with
        epc := k.pc, sfl := k.fl.bits, cause := BitVec.ofNat 5 t.cause, rptleft := BitVec.ofNat 9 k.rpt,
        lbase := k.ldepth, intrap := true, pc := k.tv + BitVec.ofNat 32 (16 * t.cause), rpt := 0, rptOn := false,
        cyc := k.cyc + 4 }
      trapped s c t = (fetched s c).setCore c k1) ∧
    (k.intrap = true ∨ k.tv = 0 → trapped s c t = endWith (fetched s c) y stTrap)

/-- What the checks of Table 5.1 trap on, in their order: a group the mode does not run, a reserved minor opcode, an illegal
repeat, a form the instruction does not accept, a steward register (R163, R193, R194). How an instruction retires: it takes
its cycles, counts a repetition down or goes on, a jump leaves the loop levels alone, and the boundary ends the wait (R166,
R171, R174 to R177). Where no loop level is active the next address is the one after the instruction. -/
def Obligations.ChecksAndRetirement : Prop :=
  (∀ (k : Core) (sub rep fmt priv : Bool), k.rpt = 0 →
     (∀ cls, cls < 3 → k.priv = false → checks k cls sub rep fmt priv =
       if cls = 2 then some .priv else if sub = false then some .reservedOpcode else if fmt = false then some .illegalFormat
       else if priv = false then some .priv else none) ∧
     (k.priv = true → checks k 1 sub rep fmt priv = some .illegalFormat) ∧
     (k.priv = false → ∀ (s : State) (y : YokeId) (i : Ins), Comes s (.tiller y) i.hw i.e → regsOf s (.tiller y) = k →
       exec (.wait (.tiller y) i) s = .next (trapped s (.tiller y) .priv) ∧
       exec (.fence (.tiller y) i) s = .next (trapped s (.tiller y) .priv) ∧
       exec (.evack (.tiller y) i) s = .next (trapped s (.tiller y) .priv))) ∧
  (∀ (k d : Core) (e : Bool) (n : Nat) (a : W32),
     let cyc := d.cyc + n + (if e then 1 else 0)
     let pc := k.pc + (if e then 8 else 4)
     complete1 k e { core := d, flow := .jump a, cost := n } = { d with cyc := cyc, pc := a, rpt := 0, rptOn := false } ∧
     complete1 k e { core := d, flow := .rep (n + 1), cost := n } =
       { d with cyc := cyc, pc := pc, rpt := n + 1, rptOn := false } ∧
     (1 < k.rpt → complete1 k e { core := d, cost := n } = { d with cyc := cyc, rpt := k.rpt - 1, rptOn := true }) ∧
     (k.rpt ≤ 1 → d.ldepth = 0 →
       complete1 k e { core := d, cost := n } = { d with cyc := cyc, pc := pc, rpt := 0, rptOn := false }) ∧
     (k.rpt ≤ 1 → d.ldepth = 1 → d.lbase = 0 → (d.lvl 0).le = pc →
       (1 < (d.lvl 0).lc.toNat → complete1 k e { core := d, cost := n } = { d with
         cyc := cyc, pc := (d.lvl 0).ls, rpt := 0, rptOn := false,
         lp := tset {} 0 { d.lvl 0 with lc := (d.lvl 0).lc - 1 } d.lp }) ∧
       ((d.lvl 0).lc.toNat ≤ 1 → complete1 k e { core := d, cost := n } = { d with
         cyc := cyc, pc := pc, rpt := 0, rptOn := false, ldepth := 0 })))

/-- KFND on one name, of a register or of the bench: the lookup of the key information table, its handle in AH, its status in
A and K set where it is neither OK nor OK_EXISTING (R209, R212, R213, R276). A name of 0 is not found. A miss in a plot with
vault records waits for the vault (R307). The lookup may take any number of cycles beyond 4 (log 3). The end of a vault
reload: a record that is not found, does not verify, is a public key or holds a weak key ends the lookup as a miss; an
admitted record is learned and the lookup ends as a hit, or its insertion waits for the walk token; while the vault cannot be
reached no read ends (R31, R304, R307). -/
def Obligations.KeyLookups : Prop :=
  (∀ (s : State) (y : YokeId) (i : Ins) (t : Tx),
     Accepted s (.tiller y) i.hw i.e 1 (i.sub == 0 || i.sub == 1)
       false (i.modeOk (s.core (.tiller y)) (recordModes ++ [7]) true && (i.mode != 7 || i.sub == 0))
       (i.privOk (regsOf s (.tiller y))) →
     let f := fetched s (.tiller y)
     let k := settled (regsOf s (.tiller y)) i.readsMac
     let name := if i.mode = 7 then k.reg i.rn else loadedAt f (.tiller y) (i.addr k) 8
     let r := kitLookup f t.plot name false
     let done := fun (u : State) (h : Nat) (st : BitVec 16) => Host.Outcome.next (retire s (drawn u 1) (.tiller y) i.e
       { core := { k with a := st.setWidth 64, ah := BitVec.ofNat 64 h,
                          fl := { k.fl with k := decide (st ≠ stOK ∧ st ≠ stExisting) } },
         cost := 4 + (Config.freeWord u.free).toNat % 2 ^ 32 })
     let kept := fun (u : State) (h : Nat) (st : BitVec 16) =>
       (u.modTx y fun t => { t with got := t.got ++ [(name, st, h)] }).modTx y fun t => { t with got := [] }
     i.sub = 0 → (i.mode = 7 ∨ MayRecord (i.addr k) 8 8 readable) → f.tx y = some t → reloading t = false → t.got = [] →
     (name = 0 → exec (.kfnd (.tiller y) i) s = done (f.modTx y fun t => { t with got := [] }) 0 stKeyNotFound) ∧
     (name ≠ 0 →
       (∀ e, r.2 = .hit e →
         let h := takeHandle r.1 y (kitAt r.1.kp e)
         exec (.kfnd (.tiller y) i) s = done (kept h.1 h.2.2 h.2.1) h.2.2 h.2.1) ∧
       (r.2 = .expired → exec (.kfnd (.tiller y) i) s = done (kept r.1 0 stExpired) 0 stExpired) ∧
       (r.2 = .miss → hasRecords f t.plot = false →
         exec (.kfnd (.tiller y) i) s = done (kept r.1 0 stKeyNotFound) 0 stKeyNotFound) ∧
       (r.2 = .miss → hasRecords f t.plot = true →
         exec (.kfnd (.tiller y) i) s = .next (r.1.modTx y fun t => { t with wait := .vault name })))) ∧
  (∀ (s : State) (y : YokeId) (ok : Bool) (t : Tx) (name : W64), s.tx y = some t → t.wait = .vault name →
     kitFind s t.plot name false = none →
     let miss := fun (u : State) => (u.modTx y fun t => { t with wait := .none }).modTx y fun t =>
       { t with got := t.got ++ [(name, stKeyNotFound, 0)] }
     (vaultUp s = false → exec (.vaultReloadComplete y ok) s = .next s) ∧
     (vaultUp s = true →
       (vltFind s t.plot name = none → exec (.vaultReloadComplete y ok) s = .next (miss s)) ∧
       (∀ n, vltFind s t.plot name = some n →
         let r := tget VRec.zero s.vlt.recs n
         let l := learnOf r
         (ok = true → r.authentic = true → r.kind = 2 ∨ weakSlot l.slot = true →
           exec (.vaultReloadComplete y ok) s = .next (miss s)) ∧
         (ok = true → r.authentic = true → r.kind ≠ 2 → weakSlot l.slot = false →
           policyAdmits (s.plot t.plot).active r.alg.toNat (derives r.attr) r.pset = true →
           (∀ st, (learnFast s l).2 = some st →
             exec (.vaultReloadComplete y ok) s = .next (reloadDone (learnFast s l).1 y name st)) ∧
           ((learnFast s l).2 = none → exec (.vaultReloadComplete y ok) s =
             .next (queueWalk ((learnFast s l).1.modTx y fun t => { t with wait := .walk }) l (.reload y name)))))))

/-- LJOB: the job takes the lowest free job number and a lane context, the transaction's own where it is a SEAL job with one
bound; AH is the number, A is OK. With 8 jobs outstanding A is POLICY_DENIED, with no free context the program waits (R214 to
R216, R317). PJOB: a job that passes its checks goes to the arbiter, and the instruction completes with its number once the
job has a slot; one that fails them ends with their status (R214, R215, R368, R369). With 8 jobs outstanding, or a PKE_WEIGHT
of 0, A is POLICY_DENIED (R110, R216). WJOB on a job that has ended, named by any operand or with SUB 01 the lowest-numbered
one: its output goes to the bench range its descriptor named, its status to A, its number to AH, and the number is free again;
on one that has not ended the program waits (R215, R216). -/
def Obligations.JobsIssuedAndCollected : Prop :=
  (∀ (s : State) (y : YokeId) (i : Ins) (t : Tx),
     Accepted s (.tiller y) i.hw i.e 1 (i.sub == 0) false (i.modeOk (s.core (.tiller y)) recordModes true)
       (i.privOk (regsOf s (.tiller y))) →
     let f := fetched s (.tiller y)
     let k := regsOf s (.tiller y)
     let d := benchRecord f y (i.addr k) 64
     let isSeal := (jFlags d).testBit 0
     let j := freeJob t
     let entered := fun (u : State) (c : Nat) => giveCtx (u.modTx y fun t => { (t.setJob j (some
       { engine := false, desc := d, st := .running, unit := c, order := t.jobSeq })) with jobSeq := t.jobSeq + 1 }) y j c
     let ended := fun (u : State) => Host.Outcome.next (retire s u (.tiller y) i.e
       { core := { k with a := 0, ah := BitVec.ofNat 64 j, fl := { k.fl with k := false } }, cost := 12 })
     f.tx y = some t → MayDescribe f y (i.addr k) →
     (outstanding t < 8 → 1 ≤ jType d → jType d ≤ 17 →
       (t.wait = .none → isSeal = false → ∀ c, allocCtx f = some c → exec (.ljob (.tiller y) i) s = ended (entered f c)) ∧
       (t.wait = .none → isSeal = true → (∀ l x, (l, some x) ∈ t.jobs →
         x.engine = true ∨ (jFlags x.desc).testBit 0 = false) →
         (∀ c, t.ctx = some c → exec (.ljob (.tiller y) i) s = ended (entered f c)) ∧
         (t.ctx = none → ∀ c, allocCtx f = some c →
           exec (.ljob (.tiller y) i) s = ended (entered
             ((f.modCtx c fun x => { x with bound := .tx y }).modTx y fun t => { t with ctx := some c }) c))) ∧
       (allocCtx f = none → isSeal = false ∨ t.ctx = none →
         exec (.ljob (.tiller y) i) s = .next (f.modTx y fun t => { t with wait := .unit }))) ∧
     (8 ≤ outstanding t → exec (.ljob (.tiller y) i) s = .next (retire s f (.tiller y) i.e
       { core := { k with a := stPolicy.setWidth 64, fl := { k.fl with k := true } }, cost := 12 }))) ∧
  (∀ (s : State) (y : YokeId) (i : Ins) (t : Tx),
     Accepted s (.tiller y) i.hw i.e 1 (i.sub == 0) false (i.modeOk (s.core (.tiller y)) recordModes true)
       (i.privOk (regsOf s (.tiller y))) →
     let f := fetched s (.tiller y)
     let k := regsOf s (.tiller y)
     let d := benchRecord f y (i.addr k) 64
     let j := freeJob t
     let r := engCheck f t d false
     let entered := fun (x : Job) => r.1.modTx y fun t => { (t.setJob j (some x)) with jobSeq := t.jobSeq + 1 }
     let waiting := entered { engine := true, desc := d, st := .waiting, order := t.jobSeq }
     let u := pumpEng { waiting with pke := { waiting.pke with waitq := waiting.pke.waitq ++ [(y.val, j)] } }
     let started := (jobOf u (y.val, j)).map fun q => decide (q.2.st ≠ .waiting)
     let issue := fun (u : State) (n : Nat) (c : Nat) => Host.Outcome.next (retire s u (.tiller y) i.e
       { core := { k with a := 0, ah := BitVec.ofNat 64 n, fl := { k.fl with k := false } }, cost := c })
     f.tx y = some t →
     ((∀ n, t.wait ≠ .engine n) → MayDescribe f y (i.addr k) →
       (outstanding t < 8 → (f.plot t.plot).acr.pkeWeight ≠ 0 →
         (r.2 = none → started = some true → exec (.pjob (.tiller y) i) s = issue u j 12) ∧
         (r.2 = none → started = some false →
           exec (.pjob (.tiller y) i) s = .next (u.modTx y fun t => { t with wait := .engine j })) ∧
         (∀ st, r.2 = some st → exec (.pjob (.tiller y) i) s =
           issue (entered { engine := true, desc := d, st := .ended, status := st, order := t.jobSeq }) j 12)) ∧
       (8 ≤ outstanding t ∨ (f.plot t.plot).acr.pkeWeight = 0 → exec (.pjob (.tiller y) i) s =
         .next (retire s f (.tiller y) i.e
           { core := { k with a := stPolicy.setWidth 64, fl := { k.fl with k := true } }, cost := 12 }))) ∧
     (∀ n x, t.wait = .engine n → t.job n = some x → x.st ≠ .waiting →
       exec (.pjob (.tiller y) i) s = issue (drawn f 1) n (12 + (Config.freeWord f.free).toNat % 2 ^ 32))) ∧
  (∀ (s : State) (y : YokeId) (i : Ins) (t : Tx) (j : Nat) (x : Job),
     Accepted s (.tiller y) i.hw i.e 1 (i.sub == 0 || i.sub == 1) false (wjobFmt i (s.core (.tiller y)))
       (i.privOk (regsOf s (.tiller y))) →
     let f := fetched s (.tiller y)
     let k := settled (regsOf s (.tiller y)) i.readsMac
     let out := if x.status = stOK ∨ x.status = stExisting then x.out.take (jOut x.desc).2 else []
     let u := (benchPut f y (jOut x.desc).1 out).modTx y fun t => { (t.setJob j none) with plastJob := j, plastLen := out.length }
     f.tx y = some t → j < 8 → t.job j = some x →
     (i.sub = 0 → (operandOf f (.tiller y) k i false).1.toNat = j ∧
       (i.mode = 0 ∨ i.mode = 7 ∨ MayRecord (i.addr k) 8 8 readable)) →
     (i.sub = 1 → x.st = .ended → ∀ l z, l < j → t.job l = some z → z.st ≠ .ended) →
     (x.st = .ended →
       exec (.wjob (.tiller y) i) s = .next (retire s (drawn u 1) (.tiller y) i.e
         { core := { k with a := x.status.setWidth 64, ah := BitVec.ofNat 64 j,
                            fl := { k.fl with k := decide (x.status ≠ stOK ∧ x.status ≠ stExisting) } },
           cost := 2 + (out.length + 7) / 8 + (Config.freeWord u.free).toNat % 2 ^ 32 })) ∧
     (x.st ≠ .ended → i.sub = 0 →
       exec (.wjob (.tiller y) i) s = .next (f.modTx y fun t => { t with wait := .job j })))

/-- RAND: 64 bits of the transaction's stream go to AH, or 32 bytes to the bench; it completes where the plot's drill, or the
stream of a paired module, has output, and else waits (R217, R333, R555). RPLY in the plot's own scope, or where the module is
in no domain or the plot bound to no tenant: the fingerprint is recorded once, OK the first time, DUPLICATE where it is held,
KEY_QUOTA or KEY_TABLE_FULL where there is no room (R218, R298). -/
def Obligations.RandomAndReplay : Prop :=
  (∀ (s : State) (y : YokeId) (i : Ins) (t : Tx),
     Accepted s (.tiller y) i.hw i.e 1 (i.sub == 0) false
       (i.modeOk (s.core (.tiller y)) (recordModes ++ [7]) true && (i.mode != 7 || i.f16 == 1))
       (i.privOk (regsOf s (.tiller y))) →
     let f := fetched s (.tiller y)
     let k := regsOf s (.tiller y)
     let free := fun (n : Nat) => 4 + (Config.freeWord n).toNat % 2 ^ 32
     f.tx y = some t → i.mode = 7 ∨ MayRecord (i.addr k) 32 8 writable →
     (i.mode = 7 → randReady f t = true → ∃ r, txRandom f y 0xFF 8 = some r ∧
       exec (.rand (.tiller y) i) s = .next (retire s (drawn r.1 1) (.tiller y) i.e
         { core := { k with a := 0, ah := BitVec.ofNat 64 (leNat r.2), fl := { k.fl with k := false } },
           cost := free r.1.free })) ∧
     (i.mode ≠ 7 → randReady f t = true → ∃ r, txRandom f y 0xFF 32 = some r ∧
       let u := benchPut r.1 y (i.addr k).toNat r.2
       exec (.rand (.tiller y) i) s = .next (retire s (drawn u 1) (.tiller y) i.e
         { core := { k with a := 0, fl := { k.fl with k := false } }, cost := free u.free })) ∧
     (randReady f t = false → exec (.rand (.tiller y) i) s = .next (f.modTx y fun t => { t with wait := .rand })) ∧
     (∀ n, drillReady f t.plot = true → f.clu.role ≠ 1 → f.clu.role ≠ 2 → ∃ g, plotGen f t.plot = some g ∧
       txRandom f y 0xFF n = some (drawn g n, freeBytes g.free n))) ∧
  (∀ (s : State) (y : YokeId) (i : Ins) (t : Tx),
     Accepted s (.tiller y) i.hw i.e 1 (i.sub == 0 || i.sub == 1) false (i.modeOk (s.core (.tiller y)) recordModes true)
       (i.privOk (regsOf s (.tiller y))) →
     let f := fetched s (.tiller y)
     let k := regsOf s (.tiller y)
     let fp : BitVec 96 := BitVec.ofNat 96 (beNat (benchRecord f y (i.addr k) 12))
     let r := rplRecord f t.plot fp false false
     let u := r.1.modTx y fun t => { t with claimGot := none }
     i.sub = 0 ∨ f.clu.joined = false ∨ (f.plot t.plot).dtid = 0 → f.tx y = some t → t.claimGot = none →
     (∀ fp, t.wait ≠ .claim fp) → MayRecord (i.addr k) 12 4 readable →
     (∀ e, rplFind f t.plot fp = some e → (rplAt f.rpl e).claim = false) →
     exec (.rply (.tiller y) i) s = .next (retire s (drawn u 1) (.tiller y) i.e
       { core := { k with a := r.2.setWidth 64, fl := { k.fl with k := decide (r.2 ≠ stOK ∧ r.2 ≠ stExisting) } },
         cost := 4 + (Config.freeWord u.free).toNat % 2 ^ 32 }) ∧
     (∀ e, rplFind f t.plot fp = some e → r = (f, stDuplicate)))

/-- XFER with DIR 1 posts bench bytes to the transaction's result buffer and completes; with DIR 0 it issues the host read and
waits, the read's end puts the bytes on the bench, and the XFER then completes; a transfer past its buffer ends the
transaction with DATA_FAULT (R220, R221). DONE and FAIL end the transaction: DONE with the status of A and up to 16 result
bytes of the bench, FAIL with its own code and no result (R222 to R224). An immediate operand; a customer program, or a vendor
program whose inline data suits it and that is no KEY_FORGET. One whose inline data does not ends with POLICY_DENIED (R255).
-/
def Obligations.TransfersAndEnds : Prop :=
  ((∀ (s : State) (y : YokeId) (i : Ins) (t : Tx),
     Accepted s (.tiller y) i.hw i.e 1 (i.sub == 0) false (i.modeOk (s.core (.tiller y)) recordModes true)
       (i.privOk (regsOf s (.tiller y))) →
     let f := fetched s (.tiller y)
     let k := regsOf s (.tiller y)
     let b := benchRecord f y (i.addr k) 16
     let ofs := fld b 0 4
     let bench := fld b 4 2
     let len := fld b 6 2
     f.tx y = some t → t.xferDone = false → (∀ a n, t.wait ≠ .hostRead a n) → t.fwd = false →
     MayRecord (i.addr k) 16 8 readable → len ≠ 0 → len ≤ 4096 → zeros b 9 7 = true →
     (byteAt b 8 = 1 → rangeIn readable bench len = true → ofs + len ≤ fld t.desc 44 4 →
       let data := mread (f.yoke y).bench bench len
       let u := (issueWrite f (vfOf t.plot) (BitVec.ofNat 64 (fld t.desc 48 8 + ofs)) data).modTx y fun t =>
         { t with hiwater := max t.hiwater (ofs + len), res := t.res ++ data }
       exec (.xfer (.tiller y) i) s = .next (retire s u (.tiller y) i.e
         { core := { k with a := 0, fl := { k.fl with k := false } }, cost := 4 + (len + 7) / 8 })) ∧
     (byteAt b 8 = 0 → rangeIn writable bench len = true → ofs + len ≤ fld t.desc 40 4 →
       exec (.xfer (.tiller y) i) s = .next ((issueRead f (vfOf t.plot) (BitVec.ofNat 64 (fld t.desc 32 8 + ofs)) len).modTx y
         fun t => { t with wait := .hostRead bench len })) ∧
     (byteAt b 8 = 1 → rangeIn readable bench len = true → fld t.desc 44 4 < ofs + len →
       exec (.xfer (.tiller y) i) s = .next (endWith f y stDataFault))) ∧
   (∀ (s : State) (y : YokeId) (t : Tx) (bench len : Nat) (data : Bytes),
     s.tx y = some t → t.wait = .hostRead bench len → t.fwd = false → t.numbered = false →
     exec (.xferReadComplete y (.data data)) s = .next ((benchPut s y bench (fit len data)).modTx y fun t =>
       { t with wait := .none, xferDone := true }) ∧
     exec (.xferReadComplete y .failed) s = .next (endWith s y stDataFault)) ∧
   (∀ (s : State) (y : YokeId) (i : Ins) (t : Tx),
     Accepted s (.tiller y) i.hw i.e 1 (i.sub == 0) false (i.modeOk (s.core (.tiller y)) recordModes true)
       (i.privOk (regsOf s (.tiller y))) →
     let f := fetched s (.tiller y)
     let k := regsOf s (.tiller y)
     let u := f.modTx y fun t => { t with xferDone := false }
     f.tx y = some t → t.xferDone = true →
     exec (.xfer (.tiller y) i) s = .next (retire s (drawn u 1) (.tiller y) i.e
       { core := { k with a := 0, fl := { k.fl with k := false } }, cost := 4 + (Config.freeWord u.free).toNat % 2 ^ 32 }))) ∧
  (∀ (s : State) (y : YokeId) (i : Ins) (t : Tx),
     active s (.tiller y) = true → copyStops s (.tiller y) = false → i.hw = .ok →
     fetchFault (fetched s (.tiller y)) (.tiller y) (regsOf s (.tiller y)) i.e = none →
     checks (regsOf s (.tiller y)) 1 (i.sub == 0) false (finFmt i (s.core (.tiller y))) (i.privOk (regsOf s (.tiller y))) =
       none →
     let f := fetched s (.tiller y)
     let k := regsOf s (.tiller y)
     let v := (fitVal i.bytes false i.disp).toNat
     let st : BitVec 16 := k.a.setWidth 16
     i.mode = 0 → f.tx y = some t →
     (v ≤ 16 → (st.toNat ≤ 1 ∨ 0x8000 ≤ st.toNat) →
       (vendorBad t = false → isForget t = false →
         exec (.done (.tiller y) i) s = .next (finishTx f y st (mread (f.yoke y).bench 0xE000 v) false)) ∧
       (vendorBad t = true → exec (.done (.tiller y) i) s = .next (endWith f y stPolicy))) ∧
     ((0x8000 ≤ v % 2 ^ 16 ∨ v % 2 ^ 16 ∈ failCodes) →
       exec (.fail (.tiller y) i) s =
         .next (endWith f y (if vendorBad t = true then stPolicy else BitVec.ofNat 16 (v % 2 ^ 16)))))

/-- R58: a tail doorbell of an enabled hopper is accepted exactly under its four conditions, moves the tail and takes over the
new descriptors, and the steward reads the next one of the admin hopper; otherwise the tail stays and DB_REFUSED is set and
counted; a doorbell equal to the tail changes nothing of the hopper. The clock of R28 and DOZE see every doorbell (R40, R60).
-/
def Obligations.TailDoorbell : Prop :=
  ∀ (s : State) (r : HopRef) (v : W32),
    reach s (hopFn r) = true → hopDropped s r = false → hopOpen s r = true →
    let x := s.hop r
    let s1 : State := { s with disp := { s.disp with lastDb := s.now }, pwr := { s.pwr with doze := false } }
    let n := 2 ^ x.ringLog2.toNat
    let occ := fun (i : Nat) => (i + n - x.fetchHead % n) % n
    let ok := x.en = true ∧ x.halted = false ∧ v.toNat < n ∧ occ x.tail ≤ occ v.toNat ∧ occ v.toNat ≤ depth s r ∧
      occ v.toNat ≤ n - 1
    let accepted : Hopper := { x with
      tail := v.toNat, acc := x.acc ++ List.replicate (occ v.toNat - occ x.tail) (s.now, defaultDeadline s r) }
    (ok → v.toNat ≠ x.tail →
      (∀ p h, r = .vf p h → exec (.hopTailDb r v true) s = .next (s1.setHop r accepted)) ∧
      (r = .admin → exec (.hopTailDb r v true) s = .next (
        if x.reads = 0 ∧ accepted.acc ≠ [] ∧ readRoom (s1.setHop r accepted) r = true then
          issueRead (s1.setHop r { accepted with reads := 1 }) .pf0 (x.sqBase + BitVec.ofNat 64 (128 * x.fetchHead)) 128
        else s1.setHop r accepted))) ∧
    (x.en = true → x.halted = false → v.toNat < n → v.toNat = x.tail → exec (.hopTailDb r v true) s = .next s1) ∧
    (¬ ok → v.toNat ≠ x.tail → exec (.hopTailDb r v true) s = .next (s1.setHop r { x with
      dbRefused := true, dbrCnt := bump x.dbrCnt })) ∧
    exec (.hopTailDb r v false) s = .next (s1.setHop r { x with dbrCnt := bump x.dbrCnt })

/-- R74: a head doorbell is accepted only in the circular range from the host head to CQ_TAIL; otherwise HEAD_ERR is set. On
the admin hopper the room that it makes may let the steward read a descriptor. -/
def Obligations.HeadDoorbell : Prop :=
  ∀ (s : State) (r : HopRef) (v : W32), reach s (hopFn r) = true → hopDropped s r = false →
    let x := s.hop r
    let s1 : State := { s with disp := { s.disp with lastDb := s.now }, pwr := { s.pwr with doze := false } }
    let n := 2 ^ x.ringLog2.toNat
    let dist := fun (i : Nat) => (i + n - x.hostHead % n) % n
    let ok := v.toNat < n ∧ dist v.toNat ≤ dist x.cqTail
    (ok → exec (.hopHeadDb r v true) s = .next (fetchNext (s1.setHop r { x with hostHead := v.toNat }) r)) ∧
    (ok → r ≠ .admin ∨ x.acc = [] → exec (.hopHeadDb r v true) s = .next (s1.setHop r { x with hostHead := v.toNat })) ∧
    (¬ ok → exec (.hopHeadDb r v true) s = .next (s1.setHop r { x with headErr := true, headErrCnt := bump x.headErrCnt }))

/-- R46, R47: a hopper is enabled only with its plot OPEN, RING_LOG2 in range and ENABLED at 0, with its heads and tails at 0
and its phase at 1; otherwise CFG_ERR is set. Disabling a hopper clears EN and drops what was not read; ENABLED goes with it
where no entry is still to come (R50). -/
def Obligations.HopperEnableDisable : Prop :=
  ∀ (s : State) (r : HopRef) (cfg : W32), reach s (hopFn r) = true → hopDropped s r = false →
    let x := s.hop r
    let f : Hopper := { x with
      vector := cfg.extractLsb' 16 4, prio := cfg.extractLsb' 10 2, log2 := if x.en then x.log2 else cfg.extractLsb' 4 5 }
    let lim := match r with
      | .admin => 12
      | .vf _ _ => 16
    let ok := hopOpen s r = true ∧ 6 ≤ f.log2.toNat ∧ f.log2.toNat ≤ lim ∧ x.enabled = false
    (cfg.getLsbD 0 = true → x.en = false →
      (ok → exec (.hopperEnable r cfg) s = .next (s.setHop r { f with
        en := true, enabled := true, halted := false, fence := false, fetchHead := 0, tail := 0, cqTail := 0,
        hostHead := 0, phase := true, acc := [], reads := 0, inflight := 0, ringCq := x.cqBase, ringLog2 := f.log2 })) ∧
      (¬ ok → exec (.hopperEnable r cfg) s = .next (s.setHop r { f with cfgErr := true, cfgErrCnt := bump x.cfgErrCnt }))) ∧
    (cfg.getLsbD 0 = false → x.en = true → x.enabled = true →
      let off : Hopper := { f with
        en := false, enabled := decide (x.inflight ≠ 0 ∨ heldEntries s r ≠ 0), halted := false, acc := [], fence := false,
        reads := 0 }
      (r = .admin → exec (.hopperDisable r cfg) s = .next (s.setHop r off)) ∧
      (∀ p h, r = .vf p h → readersOf s p h = [] → (s.plot p).st ≠ .stopping → twf Plot.zero s.plots = true →
        twf Hopper.zero (s.plot p).hoppers = true →
        ∃ t, exec (.hopperDisable r cfg) s = .next t ∧ t = { s with plots := t.plots } ∧ t.hop r = off ∧
          (∀ q, q ≠ p.val → t.plot q = s.plot q) ∧ { t.plot p with hoppers := [] } = { s.plot p with hoppers := [] }))

/-- The dispatcher's step on a module that is no standby: a free yoke, the plot and the hopper that R113 and R114 choose; the
descriptor read is issued onto the yoke, which is charged to the plot, and no other yoke or plot changes. A descriptor that
arrives for the admin hopper is taken off the ring and the next one is read: one that passes its checks and names a command
joins the steward's queue; an invalid one ends DESCRIPTOR_INVALID and a code that names none ABSENT, at once where nothing is
in front (R40, R55, R99, R608). For a yoke it is taken in ring order; bytes of another length are no descriptor. Staged data:
in time and complete it starts the program; late, or after a failed read, it ends the transaction (R57, R241, R243). The
deadline of a running transaction ends it with DEADLINE_EXPIRED, or NO_ENTROPY where it waits for random output (R81, R82);
TMARGIN before it sets FL.T (R151). -/
def Obligations.DispatchAndArrival : Prop :=
  (∀ (s s1 : State) (y p c h : Nat), standby s = false → pickYoke s = some y → choosePlot s = (s1, some p) →
     chooseHop s1 p = some (c, h) → p < 1024 → twf Plot.zero s1.plots = true → twf Yoke.zero s1.yokes = true →
     let s2 := s1.modPlot p fun pl => { pl with rr := tset 16 c h pl.rr }
     let x := s2.hop (hopRef p h)
     ∃ t : State, exec .dispatch s = .next t ∧
       t.out = s2.out ++ [.read (x.sqBase + BitVec.ofNat 64 (128 * ((x.fetchHead + x.reads) % x.n))) 128] ∧
       t.adm = s2.adm ∧ t.link = s2.link ∧ t.kpr = s2.kpr ∧
       (t.plot p).busy = (s2.plot p).busy + 1 ∧
       ((t.yoke y).tx.map fun u => (u.plot, u.hop, u.phase)) = some (p, h, TxPhase.reading) ∧
       (∀ z, z ≠ y → t.yoke z = s2.yoke z) ∧ (∀ q, q ≠ p → t.plot q = s1.plot q)) ∧
  ((∀ (s : State) (b : Bytes), b.length = 128 →
     let x := s.adm.hop
     let d := admOf b
     x.en = true → x.halted = false → x.acc ≠ [] → x.reads ≠ 0 → heldFor s .pf0 = false →
     let s1 := s.setHop .admin { x with
       fetchHead := (x.fetchHead + 1) % x.n, acc := x.acc.tail, reads := 0, inflight := x.inflight + 1 }
     (descOk b 2 65536 = true → d.code.toNat ∈ adminCodes → (∀ q, s.adm.queue.head? = some q → q.bad = none) →
       exec (.descriptorArrival .admin (.data b)) s =
         .next (fetchAdmin { s1 with adm := { s1.adm with queue := s.adm.queue ++ [d] } })) ∧
     (s.adm.queue = [] → adminBusy s = false →
       let ended := fun (st : BitVec 16) (det : Byte) => Host.Outcome.next (fetchAdmin (admEntry
         { s1 with adm := { s1.adm with queue := [], errTag := d.tag, errDet := det } } d st [] false))
       (descOk b 2 65536 = false → exec (.descriptorArrival .admin (.data b)) s = ended stDescriptor 0) ∧
       (descOk b 2 65536 = true → d.code.toNat ∉ adminCodes →
         exec (.descriptorArrival .admin (.data b)) s = ended stAbsent 8))) ∧
   (∀ (s : State) (y : YokeId) (b : Bytes) (t : Tx), b.length = 128 → s.tx y = some t → t.phase = .reading → t.fwd = false →
     heldFor s (vfOf t.plot) = false →
     exec (.descriptorArrival (.yoke y) (.data b)) s =
       .next (takeAll 64 (s.modTx y fun t => { t with desc := b }) t.plot t.hop)) ∧
   (∀ (s : State) (w : ReadFor) (b : Bytes), b.length ≠ 128 →
     exec (.descriptorArrival w (.data b)) s = .fault .malformed)) ∧
  (∀ (s : State) (y : YokeId) (t : Tx), s.tx y = some t → t.fwd = false →
     (t.phase = .staging → heldFor s (vfOf t.plot) = false → s.now < t.deadline →
       (∀ b, exec (.stagingReadComplete y (.data b)) s =
         .next (startProgram (number s y (fit (stagedLen t.desc) b)) y (fit (stagedLen t.desc) b))) ∧
       exec (.stagingReadComplete y .failed) s = .next (endEarly s y stDataFault)) ∧
     (t.phase = .staging → heldFor s (vfOf t.plot) = false → t.deadline ≤ s.now →
       ∀ r, exec (.stagingReadComplete y r) s = .next (endEarly s y stDeadline)) ∧
     (t.phase = .running →
       exec (.deadlineExpired (.yoke y)) s = .next (endWith (forwardAbort { s with now := max s.now t.deadline } y) y
         (if stalledForRandom t then stNoEntropy else stDeadline)) ∧
       ((s.yoke y).core.tmargin ≠ 0 → exec (.tMarginReached y) s =
         .next ((advanceTo s (t.deadline - (s.yoke y).core.tmargin.toNat)).modYoke y fun k =>
           { k with core := { k.core with fl := { k.core.fl with t := true } } }))))

/-- MSI-X: the coalescing time's end raises the hopper's vector and clears its pending count (R75); a gate that opens sends
the pending messages, a gate that closes keeps later ones pending; a message carries the address and data of its vector's
table entry (R77, R78). IDE and SPDM on a live module with a secured session: a failed check makes the stream Insecure,
KEY_PROG programs a set with its association blocks, K_SET_GO makes a programmed set active and lets out what was held,
K_SET_STOP ends one; every IDE_KM answer leaves sealed under the session, and the SPDM requests are answered, a key exchange
with a new session (R87 to R92). Before the admin hopper is live the answer is Busy (R90). -/
def Obligations.InterruptsAndSecureLink : Prop :=
  ((∀ (s : State) (r : HopRef) (t : Nat), (s.hop r).coalDue = some t →
     exec (.coalescingTimer r) s = .next (raiseVec (({ s with now := max s.now t } : State).modHop r fun x =>
       { x with pendCnt := 0, coalAt := none, coalDue := none }) (hopFn r) (hopVec s r))) ∧
   (∀ (s : State) (f : Fn), cfgReach s f = true →
     let m := s.msixOf f
     exec (.msixUnmask f .enable) s = .next (sendPending (s.setMsix f { m with enable := true }) f) ∧
     exec (.msixUnmask f .fnMask) s = .next (sendPending (s.setMsix f { m with fnMask := false }) f) ∧
     exec (.msixMask f .enable) s = .next (sendPending (s.setMsix f { m with enable := false }) f) ∧
     exec (.msixMask f .fnMask) s = .next (sendPending (s.setMsix f { m with fnMask := true }) f)) ∧
   (∀ (s : State) (f : Fn) (v : Fin 17), tableReach s f = true → hasVector f v = true →
     let m := s.msixOf f
     (v.val ∉ m.unmasked →
       exec (.msixUnmask f (.vector v)) s = .next (sendPending (s.setMsix f { m with unmasked := v.val :: m.unmasked }) f)) ∧
     exec (.msixMask f (.vector v)) s =
       .next (sendPending (s.setMsix f { m with unmasked := m.unmasked.filter (· != v.val) }) f)) ∧
   (∀ (s : State) (f : Fn) (v : Nat), heldFor s f = false →
     let m := s.msixOf f
     (m.enable = true → m.fnMask = false → v ∈ m.unmasked →
       raiseVec s f v = { s with out := s.out ++ [.msix f v (tget 0 m.addr v) (tget 0 m.data v)] }) ∧
     ((m.enable = false ∨ m.fnMask = true ∨ v ∉ m.unmasked) → v ∉ m.pend →
       raiseVec s f v = s.setMsix f { m with pend := v :: m.pend }))) ∧
  ((∀ (s : State) (k : Fin 2), (s.ide k).active ≠ none → (s.ide k).insecure = false →
     exec (.ideIntegrityFailure k) s = .next (modEvent (s.setIde k { s.ide k with insecure := true }))) ∧
   (∀ (s : State) (k : Fin 2) (x : SpdmSess) (rest : List SpdmSess),
     s.link.perst = false → s.link.trained = true → s.adm.live = true → s.link.spdm = x :: rest →
     let answer := fun (u : State) (body : Bytes) =>
       emit { u with link := { u.link with spdm := { x with sealed := x.sealed + 1 } :: rest } }
         (.doe .ok (Config.spdmSeal x.secret x.sealed body))
     exec (.ideKmQuery k) s = .next (answer s (Config.doeBody k)) ∧
     (∀ (set : Fin 2) (r : IdeRids) (a : IdeAddrs),
       let i : Ide := { s.ide k with first := r.first, last := r.last, addr0 := a.block0, addr1 := a.block1 }
       exec (.ideKmKeyProg k set r a) s = .next (answer
         (s.setIde k (if set = 0 then { i with prog0 := true } else { i with prog1 := true })) [])) ∧
     (∀ set : Fin 2, (if set = 0 then (s.ide k).prog0 else (s.ide k).prog1) = true → exec (.ideKmKSetGo k set) s =
       .next (releaseHeld (answer (s.setIde k { s.ide k with active := some set, insecure := false }) []))) ∧
     ((s.ide k).active = some 0 → exec (.ideKmKSetStop k 0) s = .next (answer (s.setIde k { s.ide k with
       prog0 := false, active := none }) [])) ∧
     ((s.ide k).active ≠ some 1 → exec (.ideKmKSetStop k 1) s = .next (answer (s.setIde k { s.ide k with prog1 := false }) []))) ∧
   (∀ (s : State) (n x : Bytes), s.link.perst = false → s.link.trained = true → s.adm.live = true →
     n.length = 32 → x.length = 96 →
     exec (.spdmGetCertificate 0) s = .next (emit s (.doe .ok Config.identityChain)) ∧
     (privReady s 1 = true →
       let u := privGen s 1
       let secret := Config.spdmSchedule (Config.dheShared x u.free) (x ++ Config.dhePublic u.free)
       exec (.spdmChallenge n) s = .next (drawn (emit u (.doe .ok (Config.attestSign n u.free))) 1) ∧
       (∀ i : Byte, 1 ≤ i.toNat → i.toNat ≤ 5 → exec (.spdmGetMeasurements i n) s =
         .next (drawn (emit u (.doe .ok (Config.hash 2 (measured s i.toNat) ++
           Config.attestSign (n ++ Config.hash 2 (measured s i.toNat)) u.free))) 1)) ∧
       exec (.spdmKeyExchange x) s = .next (drawn (emit
         { u with link := { u.link with spdm := { secret := secret } :: u.link.spdm } }
         (.doe .ok (Config.dhePublic u.free ++ Config.attestSign (x ++ Config.dhePublic u.free) (u.free + 1) ++
           Config.spdmVerify secret (x ++ Config.dhePublic u.free)))) 2))) ∧
   (∀ (s : State) (k : Fin 2) (i : Fin 8), s.link.perst = false → s.link.trained = true → s.adm.live = false →
     exec (.ideKmQuery k) s = .next (emit s (.doe .busy [])) ∧
     exec (.spdmGetCertificate i) s = .next (emit s (.doe .busy []))))

/-- The life of a plot by admin commands that pass every gate: what PLOT_CREATE, OPEN, STOP, START, RESIZE, RESET and REMOVE
do to the plot, PLOT_REMOVE of a TAMPERED module too, each with its record in flash, its completion and its outcome to a
standby (R94 to R96, R102, R111, R120 to R126). The end of a plot's reset: Window V and its drawer are cleared, the drill is
marked to reseed, the plot is CREATED and every waiting PLOT_RESET completes (Table 3.6). The end of a removal: nothing of the
plot is left but its counters; its keys, records and seed are gone and the removal is recorded (Table 3.7, R126, R127). -/
def Obligations.PlotLifeCycle : Prop :=
  (∀ (s : State) (d : Adm) (rest : List Adm), plotNamed d = true →
     let u := popAdm s rest
     let p := d.pid
     let pl := s.plot p
     let fin := fun (t : State) => forwardAdmin (admOk (saveRecord t p) d) d
     (Serves s d rest → d.code = 0x101 → d.inlen = 68 → acrRange d.acr = true → pl.st = .absent →
       poolFault u p (acrOf d.acr) = none →
       auditRoom u = true → (keyGen u 0).2 = true →
       let r := reserve (keyServed (keyGen u 0).1)
       let n := newSecret r 6
       let a := n.1.setSeed p n.2
       let fresh : Plot := {
         acr := acrOf d.acr, active := defaultPolicy, squashCnt := (r.plot p).squashCnt, outAcked := (r.plot p).outAcked,
         outAckCnt := (r.plot p).outAckCnt, tickPeriod := polTick defaultPolicy + 1,
         tickDue := r.now + 1000 * (polTick defaultPolicy + 1) }
       let b := wantSeed ((enterState (a.setPlot p fresh) p .created).modDrill p fun x => { x with queued := true }) (.plot p)
       exec .plotCreate s =
         .next (forwardAdmin (admOk (writeReserved (saveRecord b p) 0x1001 p (le 4 d.tag.toNat)) d) d)) ∧
     (Serves s d rest → d.code = 0x101 → d.inlen = 68 → acrRange d.acr = true → pl.st = .absent →
       poolFault u p (acrOf d.acr) = none →
       auditRoom u = true → (keyGen u 0).2 = false → exec .plotCreate s = .next (keyHeld (keyGen u 0).1 d 0)) ∧
     (Serves s d rest → d.code = 0x102 → d.inlen = 6 → (fld d.inl 4 2 = 0 ∨ 0x100 ≤ fld d.inl 4 2) → pl.st = .created →
       exec .plotOpen s = .next (fin (tryOpen (u.setPlot p { pl with
         armed := true, verCap := BitVec.ofNat 16 (fld d.inl 4 2) }) p))) ∧
     (Serves s d rest → d.code = 0x103 → d.inlen = 4 → pl.st = .opened → twf Plot.zero s.plots = true →
       exec .plotStop s = .next (fin (checkStopped (enterState (u.setPlot p { pl with reopen := false, armed := false }) p
         .stopping) p))) ∧
     (Serves s d rest → d.code = 0x103 → d.inlen = 4 → pl.st = .created → twf Plot.zero s.plots = true →
       exec .plotStop s = .next (fin (u.setPlot p { pl with reopen := false, armed := false }))) ∧
     (Serves s d rest → d.code = 0x103 → d.inlen = 4 → pl.st = .stopping ∨ pl.st = .stopped → twf Plot.zero s.plots = true →
       exec .plotStop s = .next (fin (u.setPlot p { pl with reopen := false }))) ∧
     (Serves s d rest → d.code = 0x104 → d.inlen = 4 → pl.st = .stopped →
       exec .plotStart s = .next (fin (enterState (u.setPlot p { pl with armed := true }) p .opened))) ∧
     (Serves s d rest → d.code = 0x105 → d.inlen = 68 → acrRange d.acr = true → pl.st ∈ createdToStopped →
       shrinks u p (acrOf d.acr) = false →
       poolFault u p (acrOf d.acr) = none →
       exec .plotResize s = .next (fin (u.setPlot p { pl with
         acr := acrOf d.acr, deficit := min pl.deficit (acrOf d.acr).weight }))) ∧
     (Serves s d rest → d.code = 0x106 → d.inlen = 4 → pl.st ∈ createdToStopped →
       exec .plotReset s = .next (saveRecord ((startReset u p .resetting).modPlot p fun pl => { pl with
         armed := false, resetWait := pl.resetWait ++ [d] }) p)) ∧
     (Serves s d rest → d.code = 0x106 → d.inlen = 4 → pl.st = .resetting →
       exec .plotReset s = .next (saveRecord (u.modPlot p fun pl => { pl with
         armed := false, resetWait := pl.resetWait ++ [d] }) p)) ∧
     (Serves s d rest (tamper := true) → d.code = 0x107 → d.inlen = 4 → pl.st ∈ createdToStopped →
       (holdsCard u p 0 = true → sessionLive u p 0 = true) →
       auditRoom u = true → pl.removeWait = none →
       exec .plotRemove s = .next ((startReset (reserve u) p .removing).modPlot p fun pl => { pl with removeWait := some d }))) ∧
  (∀ (s : State) (p : PlotId) (d : Adm),
     let pl := s.plot p
     (pl.st = .resetting → pl.removeWait = none →
       let c := (clearWindow s p).modPlot p fun x => { x with resetWait := [], resetDone := decide x.removeWait.isSome }
       exec (.resetSequenceComplete p) s =
         .next (pl.resetWait.foldl (fun s d => forwardAdmin (admOk s d) d) (enterState c p .created))) ∧
     (pl.st = .removing → pl.resetDone = true → pl.removeWait = some d →
       let k := dropPrograms (dropPlotKeys s p) p
       let c : State := { k.setSeed p 0 with
         rng := { k.rng with reqs := k.rng.reqs.filter (· != SeedReq.plot p) } }
       let e := (c.setRegistry p Registry.zero).setPlot p { Plot.zero with
         txcnt := pl.txcnt, squashCnt := pl.squashCnt, outAcked := pl.outAcked, outAckCnt := pl.outAckCnt }
       exec (.removalSequenceComplete p) s =
         .next (forwardAdmin (admOk (writeReserved (announce s (saveRecord e p)) 0x1002 p (le 4 d.tag.toNat)) d) d)))

/-- Policy sets, the acreage query, the drawer and the plot's own events (R104, R132, R133, R135 to R139, R290). -/
def Obligations.PlotServices : Prop :=
  (∀ (s : State) (d : Adm) (rest : List Adm), plotNamed d = true →
    let u := popAdm s rest
    let p := d.pid
    let pl := s.plot p
    (∀ b, Serves s d rest → d.code = 0x108 → d.inlen = 4 → d.extLen = 512 → heldFor s .pf0 = false →
      pl.st ∈ createdToStopped →
      policyOk (fit 512 b) = true →
      exec (.plotPolicyStage (.data b)) s = .next (forwardData (admOk (saveRecord ((emit u (.read d.extAddr 512)).setPlot p
        { pl with shadow := fit 512 b, shadowValid := true }) p) d) d (fit 512 b))) ∧
    (Serves s d rest → d.code = 0x109 → d.inlen = 4 → pl.st ∈ createdToStopped → pl.shadowValid = true →
      auditRoom u = true →
      let m := (reserve u).setPlot p { pl with active := pl.shadow, shadow := pl.active }
      let late := pl.drill.inst = true ∧ pl.drill.c < polReseed pl.active ∧ polReseed pl.shadow ≤ pl.drill.c
      exec .plotPolicyCommit s = .next (forwardAdmin (admOk (plotEvent (writeReserved (saveRecord (if late then drillCheck m p else m) p)
        0x1003 p (le 4 d.tag.toNat ++ cut pl.shadow 508 4)) p 5) d) d)) ∧
    (Serves s d rest (tamper := true) (lim := 5) → d.code = 0x10A → d.inlen = 4 → 64 ≤ d.resLen →
      exec .plotQuery s = .next (admResult u d (acrBytes pl.acr))) ∧
    (Serves s d rest (tamper := true) → d.code = 0x110 → d.inlen = 68 → msgOk (cut d.inl 4 64) = true →
      pl.st ∈ createdToStopped → pl.outValid = false →
      exec .drawerSend s = .next (admOk (plotEvent (u.setPlot p { pl with drwOut := cut d.inl 4 64, outValid := true }) p 1)
        d)) ∧
    (Serves s d rest (tamper := true) → d.code = 0x111 → d.inlen = 4 → 64 ≤ d.resLen → pl.st ∈ createdToStopped →
      exec .drawerRecv s = .next (if pl.inBusy then
        admResult (plotEvent (u.setPlot p { pl with inBusy := false, drwCopy := [] }) p 2) d (fit 64 pl.drwCopy)
        else admResult u d []))) ∧
  (∀ (s : State) (p : PlotId), reach s (vfOf p) = true → (s.plot p).st ≠ .absent →
    let pl := s.plot p
    let m := mread pl.drwIn 0 64
    (pl.inBusy = true → exec (.inValid p) s = .next (s.setPlot p { pl with inRefused := true, inRefCnt := bump pl.inRefCnt })) ∧
    (pl.inBusy = false → msgOk m = true →
      exec (.inValid p) s = .next (raiseVec (s.setPlot p { pl with inBusy := true, drwCopy := m }) .pf0 1)) ∧
    (pl.inBusy = false → msgOk m = false →
      exec (.inValid p) s = .next (s.setPlot p { pl with badVer := true, badVerCnt := bump pl.badVerCnt })) ∧
    (pl.outValid = true → exec (.outAck p) s = .next (raiseVec (s.setPlot p { pl with
      outValid := false, drwOut := [], outAcked := true, outAckCnt := bump pl.outAckCnt }) .pf0 1)) ∧
    exec (.plotTick p) s = .next ({ s with now := max s.now pl.tickDue }.setPlot p { pl with
      tick := pl.tick + 1, tickPeriod := polTick pl.active + 1,
      tickDue := pl.tickDue + 1000 * (polTick pl.active + 1) }) ∧
    (∀ v : W32, v.getLsbD 0 = true → pl.st = .created → 0x100 ≤ (v.extractLsb' 16 16).toNat →
      exec (.pltVopenGo p v) s = .next (tryOpen (s.setPlot p { pl with maxver := v.extractLsb' 16 16, openPend := true }) p)))

/-- R117: a CREATED plot that is armed and has a request opens with the highest version of the module that MAXVER and VER_CAP
permit; where they permit none the request is refused (R118). -/
def Obligations.VersionNegotiation : Prop :=
  ∀ (s : State) (p : Nat), (s.plot p).st = .created → (s.plot p).armed = true → (s.plot p).openPend = true →
    mirrors s = false →
    let pl := s.plot p
    let permitted := fun (v : Nat) => v ∈ [0x100, 0x101, 0x200, 0x201] ∧ v ≤ pl.maxver.toNat ∧
      (pl.verCap = 0 ∨ v ≤ pl.verCap.toNat)
    (∀ v, permitted v → (∀ w, permitted w → w ≤ v) →
      tryOpen s p = enterState (s.setPlot p { pl with openPend := false, version := BitVec.ofNat 16 v }) p .opened) ∧
    ((∀ v, ¬ permitted v) → tryOpen s p = plotEvent (s.setPlot p { pl with openPend := false }) p 4)

/-- The program commands of a plot whose registry holds a Security Officer card and that has such a session live: signers are
added and removed, an image that passes every check of Table 6.5 takes the lowest free granules, and the table is listed (R233
to R240). -/
def Obligations.ProgramCommands : Prop :=
  ∀ (s : State) (d : Adm) (rest : List Adm), plotNamed d = true →
    let u := popAdm s rest
    let p := d.pid
    let pl := s.plot p
    let id := fld d.inl 4 2
    let signer : W64 := BitVec.ofNat 64 (fld d.inl 4 8)
    let done := fun (t : State) (code : BitVec 16) (payload data : Bytes) =>
      forwardData (admOk (writeReserved (saveRecord t p) code p payload) d) d data
    (Serves s d rest → pl.st ∈ createdToStopped → holdsCard u p 0 = true → sessionLive u p 0 = true → auditRoom u = true →
      (∀ b, heldFor s .pf0 = false → d.code = 0x120 → d.inlen = 12 → signer ≠ 0 → d.extLen = 97 →
        byteAt (fit 97 b) 0 = 4 →
        pl.signers.length < 4 →
        (∀ x ∈ pl.signers, x.1 ≠ signer) →
        exec (.progSignerAdd (.data b)) s = .next (done ((reserve (emit u (.read d.extAddr 97))).modPlot p fun pl =>
          { pl with signers := pl.signers ++ [(signer, fit 97 b)] }) 0x1020 (le 8 signer.toNat) (fit 97 b))) ∧
      (d.code = 0x121 → d.inlen = 12 → (∃ x ∈ pl.signers, x.1 = signer) →
        exec .progSignerRemove s = .next (done ((reserve u).modPlot p fun pl =>
          { pl with signers := pl.signers.filter fun x => x.1 != signer }) 0x1021 (le 8 signer.toNat) [])) ∧
      (∀ b k g, heldFor s .pf0 = false → d.code = 0x122 → d.inlen = 4 → d.extLen ≠ 0 →
        let img := fit d.extLen b
        let t := emit u (.read d.extAddr d.extLen)
        imgOk img = true → byteAt img 5 ≤ 2 → (pl.progs.find? fun x => x.1 == imgId img) = none →
        pl.progs.length < pl.acr.progSlots → (pl.signers.find? fun x => x.1 == imgSigner img) = some k →
        Config.sigVerify 1 k.2 (cut img 0 (64 + imgCode img)) (cut img (64 + imgCode img) 96) = true →
        findGranules t (granules (imgCode img)) = some g →
        exec (.progInstall (.data b)) s = .next (done (placeImage (reserve t) p img g) 0x1022
          (le 2 (imgId img) ++ le 4 (imgVersion img).toNat) img)) ∧
      (∀ i, d.code = 0x123 → d.inlen = 6 → 0x400 ≤ id → id ≤ 0xFFF →
        (pl.progs.find? fun x => x.1 == id) = some (id, i) →
        exec .progRemove s = .next (done (({ reserve u with prog := { (reserve u).prog with
          images := unname (reserve u).prog.images i } } : State).modPlot p fun pl =>
            { pl with progs := pl.progs.filter fun x => x.1 != id })
          0x1023 (le 2 id ++ le 4 (tget Image.zero s.prog.images i).version.toNat) []))) ∧
    (Serves s d rest (tamper := true) (lim := 5) → d.code = 0x124 → d.inlen = 4 → 1024 ≤ d.resLen → pl.st ≠ .absent →
      exec .progList s = .next (admResult u d (progList u p)))

/-- A register write completes and takes effect by the access rules (R10, R11, R573): 32 aligned bits on the writer's
register, 64 aligned bits as two such writes, any other size or alignment none. An aligned 32-bit write at a doorbell is that
doorbell; every other write there only counts as refused (R58, R59, R74). What single register writes do: W1C flags clear
where a 1 is written and stay elsewhere (R11), HOP_STAT's four flags among them, ring addresses keep bits 63:12 and change
only while the hopper is disabled (R49), HOP_COAL takes both fields (R51), an MSI-X table entry takes its address, data and
Mask bit (R39), RNG_STAT.UNDERRUN clears (R407), Device Control takes Enable Relaxed Ordering (R70). -/
def Obligations.RegisterWrites : Prop :=
  ((∀ (s : State) (w : Writer) (off : Nat) (v : W64), doorbellAt w off = none →
     let lo := v.extractLsb' 0 32
     let hi := v.extractLsb' 32 32
     (off % 4 = 0 → exec (.registerWrite w off 4 v) s = .next (write32 w off lo s)) ∧
     (off % 8 = 0 → exec (.registerWrite w off 8 v) s = .next (write32 w (off + 4) hi (write32 w off lo s))) ∧
     (∀ n, n ≠ 4 → n ≠ 8 → exec (.registerWrite w off n v) s = .next s) ∧
     (off % 4 ≠ 0 → exec (.registerWrite w off 4 v) s = .next s) ∧
     (off % 8 ≠ 0 → exec (.registerWrite w off 8 v) s = .next s)) ∧
   (∀ (s : State) (p : PlotId) (h : Fin 16) (v : W64),
     exec (.registerWrite (.driver p) (8 * h.val) 4 v) s = exec (.hopTailDb (.vf p h) (v.extractLsb' 0 32) true) s ∧
     exec (.registerWrite (.driver p) (8 * h.val + 4) 4 v) s = exec (.hopHeadDb (.vf p h) (v.extractLsb' 0 32) true) s ∧
     (∀ o n, o < 8 → ¬ (n = 4 ∧ o % 4 = 0) → reach s (.vf p) = true → hopDropped s (.vf p h) = false →
       exec (.registerWrite (.driver p) (8 * h.val + o) n v) s =
         .next ((doorbell s).modHop (.vf p h) fun x => { x with dbrCnt := bump x.dbrCnt }))) ∧
   (∀ (s : State) (v : W64),
     exec (.registerWrite .managerD 0 4 v) s = exec (.hopTailDb .admin (v.extractLsb' 0 32) true) s ∧
     exec (.registerWrite .managerD 4 4 v) s = exec (.hopHeadDb .admin (v.extractLsb' 0 32) true) s)) ∧
  ((∀ (s : State) (v : W64), reach s .pf0 = true →
     let w := v.extractLsb' 0 32
     exec (.registerWrite .managerM 0x50008 4 v) s =
       .next { s with lan := { s.lan with event := s.lan.event &&& ~~~(w.setWidth _) } } ∧
     exec (.registerWrite .managerM 0x60008 4 v) s =
       .next { s with pke := { s.pke with event := s.pke.event &&& ~~~(w.setWidth _) } } ∧
     exec (.registerWrite .managerM 0x70004 4 v) s =
       .next { s with rng := { s.rng with event := s.rng.event &&& ~~~(w.setWidth _) } } ∧
     exec (.registerWrite .managerM 0x90030 4 v) s =
       .next { s with evr := { s.evr with event := s.evr.event &&& ~~~(w.setWidth _) } } ∧
     exec (.registerWrite .managerM 0xC0030 4 v) s =
       .next { s with kpr := { s.kpr with event := s.kpr.event &&& ~~~(w.setWidth _) } } ∧
     exec (.registerWrite .managerM 0xB0010 4 v) s =
       .next { s with yreg := { s.yreg with event := s.yreg.event &&& ~~~(w.setWidth _) } } ∧
     exec (.registerWrite .managerM 0xA0080 4 v) s = .next { s with clu := { s.clu with hold := w.getLsbD 0 } }) ∧
   (∀ (s : State) (v : W64), reach s .pf0 = true →
     let x := s.adm.hop
     let w := v.extractLsb' 0 32
     (x.en = false → exec (.registerWrite .managerD 0x100 4 v) s = .next (s.setHop .admin { x with
       sqBase := (x.sqBase.extractLsb' 32 32 ++ w) &&& 0xFFFFFFFFFFFFF000#64 })) ∧
     (x.en = false → exec (.registerWrite .managerD 0x104 4 v) s = .next (s.setHop .admin { x with
       sqBase := (w ++ x.sqBase.extractLsb' 0 32) &&& 0xFFFFFFFFFFFFF000#64 })) ∧
     (x.en = true → exec (.registerWrite .managerD 0x108 4 v) s = .next s) ∧
     exec (.registerWrite .managerD 0x114 4 v) s = .next (s.setHop .admin { x with
       coalTime := w.extractLsb' 16 10, coalCount := w.extractLsb' 0 8 }) ∧
     exec (.registerWrite .managerD 0x118 4 v) s = .next (s.setHop .admin { x with
       dbRefused := x.dbRefused && !w.getLsbD 0, cfgErr := x.cfgErr && !w.getLsbD 1,
       fetchErr := x.fetchErr && !w.getLsbD 2, headErr := x.headErr && !w.getLsbD 3 })) ∧
   (∀ (s : State) (k : Fin 4) (v : W64), tableReach s .pf0 = true →
     let m := s.msixOf .pf0
     let w := v.extractLsb' 0 32
     exec (.registerWrite .managerD (0x808 + 16 * k.val) 4 v) s =
       .next (s.setMsix .pf0 { m with data := tset 0 k.val w m.data }) ∧
     exec (.registerWrite .managerD (0x804 + 16 * k.val) 4 v) s =
       .next (s.setMsix .pf0 { m with addr := tmod 0 k.val (fun a => w ++ a.extractLsb' 0 32) m.addr }) ∧
     (w.getLsbD 0 = true →
       exec (.registerWrite .managerD (0x80C + 16 * k.val) 4 v) s = exec (.msixMask .pf0 (.vector ⟨k.val, by omega⟩)) s) ∧
     (w.getLsbD 0 = false →
       exec (.registerWrite .managerD (0x80C + 16 * k.val) 4 v) s = exec (.msixUnmask .pf0 (.vector ⟨k.val, by omega⟩)) s)) ∧
   (∀ (s : State) (f : Fn) (v : W64),
     (s.pwr.good = true → exec (.registerWrite .rngPort 4 4 v) s =
       .next { s with stw := { s.stw with underrun := s.stw.underrun && !v.getLsbD 1 } }) ∧
     (cfgReach s f = true → ∃ c : FnCfg, c.relaxed = v.getLsbD 4 ∧ c.d3hot = (s.fnCfg f).d3hot ∧
       exec (.registerWrite (.config f) 0 4 v) s = .next (s.setFnCfg f c))))

/-- One step of the module runs the command at the front of its queue on the state with the queue's rest, and answers its
outcome; with nothing waiting the clock advances by one microsecond (the model's choice, log 2). -/
def Obligations.StepRunsTheFront : Prop :=
  (∀ (s : State) (c : Instr) (rest : List Instr), s.pending = c :: rest → step s = exec c { s with pending := rest }) ∧
  (∀ s : State, s.pending = [] → step s = .next { s with now := s.now + 1 })

/-- The life-cycle and recorder commands that pass the common gates, in each mode and state that serves them (R438, R488,
R503, R554). LCS_ADVANCE burns the next fuse group or names what stops it; LCS_STATUS writes its 64 bytes; FW_LOAD writes the
bank that is not running, chunk after chunk, and verifies the last; FW_ACTIVATE and MOD_RECONFIG begin a stop-change-restart,
FW_ACTIVATE of an invalid bank fails; START_CNT_RESET and FALLOW_REQUEST restart the module; EVR_EXPORT writes the seal and
the records that fit; EVR_ACK of exported records moves the acknowledgement (R484, R485, R489, R499, R505 to R510, R519, R522,
R523, R610). -/
def Obligations.LifeCycleCommands : Prop :=
  ∀ (s : State) (d : Adm) (rest : List Adm), noPlot d = true →
    let u := popAdm s rest
    let st := s.lcs.state.toNat
    let officer := sessionLive u modScope 0 = true
    (Serves s d rest (standby := true) (lim := 5) → d.code = 0x180 → d.inlen = 5 → byteAt d.inl 4 ≤ 5 →
      (s.lcs.state = 0 ∨ officer) →
      (byteAt d.inl 4 = st + 1 → decodeFuses s.lcs.fuses = st →
        (2400 ≤ s.kpr.kvbat → s.pwr.charged = true → (byteAt d.inl 4 = 5 → allExported u = true) →
          exec .lcsAdvance s = .next (admOk (event { u with lcs := { u.lcs with fuses := blow u.lcs.fuses st } } 0x3020 modScope
            (le 1 st ++ le 1 (st + 1))) d)) ∧
        ((s.kpr.kvbat < 2400 ∨ s.pwr.charged = false) → exec .lcsAdvance s = .next (admFail u d stPolicy 0x71)) ∧
        (2400 ≤ s.kpr.kvbat → s.pwr.charged = true → byteAt d.inl 4 = 5 → allExported u = false →
          exec .lcsAdvance s = .next (admFail u d stAudit 0x20))) ∧
      ((byteAt d.inl 4 ≠ st + 1 ∨ decodeFuses s.lcs.fuses ≠ st) →
        exec .lcsAdvance s = .next (admFail u d stPolicy 0x70))) ∧
    (Serves s d rest true true true 5 → d.code = 0x181 → d.inlen = 4 → 64 ≤ d.resLen →
      exec .lcsStatus s = .next (admResult u d (le 4 (lcsStat u) ++
      le 4 (lcsStart u) ++ le 4 (lcsLastFail u) ++ le 4 0 ++ le 8 (lcsFw u.lcs.bankA) ++ le 8 (lcsFw u.lcs.bankB) ++
      List.replicate 32 0))) ∧
    (∀ b, Serves s d rest true true true → d.code = 0x182 → d.inlen = 12 → fld d.inl 4 4 % 65536 = 0 →
      byteAt d.inl 8 ≤ 1 → zeros d.inl 9 3 = true →
      let k := s.bank !s.lcs.bank
      let ofs := fld d.inl 4 4
      let put := fun (data : Bytes) => (if ofs = 0 then [] else k.data) ++ data
      let placed := (ofs = 0 ∨ (k.valid = false ∧ ofs = k.data.length)) ∧ ofs + d.extLen ≤ 96 * 2 ^ 20
      let t := if d.extLen = 0 then u else emit u (.read d.extAddr d.extLen)
      let img := put (fit d.extLen b)
      (d.extLen = 0 ∨ heldFor s .pf0 = false) → placed →
        (byteAt d.inl 8 = 0 → exec (.fwLoad (.data b)) s = .next (admOk (t.setBank (!s.lcs.bank)
          { k with valid := false, data := img }) d)) ∧
        (byteAt d.inl 8 = 1 →
          let bank : Bank := { valid := fwHeaderOk img && fwSigned img, svn := BitVec.ofNat 16 (fld img 12 2),
                               version := BitVec.ofNat 32 (fld img 8 4), data := img }
          let e := event (t.setBank (!s.lcs.bank) bank) 0x0043 modScope (le 1 (flag (!s.lcs.bank) 0) ++
            le 4 bank.version.toNat ++ le 2 bank.svn.toNat ++ le 1 (flag bank.valid 0))
          (bank.valid = true → exec (.fwLoad (.data b)) s = .next (admOk e d)) ∧
          (fwHeaderOk img = false → exec (.fwLoad (.data b)) s = .next (admFail e d stPolicy 0x72)) ∧
          (fwHeaderOk img = true → fwSigned img = false → exec (.fwLoad (.data b)) s = .next (admFail e d stPolicy 0x73)))) ∧
    (Serves s d rest (standby := true) → d.code = 0x183 → d.inlen = 5 → byteAt d.inl 4 ≤ 1 → s.lcs.change = .none →
      let b := decide (byteAt d.inl 4 = 1)
      ((s.bank b).valid = true → exec .fwActivate s = .next (beginChange (event u 0x3025 modScope
        (le 1 (flag b 0) ++ le 4 (s.bank b).version.toNat)) (.activate d b))) ∧
      ((s.bank b).valid = false → exec .fwActivate s = .next (admFail u d stPolicy 0x74))) ∧
    (Serves s d rest (fallow := true) (standby := true) → d.code = 0x184 → d.inlen = 4 → officer →
      let e := event u 0x3026 modScope (le 1 u.kpr.startfail.toNat)
      exec .startCntReset s = .next (restart { e with kpr := { e.kpr with startfail := 0, fallowReq := false } } 4 true 7)) ∧
    (Serves s d rest (standby := true) → d.code = 0x185 → d.inlen = 4 → officer →
      let e := event u 0x3027 modScope []
      exec .fallowRequest s = .next (restart { e with kpr := { e.kpr with fallowReq := true } } 4 true 7)) ∧
    (Serves s d rest (standby := true) → d.code = 0x186 → d.inlen = 5 → byteAt d.inl 4 < 8 → s.lcs.change = .none →
      exec .modReconfig s = .next (beginChange (event u 0x3028 modScope (le 1 (byteAt d.inl 4)))
        (.reconfig d (BitVec.ofNat 3 (byteAt d.inl 4))))) ∧
    (Serves s d rest true true true 5 → d.code = 0x190 → d.inlen = 8 → 288 ≤ d.resLen → d.resLen ≤ 65536 →
      let first := exportFrom s.evr (BitVec.ofNat 32 (fld d.inl 4 4))
      let rs := recordsFrom s.evr ((d.resLen - 224) / 64) first
      let last := first + BitVec.ofNat 32 (rs.length - 1)
      let head := sealHead s.evr first rs
      let t := drawn u 1
      let out := head ++ fit 96 (Config.attestSign head s.free) ++ rs.flatMap EvRec.bytes
      let further := rs ≠ [] ∧ (s.evr.anyRead = true → 2 ^ 31 ≤ (s.evr.read - last).toNat)
      (¬ further → exec .evrExport s = .next (admResult t d out)) ∧
      (further → exec .evrExport s = .next (admResult { t with evr := { t.evr with read := last, anyRead := true } } d out))) ∧
    (Serves s d rest true true true 5 → d.code = 0x191 → d.inlen = 8 → (holdsCard u modScope 4 = true →
      sessionLive u modScope 4 = true) →
      let q : W32 := BitVec.ofNat 32 (fld d.inl 4 4)
      (s.evr.anyRead = true → (q - s.evr.acked).toNat ≤ (s.evr.read - s.evr.acked).toNat →
        exec .evrAck s = .next (admOk (event { u with evr := { u.evr with acked := q, anyAck := true } } 0x3024 modScope
          (le 4 q.toNat)) d)) ∧
      ((s.evr.anyRead = false ∨ (s.evr.read - s.evr.acked).toNat < (q - s.evr.acked).toNat) →
        exec .evrAck s = .next (admFail u d stPolicy 0x80)))

/-- The module start: main power with VIN in its range begins it; the fuses decide a scrapped or lost module, the counters a
fallow start, the tests a failed one; else the plot drills are asked for and, once they are there, the firmware runs; the
charged hold-up store makes the admin hopper live, full service comes with enough units and fails with fewer; the watchdog's
expiry; the end of a stop-change-restart (Table 13.2, R409, R469, R491, R492, R498, R500 to R503, R508 to R510, R591, R594).
-/
def Obligations.ModuleStarts : Prop :=
  (∀ (s : State) (p : PowerPins), s.pwr.good = false → s.pwr.shutdown = false → s.pwr.vio = true → s.kpr.powered = true →
    s.lcs.phase ≠ .inert → s.lcs.trimBlown = false →
    (10800 ≤ p.vinMv.toNat → p.vinMv.toNat ≤ 13200 → exec (.mainPowerGood p) s = .next (bootRng { s with
      pwr := { s.pwr with good := true, pwrgd := true, conLvl := p.conLvl, vin := p.vinMv.toNat },
      lcs := { s.lcs with phase := .reset, cause := 0, since := s.now },
      kpr := { s.kpr with pwrcyc := s.kpr.pwrcyc + 1 },
      link := { s.link with trained := !s.link.perst } })) ∧
    (p.vinMv.toNat < 10800 ∨ 13200 < p.vinMv.toNat → exec (.mainPowerGood p) s = .next s)) ∧
  (∀ (s : State) (env : StartEnv), s.lcs.phase = .reset → s.pwr.good = true → s.pwr.shutdown = false →
    (s.lcs.trimBlown = false → decodeFuses s.lcs.fuses = 5 → exec (.moduleStart env) s = .next (scrap s)) ∧
    (s.lcs.trimBlown = false → decodeFuses s.lcs.fuses = 6 → exec (.moduleStart env) s = .next (inert s 6)) ∧
    (s.lcs.trimBlown = true → decodeFuses s.lcs.fuses ≠ 6 → exec (.moduleStart env) s = .next (inert s 5)) ∧
    (s.lcs.trimBlown = false → decodeFuses s.lcs.fuses < 5 →
      let n := decodeFuses s.lcs.fuses
      let c := countStart s
      let u : State := { c with lcs := { c.lcs with state := BitVec.ofNat 4 n } }
      let bank := (chooseBank u env.imageOk).getD u.lcs.pref
      (fallowStart u = true → exec (.moduleStart env) s = .next (fallowEnter u)) ∧
      (fallowStart u = false →
        (∀ r t, startFault u env n = some (r, t, false) → exec (.moduleStart env) s = .next (startFail u r t false)) ∧
        (∀ r t, startFault u env n = some (r, t, true) →
          exec (.moduleStart env) s = .next (startFail { u with lcs := { u.lcs with bank := bank } } r t true)) ∧
        (startFault u env n = none → u.rng.started = false → exec (.moduleStart env) s = .next u) ∧
        (startFault u env n = none → u.rng.started = true →
          let v := seedPlots { u with lcs := { u.lcs with bank := bank, phase := .starting, restoring := true } }
          (plotsSeeded v = true → exec (.moduleStart env) s = .next (firmware v n)) ∧
          (plotsSeeded v = false → exec (.moduleStart env) s = .next v))))) ∧
  (∀ s : State, s.lcs.phase = .starting → s.lcs.restoring = false → s.pwr.good = true →
    exec .holdupStoreCharged s = .next { s with
      pwr := { s.pwr with charged := true }, lcs := { s.lcs with phase := .live }, adm := { s.adm with live := true } }) ∧
  (∀ (s : State) (tests : InstanceTests), s.lcs.phase = .live → s.lcs.fallow = false → s.rng.claim = true →
    (28 ≤ ones tests.lanes → 16 ≤ ones tests.engines →
      (56 ≤ ones tests.yokes → tests.faults < 3 → exec (.fullService tests) s = .next (serve s tests)) ∧
      ((ones tests.yokes < 56 ∨ 3 ≤ tests.faults) → exec (.fullService tests) s = .next (startFail s 0x06 0 true))) ∧
    ((ones tests.lanes < 28 ∨ ones tests.engines < 16) →
      exec (.fullService tests) s = .next (startFail s 0x03 0 true))) ∧
  (∀ s : State, s.pwr.good = true → s.pwr.shutdown = false → s.stw.halted = false →
    (s.lcs.phase = .full → exec .stewardWatchdog s = .next (restart s 2 true 7)) ∧
    (s.lcs.phase = .starting → exec .stewardWatchdog s = .next (startFail s 0x05 0 true)) ∧
    (s.lcs.phase = .live → s.lcs.fallow = false → exec .stewardWatchdog s = .next (startFail s 0x05 0 true))) ∧
  (∀ (s : State) (d : Adm), allStopped s = true →
    (∀ m : BitVec 3, s.lcs.change = .reconfig d m →
      let ports := if m.getLsbD 1 then applyPorts s else s
      let engines := if m.getLsbD 2 then applyEngines ports else ports
      exec .stopChangeRestartApply s = .next (admOk (reopenPlots { engines with lcs := { engines.lcs with change := .none } }) d)) ∧
    (∀ b, s.lcs.change = .activate d b →
      exec .stopChangeRestartApply s = .next (restart { s with lcs := { s.lcs with pref := b } } 3 true 7)))

/-- Supplies, the reset pin, PLLs, DOZE, clock gating and the activity LED. Loss of main power and a thermal shutdown zeroise
the main die; a reset pulse of 10 µs restarts it and a shorter one than 1 µs is ignored; a PLL locks; a unit gates its clock;
DOZE keeps no PLL beyond those that ran; the return of VIO reads PWRGD and, where VIO was absent, the address straps; a write
of PWR_POLICY; the LED's timeout (R25 to R31, R421, R444, R581, R592, R593, R595, R599, R609). PCIe resets of a reachable
function: an FLR of a VF resets its plot and its MSI-X state; VF Enable cleared does so for every VF; an FLR of PF0 also
clears the admin hopper and the manager's registers, and PERST_N the whole endpoint (R35 to R37, R493). A plot reset discards
accepted descriptors, what is held or owed, and coalescing (Table 3.6); without a session and a transaction of the plot that
is all that it does at once. -/
def Obligations.ResetsAndPower : Prop :=
  (∀ s : State,
     let cut : State := { s with pwr := { s.pwr with pwrgd := false, shutdown := false } }
     (s.pwr.good = true →
       exec .mainPowerLoss s = .next (supplyTrip (powerOff cut)) ∧
       (let o := powerOff s
        exec .thermalShutdown s = .next { o with pwr := { o.pwr with shutdown := true } }) ∧
       (s.lcs.phase ≠ .inert → s.pwr.shutdown = false → s.pwr.vio = true →
         exec (.mrstN .long) s = .next (restart s 1 false 7)) ∧
       (∀ k : Fin 6, s.pwr.shutdown = false → s.pwr.doze = false → k.val ≠ 4 → exec (.pllLock k) s = .next { s with
         pwr := { s.pwr with pll := s.pwr.pll ||| BitVec.ofNat 6 (2 ^ k.val) } }) ∧
       (s.pwr.shutdown = false → s.pwr.doze = false → exec (.pllLock 4) s = .next { s with
         pwr := { s.pwr with pll := s.pwr.pll ||| 16 }, vlt := { s.vlt with selfRefresh := false } }) ∧
       (s.pwr.floor.toNat < 2 → 11400 ≤ s.pwr.vin →
         (∀ y : YokeId, s.tx y.val = none → exec (.unitGate (.yoke y)) s = .next { s with
           pwr := { s.pwr with gatedY := s.pwr.gatedY ||| BitVec.ofNat 64 (2 ^ y.val) } }) ∧
         (∀ l : Fin 32, (∀ c, c < 8 → (s.ctx (8 * l.val + c)).job = none ∧ (s.ctx (8 * l.val + c)).bound = .free) →
           exec (.unitGate (.lane l)) s = .next { s with
             pwr := { s.pwr with gatedL := s.pwr.gatedL ||| BitVec.ofNat 32 (2 ^ l.val) } }) ∧
         (∀ e : Fin 32, (s.eslot (2 * e.val)).job = none → (s.eslot (2 * e.val + 1)).job = none → (s.mac e.val).tx = none →
           exec (.unitGate (.engine e)) s = .next { s with
             pwr := { s.pwr with gatedE := s.pwr.gatedE ||| BitVec.ofNat 32 (2 ^ e.val) } })) ∧
       (s.lcs.phase = .full → s.pwr.floor = 0 → quiet s = true → s.pwr.doze = false →
         ∃ t, exec .dozeEntry s = .next t ∧ t.pwr.doze = true ∧ t.vlt.selfRefresh = true ∧
           (∀ k, k < 6 → t.pwr.pll.getLsbD k = true → s.pwr.pll.getLsbD k = true))) ∧
     (s.pwr.good = false → s.pwr.shutdown = false → exec .mainPowerLoss s = .next cut) ∧
     exec (.mrstN .short) s = .next s ∧
     exec .vioLoss s = .next { s with pwr := { s.pwr with vio := false } } ∧
     (∀ p : VioPins, p.pwrgd = true → exec (.vioReturn p) s = .next { s with
       pwr := { s.pwr with vio := true, smbadr := if s.pwr.vio then s.pwr.smbadr else p.smbadr, pwrgd := true } }) ∧
     (∀ v, reach s .pf0 = true → exec (.pwrPolicyWrite v) s = .next { s with pwr := { s.pwr with
       dozeDelay := v.extractLsb' 16 16, floor := v.extractLsb' 0 2, doze := s.pwr.doze && v.extractLsb' 0 2 == 0 } }) ∧
     exec .ledActTimeout s = .next { s with pwr := { s.pwr with ledAct := false } }) ∧
  ((∀ (s : State) (p : PlotId), reach s (.vf p) = true →
     let u := s.setMsix (.vf p) Msix.zero
     ((s.plot p).st ∈ createdToStopped → exec (.vfFlr p) s = .next (startReset u p .resetting)) ∧
     ((s.plot p).st ∉ createdToStopped → exec (.vfFlr p) s = .next u)) ∧
   (∀ (s : State) (p : Nat) (st : PlotSt), (∀ k x, s.session k = some x → x.scope ≠ p) → yokesOf s p = [] →
     startReset s p st = (let t := s.modPlot p fun pl => { pl with
           st := st, reopen := false, resetDone := false,
           hoppers := tmap Hopper.zero (fun _ x => { x with acc := [], pendCnt := 0, coalDue := none, coalAt := none }) pl.hoppers }
       { t with link := { t.link with held := t.link.held.filter fun h => !heldOf p h },
                owed := t.owed.filter fun o => o.tx.plot != p })) ∧
   (∀ s : State,
     let all := fun (u : State) =>
       (u.plots.map (·.1)).foldl (fun s p => if (s.plot p).st ∈ createdToStopped then startReset s p .resetting else s)
         { u with link := { u.link with msix := u.link.msix.filter fun x => x.1 == 0 } }
     let a := clearManager (clearAdminHopper (silenceAll s))
     let f := all { a with link := { a.link with msix := tset Msix.zero 0 Msix.zero a.link.msix, vfEnable := false, numVfs := 0 } }
     (reach s .pf0 = true → s.link.vfEnable = true →
       exec .vfEnableClear s = .next (all { s with link := { s.link with vfEnable := false } })) ∧
     (reach s .pf0 = true → ∀ n, s.link.vfEnable = false → n ≤ 1024 →
       exec (.vfEnableSet n) s = .next { s with link := { s.link with vfEnable := true, numVfs := n } }) ∧
     (reach s .pf0 = true → exec .pf0Flr s = .next f) ∧
     (s.pwr.good = true → exec .perstN s = .next { f with link := { msix := [], perst := true } }) ∧
     (s.pwr.good = false → exec .perstN s = .next { s with link := { s.link with perst := true } }) ∧
     a.adm.hop = Hopper.zero ∧ a.clu.event = 0 ∧ a.clu.hold = false ∧ a.clu.portNext = [] ∧ a.clu.swapBuf = 0 ∧
     a.yreg.event = 0 ∧ a.lan.event = 0 ∧ a.pke.event = 0 ∧ a.pke.cfgNext = s.pke.cfg ∧ a.rng.event = 0 ∧ a.kpr.event = 0 ∧
     a.evr.event = 0 ∧
     exec .perstNRelease s = .next { s with link := { s.link with
       perst := false, trained := s.pwr.good && decide (s.lcs.phase ≠ .inert) } }))

/-- The noise sources and the claim: a LIVE source whose samples fail a test is excluded, counted and recorded; a retest
begins; 1,024 samples that pass make a source LIVE, samples that fail leave it EXCLUDED or, at the 16th failed retest in a
row, DEAD; a conditioner block adds its two halves to a buffer of 16 halves and serves what waits; a claim not met in time
fails the start; a claim that is lost empties the buffer, with event and record (R395 to R399, R410, Table 10.3). The
steward's random port, the mask keys, raw-sample mode and the bound of a waiting key generation: PR and SEL discard the
staging buffer; a read of RNG_DATA gives 8 bytes, or 0 with an underrun; a mask key comes from P3 or stays the old one with an
event; RNG_RAW_CAPTURE stops the drills and empties the conditioner's buffer; its end marks every drill to reseed and writes
the packed samples; at the bound the waiting command ends NO_ENTROPY (R405, R407 to R409, R411, R413, R414, Table 10.7). -/
def Obligations.NoiseAndRandomPort : Prop :=
  ((∀ (s : State) (i : Fin 20) (b : List Bool), s.pwr.good = true →
     let x := s.src i.val
     let t := testFail s i.val b
     (x.st = .live → t ≠ 0 → exec (.healthTestFailure i b) s = .next (evalClaim (event (rngEvent (s.setSrc i.val { x with
         st := .excluded, lastTest := t, failCnt := bump x.failCnt }) 0) 0x0020 modScope (le 1 i.val ++ le 1 t.toNat)))) ∧
     (x.st = .excluded → exec (.sourceRetestStart i) s = .next (s.setSrc i.val { x with st := .starting })) ∧
     (x.st = .starting → b.length = 1024 →
       (t = 0 → exec (.startupTestEnd i b) s = .next (evalClaim (s.setSrc i.val { x with st := .live, retests := 0 }))) ∧
       (t ≠ 0 → x.lastTest = 0 → exec (.startupTestEnd i b) s = .next (s.setSrc i.val { x with
         st := .excluded, retests := 0, lastTest := 1 })) ∧
       (t ≠ 0 → x.lastTest ≠ 0 → x.retests < 15 → exec (.startupTestEnd i b) s = .next (s.setSrc i.val { x with
         st := .excluded, retests := x.retests + 1, lastTest := 1 })) ∧
       (t ≠ 0 → x.lastTest ≠ 0 → 15 ≤ x.retests → exec (.startupTestEnd i b) s = .next (s.setSrc i.val { x with
         st := .dead, retests := x.retests + 1, lastTest := 1 })))) ∧
   (∀ s : State, s.pwr.good = true → s.rng.claim = true → s.rng.raw = false →
     let out := fit 64 (Config.hash 3 (condInput s))
     let t := drawn s (condSamples s)
     let filled : State := { t with rng := { t.rng with halves := (t.rng.halves ++ [out.take 32, out.drop 32]).take 16 } }
     exec .conditionerBlock s =
       .next (fallowEpoch (grantOn (hsPump (stageRandom (finishRestore (pump filled))))))) ∧
   (∀ s : State, s.lcs.phase = .starting → s.lcs.fallow = false → s.rng.claim = false →
     exec .claimStartTimeout s = .next (startFail s 0x03 0xE0 true)) ∧
   (∀ s : State, s.rng.claim = true → claimMet s = false →
     let d := rngEvent { s with rng := { s.rng with claim := false, halves := [] } } 1
     evalClaim s = event d 0x0021 modScope (le 4 (condStat d)))) ∧
  ((∀ s : State,
     exec .rngSctlPr s = .next (stageRandom { s with stw := { s.stw with buf := [], prPend := true } }) ∧
     (∀ sel, exec (.rngSctlSel sel) s = .next (stageRandom (settleWaits { s with stw := { s.stw with
       sel := sel, buf := [], prPend := false } }))) ∧
     (8 ≤ s.stw.buf.length → exec .rngDataRead s = .next (stageRandom { s with stw := { s.stw with
       rngOut := BitVec.ofNat 64 (fld s.stw.buf 0 8), buf := s.stw.buf.drop 8 } })) ∧
     (s.stw.buf.length < 8 → exec .rngDataRead s = .next { s with stw := { s.stw with
       rngOut := 0, underrun := true, underrunCnt := bump s.stw.underrunCnt } }) ∧
     (privReady s 3 = true →
       let r := newSecret (privGen s 3) 32
       (∀ l : LaneId, exec (.maskKeyRefresh (.lane l)) s = .next { r.1 with lan := { r.1.lan with
         maskNo := tset 0 l.val r.2 r.1.lan.maskNo } }) ∧
       (∀ e : EngId, exec (.maskKeyRefresh (.engine e)) s = .next { r.1 with pke := { r.1.pke with
         maskNo := tset 0 e.val r.2 r.1.pke.maskNo } })) ∧
     (privReady s 3 = false →
       (∀ l, exec (.maskKeyRefresh (.lane l)) s = .next (rngEvent s 3)) ∧
       (∀ e, exec (.maskKeyRefresh (.engine e)) s = .next (rngEvent s 3))) ∧
     (∀ d q rest, s.rng.keyWait = some d → s.adm.queue = q :: rest →
       exec .adminBoundExpired s = .next (admFail (keyServed { s with adm := { s.adm with queue := rest } }) d stNoEntropy 0)) ∧
     (∀ b n d, s.rng.capture = some (n, d) → exec (.rawCaptureEnd b) s = .next (admResult
       (markAll { s with rng := { s.rng with raw := false, capture := none } }) d (fit d.resLen (packBits b))))) ∧
   (∀ (s : State) (d : Adm) (rest : List Adm), Serves s d rest (standby := true) (lim := 5) → noPlot d = true →
     d.code = 0x150 → s.rng.raw = false →
     d.inlen = 5 → byteAt d.inl 4 ≤ 19 → 1 ≤ d.resLen → d.resLen ≤ 65536 →
     ((s.lcs.state = 2 ∨ s.lcs.state = 3) → sessionLive (popAdm s rest) modScope 0 = true) →
     let e := event (popAdm s rest) 0x3022 modScope (le 1 (byteAt d.inl 4) ++ le 4 d.resLen)
     exec .rngRawCapture s = .next (rngEvent { e with rng := { e.rng with
       raw := true, halves := [], capture := some (byteAt d.inl 4, d) } } 2)))

/-- The claim is met exactly where the live sources' rates sum to at least 2.25 Mbit/s and come from at least two kinds of
source (R399). -/
def Obligations.ClaimCondition : Prop :=
  ∀ s : State,
    let live := fun i => i < 20 ∧ (s.src i).st = .live
    let rate := ((List.range 20).filter fun i => (s.src i).st == .live).foldl (fun n i =>
      n + (if i < 8 then 50 else if i < 16 then 40 else 45)) 0
    let ring := ∃ i, live i ∧ i < 8
    let latch := ∃ i, live i ∧ 8 ≤ i ∧ i < 16
    let comparator := ∃ i, live i ∧ 16 ≤ i
    claimMet s = true ↔ 225 ≤ rate ∧ ((ring ∧ latch) ∨ (ring ∧ comparator) ∨ (latch ∧ comparator))

/-- The key plane's own work: KIT_REHASH draws a new seed pair and begins at bucket 0, or waits for P0; the sweep clears a
bucket without entries and moves a lone entry to a free way; the sweeper drops the dead entries of what it visits; the
insertion that has waited longest takes the walk token and ends; VAULT_SAVE, VAULT_LOAD, PKE_CURVE_LOAD, PKE_CURVE_CLEAR and
PKE_PUBKEY_LOAD past their gates have their effect (R31, R277, R279, R282 to R285, R288, R299, R308 to R310, R363, R378 to
R381). -/
def Obligations.KeyPlaneWork : Prop :=
  (∀ s : State,
    (s.kp.run = false →
      let w : State := { s with kp := { s.kp with rehash := true } }
      let r := newSecret (privGen w 0) 32
      (privReady s 0 = true → exec .kitRehash s = .next { r.1 with kp := { r.1.kp with
        rehash := false, oldSeed := s.kp.seed, seed := r.2, run := true, sweep := 0 } }) ∧
      (privReady s 0 = false → exec .kitRehash s = .next w)) ∧
    (s.kp.run = true → exec .kitRehash s = .next s) ∧
    (s.kp.run = true → s.kp.sweep + 1 < kitBuckets →
      let es := ((waysOf s.kp.sweep).map (kitAt s.kp)).filter (·.valid)
      let t : State := { s with kp := { (waysOf s.kp.sweep).foldl (fun k i => kitPut k i KitEntry.zero) s.kp with
        sweep := s.kp.sweep + 1 } }
      (es = [] → exec .rehashSweep s = .next t) ∧
      (∀ e i, es = [e] → freeWay t (cands t.kp e.plot e.name) = some i →
        let v := dropEntry t i
        exec .rehashSweep s = .next { v with kp := kitPut v.kp i e })) ∧
    (let visit := fun (l : List Nat) => l.foldl (fun s i =>
       if (kitAt s.kp i).valid && !entryLive s (kitAt s.kp i) then dropEntry s i else s) s
     (∀ b, exec (.sweeperVisit (.kitBucket b)) s = .next (visit (waysOf b.val))) ∧
     exec (.sweeperVisit .kitOverflow) s = .next (visit (ovfPlaces s.kp))) ∧
    (let visit := fun (l : List Nat) => l.foldl (fun s i =>
       if (rplAt s.rpl i).valid && !rplLive s (rplAt s.rpl i) then rplDrop s i else s) s
     (∀ b, exec (.sweeperVisit (.rplBucket b)) s = .next (visit (waysOf b.val))) ∧
     exec (.sweeperVisit .rplOverflow) s = .next (visit (s.rpl.ovf.map fun x => rplWays + x.1))) ∧
    (∀ l w rest, s.kp.walkq = (l, w) :: rest → l.parked = false → (plainLearner w = true ∨ vaultWaits s l = false) →
      let t : State := { s with kp := { s.kp with walkq := rest } }
      let r := if plainLearner w then learnWalk t l else learnKeyWalk t l
      exec .walkTokenTaken s = .next (learned r.1 l w r.2))) ∧
  (∀ (s : State) (d : Adm) (rest : List Adm), Serves s d rest → plotNamed d = true →
    (s.plot d.pid).st ∈ createdToStopped →
    let u := popAdm s rest
    (d.code = 0x130 → d.inlen = 12 → 128 ≤ d.resLen → vaultUp s = true →
      let mark := fld d.inl 4 8
      let v := saveFailures u d.pid mark
      exec .vaultSave s = .next (forwardAdmin (admResult (freeTombstones v d.pid mark) d
        (packRecords (rootKey v d.pid) d.resLen (savedRecords v d.pid mark))) d)) ∧
    (heldFor s .pf0 = false →
      (∀ b, d.code = 0x131 → d.inlen = 4 → d.extLen % 128 = 0 → d.extLen ≠ 0 → vaultUp s = true →
        let x := loadRecs d.pid 512 (fit d.extLen b) (emit u (.read d.extAddr d.extLen)) 0 0
        exec (.vaultLoad (.data b)) s = .next (forwardData (admEnd x.1 d stOK (le 4 x.2.1 ++ le 4 x.2.2)) d
          (fit d.extLen b))) ∧
      (∀ b, d.code = 0x140 → d.inlen = 4 → d.extLen = 488 →
        let r := emit { u with rng := { u.rng with keyWait := none } } (.read d.extAddr 488)
        let c := fit 488 b
        let slot := byteAt c 0
        let g := privDraws r 0 (curveDraws / 64 - s.rng.keyGot)
        let h := drawn (keyServed g.1) curveDraws
        curveHeader c = true → curveOf u d.pid (curvePset slot) = [] → g.2 = 0 → curveCheck c g.1.free = none →
        auditRoom h = true →
        exec (.pkeCurveLoad (.data b)) s = .next (forwardData (admOk (writeReserved (saveRecord ((reserve h).modPlot d.pid
          fun pl => { pl with curves := tset [] slot c pl.curves }) d.pid) 0x1030 d.pid (le 1 slot ++ le 2 (curvePset slot))) d)
          d c)) ∧
      (∀ b, d.code = 0x142 → pubArgs u d = true → auditRoom u = true → (s.plot d.pid).acr.vltQuota ≠ 0 →
        let key := fit d.extLen b
        let g := learnFor (reserve (emit u (.read d.extAddr d.extLen))) (pubLearn d key) (.admin d)
        pubkeyOk (pubSet d) [] key = true → pubSuits d = true →
        (∀ st, g.2 = some st → (st = stOK ∨ st = stExisting) →
          exec (.pkePubkeyLoad (.data b)) s = .next (forwardData (admEnd (writeReserved g.1 0x1032 d.pid
            (le 8 (pubName d).toNat ++ le 2 (pubSet d))) d st) d (pubLearn d key).slot.body)) ∧
        (g.2 = none → exec (.pkePubkeyLoad (.data b)) s = .next g.1))) ∧
    (d.code = 0x141 → d.inlen = 5 → byteAt d.inl 4 ≤ 15 → auditRoom u = true →
      let slot := byteAt d.inl 4
      curveUsed u d.pid (curvePset slot) = false →
      exec .pkeCurveClear s = .next (forwardAdmin (admOk (writeReserved (saveRecord ((reserve u).modPlot d.pid fun pl =>
        { pl with curves := tset [] slot [] pl.curves }) d.pid) 0x1031 d.pid (le 1 slot ++ le 2 (curvePset slot))) d) d)))

/-- The keeper's own events: a sensor that trips is logged in TEST and elsewhere starts the tamper response, one that does not
sense changes nothing; conditions clear, the log's window closes, the supply comes with every field of the keeper but the
measured ones at its power-on value, goes with the cabinet and the log, and switches; a fall of the battery sets its flag and
event; the minute count, copied to flash each 60th; the measured supply (R417, R419, R426, R427, R432 to R434, R437, R442,
R447, R606). The tamper response of an armed module with main power present zeroises the cabinet and empties the registries in
use, sets the latch and the cause bit, logs the trip, takes MOD_OK away, raises the event and vector 2 and restarts the module
with start cause 5 (Table 11.6, R424, R433). -/
def Obligations.KeeperEventsAndTamper : Prop :=
  (∀ s : State,
     (∀ (c : Fin 15) (t : BitVec 8), senses s c.val = true →
       let bit : BitVec 16 := BitVec.ofNat 16 (2 ^ c.val)
       let seen : State := { s with kpr := { s.kpr with live := s.kpr.live ||| bit } }
       (s.kpr.lcs = 0 → exec (.tamper c t) s = .next (logTrip seen bit t true)) ∧
       (s.kpr.lcs ≠ 0 → exec (.tamper c t) s = .next (tamperResponse seen bit t))) ∧
     (∀ (c : Fin 15) (t : BitVec 8), senses s c.val = false → exec (.tamper c t) s = .next s) ∧
     (∀ c : Fin 15, exec (.tamperConditionClear c) s = .next { s with kpr := { s.kpr with
       live := s.kpr.live &&& ~~~(BitVec.ofNat 16 (2 ^ c.val)) } }) ∧
     exec .logWindowClose s = .next { s with kpr := { s.kpr with window := false } } ∧
     (s.kpr.powered = false →
       let k : Keeper := { kvbat := s.kpr.kvbat, temp := s.kpr.temp, ksrc := s.kpr.ksrc, batLow := decide (s.kpr.kvbat < 2400) }
       exec .keeperPowerOn s = .next { s with kpr := k } ∧
       k.powered = true ∧ k.tampered = true ∧ k.kpor = true ∧ k.cause = 0x8000 ∧ k.lcs = 0xF ∧ k.log = []) ∧
     (s.pwr.good = false → s.kpr.powered = true → ∃ t, exec .keeperSupplyLoss s = .next t ∧
       t.kpr.powered = false ∧ t.kpr.cab = {} ∧ t.kpr.log = [] ∧ t.cust.regs = [] ∧ t.lcs = s.lcs) ∧
     (∀ b, exec (.keeperSourceSwitch b) s = .next { s with kpr := { s.kpr with ksrc := b } }) ∧
     (s.kpr.powered = true →
       (s.pwr.good = true → exec .batLow s = .next { s with kpr := { s.kpr with
         batLow := true, event := s.kpr.event ||| 2, eventCnt := bumpAt s.kpr.eventCnt 1 } }) ∧
       (s.pwr.good = false → exec .batLow s = .next { s with kpr := { s.kpr with batLow := true } })) ∧
     exec .batLowClear s = .next { s with kpr := { s.kpr with batLow := false } } ∧
     (s.kpr.powered = true → s.pwr.good = true →
       ((s.kpr.opmin + 1).toNat % 60 ≠ 0 →
         exec .operatingMinute s = .next { s with kpr := { s.kpr with opmin := s.kpr.opmin + 1 } }) ∧
       ((s.kpr.opmin + 1).toNat % 60 = 0 →
         exec .operatingMinute s = .next { s with
           kpr := { s.kpr with opmin := s.kpr.opmin + 1 }, flash := { s.flash with opmin := s.kpr.opmin + 1 } })) ∧
     (s.kpr.powered = true → ∀ v t, exec (.kprVoltUpdate v t) s =
       .next { s with kpr := { s.kpr with kvbat := v.toNat, temp := t } })) ∧
  (∀ (s : State) (bit : BitVec 16) (t : BitVec 8), s.pwr.good = true → s.pwr.shutdown = false → s.lcs.phase ≠ .inert →
     let z := zeroCabinet { s with kpr := { s.kpr with tampered := true, cause := s.kpr.cause ||| bit } }
     let l := logTrip z bit t false
     z.kpr.cab = {} ∧ z.cust.regs = [] ∧ z.kpr.tampered = true ∧
     tamperResponse s bit t = restart (modEvent (kprEvent { l with pwr := { l.pwr with modOk := false } } 0)) 5 true 6)

/-- The keeper's SMBus target answers at 0x5C + SMBADR: each Block Read carries its register's bytes and a PEC over the
transfer (the PEC's polynomial is presumed, log 121), and a write is not acknowledged (R444 to R447). The keeper's admin
commands, of a standby and a TAMPERED module too: TMP_LOOP_SET enables loops and stops sensing the disabled ones; TMP_REARM
with every condition of R440 met and its four key generations served draws new cabinet secrets under a check word that
verifies, reseals the registries, empties the vault and clears the latch; it waits while they are not served, and fails by
name where a condition is not met, DECOMMISSIONED the last of them (R431, R439, R440). -/
def Obligations.KeeperCommandsAndSmbus : Prop :=
  (∀ s : State, s.pwr.vio = true → s.kpr.powered = true → s.lcs.phase ≠ .inert →
     let a := BitVec.ofNat 7 (0x5C + s.pwr.smbadr.toNat)
     let reads : Nat → Bytes → Host.Outcome State Fault Refusal := fun code b => .next (emit s (.smbus a (some (b,
       crc8 (le 1 (2 * a.toNat) ++ le 1 code ++ le 1 (2 * a.toNat + 1) ++ le 1 b.length ++ b)))))
     exec .smbusDeviceId s = reads 0 [0x00, 0x96] ∧
     exec .smbusKprStat s = reads 1 (le 4 (unxfer s.kpr * 2 ^ 16 + s.kpr.lcs.toNat * 2 ^ 8 + flag s.kpr.ksrc 5 +
       flag s.kpr.logLost 4 + flag s.kpr.batLow 3 + flag (armed s.kpr) 2 + flag s.kpr.kpor 1 + flag s.kpr.tampered 0)) ∧
     exec .smbusTmpCause s = reads 2 (le 4 s.kpr.cause.toNat) ∧
     exec .smbusTmpLive s = reads 3 (le 4 s.kpr.live.toNat) ∧
     exec .smbusKprOpmin s = reads 4 (le 4 s.kpr.opmin.toNat) ∧
     exec .smbusKprPwrcyc s = reads 5 (le 4 s.kpr.pwrcyc.toNat) ∧
     exec .smbusKprStartfail s = reads 6 (le 4 s.kpr.startfail.toNat) ∧
     exec .smbusKprVolt s = reads 7 (le 4 (s.kpr.temp.toNat * 2 ^ 16 + s.kpr.kvbat % 2 ^ 16)) ∧
     exec .smbusTmpLoopCfg s = reads 8 (le 4 s.kpr.loopCfg.toNat) ∧
     exec .smbusKprStarts s = reads 9 (le 4 s.kpr.starts.toNat) ∧
     (∀ i, exec (.smbusTmpLog i) s = reads (0x10 + i.val) (tget LogRec.zero s.kpr.log i.val).bytes) ∧
     exec .smbusWrite s = .next (emit s (.smbus a none))) ∧
  (∀ (s : State) (d : Adm) (rest : List Adm), noPlot d = true →
     let u := popAdm s rest
     let m := byteAt d.inl 4
     (Serves s d rest (tamper := true) (standby := true) → d.code = 0x160 → d.inlen = 5 → m < 16 →
       (holdsCard u modScope 0 = true → sessionLive u modScope 0 = true) →
       exec .tmpLoopSet s = .next (admOk (event { u with kpr := { u.kpr with
         loopCfg := BitVec.ofNat 4 m, live := u.kpr.live &&& BitVec.ofNat 16 (0x87FF + m * 2 ^ 11) } } 0x3002 modScope
           (le 1 m)) d)) ∧
     (Serves s d rest (tamper := true) (standby := true) (lim := 5) → d.code = 0x161 → d.inlen = 4 →
       (s.lcs.state = 0 ∨ sessionLive u modScope 0 = true) →
       (s.kpr.tampered = false → exec .tmpRearm s = .next (admFail u d stPolicy 0x50)) ∧
       (s.kpr.tampered = true → (∃ x ∈ s.plots, x.2.st ≠ .absent) → exec .tmpRearm s = .next (admFail u d stPolicy 0x51)) ∧
       (s.kpr.tampered = true → (∀ x ∈ s.plots, x.2.st = .absent) →
         (s.kpr.live ≠ 0 → exec .tmpRearm s = .next (admFail u d stPolicy 0x52)) ∧
         (s.kpr.live = 0 → s.lcs.state = 4 → exec .tmpRearm s = .next (admFail u d stPolicy 0x53)) ∧
         (s.kpr.live = 0 → s.lcs.state ≠ 4 →
           let g := keyGens u 0 (4 - s.rng.keyGot)
           (g.2 = 0 → ∃ t, exec .tmpRearm s = .next (admOk (event t 0x3003 modScope []) d) ∧ t.kpr.tampered = false ∧
             t.kpr.cause = 0 ∧ t.kpr.startfail = 0 ∧ t.kpr.cab.verifies = true ∧ t.vlt.recs = [] ∧
             t.flash.regs = (resealRegistries t).flash.regs ∧ t.cust.regs = g.1.cust.regs ∧ t.rng.keyWait = none) ∧
           (g.2 ≠ 0 → exec .tmpRearm s = .next (keyHeld g.1 d (4 - g.2)))))))

/-- R454: the region that decides a byte contains it, and no region of a higher number does; a byte that no region contains is
decided by none. A refused access sets FAULT and counts it; HDG_FAULT keeps the first refusal until FAULT is cleared; every
refusal is recorded and raises vector 2 (R456). -/
def Obligations.HedgerowDecision : Prop :=
  (∀ (h : Hedge) (a : Nat), twf 0 h.cfg = true →
     (∀ r, decider h a = some r → regionHas h r a = true ∧ ∀ q, regionHas h q a = true → q ≤ r) ∧
     (decider h a = none → ∀ q, regionHas h q a = false)) ∧
  (∀ (s : State) (cls ty a n b : Nat), firstForbidden s.hdg cls ty a n = some b →
     let w := if s.hdg.fault then s.hdg.faultReg else faultWord s.hdg cls ty b
     hedgeCheck s cls ty a n = (modEvent (event { s with hdg := { s.hdg with
       fault := true, faultReg := w, eventCnt := bumpAt s.hdg.eventCnt 1 } } 0x3010 modScope (le 8 w.toNat)), false) ∧
     b < a + n ∧ a ≤ b ∧ bytePermitted s.hdg cls ty b = false ∧ ∀ c, a ≤ c → c < b → bytePermitted s.hdg cls ty c = true)

/-- Holds and region writes of the hedgerow table (R450 to R452, R457, R458, R460): a hold is set, met, noted as long after 20
µs and released, when the accesses that waited are checked in arrival order; a locked region ignores writes with CFG_ERR; an
open one takes the bits that exist, but a SIZE outside 15 to 32 leaves EN 0 with CFG_ERR. -/
def Obligations.HoldsAndRegions : Prop :=
  ∀ s : State,
    (s.hdg.hold = false → exec .holdSet s = .next { s with hdg := { s.hdg with hold := true, since := s.now } }) ∧
    (s.hdg.hold = true →
      exec .holdSet s = .next s ∧
      exec .held s = .next { s with hdg := { s.hdg with held := true } } ∧
      exec .holdLong s = .next { s with
        now := max s.now (s.hdg.since + 20), hdg := { s.hdg with long := true, eventCnt := bumpAt s.hdg.eventCnt 2 } }) ∧
    exec .holdRelease s = .next (s.hdg.waiting.foldl (fun s x => debugAccess s x.1 x.2)
      { s with hdg := { s.hdg with hold := false, held := false, waiting := [] } }) ∧
    (∀ (r : Fin 256) (g : HdgReg) (v : W32), hdgLock (tget 0 s.hdg.cfg r.val) = true →
      exec (.hdgRegionWrite r g v) s = .next { s with hdg := { s.hdg with
        cfgErr := true, eventCnt := bumpAt s.hdg.eventCnt 3 } }) ∧
    (∀ (r : Fin 256) (v : W32), hdgLock (tget 0 s.hdg.cfg r.val) = false →
      exec (.hdgRegionWrite r .base v) s = .next { s with hdg := { s.hdg with
        base := tset 0 r.val (v &&& 0xFFFFF000#32) s.hdg.base } } ∧
      exec (.hdgRegionWrite r .permLo v) s = .next { s with hdg := { s.hdg with
        perm := tset 0 r.val ((v &&& 0x07FFFFFF#32).setWidth 64) s.hdg.perm } } ∧
      exec (.hdgRegionWrite r .permHi v) s = .next s ∧
      ((hdgEn v = false ∨ (15 ≤ hdgSize v ∧ hdgSize v ≤ 32)) →
        exec (.hdgRegionWrite r .cfg v) s = .next { s with hdg := { s.hdg with
          cfg := tset 0 r.val (v &&& 0x80FF013F#32) s.hdg.cfg } }) ∧
      (hdgEn v = true → (hdgSize v < 15 ∨ 32 < hdgSize v) →
        exec (.hdgRegionWrite r .cfg v) s = .next { s with hdg := { s.hdg with
          cfg := tset 0 r.val (v &&& 0x80FF003F#32) s.hdg.cfg, cfgErr := true, eventCnt := bumpAt s.hdg.eventCnt 3 } }))

/-- The TAP: BYPASS and IDCODE answer in every state, SAMPLE and EXTEST in some; accesses under the MEM right wait during a
hold, pass or are refused, a refused read giving zeros; halts under their rights; the challenge where P1 serves its nonce; a
token is refused with its record, or accepted: its rights are granted, in OPERATIONAL after the plots' keys are zeroised, in
DECOMMISSIONED after the cabinet is; the consent (R455 to R458, R462 to R469). -/
def Obligations.DebugPort : Prop :=
  (∀ s : State, s.pwr.vio = true → s.pwr.good = true →
    exec .bypass s = .next (emit s (.jtag [0])) ∧
    exec .idcode s = .next (emit s (.jtag (le 4 Config.idcode.toNat))) ∧
    (s.lcs.state.toNat ≤ 4 → s.lcs.phase ≠ .inert →
      let asks := rights s
      exec .sample s = .next (emit (drawn s 1) (.jtag (Config.boundary s.free))) ∧
      (s.lcs.state.toNat ≤ 1 → exec .extest s = .next (emit (drawn s 1) (.jtag (Config.boundary s.free)))) ∧
      (1 < s.lcs.state.toNat → exec .extest s = .next s) ∧
      (asks.getLsbD 2 = true →
        (∀ a d, s.hdg.hold = true → exec (.debugMemAccess a d) s = .next { s with hdg := { s.hdg with
          waiting := s.hdg.waiting ++ [(a, d)] } }) ∧
        (∀ a b, s.hdg.hold = false → firstForbidden s.hdg 7 1 a.toNat b.length = none →
          exec (.debugMemAccess a (.write b)) s = .next { s with stw := { s.stw with
            mem := mwrite s.stw.mem a.toNat b } }) ∧
        (∀ a n, s.hdg.hold = false → firstForbidden s.hdg 7 0 a.toNat n = none →
          exec (.debugMemAccess a (.read n)) s = .next (emit s (.debug (mread s.stw.mem a.toNat n)))) ∧
        (∀ a n, s.hdg.hold = false → firstForbidden s.hdg 7 2 a.toNat n = none →
          exec (.debugMemAccess a (.exec n)) s = .next (emit s (.debug (mread s.stw.mem a.toNat n)))) ∧
        (∀ a b k, s.hdg.hold = false → firstForbidden s.hdg 7 1 a.toNat b.length = some k →
          exec (.debugMemAccess a (.write b)) s = .next (hedgeFault s 7 1 k)) ∧
        (∀ a n k, s.hdg.hold = false → firstForbidden s.hdg 7 0 a.toNat n = some k →
          exec (.debugMemAccess a (.read n)) s = .next (emit (hedgeFault s 7 0 k) (.debug (List.replicate n 0)))) ∧
        (∀ a n k, s.hdg.hold = false → firstForbidden s.hdg 7 2 a.toNat n = some k →
          exec (.debugMemAccess a (.exec n)) s = .next (emit (hedgeFault s 7 2 k) (.debug (List.replicate n 0))))) ∧
      (asks.getLsbD 2 = false → ∀ a d, exec (.debugMemAccess a d) s = .next s) ∧
      (asks.getLsbD 0 = true →
        exec (.debugHalt .steward) s = .next { s with stw := { s.stw with halted := true } } ∧
        exec (.debugResume .steward) s = .next { s with stw := { s.stw with halted := false } }) ∧
      (asks.getLsbD 1 = true → ∀ y,
        exec (.debugHalt (.tiller y)) s = .next (s.modYoke y fun k => { k with halted := true }) ∧
        exec (.debugResume (.tiller y)) s = .next (s.modYoke y fun k => { k with halted := false })) ∧
      (privReady s 1 = true → ∀ r,
        let c := challengeRec s (freeBytes s.free 32) r
        let u := drawn (privGen s 1) 32
        exec (.dbgChallenge r) s = .next (emit { u with dbg := { u.dbg with
          challenge := some (c, r), consent := none } } (.jtag c))) ∧
      (privReady s 1 = false → ∀ r, exec (.dbgChallenge r) s = .next s) ∧
      (∀ t : Bytes, t.length = 160 →
        (tokenOk s t = true → s.lcs.state ≠ 3 → s.lcs.state ≠ 4 →
          exec (.dbgToken t) s = .next (event { s with dbg := { s.dbg with
          challenge := none, consent := none, rights := s.dbg.rights ||| BitVec.ofNat 4 (byteAt t 36), granted := true } } 0x3012
          modScope (le 1 (byteAt t 36) ++ le 1 (flag s.dbg.zeroised 0)))) ∧
        (let taken : State := { s with dbg := { s.dbg with challenge := none, consent := none } }
         (tokenOk s t = true → s.lcs.state = 3 →
           let z := zeroPlotKeys taken
           exec (.dbgToken t) s = .next (grantOn { z with dbg := { z.dbg with
             grant := some (BitVec.ofNat 4 (byteAt t 36) ||| z.dbg.grant.getD 0), got := 0 } })) ∧
         (tokenOk s t = true → s.lcs.state = 4 →
           let z := zeroKeyPlane (zeroCabinet taken)
           exec (.dbgToken t) s = .next (event { z with dbg := { z.dbg with
             zeroised := true, granted := true,
              rights := z.dbg.rights ||| BitVec.ofNat 4 (byteAt t 36) } } 0x3012 modScope (le 1 (byteAt t 36) ++ le 1 1)))) ∧
        (tokenOk s t = false → exec (.dbgToken t) s = .next (event { s with dbg := { s.dbg with
          challenge := none, consent := none, failCnt := bump s.dbg.failCnt } } 0x3011 modScope
          (le 1 (byteAt t 36) ++ le 1 (flag s.dbg.zeroised 0))))))) ∧
  (∀ s : State, exec .challengeExpiry s = .next { s with dbg := { s.dbg with challenge := none, consent := none } }) ∧
  (∀ (s : State) (d : Adm) (rest : List Adm), Serves s d rest → d.code = 0x178 → s.lcs.state = 3 → d.inlen = 40 →
    d.pid = modScope → zeros d.inl 2 2 = true → byteAt d.inl 36 < 16 → zeros d.inl 37 3 = true →
    sessionLive (popAdm s rest) modScope 0 = true → auditRoom (popAdm s rest) = true →
    let h := cut d.inl 4 32
    let r := reserve (popAdm s rest)
    exec .dbgConsent s = .next (admOk (writeReserved { r with dbg := { s.dbg with
      consent := some (h, BitVec.ofNat 4 (byteAt d.inl 36)) } } 0x2008 modScope h) d))

/-- The custodian commands that pass their gates and their own checks, in the manager scope (in fallow mode, TAMPERED or
DECOMMISSIONED too) or that of a plot that is not ABSENT: an enrolment or an assembly begins with a reserved record, a card is
revoked or M set with its record, a session ends, a ceremony binds the lane context it gets, an interaction is cancelled, a
PED is enrolled. The first Security Officer's card and the first PED need no session where R472 says so (R471 to R474, R476 to
R480). -/
def Obligations.CustodianCommands : Prop :=
  ∀ (s : State) (d : Adm) (rest : List Adm),
    Serves s d rest (isManager d) (isManager d) true (if isManager d then 5 else 4) → scopeNamed d = true →
    (d.pid = modScope ∨ (s.plot d.pid).st ≠ .absent) →
    let u := popAdm s rest
    let role := byteAt d.inl 4
    let r := u.registry d.pid
    let begun := fun (op : CustOp) (need as : Nat) =>
      ({ reserve u with cust := { (reserve u).cust with
        op := op, need := need, scope := d.pid, role := as, counted := [], step := .card, part := [], xored := [],
        groups := 0 } } : State)
    let officer := sessionLive u d.pid 0 = true
    let free := s.cust.op = .idle ∧ role ≤ 4 ∧ s.cust.ped ≠ [] ∧ auditRoom u = true
    (d.code = 0x170 → d.inlen = 6 → zeros d.inl 5 1 = true →
      (officer ∨ (role = 0 ∧ holdsCard u d.pid 0 = false ∧ firstCards u d = true)) → free → slotFree u = true →
      roleCards r role < 16 → exec .custEnrol s = .next (admOk (begun .enrol 1 role) d)) ∧
    (∀ c, d.code = 0x171 → d.inlen = 36 → officer → auditRoom u = true →
      let h := cut d.inl 4 32
      (r.cards.find? fun x => x.hash == h) = some c → roleM r c.role < roleCards r c.role →
      exec .custRevoke s = .next (admOk (writeReserved ((endAnchored (reserve u) d.pid h).setRegistry d.pid
        { r with cards := r.cards.filter fun x => x.hash != h }) 0x2002 d.pid (cardPayload c.role c.ix h)) d)) ∧
    (d.code = 0x172 → d.inlen = 6 → officer → role ≤ 4 → auditRoom u = true →
      let m := byteAt d.inl 5
      2 ≤ m → m ≤ 8 → m ≤ roleCards r role →
      exec .custSetM s = .next (admOk (writeReserved ((reserve u).setRegistry d.pid { r with m := tset 2 role m r.m }) 0x2003
        d.pid (le 1 role ++ le 1 m)) d)) ∧
    (d.code = 0x173 → d.inlen = 6 → zeros d.inl 5 1 = true → free → sessionLive u d.pid role = false →
      (u.session 0 = none ∨ u.session 1 = none) →
      exec .custSessionOpen s = .next (admOk (begun .assembly (roleM r role) role) d)) ∧
    (d.code = 0x174 → d.inlen = 6 → zeros d.inl 5 1 = true → auditRoom u = true →
      (∀ x, u.session 0 = some x → x.scope = d.pid → x.role = role →
        exec .custSessionEnd s = .next (admOk (endSession u 0 3) d)) ∧
      (∀ x, u.session 0 = none → u.session 1 = some x → x.scope = d.pid → x.role = role →
        exec .custSessionEnd s = .next (admOk (endSession u 1 3) d))) ∧
    (d.code = 0x175 → mirrors s = false → d.inlen = 24 → zeros d.inl 21 3 = true → officer → s.cust.op = .idle →
      slotFree u = true →
      d.pid ≠ modScope → (s.plot d.pid).st ∈ createdToStopped → s.cust.ped ≠ [] → cerOk d = true → auditRoom u = true →
      let b := begun .ceremony (byteAt d.inl 13) 0
      exec .keyCeremony s = .next (admOk (bindCeremony { b with cust := { b.cust with cer := d, ctx := none } }) d)) ∧
    (d.code = 0x176 → d.inlen = 4 → s.cust.op ≠ .idle → s.cust.scope = d.pid →
      exec .custCancel s = .next (admOk (idleAfter (unreserve u) 7) d)) ∧
    (∀ b, d.code = 0x177 → d.inlen = 4 → d.extLen = 65 → d.pid = modScope → heldFor s .pf0 = false →
      (officer ∨ (s.cust.ped = [] ∧ firstCards u d = true)) → byteAt (fit 65 b) 0 = 4 → auditRoom u = true →
      let e := reserve (emit u (.read d.extAddr 65))
      exec (.pedEnrol (.data b)) s = .next (admOk (writeReserved { e with cust := { s.cust with
        ped := fit 65 b, conSeq := 0, conBad := 0 } } 0x2007 modScope (keyHash (fit 65 b))) d))

/-- An interaction step by step: a card is inserted and, where its key is one the interaction asks for, shown on the PED and
challenged; the console's PIN, digits and confirmation go on with it; the card's answers count it, open the session, or fail;
withdrawals, overcurrents and times end what they end; frames that are dropped are counted, and the third in a row restarts
the console's session (R474 to R480, R586). A session that opens is live for its scope and role for 15 minutes, anchored by
the Mth custodian's card, and is recorded; its end is recorded with its cause and no session of that place is left (R476,
R477). -/
def Obligations.CustodianInteractions : Prop :=
  ((∀ (s : State) (slot : Fin 2) (key : Bytes), s.pwr.good = true → s.pwr.shutdown = false → cardIn s slot.val = [] →
     let held : State := { s with cust := { s.cust with cards := tset [] slot.val key s.cust.cards } }
     let g := drawn (privGen held 1) 32
     let asked := fun (role ix op : Nat) => emit { g with cust := { g.cust with
       step := .pin, slot := slot.val, role := role, chal := s.free } } (.ped (le 1 ix ++ le 1 op))
     let known := (s.registry s.cust.scope).cards.find? fun c => c.hash == keyHash key
     (s.cust.op = .idle ∨ s.cust.step ≠ .card ∨ anchored s slot.val = true → exec (.cardInsert slot key) s = .next held) ∧
     (s.cust.step = .card → anchored s slot.val = false → privReady s 1 = true →
       (s.cust.op = .enrol → known = none → exec (.cardInsert slot key) s = .next (asked s.cust.role 0 1)) ∧
       (∀ c, s.cust.op = .assembly → known = some c → c.role = s.cust.role →
         exec (.cardInsert slot key) s = .next (asked c.role c.ix 2)) ∧
       (∀ c, s.cust.op = .ceremony → known = some c → 1 ≤ c.role → c.role ≤ 3 →
         bit (byteAt s.cust.cer.inl 14) (c.role - 1) = true →
         exec (.cardInsert slot key) s = .next (asked c.role c.ix 3))) ∧
     (s.cust.step = .card → anchored s slot.val = false → s.cust.op = .assembly → known = none →
       exec (.cardInsert slot key) s = .next (authFail held 4))) ∧
   (∀ (s : State) (slot : Fin 2), s.cust.op ≠ .idle → s.cust.slot = slot.val →
     let h := keyHash (cardIn s slot.val)
     (s.cust.step = .cardPin →
       exec (.cardResponse slot .pinOk) s = .next (emit { s with cust := { s.cust with step := .sign } }
         (.card slot.val (freeBytes s.cust.chal 32))) ∧
       exec (.cardResponse slot .pinRefused) s = .next (authFail s 5)) ∧
     (∀ b, s.cust.step = .sign →
       (Config.sigVerify 3 (cardIn s slot.val) (signed s) b = true → h ∉ s.cust.counted →
         let counted : State := { s with cust := { s.cust with counted := s.cust.counted ++ [h], step := .card } }
         (s.cust.op = .enrol → exec (.cardResponse slot (.signature b)) s = .next (enrolled s h)) ∧
         (s.cust.op = .assembly → s.cust.need ≤ s.cust.counted.length + 1 →
           exec (.cardResponse slot (.signature b)) s = .next (sessionOpens counted h)) ∧
         (s.cust.op = .assembly → s.cust.counted.length + 1 < s.cust.need →
           exec (.cardResponse slot (.signature b)) s = .next counted) ∧
         (s.cust.op = .ceremony → exec (.cardResponse slot (.signature b)) s = .next { s with cust := { s.cust with
           step := .digits } })) ∧
       (Config.sigVerify 3 (cardIn s slot.val) (signed s) b = false →
         exec (.cardResponse slot (.signature b)) s = .next (authFail s 3)))) ∧
   (∀ (s : State) (q : W32) (m : ConsoleMsg), s.pwr.good = true → s.cust.ped ≠ [] →
     let t : State := { s with cust := { s.cust with conSeq := q + 1, conBad := 0 } }
     (s.cust.conSeq.toNat ≤ q.toNat →
       (s.cust.op = .idle → exec (.consoleFrame q true m) s = .next t) ∧
       (s.cust.op ≠ .idle →
         (s.cust.step = .pin → exec (.consoleFrame q true .pin) s = .next (emit { t with cust := { t.cust with
           step := .cardPin } } (.card s.cust.slot []))) ∧
         (∀ hex, s.cust.step = .digits → hex.length = 2 * algLen (cerAlg s.cust.cer) 0 →
           let part := ofNibbles (hex.map (·.toNat))
           exec (.consoleFrame q true (.digits hex)) s = .next (emit { t with cust := { t.cust with
             part := part, step := .confirm } } (.ped (kcvSym (cerAlg s.cust.cer) part)))) ∧
         (s.cust.step = .confirm → exec (.consoleFrame q true .confirm) s = .next (component t)))) ∧
     (∀ ok, (ok = false ∨ q.toNat < s.cust.conSeq.toNat) →
       (s.cust.conBad < 2 → exec (.consoleFrame q ok m) s = .next { s with cust := { s.cust with
         conBad := s.cust.conBad + 1 } }) ∧
       (2 ≤ s.cust.conBad → exec (.consoleFrame q ok m) s = .next { s with cust := { s.cust with
         conSeq := 0, conBad := 0 } }))) ∧
   (∀ s : State,
     (s.cust.op ≠ .idle → exec .authStepTimeout s = .next (authFail s 2)) ∧
     (s.cust.op = .assembly → exec .assemblyTimeout s = .next (idleAfter (unreserve s) 2)) ∧
     (∀ (k : Fin 2) x, s.session k.val = some x →
       exec (.sessionExpiry k) s = .next (endSession { s with now := max s.now x.ends } k.val 1)) ∧
     (∀ k : Fin 2, s.cust.step ≠ .card → s.cust.slot = k.val →
       (s.cust.op = .ceremony → exec (.cardOvercurrent k) s = .next (idleAfter (unreserve s) 7)) ∧
       ((s.cust.op = .enrol ∨ s.cust.op = .assembly) → exec (.cardOvercurrent k) s = .next (authFail s 7))) ∧
     (∀ k : Fin 2, s.cust.op = .idle →
       exec (.cardOvercurrent k) s = .next s ∧
       (s.session 0 = none → s.session 1 = none →
         exec (.cardWithdraw k) s = .next { s with cust := { s.cust with cards := tset [] k.val [] s.cust.cards } }) ∧
       (∀ x, s.session 0 = some x → x.slot = k.val → s.session 1 = none → twf none s.cust.sess = true →
         let e := endSession s 0 2
         exec (.cardWithdraw k) s = .next { e with cust := { e.cust with cards := tset [] k.val [] e.cust.cards } })))) ∧
  ((∀ (s : State) (h : Bytes), s.session 0 = none → twf none s.cust.sess = true →
     let x : Session := {
       scope := s.cust.scope, role := s.cust.role, slot := s.cust.slot, anchor := h, ends := s.now + 900000000 }
     let t := s.setSession 0 (some x)
     sessionOpens s h = idleAfter (writeReserved t 0x2004 s.cust.scope (le 1 s.cust.role ++
       le 1 (cardIx (s.registry s.cust.scope) h))) 1 ∧
     t.session 0 = some x ∧ sessionLive t s.cust.scope s.cust.role = true ∧ t.session 1 = s.session 1) ∧
   (∀ (s : State) (k cause : Nat) (x : Session), s.session k = some x → s.cust.op ≠ .ceremony →
     endSession s k cause = event (s.setSession k none) 0x2005 x.scope
       (le 1 x.role ++ le 1 (cardIx (s.registry x.scope) x.anchor) ++ le 1 cause)))

/-- Frames of a session: an accepted one advances the session and its message acts, here an ACK, whose listed frames are no
longer outstanding; a failed tag or a key phase that is not accepted drops and counts it; a repeated SEQ, one 1,024 or more
below the highest, or a frame that is not for this node drops it; the codewords FEC met with it are counted in each case
(R531, R532, R534, R536, R567). A message 20 µs without its acknowledgement goes again in a new frame with a new SEQ, by the
other port where two reach the peer; after 32 resends the session is down (R534). -/
def Obligations.FramesAndResend : Prop :=
  (∀ (s : State) (h : Hdr) (l : List W64),
     let p := h.src.toNat
     let x := s.sess p
     let f := fecNote s h
     (FrameIn s h → let t := frameTaken s h h.ackReq
       exec (.ack h l) s = .next (t.setSess p { t.sess p with
         unacked := (t.sess p).unacked.filter fun u => !l.contains u.1 })) ∧
     (addressed s h = true → x.hs = .up → (h.tagOk = false ∨ (h.kph ≠ x.kph ∧ x.overlap = false)) →
       exec (.ack h l) s = .next { f with clu := { f.clu with authFail := bump f.clu.authFail } }) ∧
     (addressed s h = true → x.hs = .up → h.tagOk = true → (h.kph = x.kph ∨ x.overlap = true) →
       (h.seq ∈ x.rxSeen ∨ h.seq.toNat + 1024 ≤ x.rxHigh.toNat) → exec (.ack h l) s = .next f) ∧
     ((addressed s h = false ∨ x.hs ≠ .up) → exec (.ack h l) s = .next f)) ∧
  (∀ (s : State) (peer : BitVec 12) (seq : W64) (m : Msg) (n : Nat),
     let p := peer.toNat
     let x := s.sess p
     x.hs = .up → (x.unacked.find? fun u => u.1 == seq) = some (seq, m, n) →
     (32 ≤ n → exec (.resendTimer peer seq) s = .next (sessDown s p)) ∧
     (n < 32 →
       let k := otherPort s p x.port
       exec (.resendTimer peer seq) s = .next ((emit s (.frame k p (frameHead s k p (msgType m) x.ver x.kph (msgAck m))
         (x.txSeq + 1) m)).setSess p { x with
           txSeq := x.txSeq + 1, port := k,
           unacked := (x.unacked.filter fun v => v.1 != seq) ++ [(x.txSeq + 1, m, n + 1)] })))

/-- Ports and the handshake: a foreign frame is dropped and counted, a port's change of link is flagged and in DOZE moves the
Reile PLL; what each handshake and rekey frame does at the node that expects it, the transcript growing with it, and that a
signature which fails ends it and is counted; a rekey begins at its threshold and the old phase ends with its keys (R528,
R529, R535, R536, R567, Tables 1.3 and 15.3). -/
def Obligations.LinkHandshake : Prop :=
  (∀ (s : State) (k : PortId),
    exec (.foreignFrame k) s = .next { s with clu := { s.clu with rxDrop := bumpAt s.clu.rxDrop k.val } } ∧
    (s.pwr.good = true → ∀ up, tget false s.clu.link k.val = !up →
      let c : State := { s with clu := { s.clu with link := tset false k.val up s.clu.link } }
      let f := cluFlag { c with pwr := { c.pwr with pll := reilePll c } } 0
      exec (.portLinkChange k up) s = .next (if up then startAll f else f))) ∧
  (∀ (s : State) (h : Hdr) (dom : W32) (chain cert : Bytes), s.clu.joined = true → h.dst.toNat = s.clu.node →
    h.src.toNat ≠ s.clu.node →
    let p := h.src.toNat
    let f := fecNote s h
    let mine := helloBytes 2 s.clu.node s.clu.domain Config.identityChain s.clu.cert
    let theirs := helloBytes h.ver.toNat p dom chain cert
    (helloOk s h dom chain cert = false → exec (.hello h dom chain cert) s = .next (hsFail f p)) ∧
    (helloOk s h dom chain cert = true → (s.sess p).hs = .helloSent →
      let got : Sess := { s.sess p with
        chain := chain, peerVer := if h.ver.toNat < 2 then 1 else 2, heard := true, port := h.port.val,
        script := if s.clu.node < p then mine ++ theirs else theirs ++ mine }
      exec (.hello h dom chain cert) s = .next (if s.clu.node < p then wantKey (f.setSess p got) p else f.setSess p got))) ∧
  (∀ (s : State) (h : Hdr) (a b sig : Bytes), addressed s h = true → (s.sess h.src.toNat).heard = true →
    let p := h.src.toNat
    let x := s.sess p
    let f := fecNote s h
    (x.hs = .helloSent → p < s.clu.node → exec (.kex h a b) s = .next (wantKey (f.setSess p { x with
      hs := .kexGot, kex := (a, b), script := x.script ++ a ++ b }) p)) ∧
    (x.hs = .kexSent → peerSigned x (a ++ b) sig = true →
      exec (.kexReply h a b sig) s = .next (sessUp (sendFinish f p a b sig) p)) ∧
    (x.hs = .kexSent → peerSigned x (a ++ b) sig = false → exec (.kexReply h a b sig) s = .next (hsFail f p)) ∧
    (x.hs = .replySent → peerSigned x [] sig = true → exec (.finish h sig) s = .next (sessUp f p)) ∧
    (x.hs = .replySent → peerSigned x [] sig = false → exec (.finish h sig) s = .next (hsFail f p))) ∧
  (∀ (s : State) (q : BitVec 12), (s.sess q.toNat).hs = .up → (s.sess q.toNat).rk = .idle →
    exec (.rekeyThreshold q) s = .next (wantKey (s.setSess q.toNat { s.sess q.toNat with rk := .helloSent }) q.toNat)) ∧
  (∀ (s : State) (h : Hdr) (a b sig : Bytes), FrameIn s h →
    let p := h.src.toNat
    let t := frameTaken s h false
    let x := t.sess p
    ((x.rk = .idle ∨ p < t.clu.node) → exec (.rekey h a b) s = .next (wantKey (t.setSess p { x with
      rk := .kexGot, kex := (a, b), script := a ++ b, got := 0 }) p)) ∧
    (x.rk ≠ .idle → t.clu.node ≤ p → exec (.rekey h a b) s = .next t) ∧
    (x.rk = .kexSent → exec (.rekeyReply h a b sig) s =
      .next (if peerSigned x (a ++ b) sig then toggle (sendFinish t p a b sig) p else hsFail t p)) ∧
    (x.rk = .replySent → exec (.finish h sig) s = .next (if peerSigned x [] sig then toggle t p else hsFail t p))) ∧
  (∀ (s : State) (q : BitVec 12), exec (.phaseOverlapEnd q) s =
    .next (s.setSess q.toNat { s.sess q.toNat with overlap := false, oldKeys := [] }))

/-- Bindings, shared keys and shared claims: BIND rehomes the tenants and at a session's start sends every shared key; an
update of a key not held is learned or refused with REPL_REJ, one with the same content keeps the lower pair, one that differs
keeps the lower pair's and flags CONFLICT; SHARE_FORGET of the held pair drops it; SYNC_REQ, CLAIM, CLAIM_REPLY and REHOME
(R540, R542, R544, R545, R547 to R551, Table 15.5). -/
def Obligations.SharedKeysAndClaims : Prop :=
  ∀ (s : State) (h : Hdr), FrameIn s h →
    let p := h.src.toNat
    let t := frameTaken s h h.ackReq
    (∀ l,
      let bound := rehomeAll t (t.setSess p { t.sess p with binds := l, synced := true })
      ((t.sess p).synced = true → exec (.bind h l) s = .next bound) ∧
      ((t.sess p).synced = false → exec (.bind h l) s =
        .next (((ownDtids bound).filter fun d => l.contains d).foldl (fun s d => sendShared s p d) bound))) ∧
    (∀ u q, boundPlot t u.dtid = some q →
      let c : State := if t.clu.stamp.toNat < u.stamp.toNat then { t with clu := { t.clu with stamp := u.stamp } } else t
      let l := updLearn q u
      let admitted := weakSlot l.slot = false ∧ policyAdmits (t.plot q).active u.alg.toNat (derives u.attr) 0 = true
      let g := learnFor c l (.share p)
      (kitFind c q u.name false = none →
        (¬ admitted → exec (.shareLearn h u) s = .next (cluFlag c 3)) ∧
        (admitted →
          (∀ st, g.2 = some st → (st = stOK ∨ st = stExisting) → exec (.shareLearn h u) s = .next g.1) ∧
          (∀ st, g.2 = some st → st ≠ stOK → st ≠ stExisting → exec (.shareLearn h u) s = .next (cluFlag g.1 3)) ∧
          (g.2 = none → exec (.shareLearn h u) s = .next g.1))) ∧
      (∀ i, kitFind c q u.name false = some i → (kitAt c.kp i).shared = true →
        let x := c.slot (kitAt c.kp i).slot
        let same := x.material = u.material ∧ x.alg = u.alg ∧ x.attr = u.attr
        let lower := pairLt (u.stamp, u.origin.toNat) (pairOfEntry c q u.name) = true
        (same → lower → exec (.shareLearn h u) s = .next { c with kp := { c.kp with
          pairs := dropPair c.kp.pairs q u.name ++ [(q, u.name, u.stamp, u.origin.toNat)] } }) ∧
        (same → ¬ lower → exec (.shareLearn h u) s = .next c) ∧
        (¬ same → lower → exec (.shareLearn h u) s = .next (shareIn (cluFlag (dropEntry c i) 2) p l)) ∧
        (¬ same → ¬ lower → exec (.shareLearn h u) s = .next (cluFlag c 2)))) ∧
    (∀ d n st o q i, boundPlot t d = some q →
      let c : State := if t.clu.stamp.toNat < st.toNat then { t with clu := { t.clu with stamp := st } } else t
      kitFind c q n false = some i → (kitAt c.kp i).shared = true →
      (pairOfEntry c q n = (st, o.toNat) → exec (.shareForget h d n st o) s = .next (dropEntry c i)) ∧
      (pairOfEntry c q n ≠ (st, o.toNat) → exec (.shareForget h d n st o) s = .next c)) ∧
    (∀ d, 2 ≤ (t.sess p).ver.toNat → exec (.syncReq h d) s = .next (sendShared t p d)) ∧
    (∀ d, (t.sess p).ver.toNat < 2 → exec (.syncReq h d) s = .next t) ∧
    (∀ d fp, homeHolds t d = false → exec (.claim h d fp) s = .next (serveClaim t p d fp)) ∧
    (∀ d fp, homeHolds t d = true → exec (.claim h d fp) s = .next { t with clu := { t.clu with
      heldClaims := t.clu.heldClaims ++ [(p, d, fp)] } }) ∧
    (∀ d fp a, exec (.claimReply h d fp a) s = .next (claimAnswered t d fp a)) ∧
    (∀ d l q, boundPlot t d = some q →
      exec (.rehome h d l false) s = .next (l.foldl (fun s fp => (rplRecord s q fp true false).1) t) ∧
      exec (.rehome h d l true) s = .next (rehomeDone (l.foldl (fun s fp => (rplRecord s q fp true false).1) t) d p))

/-- The cluster commands, in OPERATIONAL, past their gates: CLU_JOIN, a founder's with the domain seed once P0 gives its key,
refused with a bad certificate; the member table; leaving; binding a plot, with a resynchronisation where asked; pairing from
either side, or refused; unpairing; swap, or refused (R538 to R540, R546, R547, R552, R563, R565, R566). A held standby, and
only one, takes over by CLU_PROMOTE (R560); every other module of the domain refuses it with detail 0x95. -/
def Obligations.ClusterCommands : Prop :=
  (∀ (s : State) (d : Adm) (rest : List Adm), Serves s d rest → s.lcs.state = 3 →
     let u := popAdm s rest
     let officer := sessionLive u modScope 0 = true
     let node := fld d.inl 4 2
     (∀ b, d.code = 0x1A0 → noPlot d = true → d.inlen = 12 → byteAt d.inl 6 ≤ 1 → byteAt d.inl 7 = 0 → 98 ≤ d.extLen →
       d.extLen ≤ 2145 → officer →
       let g := if byteAt d.inl 6 = 1 then keyGen u 0 else (u, true)
       let e := emit (keyServed g.1) (.read d.extAddr d.extLen)
       let x := fit d.extLen b
       let valid := node ≤ 4095 ∧ byteAt (cut x 0 97) 0 = 4 ∧
         Config.certOk (cut x 0 97) (joinDomain d) node Config.identityChain (x.drop 97) = true
       let l := leaveDomain e
       let m : State := { l with clu := { l.clu with
         joined := true, node := node, domain := joinDomain d, caKey := cut x 0 97, cert := x.drop 97 } }
       let n := newSecret m 32
       let f := n.1.setCab fun c => { c with domain := n.2 }
       (g.2 = false → exec (.cluJoin (.data b)) s = .next (keyHeld g.1 d 0)) ∧
       (g.2 = true → heldFor s .pf0 = false →
         (valid → byteAt d.inl 6 = 0 → exec (.cluJoin (.data b)) s = .next (admOk m d)) ∧
         (valid → byteAt d.inl 6 = 1 → exec (.cluJoin (.data b)) s = .next (admOk { f with clu := { f.clu with
           hasSd := true } } d)) ∧
         (¬ valid → exec (.cluJoin (.data b)) s = .next (admFail e d stPolicy 0x90)))) ∧
     (∀ b, heldFor s .pf0 = false → d.code = 0x1A1 → noPlot d = true → d.inlen = 4 → 16 ≤ d.extLen → d.extLen % 16 = 0 →
       s.clu.joined = true →
       let es := tableEntries (fit d.extLen b)
       let l := es.map memberOf
       es.all memberOk = true → (∃ m ∈ l, m.node = s.clu.node) → (l.map (·.node)).eraseDups.length = l.length →
       exec (.cluMembers (.data b)) s = .next (admOk (takeMembers (emit u (.read d.extAddr d.extLen)) l) d)) ∧
     (d.code = 0x1A2 → noPlot d = true → d.inlen = 4 → officer →
       (s.clu.joined = true → exec .cluLeave s = .next (admOk (leaveDomain u) d)) ∧
       (s.clu.joined = false → exec .cluLeave s = .next (admFail u d stPolicy 0x93))) ∧
     (d.code = 0x1A3 → plotNamed d = true → d.inlen = 9 → byteAt d.inl 8 ≤ 1 → s.clu.joined = true →
       (s.plot d.pid).st ∈ createdToStopped →
       let dt : W32 := BitVec.ofNat 32 (fld d.inl 4 4)
       let bound := announce u (saveRecord (u.modPlot d.pid fun pl => { pl with dtid := dt }) d.pid)
       (dt = 0 ∨ ∀ x ∈ s.plots, x.1 ≠ d.pid → x.2.st ≠ .absent → x.2.dtid ≠ dt) →
       exec .cluPlotBind s = .next (forwardAdmin (admOk (if byteAt d.inl 8 = 1 then resync bound dt else bound) d) d)) ∧
     (d.code = 0x1A4 → noPlot d = true → d.inlen = 8 → byteAt d.inl 7 = 0 → officer → s.clu.joined = true →
       (pairOk u node = false → byteAt d.inl 6 ≤ 1 → exec .cluPair s = .next (admFail u d stPolicy 0x94)) ∧
       (pairOk u node = true → byteAt d.inl 6 = 1 → allAbsent u = true →
         exec .cluPair s = .next (admOk { u with clu := { u.clu with willing := true, peer := node } } d)) ∧
       (pairOk u node = true → byteAt d.inl 6 = 1 → allAbsent u = false →
         exec .cluPair s = .next (admFail u d stPolicy 0x94)) ∧
       (pairOk u node = true → byteAt d.inl 6 = 0 →
         let w : State := { u with clu := { u.clu with peer := node, syncing := true, willing := false, pairAdm := some d } }
         exec .cluPair s = .next (sendMsg w node (.pairState (pairInfo u 1
           ((u.plots.filter fun x => x.2.st != .absent).map fun x => plotCopy u x.1 x.2)))))) ∧
     (d.code = 0x1A5 → noPlot d = true → d.inlen = 4 → s.clu.role ≠ 0 →
       exec .cluUnpair s = .next (admOk (leavePair (sendMsg u s.clu.peer (.pairState (pairInfo u 0 [])))) d)) ∧
     (d.code = 0x1A6 → noPlot d = true → d.inlen = 4 → officer → s.lcs.change = .none → s.clu.role = 1 →
       (s.clu.suspect = false → s.clu.peerSwap = true → exec .cluSwap s = .next (beginChange u (.swap d))) ∧
       (s.clu.suspect = true → exec .cluSwap s = .next (admFail u d stPolicy 0x97)))) ∧
  (∀ (s : State) (d : Adm) (rest : List Adm), s.adm.queue = d :: rest → d.bad = none → adminBusy s = false → d.code = 0x1A7 →
     s.lcs.fallow = false →
     s.kpr.tampered = false → s.lcs.state = 3 → noPlot d = true → d.inlen = 4 →
     sessionLive (popAdm s rest) modScope 0 = true →
     (s.clu.role = 3 → exec .cluPromote s = .next (admOk (leavePair (popAdm s rest)) d)) ∧
     (s.clu.role ≠ 3 → exec .cluPromote s = .next (admFail (popAdm s rest) d stPolicy 0x95)))

/-- The messages of a pair on the side that expects them: heartbeats; PAIR_STATE, which asks for a pair, agrees, refuses or
ends one; the stream and the admin outcomes in order of dispatch; aborts; digests, compared on the standby and, where they
differ, met by the active; acknowledgements; the swap with its DMA test; packed frames in a version 2 session (R533, R552 to
R561, R563, R565). What the times of a pair and its forming bring: a heartbeat goes out, a batch that holds dispatches closes,
a standby takes over or is held, an active leaves the pair; the copy ends on either side; a swap waits for plots and batches,
then passes or fails (R553, R557, R560, R561, Tables 15.6 to 15.8). -/
def Obligations.YokedPairs : Prop :=
  (∀ (s : State) (h : Hdr), FrameIn s h →
     let p := h.src.toNat
     let t := frameTaken s h h.ackReq
     let standbyOf := t.clu.role = 2 ∧ t.clu.peer = p
     (∀ a b, t.clu.role ≠ 0 → t.clu.peer = p →
       exec (.heartbeat h a b) s = .next { t with clu := { t.clu with lastHb := t.now } }) ∧
     (∀ i, i.role = 0 → t.clu.peer = p → t.clu.pairAdm = none → t.clu.role ≠ 0 →
       exec (.pairState h i) s = .next (leavePair t)) ∧
     (∀ i, i.role = 1 → exec (.pairState h i) s = .next (joinPair t p i)) ∧
     (∀ i d, i.role = 0 → t.clu.peer = p → t.clu.pairAdm = some d → exec (.pairState h i) s = .next (pairFail t)) ∧
     (∀ i d, i.role = 2 → t.clu.peer = p → t.clu.pairAdm = some d →
       (pairAlike t i = true → exec (.pairState h i) s = .next { t with clu := { t.clu with
         willing := true, peerSwap := i.swapBuf } }) ∧
       (pairAlike t i = false → exec (.pairState h i) s = .next (pairFail t))) ∧
     (∀ i, i.role = 2 → t.clu.peer = p → t.clu.pairAdm = none →
       exec (.pairState h i) s = .next { t with clu := { t.clu with peerSwap := i.swapBuf } }) ∧
     (∀ d, standbyOf → d.desc ≠ [] → exec (.pairStream h d) s = .next { t with clu := { t.clu with
       stream := t.clu.stream ++ [.pairStream d] } }) ∧
     (∀ o, standbyOf → t.clu.stream = [] → exec (.pairAdmin h o) s = .next (applyAdmin t o)) ∧
     (∀ o, standbyOf → t.clu.stream ≠ [] → exec (.pairAdmin h o) s = .next { t with clu := { t.clu with
       stream := t.clu.stream ++ [.pairAdmin o] } }) ∧
     (∀ q n, standbyOf → fwdYoke t q = none → t.clu.stream.any (isDispatch q) = true →
       exec (.pairAbort h q n) s = .next { t with clu := { t.clu with aborts := t.clu.aborts ++ [(q, n)] } }) ∧
     (∀ f n d, standbyOf → exec (.pairDigest h f n d) s = .next (digestCheck { t with clu := { t.clu with
       heldDig := t.clu.heldDig ++ [(f, n, d)] } })) ∧
     (∀ f n d, t.clu.role = 1 → t.clu.peer = p →
       (batchDigest t f n = some d → exec (.pairDigest h f n d) s = .next t) ∧
       (batchDigest t f n ≠ some d → exec (.pairDigest h f n d) s = .next (diverge t f))) ∧
     (∀ f n, t.clu.role = 1 → t.clu.peer = p → t.clu.suspect = true → exec (.pairAck h f n) s = .next t) ∧
     (∀ f n, t.clu.role = 1 → t.clu.peer = p → t.clu.suspect = false → (f, n) ∈ t.clu.sent →
       let w := forgetBatch { t with clu := { t.clu with sent := t.clu.sent.filter (· != (f, n)), acked := f } } f n
       exec (.pairAck h f n) s = 
         .next { w with plots := tmap Plot.zero (fun p pl => { pl with covered := coveredOf w p pl }) w.plots }) ∧
     (standbyOf →
       let c := cluFlag (drawn (swapTest t).1 1) 5
       (Config.freeBool (t.free + 4096) = true → exec (.pairSwap h) s = .next (openAll { c with clu := { c.clu with
         role := 1, swapTest := 1, seq := 0, batch := 0, digests := [], closed := [], sent := [], lastHb := c.now } })) ∧
       (Config.freeBool (t.free + 4096) = false → exec (.pairSwap h) s = .next { c with clu := { c.clu with swapTest := 2 } })) ∧
     (∀ l, 2 ≤ (t.sess p).ver.toNat → l.length ≤ 16 → exec (.packed h l) s = .next (l.foldl (fun s m => gotMsg s p m) t)) ∧
     (∀ l, (t.sess p).ver.toNat < 2 → exec (.packed h l) s = .next t)) ∧
  (∀ s : State,
     let late : State := { s with now := max s.now (s.clu.lastHb + 500) }
     let x := s.sess s.clu.peer
     (∀ k, s.clu.role ≠ 0 → x.hs = .up → portUp s k.val = true →
       exec (.heartbeatSend k) s = .next ((emit s (.frame k.val s.clu.peer (frameHead s k.val s.clu.peer 0x10 x.ver x.kph false)
         (x.txSeq + 1) (.heartbeat (s.clu.seq - 1) s.clu.acked))).setSess s.clu.peer { x with txSeq := x.txSeq + 1 })) ∧
     (s.clu.role = 1 → s.clu.seq ≠ s.clu.batch → exec .batchClose s = .next (sendDigests { s with clu := { s.clu with
       closed := s.clu.closed ++ [(s.clu.batch, (s.clu.seq - s.clu.batch).toNat)], batch := s.clu.seq } })) ∧
     (s.clu.role = 2 →
       ((s.clu.suspect = true ∨ s.clu.hold = true) →
         exec .standbyTakeover s = .next (cluFlag { late with clu := { s.clu with role := 3 } } 5)) ∧
       (s.clu.suspect = false → s.clu.hold = false → exec .standbyTakeover s = .next (leavePair late))) ∧
     (s.clu.role = 1 → exec .activeUnpair s = .next (leavePair late)) ∧
     (∀ c d, s.clu.syncing = true → s.clu.pairAdm = some d → s.clu.willing = true →
       exec (.pairCopyDone c) s = .next (admOk (coverAll (beginPair s 1)) d)) ∧
     (∀ c, s.clu.syncing = true → s.clu.pairAdm = none →
       exec (.pairCopyDone c) s = .next (beginPair (takeCopy s c) 2)) ∧
     (∀ d, s.lcs.change = .swap d → (s.clu.role ≠ 1 ∨ s.clu.suspect = true) → ∀ b,
       exec (.swapPlotsStopped b) s = .next (swapBack s d)) ∧
     (∀ d, s.lcs.change = .swap d → s.clu.role = 1 → s.clu.suspect = false →
       (allStopped s = false → ∀ b, exec (.swapPlotsStopped b) s = .next (beginChange s (.swap d))) ∧
       (allStopped s = true → allAcked s = false → ∀ b, exec (.swapPlotsStopped b) s = .next (closeBatch s))) ∧
     (∀ d, s.lcs.change = .swap d → s.clu.role = 1 → s.clu.suspect = false → allStopped s = true → allAcked s = true →
       let w := sendMsg s s.clu.peer .pairSwap
       exec (.swapPlotsStopped true) s =
         .next (admOk (becomeStandby { w with lcs := { w.lcs with change := .none } }) d) ∧
       exec (.swapPlotsStopped false) s = .next (swapBack { w with clu := { w.clu with swapTest := 2 } } d)))

/-- The order of the checks of Table 8.1: what is static and PARAM, then the handles, then the slot tags, expiry, attributes,
TDES and DUKPT policy, PIN formats, room in the recorder; the first that fails is the status, and a job that passes them all
is the job with its two keys and its sealed input. A job that ends has its status and its context passes to the next SEAL job
of the transaction, or is free; a SEAL job then at its turn whose TYPE names no job ends as well (R321, R249). A lane job
whose inverse check fails: a lane fault of the check's kind is noted for the lane and the plot, and the transaction is aborted
with YOKE_FAULT; nothing of the job's result is released and nothing it derived is learned, but its lookups, its use counts
and the requests it made of the drill stay made (R322, R323). -/
def Obligations.LaneChecksAndFaults : Prop :=
  ((∀ (s : State) (y j u : Nat) (t : Tx) (d : Bytes) (ev : LaneEv) (sp : LaneSpec),
     let gate := laneGate s y j t d u ev sp
     let ks := laneKeys s t d u
     let sin := if byteAt d 4 = 0 then {} else sealReg s u (byteAt d 4)
     let tdes := (sp.k1 && isTdes ks.1.alg) || (sp.k2 && isTdes ks.2.alg)
     (laneStatic sp d = false → gate = (s, .error stPolicy)) ∧
     (laneStatic sp d = true → none ∈ namedHandles t d → gate = (s, .error stKeyNotFound)) ∧
     (laneStatic sp d = true → none ∉ namedHandles t d → ∀ i, badTag s t d ev = some i →
       gate = (tagFailure s i, .error stUsage)) ∧
     (laneStatic sp d = true → none ∉ namedHandles t d → badTag s t d ev = none →
       ((sp.k1 = true ∧ expired s ks.1.expiry = true) ∨ (sp.k2 = true ∧ expired s ks.2.expiry = true) →
         gate = (s, .error stExpired)) ∧
       (¬((sp.k1 = true ∧ expired s ks.1.expiry = true) ∨ (sp.k2 = true ∧ expired s ks.2.expiry = true)) →
         (sp.use ks.1 ks.2 sin = false → gate = (s, .error stUsage)) ∧
         (sp.use ks.1 ks.2 sin = true →
           (tdes = true ∧ ¬(bit (polAlg t.policy) 0 = true ∧ (sp.dukpt = true → bit (polAlg t.policy) 1 = true)) →
             gate = (s, .error stPolicy)) ∧
           (¬(tdes = true ∧ ¬(bit (polAlg t.policy) 0 = true ∧ (sp.dukpt = true → bit (polAlg t.policy) 1 = true))) →
             (sp.pin = false → gate = (s, .error stPinFormat)) ∧
             (sp.pin = true → sp.record = true → auditRoom s = false → gate = (s, .error stAudit)) ∧
             (sp.pin = true → (sp.record = true → auditRoom s = true) →
               gate = (s, .ok { y := y, j := j, t := t, d := d, u := u, k1 := ks.1, k2 := ks.2, sin := sin, ev := ev }))))))) ∧
   (∀ (s : State) (y j : Nat) (t : Tx) (x : Job) (st : BitVec 16) (out : Bytes),
     twf Yoke.zero s.yokes = true → twf LaneCtx.zero s.lan.ctx = true → s.tx y = some t → t.job j = some x →
     let u := laneEnd1 s y j st out
     let t1 := t.setJob j (some { x with
       st := .ended, status := st, noRand := false, reserved := false, out := if st = stOK ∨ st = stExisting then out else [] })
     u.tx y = some t1 ∧
     (u.ctx x.unit).bound = (s.ctx x.unit).bound ∧
     ((s.ctx x.unit).job = some (y, j) → (s.ctx x.unit).bound = .tx y →
       (u.ctx x.unit).job = (nextSeal t1).map fun n => (y, n)) ∧
     ((s.ctx x.unit).job = some (y, j) → (s.ctx x.unit).bound ≠ .tx y → (u.ctx x.unit).job = none) ∧
     ((∀ n k, nextSeal t1 = some n → t1.job n = some k → laneType k.desc = true) → laneEnd s y j st out = u))) ∧
  (∀ (c : YokeId → JobIx → LaneEv → Instr) (ty : Nat) (spec : State → Bytes → Tx → Bytes → Nat → LaneSpec)
     (comp : State → LJ → Comp),
     (c, ty, spec, comp) ∈ [
       (Instr.pinXlate, 0x01, specXlate, compXlate), (.pinOpen, 0x02, specOpen, compOpen), (.pinReseal, 0x03, specReseal, compReseal),
       (.pinVer3624, 0x04, spec3624, comp3624), (.pinVerPvv, 0x05, specPvv, compPvv), (.arqcArpc, 0x07, specArqc, compArqc),
       (.dukptDerive, 0x08, specDukpt, compDukpt), (.kbUnwrap, 0x09, specUnwrap, compUnwrap), (.kbWrap, 0x0A, specWrap, compWrap)] →
     ∀ (s : State) (y : YokeId) (j : JobIx) (ev : LaneEv) (t : Tx) (x : Job) (q : LJ), LanePast s y j ev ty spec t x q →
       ∀ r : State,
       let result := comp (laneAt s y ev x q) q
       ((∃ st out sl inv, result = .fin r st out sl inv ∧ ev ∈ inv) ∨
         (∃ st out sl ls, result = .derived r st out sl ls ∧ ls ≠ [] ∧ ev = .derFail) ∨
         (∃ out pay, result = .exported r out pay ∧ ev = .encFail) ∨
         (∃ l inv, result = .learn r l inv ∧ ev ∈ inv)) →
       exec (c y j ev) s = .next (laneFault r y.val (x.unit / 8) (faultKind ev) t.plot ty))

/-- PIN_XLATE, PIN_OPEN and PIN_RESEAL past their checks: the PIN of the block under key 1, or of the sealed register, becomes
the block of the output format under key 2, with 16 random bytes of the transaction where that format needs fill, or waits
while none is there; or it goes to the sealed register tagged with its length. A block that does not decode ends the job with
PIN_BLOCK, a length outside the policy with POLICY (R251, R330 to R335). PIN_VER_3624, PIN_VER_PVV and CVV past their checks:
the natural PIN of the validation data plus the offset, the PVV of the transformed security parameter, the three CVV digits;
OK where they agree, PIN_MISMATCH or CVV_MISMATCH where they do not; a PIN block that does not open ends the job with its
status; CVV without VERIFY gives the digits (R337, R338, R340, Table 8.6). -/
def Obligations.PinJobs : Prop :=
  (∀ (s : State) (y : YokeId) (j : JobIx) (ev : LaneEv) (t : Tx) (x : Job) (q : LJ),
     let u := laneAt s y ev x q
     let p := jParam x.desc
     let a := byteAt p 0
     let b := byteAt p 1
     let pan := panDigits p 2
     let field := pinField a q.k1.key (benchRange u y.val j.val (jIn x.desc)) pan
     let fits := fun pin : List Nat => polPinMin t.policy ≤ pin.length ∧ pin.length ≤ polPinMax t.policy
     let block := fun (r : Host.Outcome State Fault Refusal) (pin : List Nat) =>
       (pinRandom b = false → r = .next (laneEnd u y.val j.val stOK (encodePin b q.k2.key pin pan []))) ∧
       (pinRandom b = true → ∀ v, txRandom u y.val j.val 16 = some v →
         r = .next (laneEnd v.1 y.val j.val stOK (encodePin b q.k2.key pin pan v.2))) ∧
       (pinRandom b = true → txRandom u y.val j.val 16 = none →
         r = .next (modJob (laneIn s y ev x) y.val j.val fun k => { k with noRand := true }))
     (LanePast s y j ev 0x01 specXlate t x q →
       (∀ pin, decodePin a field = some pin → fits pin → ev ≠ .encFail → ev ≠ .decFail →
         block (exec (.pinXlate y j ev) s) pin) ∧
       (decodePin a field = none → exec (.pinXlate y j ev) s = .next (laneEnd u y.val j.val stPinBlock [])) ∧
       (∀ pin, decodePin a field = some pin → ¬fits pin →
         exec (.pinXlate y j ev) s = .next (laneEnd u y.val j.val stPolicy []))) ∧
     (LanePast s y j ev 0x02 specOpen t x q →
       (∀ pin, decodePin a field = some pin → fits pin → ev ≠ .decFail →
         exec (.pinOpen y j ev) s = .next (laneEnd (u.modCtx x.unit fun c => { c with
           seals := tset {} (byteAt x.desc 5 - 0x80) { tag := .pin pin.length, val := pin.map (BitVec.ofNat 8) } c.seals })
           y.val j.val stOK [])) ∧
       (decodePin a field = none → exec (.pinOpen y j ev) s = .next (laneEnd u y.val j.val stPinBlock [])) ∧
       (∀ pin, decodePin a field = some pin → ¬fits pin → exec (.pinOpen y j ev) s = .next (laneEnd u y.val j.val stPolicy []))) ∧
     (LanePast s y j ev 0x03 specReseal t x q → ev ≠ .encFail → block (exec (.pinReseal y j ev) s) (pinOf q.sin))) ∧
  (∀ (s : State) (y : YokeId) (j : JobIx) (ev : LaneEv) (t : Tx) (x : Job) (q : LJ),
     let u := laneAt s y ev x q
     let p := jParam x.desc
     let ends := fun (r : Host.Outcome State Fault Refusal) (st : BitVec 16) (out : Bytes) =>
       r = .next (laneEnd u y.val j.val st out)
     (∀ pin, verifyPin u q = .ok pin → (byteAt x.desc 4 = 0 → ev ≠ .decFail) →
       (LanePast s y j ev 0x04 spec3624 t x q →
         let data := nibbles (tdesEnc q.k2.key (benchRange u y.val j.val (jIn2 x.desc)))
         let natural := fun i => ((nibbles (cut p 14 8)).getD (data.getD i 0) 0 + (nibbles (cut p 22 6)).getD i 0) % 10
         let good := byteAt p 1 ≤ pin.length ∧ ∀ i < byteAt p 1, pin.getD i 0 = natural i
         (good → ends (exec (.pinVer3624 y j ev) s) stOK []) ∧ (¬good →
           ends (exec (.pinVer3624 y j ev) s) stPinMismatch [])) ∧
       (LanePast s y j ev 0x05 specPvv t x q →
         let pan := panDigits p 2
         let tsp := (pan.drop (pan.length - 12)).take 11 ++ [byteAt p 1] ++ pin.take 4
         let good := scanDigits 4 (tdesEnc q.k2.key (ofNibbles tsp)) = nibbles (cut p 14 2)
         (good → ends (exec (.pinVerPvv y j ev) s) stOK []) ∧ (¬good →
           ends (exec (.pinVerPvv y j ev) s) stPinMismatch []))) ∧
     (∀ st, verifyPin u q = .error st →
       (LanePast s y j ev 0x04 spec3624 t x q → ends (exec (.pinVer3624 y j ev) s) st []) ∧
       (LanePast s y j ev 0x05 specPvv t x q → ends (exec (.pinVerPvv y j ev) s) st [])) ∧
     (LanePast s y j ev 0x06 specCvv t x q →
       let v := cvvDigits q.k1.key q.k1.alg p
       (jVerify x.desc = false → ends (exec (.cvv y j ev) s) stOK (ofNibbles v)) ∧
       (jVerify x.desc = true → v = (nibbles (cut p 16 2)).take 3 → ends (exec (.cvv y j ev) s) stOK []) ∧
       (jVerify x.desc = true → v ≠ (nibbles (cut p 16 2)).take 3 → ends (exec (.cvv y j ev) s) stCvv [])))

/-- ARQC_ARPC and DUKPT_DERIVE past their checks. Each key of the derivation is found under its derived name or derived, and
those derived are learned; then a cryptogram that matches gives the ARPC of its method and one that does not ends
CRYPTOGRAM_MISMATCH, and a working key goes to the sealed register with the attribute of its usage. A lookup that fails ends
the job with its status; a conflict of two derivations ends it KEY_CONFLICT with a lane fault of kind 3 (R292 to R295, R342 to
R345). -/
def Obligations.CardAndTerminalKeys : Prop :=
  ∀ (s : State) (y : YokeId) (j : JobIx) (ev : LaneEv) (t : Tx) (x : Job) (q : LJ),
    let u := laneAt s y ev x q
    let p := jParam x.desc
    let aes := isAes q.k1.alg
    let lane := x.unit / 8
    (LanePast s y j ev 0x07 specArqc t x q →
      let conflict := fun w : State => exec (.arqcArpc y j ev) s =
        .next (laneEnd (noteLaneFault w lane 3 t.plot 0x07) y.val j.val stConflict [])
      let n1 := derivedName 3 (identity q.k1.name q.k1.kcv ++ ofNibbles (panDigits p 2) ++ cut p 14 1)
      let d1 := deriveKey u q 0 n1 0x800 (Config.emvMaster aes q.k1.key (ofNibbles (emvDigits p)))
      (∀ st, d1.2 = .fail st → exec (.arqcArpc y j ev) s = .next (laneEnd d1.1 y.val j.val st [])) ∧
      (d1.2 = .conflict → conflict d1.1) ∧
      (∀ mk l1, d1.2 = .got mk l1 →
        let d2 := deriveKey d1.1 q 1 (derivedName 4 (identity n1 (kcvSym q.k1.alg mk) ++ cut p 16 2)) 0x30
          (Config.emvSession aes mk (cut p 16 2))
        (d2.2 = .conflict → conflict (learnAll lane 0x07 l1 d2.1).1) ∧
        (∀ st, d2.2 = .fail st → (l1 ≠ [] → ev ≠ .derFail) → (learnAll lane 0x07 l1 d2.1).2 = true →
          exec (.arqcArpc y j ev) s = .next (laneEnd (learnAll lane 0x07 l1 d2.1).1 y.val j.val st [])) ∧
        (∀ sk l2, d2.2 = .got sk l2 → (l1 ++ l2 ≠ [] → ev ≠ .derFail) →
          let w := learnAll lane 0x07 (l1 ++ l2) d2.1
          let arqc := benchRange d2.1 y.val j.val (jIn2 x.desc)
          let mac := emvMac aes sk (benchRange d2.1 y.val j.val (jIn x.desc))
          let v := xorBytes arqc (cut p 18 2 ++ List.replicate 6 0)
          (w.2 = false → conflict w.1) ∧
          (w.2 = true →
            (mac ≠ arqc → exec (.arqcArpc y j ev) s = .next (laneEnd w.1 y.val j.val stCryptogram [])) ∧
            (mac = arqc → byteAt p 0 = 1 → exec (.arqcArpc y j ev) s = .next (laneEnd w.1 y.val j.val stOK
              (if aes then (Config.aesEnc sk (v ++ List.replicate 8 0)).take 8 else tdesEnc sk v))) ∧
            (mac = arqc → byteAt p 0 ≠ 1 → exec (.arqcArpc y j ev) s = .next (laneEnd w.1 y.val j.val stOK
              ((emvMac aes sk (arqc ++ cut p 20 4 ++ cut p 24 (byteAt p 1))).take 4))))))) ∧
    (LanePast s y j ev 0x08 specDukpt t x q →
      let use := byteAt p 0
      let id := identity q.k1.name q.k1.kcv
      let name := derivedName 2 (id ++ ksn p)
      let found := if use = 0 then derivedLook u q 1 name else (u, .miss)
      let conflict := fun w : State => exec (.dukptDerive y j ev) s =
        .next (laneEnd (noteLaneFault w lane 3 t.plot 0x08) y.val j.val stConflict [])
      let done := fun (w : State) (key : Bytes) => exec (.dukptDerive y j ev) s = .next (laneEnd (w.modCtx x.unit fun c => { c with
        seals := tset {} (byteAt x.desc 5 - 0x80)
          { tag := .key (BitVec.ofNat 8 q.k1.alg) (usageAttr use) q.k1.expiry, val := key } c.seals }) y.val j.val stOK [])
      let onward := fun (w : State) (ik : Bytes) (ls : List Learn) =>
        let wk := Config.dukptWorking aes ik (ksn p) use
        let all := if use = 0 then ls ++ [derivedOf t.plot name q.k1.alg 0x80 wk] else ls
        let z := learnAll lane 0x08 all w
        (use = 0 → ev = .race true → conflict (learnAll lane 0x08 ls w).1) ∧
        (ev ≠ .derFail → ev ≠ .race true → (z.2 = true → done z.1 wk) ∧ (z.2 = false → conflict z.1))
      (∀ wk, found.2 = .key wk → done found.1 wk) ∧
      (∀ st, found.2 = .fail st → exec (.dukptDerive y j ev) s = .next (laneEnd found.1 y.val j.val st [])) ∧
      (found.2 = .miss →
        (hasAttr q.k1.attr 10 = false → onward found.1 q.k1.key []) ∧
        (hasAttr q.k1.attr 10 = true →
          let d := deriveKey found.1 q 0 (derivedName 1 (id ++ ksnId p)) 0x80000
            (Config.dukptInitial aes q.k1.key (ksnId p))
          (∀ st, d.2 = .fail st → exec (.dukptDerive y j ev) s = .next (laneEnd d.1 y.val j.val st [])) ∧
          (d.2 = .conflict → conflict d.1) ∧
          (∀ ik ls, d.2 = .got ik ls → onward d.1 ik ls))))

/-- CMAC, MAC9797, HMAC and HASH past their checks: a first or middle part adds its input to the running state in the sealed
register; a whole message or a last part gives the leftmost bytes of the value over all parts, or with VERIFY the verdict
(R348, R349). GCM_DEC gives the plaintext only where the tag matches, FF1 the string of the same length, CIPHER the blocks
under ECB, CBC or CTR in the direction of PARAM; all past their checks (R350 to R352). -/
def Obligations.MacHashAndCipherJobs : Prop :=
  (∀ (s : State) (y : YokeId) (j : JobIx) (ev : LaneEv) (t : Tx) (x : Job) (q : LJ),
     let u := laneAt s y ev x q
     let p := jParam x.desc
     let parts := fun (r : Host.Outcome State Fault Refusal) (ty at' len : Nat) (f : Bytes → Bytes) =>
       let part := byteAt p at'
       let msg := (if part = 2 ∨ part = 3 then q.sin.parts else []) ++ benchRange u y.val j.val (jIn x.desc)
       let v := (f msg).take len
       (part = 1 ∨ part = 2 → r = .next (laneEnd (u.modCtx x.unit fun c => { c with
         seals := tset {} (byteAt x.desc 5 - 0x80)
           { tag := .state ty q.k1.ref q.k1.id (p.set at' 0), parts := msg,
             val := fit 32 (Config.runState ty q.k1.key (p.set at' 0) msg) } c.seals }) y.val j.val stOK [])) ∧
       (part ≠ 1 → part ≠ 2 →
         (jVerify x.desc = false → r = .next (laneEnd u y.val j.val stOK v)) ∧
         (jVerify x.desc = true → v = benchRange u y.val j.val (jIn2 x.desc) → r = .next (laneEnd u y.val j.val stOK [])) ∧
         (jVerify x.desc = true → v ≠ benchRange u y.val j.val (jIn2 x.desc) → r = .next (laneEnd u y.val j.val stMac [])))
     (LanePast s y j ev 0x0B specCmac t x q →
       parts (exec (.cmac y j ev) s) 0x0B 1 (byteAt p 0) fun m => Config.cmac (isAes q.k1.alg) q.k1.key m) ∧
     (LanePast s y j ev 0x0C specMac9797 t x q →
       parts (exec (.mac9797 y j ev) s) 0x0C 3 (byteAt p 2) fun m => mac9797 (byteAt p 0) q.k1.key (pad9797 (byteAt p 1) m)) ∧
     (LanePast s y j ev 0x0D specHmac t x q →
       parts (exec (.hmac y j ev) s) 0x0D 1 (byteAt p 0) fun m => Config.hmac256 q.k1.key m) ∧
     (LanePast s y j ev 0x11 specHash t x q →
       parts (exec (.hash y j ev) s) 0x11 1 (digestLen (byteAt p 0)) fun m => Config.hash (byteAt p 0) m)) ∧
  (∀ (s : State) (y : YokeId) (j : JobIx) (ev : LaneEv) (t : Tx) (x : Job) (q : LJ),
     let u := laneAt s y ev x q
     let p := jParam x.desc
     let n := (jIn x.desc).2
     let input := benchRange u y.val j.val (jIn x.desc)
     (LanePast s y j ev 0x0E specGcm t x q →
       let aad := fld p 12 2
       let got := Config.gcmOpen q.k1.key (cut p 0 12) (input.take aad) (input.drop aad)
         (benchRange u y.val j.val (jIn2 x.desc))
       (∀ pt, got = some pt → exec (.gcmDec y j ev) s = .next (laneEnd u y.val j.val stOK (fit (input.length - aad) pt))) ∧
       (got = none → exec (.gcmDec y j ev) s = .next (laneEnd u y.val j.val stMac []))) ∧
     (LanePast s y j ev 0x0F specFf1 t x q → exec (.ff1 y j ev) s = .next (laneEnd u y.val j.val stOK
       (fit n (Config.ff1 (byteAt p 1 == 1) q.k1.key (byteAt p 0) (cut p 4 (byteAt p 2)) input)))) ∧
     (LanePast s y j ev 0x10 specCipher t x q →
       let aes := isAes q.k1.alg
       let w := if aes then 16 else 8
       let bl := blocks w input
       let done := fun out : List Bytes => exec (.cipher y j ev) s = .next (laneEnd u y.val j.val stOK (fit n out.flatten))
       (byteAt p 0 = 0 → byteAt p 1 = 0 → done (bl.map (blockEnc aes q.k1.key))) ∧
       (byteAt p 0 = 0 → byteAt p 1 = 1 → done (bl.map (blockDec aes q.k1.key))) ∧
       (byteAt p 0 = 1 → byteAt p 1 = 0 → done (cbcEnc aes q.k1.key (cut p 16 w) bl)) ∧
       (byteAt p 0 = 1 → byteAt p 1 = 1 → done (cbcDec aes q.k1.key (cut p 16 w) bl)) ∧
       (byteAt p 0 = 2 → done (ctr aes q.k1.key (beNat (cut p 16 w)) bl))))

/-- KB_UNWRAP past its checks: an authentic symmetric block of a mode that Table 7.3 gives, without an optional block, is
learned under its attribute mask, the exportability of its header added, and its record is written when the learning ends, or
the learning waits or is refused; a block that does not authenticate is refused with cause 2. KB_WRAP gives the version D
block with its header and writes its record (R259 to R268, R346, R347). -/
def Obligations.KeyBlockJobs : Prop :=
  ∀ (s : State) (y : YokeId) (j : JobIx) (ev : LaneEv) (t : Tx) (x : Job) (q : LJ),
    let u := laneAt s y ev x q
    let p := jParam x.desc
    let b := benchRange u y.val j.val (jIn x.desc)
    (LanePast s y j ev 0x09 specUnwrap t x q → (chr b 0 = 68 ∨ chr b 0 = 66) → (chr b 0 = 68 ↔ isAes q.k1.alg = true) →
      (Config.kbOpen (chr b 0 == 68) q.k1.key b = none → exec (.kbUnwrap y j ev) s =
        .next (laneEnd { u with kp := { u.kp with kbRej := bumpAt u.kp.kbRej 2 } } y.val j.val stBlock [])) ∧
      (∀ clear base a key, Config.kbOpen (chr b 0 == 68) q.k1.key b = some clear → headerOk b = true →
        decAt b 12 2 = some 0 →
        usageBits (two (chr b 5) (chr b 6)) (chr b 7) (chr b 8) = some base → (chr b 0 = 66 → chr b 7 = cT) →
        chr b 7 ≠ cR → chr b 7 ≠ cE → beNat (clear.take 2) = 8 * key.length →
        (clear.drop 2).take key.length = key → symAlg (chr b 7) key.length = some a → ev ≠ .decFail →
        let sl := symSlot a key (importMask (two (chr b 5) (chr b 6)) (chr b 7) base (chr b 11) none) 0
        let derives := chr b 5 == 66 && (chr b 6 == 48 || chr b 6 == 49)
        weakSlot sl = false → policyAdmits (u.plot t.plot).active a derives 0 = true → byteAt p 9 < 2 →
        let l : Learn := { plot := t.plot, name := BitVec.ofNat 64 (fld p 0 8), slot := sl, age := BitVec.ofNat 3 (byteAt p 8),
                           pinned := bit (byteAt p 9) 0 }
        let g := learnFor (reserve u) l (.laneJob y.val j.val)
        (∀ st, g.2 = some st → (st = stOK ∨ st = stExisting) → exec (.kbUnwrap y j ev) s =
          .next (laneEnd (writeReserved g.1 0x1010 t.plot (keyPayload l.name sl)) y.val j.val st sl.kcv)) ∧
        (∀ st, g.2 = some st → st ≠ stOK → st ≠ stExisting → exec (.kbUnwrap y j ev) s =
          .next (laneEnd (unreserve g.1) y.val j.val st [])) ∧
        (g.2 = none → exec (.kbUnwrap y j ev) s = .next (modJob g.1 y.val j.val fun k => { k with
          st := .learning, reserved := true, noRand := vaultWaits u l && (plotGen u t.plot).isNone })))) ∧
    (LanePast s y j ev 0x0A specWrap t x q → ev ≠ .encFail → ∀ r, wrapRow q.k1 = some r →
      let h := wrapHeader u q.k1 r
      let out := fit (wrapLen q.k1 r) (Config.kbSeal q.k2.key h (wrapData q.k1) (u.free + 16))
      let pay := le 8 q.k1.name.toNat ++ le 1 q.k1.alg ++ le 4 q.k1.attr.toNat ++ fit 3 q.k1.kcv
      exec (.kbWrap y j ev) s =
        .next (laneEnd (writeReserved (reserve (drawn u 32)) 0x1011 t.plot pay) y.val j.val stOK out))

/-- The engine jobs with a validation window, on their engine: the key's use is counted and the window runs, with the operands
in the slot's shelves; an input with an uncorrectable bit error is a fault of the yoke in its place (R146, R373, R382). The
end of a validation window: an input of Table 9.5 ends the job with PKE_REJECT and counts its reason; a signature that holds
ends it OK and one that does not is rejected with reason 8; an RSA plaintext whose OAEP or length is wrong is rejected with
reason 7; an all-zero shared secret is an invariant failure, and so is a check of Table 9.6 that fails; otherwise the key is
derived and its learning begins: the job ends with the learning's status and the key's check value, or waits for the learning
(R365, R373 to R375). -/
def Obligations.EngineWindows : Prop :=
  (∀ (s : State) (y : YokeId) (j : JobIx) (ev : EngEv) (q : EJ),
     let opens := fun r : Host.Outcome State Fault Refusal =>
       (¬(ev = .benchUnc ∧ readsBench q.d = true) →
         r = .next (modJob (q.use (engAt s y ev q)) y.val j.val fun x => { x with st := .windowed, ev := ev })) ∧
       (ev = .benchUnc → readsBench q.d = true → r = .next (yokeFault s y.val 2))
     (EngPast s y j 0x02 q → opens (exec (.rsaVerify y j ev) s)) ∧
     (EngPast s y j 0x03 q → opens (exec (.rsaDecrypt y j ev) s)) ∧
     (EngPast s y j 0x11 q → opens (exec (.ecdsaVerify y j ev) s)) ∧
     (EngPast s y j 0x12 q → opens (exec (.ecdh y j ev) s)) ∧
     (EngPast s y j 0x15 q → opens (exec (.eddsaVerify y j ev) s)) ∧
     (EngPast s y j 0x16 q → opens (exec (.x25519X448 y j ev) s)) ∧
     (EngPast s y j 0x23 q → opens (exec (.mldsaVerify y j ev) s))) ∧
  (∀ (s : State) (y : YokeId) (j : JobIx) (t : Tx) (x : Job) (q : EJ),
     jobOf s (y.val, j.val) = some (t, x) → engReady s y.val j.val (jType x.desc) .windowed = some q →
     let input := benchRange s y.val j.val (jIn x.desc)
     let input2 := benchRange s y.val j.val (jIn2 x.desc)
     let par := jParam x.desc ++ q.curve
     let check := inputReason q.ty q.ps q.body q.curve input input2
     let learned := fun key : Bytes =>
       let g := learnFor s (symLearn q key) (.engineJob q.y q.j)
       let kcv := kcvSym (byteAt (jParam x.desc) 9) key
       (∀ st, g.2 = some st → exec (.validationWindowEnd y j) s = .next (engEnd g.1 y.val j.val st kcv)) ∧
       (g.2 = none → exec (.validationWindowEnd y j) s = .next (modJob g.1 y.val j.val fun x =>
         { x with st := .learning, out := kcv, noRand := (plotGen s q.t.plot).isNone }))
     let broken := fun k : Nat => exec (.validationWindowEnd y j) s = .next (invariantFault s y.val j.val q.e k q.t.plot q.ty)
     (∀ r, check = some r → exec (.validationWindowEnd y j) s = .next (reject s y.val j.val q.e r)) ∧
     (check = none →
       (q.ty = 0x02 ∨ q.ty = 0x11 ∨ q.ty = 0x15 ∨ q.ty = 0x23 →
         (Config.pkeVerify q.ps q.body input input2 par = true →
           exec (.validationWindowEnd y j) s = .next (engEnd s y.val j.val stOK [])) ∧
         (Config.pkeVerify q.ps q.body input input2 par = false →
           exec (.validationWindowEnd y j) s = .next (reject s y.val j.val q.e 8))) ∧
       (q.ty = 0x03 →
         (Config.oaepDecode q.body input = none → exec (.validationWindowEnd y j) s = .next (reject s y.val j.val q.e 7)) ∧
         (∀ m, Config.oaepDecode q.body input = some m →
           (m.length ≠ learnLen q → exec (.validationWindowEnd y j) s = .next (reject s y.val j.val q.e 7)) ∧
           (m.length = learnLen q → (∀ i, invFails x.ev [0] = some i → broken i) ∧ (invFails x.ev [0] = none →
             learned m)))) ∧
       (∀ n kinds, (q.ty = 0x12 ∧ n = fieldBytes s q.t.plot q.ps ∧ kinds = [1, 4]) ∨
           (q.ty = 0x16 ∧ n = uBytes q.ps ∧ kinds = [4]) →
         let z := fit n (Config.pkeResult q.ty q.ps q.body input par [])
         ((∀ b ∈ z, b = 0) → broken 4) ∧
         ((∃ b ∈ z, b ≠ 0) →
           (∀ i, invFails x.ev kinds = some i → broken i) ∧ (invFails x.ev kinds = none → learned (kdf q z))))))

/-- RSA_SIGN, ECDSA_SIGN, EDDSA_SIGN and MLDSA_SIGN on their engine: a signature of the parameter set's length is released and
the job ends OK once the invariants hold, the 64 random bytes of ECDSA and ML-DSA drawn for the transaction; an invariant that
fails gives an engine fault in its place; without a draw the job waits; an input with an uncorrectable bit error is a fault of
the yoke (R146, R364, R366, R375). EC_KEY_PAIR_GENERATION, MLKEM_ENCAPSULATE and MLKEM_DECAPSULATE on their engine: the
private key, or the key derived from the shared secret, is learned; the job ends with the learning's status and the public
key, the ciphertext or the check value, or waits for the learning. A generation without vault quota ends with KEY_QUOTA, one
whose consistency check fails with an engine fault; a draw that is not there is waited for; an input with an uncorrectable bit
error is a fault of the yoke (R146, R364 to R366, R372, R375). -/
def Obligations.SignaturesAndKeyGeneration : Prop :=
  (∀ (s : State) (y : YokeId) (j : JobIx) (ev : EngEv) (q : EJ),
     let start := engAt s y ev q
     let reads := ¬(ev = .benchUnc ∧ readsBench q.d = true)
     let signs := fun (r : Host.Outcome State Fault Refusal) (w : State) (kinds : List Nat) (n : Nat) (rnd : Bytes) =>
       let u := q.use w
       (invFails ev kinds = none → r = .next (engEnd u q.y q.j stOK
         (fit n (Config.pkeResult q.ty q.ps q.body (benchRange u q.y q.j (jIn q.d)) (jParam q.d ++ q.curve) rnd)))) ∧
       (∀ i, invFails ev kinds = some i → r = .next (invariantFault u q.y q.j q.e i q.t.plot q.ty))
     let waits := fun r : Host.Outcome State Fault Refusal =>
       txRandom start q.y q.j 64 = none → r = .next (modJob start q.y q.j fun x => { x with noRand := true })
     let faulty := fun r : Host.Outcome State Fault Refusal =>
       ev = .benchUnc → readsBench q.d = true → r = .next (yokeFault s q.y 2)
     (EngPast s y j 0x01 q →
       (reads → signs (exec (.rsaSign y j ev) s) start [0, 2] (modBytes q.ps) []) ∧ faulty (exec (.rsaSign y j ev) s)) ∧
     (EngPast s y j 0x14 q →
       (reads → signs (exec (.eddsaSign y j ev) s) start [2] (sigBytes q.ps) []) ∧ faulty (exec (.eddsaSign y j ev) s)) ∧
     (EngPast s y j 0x10 q →
       (reads → (∀ v, txRandom start q.y q.j 64 = some v →
           signs (exec (.ecdsaSign y j ev) s) v.1 [1, 2] (2 * orderBytes v.1 q.t.plot q.ps) v.2) ∧
         waits (exec (.ecdsaSign y j ev) s)) ∧ faulty (exec (.ecdsaSign y j ev) s)) ∧
     (EngPast s y j 0x22 q →
       (reads → (∀ v, txRandom start q.y q.j 64 = some v →
           signs (exec (.mldsaSign y j ev) s) v.1 [2] (sigBytes q.ps) v.2) ∧
         waits (exec (.mldsaSign y j ev) s)) ∧ faulty (exec (.mldsaSign y j ev) s))) ∧
  (∀ (s : State) (y : YokeId) (j : JobIx) (ev : EngEv) (q : EJ),
     let start := engAt s y ev q
     let par := jParam q.d ++ q.curve
     let learns := fun (r : Host.Outcome State Fault Refusal) (w : State) (l : Learn) (out : Bytes) =>
       let g := learnFor w l (.engineJob q.y q.j)
       (∀ st, g.2 = some st → r = .next (engEnd g.1 q.y q.j st out)) ∧
       (g.2 = none → r = .next (modJob g.1 q.y q.j fun x =>
         { x with st := .learning, out := out, noRand := (plotGen w l.plot).isNone }))
     let waits := fun r : Host.Outcome State Fault Refusal =>
       txRandom start q.y q.j 64 = none → r = .next (modJob start q.y q.j fun x => { x with noRand := true })
     let faulty := fun r : Host.Outcome State Fault Refusal => r = .next (yokeFault s y.val 2)
     (ev = .benchUnc ∧ readsBench q.d = true →
       (EngPast s y j 0x13 q → faulty (exec (.ecKeyPairGeneration y j ev) s)) ∧
       (EngPast s y j 0x20 q → faulty (exec (.mlkemEncapsulate y j ev) s)) ∧
       (EngPast s y j 0x21 q → faulty (exec (.mlkemDecapsulate y j ev) s))) ∧
     (¬(ev = .benchUnc ∧ readsBench q.d = true) →
     (EngPast s y j 0x13 q →
       (∀ v, txRandom start q.y q.j 64 = some v →
         let priv := Config.pkeGenerate q.ps q.curve v.2
         (∀ i, invFails ev [1, 3] = some i → exec (.ecKeyPairGeneration y j ev) s =
           .next (invariantFault v.1 q.y q.j q.e i q.t.plot q.ty)) ∧
         (invFails ev [1, 3] = none →
           ((v.1.plot q.t.plot).acr.vltQuota = 0 → exec (.ecKeyPairGeneration y j ev) s = .next (engEnd v.1 q.y q.j stQuota [])) ∧
           ((v.1.plot q.t.plot).acr.vltQuota ≠ 0 → learns (exec (.ecKeyPairGeneration y j ev) s) v.1
             { plot := q.t.plot, name := BitVec.ofNat 64 (fld (jParam q.d) 0 8), age := BitVec.ofNat 3 (byteAt (jParam q.d) 8),
               pinned := bit (byteAt (jParam q.d) 9) 0, slot := asymSlot q.ps priv (fld (jParam q.d) 12 4) 0 }
             (fit (pubBytes v.1 q.t.plot q.ps) (Config.pkePublic q.ps q.curve priv))))) ∧
       waits (exec (.ecKeyPairGeneration y j ev) s)) ∧
     (EngPast s y j 0x20 q →
       (∀ v, txRandom start q.y q.j 64 = some v →
         let w := q.use v.1
         let r := fit (ctBytes q.ps + 32) (Config.pkeResult q.ty q.ps q.body (benchRange w q.y q.j (jIn q.d)) par v.2)
         learns (exec (.mlkemEncapsulate y j ev) s) w (symLearn q (kdf q (r.drop (ctBytes q.ps)))) (r.take (ctBytes q.ps))) ∧
       waits (exec (.mlkemEncapsulate y j ev) s)) ∧
     (EngPast s y j 0x21 q →
       let w := q.use start
       let k := kdf q (fit 32 (Config.pkeResult q.ty q.ps q.body (benchRange w q.y q.j (jIn q.d)) par []))
       learns (exec (.mlkemDecapsulate y j ev) s) w (symLearn q k) (kcvSym (byteAt (jParam q.d) 9) k))))

/-- An attach ends its job OK with the engine held; a squashed slot comes back zeroised and free and the entry that waited for
its squash is written; a detached engine comes back free; then the arbiter places what waits (R83, R384, R390, R391). The
commands of Table 9.12 at the front of an attached engine's queue: each leaves the queue with its shelf D at the table's
value; MPREP makes the context of an odd modulus of at least 2 and otherwise sets BADMOD; the modular commands give 0 without
a context; MAC sets CARRY on a carry out of 2L bits. The Montgomery product is below the modulus, and times 2^L it is the
product modulo the modulus (R387 to R389). -/
def Obligations.AttachedEngines : Prop :=
  ((∀ (s : State) (y : YokeId) (j : JobIx) (t : Tx) (x : Job), jobOf s (y.val, j.val) = some (t, x) →
     x.engine = true → x.st = .running → jType x.desc = 0x40 →
     exec (.attach y j) s = .next (modJob s y.val j.val fun x => { x with st := .ended, status := stOK })) ∧
   (∀ (s : State) (e : EngId) (k : Fin 2), (s.eslot (2 * e.val + k.val)).squash = true →
     exec (.engineSquashComplete e k) s =
       .next (pumpEng (slotFreed (s.modEslot (2 * e.val + k.val) fun _ => {}) (2 * e.val + k.val)))) ∧
   (∀ (s : State) (e : EngId), (s.mac e.val).detach = true →
     exec (.engineDetachComplete e) s = .next (pumpEng (s.modMac e.val fun _ => {})))) ∧
  ((∀ (s : State) (e : EngId) (w : W64) (rest : List W64),
     let m := s.mac e.val
     let l := shelfLen s e.val
     let a := shelf m (pcA w)
     let b := shelf m (pcB w)
     m.queue = w :: rest → m.tx.isSome = true → m.detach = false →
     let becomes := fun (r : Host.Outcome State Fault Refusal) (k : Mac) => r = .next (s.modMac e.val fun _ => { k with queue := rest })
     let puts := fun (r : Host.Outcome State Fault Refusal) (v : Nat) =>
       becomes r { m with shelves := tset 0 (pcD w) (v % 2 ^ l) m.shelves }
     let n := shelf m (pcM w)
     let sum := shelf m (pcD w + 1) * 2 ^ l + shelf m (pcD w) + a * b
     (pcOp w = 0x01 → puts (exec (.zero e) s) 0) ∧
     (pcOp w = 0x02 → puts (exec (.copy e) s) a) ∧
     (pcOp w = 0x03 → n % 2 = 1 → 2 ≤ n → becomes (exec (.mprep e) s) { m with
       shelves := tset 0 (pcD w) (2 ^ (2 * l) % n % 2 ^ l) m.shelves, modulus := some n }) ∧
     (pcOp w = 0x03 → n % 2 = 0 ∨ n < 2 → ∃ v, exec (.mprep e) s = .next ((drawn s (l / 8)).modMac e.val fun _ => { m with
       shelves := tset 0 (pcD w) (v % 2 ^ l) m.shelves, modulus := none, badmod := true, queue := rest })) ∧
     (∀ k, m.modulus = some k →
       (pcOp w = 0x04 → puts (exec (.mmul e) s) (halveMod k l (a * b % k))) ∧
       (pcOp w = 0x05 → puts (exec (.madd e) s) ((a + b) % k)) ∧
       (pcOp w = 0x06 → puts (exec (.msub e) s) ((a % k + (k - b % k)) % k))) ∧
     (m.modulus = none →
       (pcOp w = 0x04 → puts (exec (.mmul e) s) 0) ∧
       (pcOp w = 0x05 → puts (exec (.madd e) s) 0) ∧
       (pcOp w = 0x06 → puts (exec (.msub e) s) 0)) ∧
     (pcOp w = 0x07 → becomes (exec (.mac e) s) { m with
       shelves := tset 0 (pcD w + 1) (sum / 2 ^ l % 2 ^ l) (tset 0 (pcD w) (sum % 2 ^ l) m.shelves),
       carry := m.carry || decide (2 ^ (2 * l) ≤ sum) }) ∧
     (pcOp w = 0x08 → puts (exec (.ntt e) s) (pack w (ntt w (coefs w a)))) ∧
     (pcOp w = 0x09 → puts (exec (.intt e) s) (pack w (intt w (coefs w a)))) ∧
     (pcOp w = 0x0A → pcQ w = true →
       puts (exec (.pwmul e) s) (pack w (((coefs w a).zip (coefs w b)).map fun x => x.1 * x.2))) ∧
     (pcOp w = 0x0A → pcQ w = false → puts (exec (.pwmul e) s) (pack w (baseMul 0 (coefs w a) (coefs w b)))) ∧
     (pcOp w = 0x0B → puts (exec (.padd e) s) (pack w (((coefs w a).zip (coefs w b)).map fun x => x.1 + x.2)))) ∧
   (∀ n l v, n % 2 = 1 → v < n → halveMod n l v < n ∧ halveMod n l v * 2 ^ l % n = v))

/-- The module right after the keeper's power-on: TAMPERED and KPOR are set, TMP_CAUSE reads 0x8000 and the mirror 0xF; every
hopper has COAL_COUNT 1, expects phase 1 and is disabled; MSI-X is off with every vector masked; the engines stand at L =
8,192, DOZE_DELAY is 10 and every yoke, lane and engine is gated; nothing waits, and the memories are empty and in canonical
form (R427, R437, Table 16.1, Table 16.2). That main power is absent is the model's choice (log 2). -/
def Obligations.StateAfterReset : Prop :=
  let s := State.reset
  s.kpr.tampered = true ∧ s.kpr.kpor = true ∧ s.kpr.cause = 0x8000 ∧ s.kpr.lcs = 0xF ∧
    (∀ r, (s.hop r).en = false ∧ (s.hop r).enabled = false ∧ (s.hop r).coalCount = 1 ∧ (s.hop r).phase = true ∧
      (s.hop r).tail = 0 ∧ (s.hop r).fetchHead = 0 ∧ (s.hop r).pendCnt = 0) ∧
    (∀ f v, (s.msixOf f).enable = false ∧ (s.msixOf f).open v = false ∧ heldFor s f = false) ∧
    (∀ e, shelfLen s e = 8192 ∧ macMode s e = false) ∧
    (∀ p, (s.plot p).st = .absent) ∧ (∀ y, s.tx y = none) ∧
    s.pwr.dozeDelay = 10 ∧ s.pwr.gatedY = BitVec.allOnes 64 ∧ s.pwr.gatedL = BitVec.allOnes 32 ∧
    s.pwr.gatedE = BitVec.allOnes 32 ∧ s.pwr.good = false ∧
    QueueOk s ∧ Canon s ∧ step s = .next { s with now := 1 }

/-- Every command that an interface can carry completes with a next state, and so does every step of a block whose queue holds
only such commands: no operand, mode or content of memory ends a run (the model's reading of the whole command list, log 1).
-/
def Obligations.EveryCommandCompletes : Prop :=
  (∀ c s, wellFormed c = true → ∃ t, exec c s = .next t) ∧ (∀ s, QueueOk s → ∃ t, step s = .next t)

/-- The queue is first in, first out: every step takes the command at the front, if there is one, and nothing else enters or
leaves; so a queue that holds only what an interface can carry stays so. -/
def Obligations.QueueInOrder : Prop :=
  ∀ s t, step s = .next t → t.pending = s.pending.drop 1 ∧ (QueueOk s → QueueOk t)

/-- Every step keeps the canonical form of the byte memories (the steward's memory and each yoke's bench) and of the tables of
plots and yokes: equal contents stay equal data, whatever command runs. -/
def Obligations.MemoriesStayCanonical : Prop :=
  ∀ s t, Canon s → step s = .next t → Canon t

/-- What never goes back, whatever command runs: a blown fuse of the life-cycle groups or of the trim stays blown, the clock
does not step back, no number of a free value is given out twice, and what has left the module stands (R483, R490; logs 2 to
4). -/
def Obligations.OneWayState : Prop :=
  ∀ s t, step s = .next t → FusesKept s t ∧ Onward s t
end

