-- ==== Sys2Proof/Laws/Tables.lean ====
section
/-! SUPPORT. Laws of the sparse tables and of the byte memories: read after write, canonical form, and what a write of
bytes leaves alone. -/

namespace Sys2Proof.Machine

variable {α : Type}

theorem twfFrom_mono [DecidableEq α] {d : α} {t : Tbl α} {lo hi : Nat} (h : twfFrom d hi t = true) (l : lo ≤ hi) :
    twfFrom d lo t = true := by
  cases t with
  | nil => rfl
  | cons x t =>
    obtain ⟨k, v⟩ := x
    simp only [twfFrom, Bool.and_eq_true, decide_eq_true_eq] at h ⊢
    exact ⟨⟨by omega, h.1.2⟩, h.2⟩

/-- What lies below the bound is not listed. -/
theorem tget_below [DecidableEq α] {d : α} : ∀ {t : Tbl α} {lo i : Nat}, twfFrom d lo t = true → i < lo → tget d t i = d
  | [], _, _, _, _ => rfl
  | (k, v) :: t, lo, i, h, l => by
    simp only [twfFrom, Bool.and_eq_true, decide_eq_true_eq] at h
    rw [tget, if_neg (by omega : ¬ k = i)]
    exact tget_below h.2 (by omega)

/-- A write keeps the canonical form above a bound. -/
theorem twfFrom_tset [DecidableEq α] {d : α} {v : α} {i : Nat} :
    ∀ {t : Tbl α} {lo : Nat}, twfFrom d lo t = true → lo ≤ i → twfFrom d lo (tset d i v t) = true
  | [], lo, _, l => by
    unfold tset; split
    · rfl
    · simp [twfFrom, *]
  | (k, w) :: t, lo, h, l => by
    simp only [twfFrom, Bool.and_eq_true, decide_eq_true_eq] at h
    unfold tset
    split
    · split
      · simp [twfFrom, h.1.1, h.1.2, h.2]
      · simp only [twfFrom, Bool.and_eq_true, decide_eq_true_eq]
        exact ⟨⟨l, by assumption⟩, ⟨by omega, h.1.2⟩, h.2⟩
    · split
      · split
        · exact twfFrom_mono h.2 (by omega)
        · simp only [twfFrom, Bool.and_eq_true, decide_eq_true_eq]
          exact ⟨⟨l, by assumption⟩, by subst_vars; exact h.2⟩
      · simp only [twfFrom, Bool.and_eq_true, decide_eq_true_eq]
        exact ⟨h.1, twfFrom_tset h.2 (by omega)⟩

/-- A write keeps the canonical form. -/
theorem twf_tset [DecidableEq α] {d : α} {t : Tbl α} (h : twf d t = true) (i : Nat) (v : α) :
    twf d (tset d i v t) = true := twfFrom_tset h (Nat.zero_le i)

/-- The empty table is canonical. -/
@[simp] theorem twf_nil [DecidableEq α] (d : α) : twf d ([] : Tbl α) = true := rfl

/-- A read after a write to another key. -/
theorem tget_tset_ne [DecidableEq α] {d : α} {v : α} {i j : Nat} (n : j ≠ i) :
    ∀ (t : Tbl α), tget d (tset d i v t) j = tget d t j
  | [] => by unfold tset; split <;> simp [tget]; intro h; exact absurd h.symm n
  | (k, w) :: t => by
    unfold tset
    split
    · split
      · rfl
      · simp only [tget]; rw [if_neg (fun h => n h.symm)]
    · split
      · split
        · simp only [tget]; rw [if_neg (by omega)]
        · simp only [tget]; rw [if_neg (fun h => n h.symm), if_neg (by omega)]
      · simp only [tget]; rw [tget_tset_ne n t]

theorem tget_tset_from [DecidableEq α] {d : α} {v : α} {i : Nat} :
    ∀ {t : Tbl α} {lo : Nat}, twfFrom d lo t = true → tget d (tset d i v t) i = v
  | [], _, _ => by unfold tset; split <;> simp [tget, *]
  | (k, w) :: t, lo, h => by
    simp only [twfFrom, Bool.and_eq_true, decide_eq_true_eq] at h
    unfold tset
    split
    · split
      · rename_i hk hv
        simp only [tget]; rw [if_neg (by omega), hv]; exact tget_below h.2 (by omega)
      · simp [tget]
    · split
      · split
        · rename_i hk hv
          rw [hv]; exact tget_below h.2 (by omega)
        · simp [tget]
      · simp only [tget]; rw [if_neg (by omega)]; exact tget_tset_from h.2

/-- A read after a write to the same key of a canonical table. -/
theorem tget_tset_same [DecidableEq α] {d : α} {v : α} {i : Nat} {t : Tbl α} (h : twf d t = true) :
    tget d (tset d i v t) i = v := tget_tset_from h

/-! ### Byte memories -/

/-- A write of one byte keeps the canonical form. -/
theorem Memory.wf_mset {m : Mem} (h : Memory.wf m = true) (a : Nat) (b : Byte) : Memory.wf (mset m a b) = true :=
  twf_tset h a b

/-- A write of bytes keeps the canonical form. -/
theorem Memory.wf_mwrite : ∀ (bs : Bytes) {m : Mem} (a : Nat), Memory.wf m = true → Memory.wf (mwrite m a bs) = true
  | [], _, _, h => h
  | b :: bs, _, a, h => Memory.wf_mwrite bs (a + 1) (Memory.wf_mset h a b)

/-- Zeroing bytes keeps the canonical form. -/
theorem Memory.wf_mzero {m : Mem} (h : Memory.wf m = true) (a n : Nat) : Memory.wf (mzero m a n) = true :=
  Memory.wf_mwrite _ a h

/-- The empty memory is canonical. -/
@[simp] theorem Memory.wf_nil : Memory.wf [] = true := rfl

/-- A read of the byte written. -/
theorem mget_mset_same {m : Mem} (h : Memory.wf m = true) (a : Nat) (b : Byte) : mget (mset m a b) a = b :=
  tget_tset_same h

/-- A write of one byte leaves every other byte. -/
theorem mget_mset_ne (m : Mem) {a j : Nat} (b : Byte) (n : j ≠ a) : mget (mset m a b) j = mget m j :=
  tget_tset_ne n m

/-- A write of bytes leaves every byte outside them. -/
theorem mget_mwrite_outside : ∀ (bs : Bytes) (m : Mem) (a j : Nat), (j < a ∨ a + bs.length ≤ j) →
    mget (mwrite m a bs) j = mget m j
  | [], _, _, _, _ => rfl
  | b :: bs, m, a, j, h => by
    simp only [List.length_cons] at h
    rw [mwrite, mget_mwrite_outside bs _ (a + 1) j (by omega), mget_mset_ne _ _ (by omega)]

/-- A read of the bytes written. -/
theorem mread_mwrite_same : ∀ (bs : Bytes) (m : Mem) (a : Nat), Memory.wf m = true →
    mread (mwrite m a bs) a bs.length = bs
  | [], _, _, _ => rfl
  | b :: bs, m, a, h => by
    simp only [List.length_cons, mread, mwrite]
    rw [mget_mwrite_outside bs _ (a + 1) a (by omega), mget_mset_same h,
      mread_mwrite_same bs _ (a + 1) (Memory.wf_mset h a b)]

end Sys2Proof.Machine
end

