-- ==== Sys2Proof/Laws/State.lean ====
section
/-! SUPPORT. What each named update of the state changes and leaves: one lemma per update and field, so that no proof
unfolds a record update. -/

namespace Sys2Proof.Machine

variable (s : State)

/-! `State.setPlot` -/

@[simp] theorem State.setPlot_pending (p : Nat) (x : Plot) : (s.setPlot p x).pending = s.pending := rfl
@[simp] theorem State.setPlot_now (p : Nat) (x : Plot) : (s.setPlot p x).now = s.now := rfl
@[simp] theorem State.setPlot_free (p : Nat) (x : Plot) : (s.setPlot p x).free = s.free := rfl
@[simp] theorem State.setPlot_out (p : Nat) (x : Plot) : (s.setPlot p x).out = s.out := rfl
@[simp] theorem State.setPlot_link (p : Nat) (x : Plot) : (s.setPlot p x).link = s.link := rfl
@[simp] theorem State.setPlot_adm (p : Nat) (x : Plot) : (s.setPlot p x).adm = s.adm := rfl
@[simp] theorem State.setPlot_disp (p : Nat) (x : Plot) : (s.setPlot p x).disp = s.disp := rfl
@[simp] theorem State.setPlot_yokes (p : Nat) (x : Plot) : (s.setPlot p x).yokes = s.yokes := rfl
@[simp] theorem State.setPlot_yreg (p : Nat) (x : Plot) : (s.setPlot p x).yreg = s.yreg := rfl
@[simp] theorem State.setPlot_stw (p : Nat) (x : Plot) : (s.setPlot p x).stw = s.stw := rfl
@[simp] theorem State.setPlot_prog (p : Nat) (x : Plot) : (s.setPlot p x).prog = s.prog := rfl
@[simp] theorem State.setPlot_kp (p : Nat) (x : Plot) : (s.setPlot p x).kp = s.kp := rfl
@[simp] theorem State.setPlot_rpl (p : Nat) (x : Plot) : (s.setPlot p x).rpl = s.rpl := rfl
@[simp] theorem State.setPlot_vlt (p : Nat) (x : Plot) : (s.setPlot p x).vlt = s.vlt := rfl
@[simp] theorem State.setPlot_lan (p : Nat) (x : Plot) : (s.setPlot p x).lan = s.lan := rfl
@[simp] theorem State.setPlot_pke (p : Nat) (x : Plot) : (s.setPlot p x).pke = s.pke := rfl
@[simp] theorem State.setPlot_rng (p : Nat) (x : Plot) : (s.setPlot p x).rng = s.rng := rfl
@[simp] theorem State.setPlot_kpr (p : Nat) (x : Plot) : (s.setPlot p x).kpr = s.kpr := rfl
@[simp] theorem State.setPlot_hdg (p : Nat) (x : Plot) : (s.setPlot p x).hdg = s.hdg := rfl
@[simp] theorem State.setPlot_dbg (p : Nat) (x : Plot) : (s.setPlot p x).dbg = s.dbg := rfl
@[simp] theorem State.setPlot_cust (p : Nat) (x : Plot) : (s.setPlot p x).cust = s.cust := rfl
@[simp] theorem State.setPlot_lcs (p : Nat) (x : Plot) : (s.setPlot p x).lcs = s.lcs := rfl
@[simp] theorem State.setPlot_flash (p : Nat) (x : Plot) : (s.setPlot p x).flash = s.flash := rfl
@[simp] theorem State.setPlot_evr (p : Nat) (x : Plot) : (s.setPlot p x).evr = s.evr := rfl
@[simp] theorem State.setPlot_clu (p : Nat) (x : Plot) : (s.setPlot p x).clu = s.clu := rfl
@[simp] theorem State.setPlot_pwr (p : Nat) (x : Plot) : (s.setPlot p x).pwr = s.pwr := rfl
@[simp] theorem State.setPlot_owed (p : Nat) (x : Plot) : (s.setPlot p x).owed = s.owed := rfl
@[simp] theorem State.setPlot_snaps (p : Nat) (x : Plot) : (s.setPlot p x).snaps = s.snaps := rfl

/-! `State.modPlot` -/

@[simp] theorem State.modPlot_pending (p : Nat) (f : Plot → Plot) : (s.modPlot p f).pending = s.pending := rfl
@[simp] theorem State.modPlot_now (p : Nat) (f : Plot → Plot) : (s.modPlot p f).now = s.now := rfl
@[simp] theorem State.modPlot_free (p : Nat) (f : Plot → Plot) : (s.modPlot p f).free = s.free := rfl
@[simp] theorem State.modPlot_out (p : Nat) (f : Plot → Plot) : (s.modPlot p f).out = s.out := rfl
@[simp] theorem State.modPlot_link (p : Nat) (f : Plot → Plot) : (s.modPlot p f).link = s.link := rfl
@[simp] theorem State.modPlot_adm (p : Nat) (f : Plot → Plot) : (s.modPlot p f).adm = s.adm := rfl
@[simp] theorem State.modPlot_disp (p : Nat) (f : Plot → Plot) : (s.modPlot p f).disp = s.disp := rfl
@[simp] theorem State.modPlot_yokes (p : Nat) (f : Plot → Plot) : (s.modPlot p f).yokes = s.yokes := rfl
@[simp] theorem State.modPlot_yreg (p : Nat) (f : Plot → Plot) : (s.modPlot p f).yreg = s.yreg := rfl
@[simp] theorem State.modPlot_stw (p : Nat) (f : Plot → Plot) : (s.modPlot p f).stw = s.stw := rfl
@[simp] theorem State.modPlot_prog (p : Nat) (f : Plot → Plot) : (s.modPlot p f).prog = s.prog := rfl
@[simp] theorem State.modPlot_kp (p : Nat) (f : Plot → Plot) : (s.modPlot p f).kp = s.kp := rfl
@[simp] theorem State.modPlot_rpl (p : Nat) (f : Plot → Plot) : (s.modPlot p f).rpl = s.rpl := rfl
@[simp] theorem State.modPlot_vlt (p : Nat) (f : Plot → Plot) : (s.modPlot p f).vlt = s.vlt := rfl
@[simp] theorem State.modPlot_lan (p : Nat) (f : Plot → Plot) : (s.modPlot p f).lan = s.lan := rfl
@[simp] theorem State.modPlot_pke (p : Nat) (f : Plot → Plot) : (s.modPlot p f).pke = s.pke := rfl
@[simp] theorem State.modPlot_rng (p : Nat) (f : Plot → Plot) : (s.modPlot p f).rng = s.rng := rfl
@[simp] theorem State.modPlot_kpr (p : Nat) (f : Plot → Plot) : (s.modPlot p f).kpr = s.kpr := rfl
@[simp] theorem State.modPlot_hdg (p : Nat) (f : Plot → Plot) : (s.modPlot p f).hdg = s.hdg := rfl
@[simp] theorem State.modPlot_dbg (p : Nat) (f : Plot → Plot) : (s.modPlot p f).dbg = s.dbg := rfl
@[simp] theorem State.modPlot_cust (p : Nat) (f : Plot → Plot) : (s.modPlot p f).cust = s.cust := rfl
@[simp] theorem State.modPlot_lcs (p : Nat) (f : Plot → Plot) : (s.modPlot p f).lcs = s.lcs := rfl
@[simp] theorem State.modPlot_flash (p : Nat) (f : Plot → Plot) : (s.modPlot p f).flash = s.flash := rfl
@[simp] theorem State.modPlot_evr (p : Nat) (f : Plot → Plot) : (s.modPlot p f).evr = s.evr := rfl
@[simp] theorem State.modPlot_clu (p : Nat) (f : Plot → Plot) : (s.modPlot p f).clu = s.clu := rfl
@[simp] theorem State.modPlot_pwr (p : Nat) (f : Plot → Plot) : (s.modPlot p f).pwr = s.pwr := rfl
@[simp] theorem State.modPlot_owed (p : Nat) (f : Plot → Plot) : (s.modPlot p f).owed = s.owed := rfl
@[simp] theorem State.modPlot_snaps (p : Nat) (f : Plot → Plot) : (s.modPlot p f).snaps = s.snaps := rfl

/-! `State.setYoke` -/

@[simp] theorem State.setYoke_pending (y : Nat) (x : Yoke) : (s.setYoke y x).pending = s.pending := rfl
@[simp] theorem State.setYoke_now (y : Nat) (x : Yoke) : (s.setYoke y x).now = s.now := rfl
@[simp] theorem State.setYoke_free (y : Nat) (x : Yoke) : (s.setYoke y x).free = s.free := rfl
@[simp] theorem State.setYoke_out (y : Nat) (x : Yoke) : (s.setYoke y x).out = s.out := rfl
@[simp] theorem State.setYoke_link (y : Nat) (x : Yoke) : (s.setYoke y x).link = s.link := rfl
@[simp] theorem State.setYoke_adm (y : Nat) (x : Yoke) : (s.setYoke y x).adm = s.adm := rfl
@[simp] theorem State.setYoke_disp (y : Nat) (x : Yoke) : (s.setYoke y x).disp = s.disp := rfl
@[simp] theorem State.setYoke_plots (y : Nat) (x : Yoke) : (s.setYoke y x).plots = s.plots := rfl
@[simp] theorem State.setYoke_yreg (y : Nat) (x : Yoke) : (s.setYoke y x).yreg = s.yreg := rfl
@[simp] theorem State.setYoke_stw (y : Nat) (x : Yoke) : (s.setYoke y x).stw = s.stw := rfl
@[simp] theorem State.setYoke_prog (y : Nat) (x : Yoke) : (s.setYoke y x).prog = s.prog := rfl
@[simp] theorem State.setYoke_kp (y : Nat) (x : Yoke) : (s.setYoke y x).kp = s.kp := rfl
@[simp] theorem State.setYoke_rpl (y : Nat) (x : Yoke) : (s.setYoke y x).rpl = s.rpl := rfl
@[simp] theorem State.setYoke_vlt (y : Nat) (x : Yoke) : (s.setYoke y x).vlt = s.vlt := rfl
@[simp] theorem State.setYoke_lan (y : Nat) (x : Yoke) : (s.setYoke y x).lan = s.lan := rfl
@[simp] theorem State.setYoke_pke (y : Nat) (x : Yoke) : (s.setYoke y x).pke = s.pke := rfl
@[simp] theorem State.setYoke_rng (y : Nat) (x : Yoke) : (s.setYoke y x).rng = s.rng := rfl
@[simp] theorem State.setYoke_kpr (y : Nat) (x : Yoke) : (s.setYoke y x).kpr = s.kpr := rfl
@[simp] theorem State.setYoke_hdg (y : Nat) (x : Yoke) : (s.setYoke y x).hdg = s.hdg := rfl
@[simp] theorem State.setYoke_dbg (y : Nat) (x : Yoke) : (s.setYoke y x).dbg = s.dbg := rfl
@[simp] theorem State.setYoke_cust (y : Nat) (x : Yoke) : (s.setYoke y x).cust = s.cust := rfl
@[simp] theorem State.setYoke_lcs (y : Nat) (x : Yoke) : (s.setYoke y x).lcs = s.lcs := rfl
@[simp] theorem State.setYoke_flash (y : Nat) (x : Yoke) : (s.setYoke y x).flash = s.flash := rfl
@[simp] theorem State.setYoke_evr (y : Nat) (x : Yoke) : (s.setYoke y x).evr = s.evr := rfl
@[simp] theorem State.setYoke_clu (y : Nat) (x : Yoke) : (s.setYoke y x).clu = s.clu := rfl
@[simp] theorem State.setYoke_pwr (y : Nat) (x : Yoke) : (s.setYoke y x).pwr = s.pwr := rfl
@[simp] theorem State.setYoke_owed (y : Nat) (x : Yoke) : (s.setYoke y x).owed = s.owed := rfl
@[simp] theorem State.setYoke_snaps (y : Nat) (x : Yoke) : (s.setYoke y x).snaps = s.snaps := rfl

/-! `State.modYoke` -/

@[simp] theorem State.modYoke_pending (y : Nat) (f : Yoke → Yoke) : (s.modYoke y f).pending = s.pending := rfl
@[simp] theorem State.modYoke_now (y : Nat) (f : Yoke → Yoke) : (s.modYoke y f).now = s.now := rfl
@[simp] theorem State.modYoke_free (y : Nat) (f : Yoke → Yoke) : (s.modYoke y f).free = s.free := rfl
@[simp] theorem State.modYoke_out (y : Nat) (f : Yoke → Yoke) : (s.modYoke y f).out = s.out := rfl
@[simp] theorem State.modYoke_link (y : Nat) (f : Yoke → Yoke) : (s.modYoke y f).link = s.link := rfl
@[simp] theorem State.modYoke_adm (y : Nat) (f : Yoke → Yoke) : (s.modYoke y f).adm = s.adm := rfl
@[simp] theorem State.modYoke_disp (y : Nat) (f : Yoke → Yoke) : (s.modYoke y f).disp = s.disp := rfl
@[simp] theorem State.modYoke_plots (y : Nat) (f : Yoke → Yoke) : (s.modYoke y f).plots = s.plots := rfl
@[simp] theorem State.modYoke_yreg (y : Nat) (f : Yoke → Yoke) : (s.modYoke y f).yreg = s.yreg := rfl
@[simp] theorem State.modYoke_stw (y : Nat) (f : Yoke → Yoke) : (s.modYoke y f).stw = s.stw := rfl
@[simp] theorem State.modYoke_prog (y : Nat) (f : Yoke → Yoke) : (s.modYoke y f).prog = s.prog := rfl
@[simp] theorem State.modYoke_kp (y : Nat) (f : Yoke → Yoke) : (s.modYoke y f).kp = s.kp := rfl
@[simp] theorem State.modYoke_rpl (y : Nat) (f : Yoke → Yoke) : (s.modYoke y f).rpl = s.rpl := rfl
@[simp] theorem State.modYoke_vlt (y : Nat) (f : Yoke → Yoke) : (s.modYoke y f).vlt = s.vlt := rfl
@[simp] theorem State.modYoke_lan (y : Nat) (f : Yoke → Yoke) : (s.modYoke y f).lan = s.lan := rfl
@[simp] theorem State.modYoke_pke (y : Nat) (f : Yoke → Yoke) : (s.modYoke y f).pke = s.pke := rfl
@[simp] theorem State.modYoke_rng (y : Nat) (f : Yoke → Yoke) : (s.modYoke y f).rng = s.rng := rfl
@[simp] theorem State.modYoke_kpr (y : Nat) (f : Yoke → Yoke) : (s.modYoke y f).kpr = s.kpr := rfl
@[simp] theorem State.modYoke_hdg (y : Nat) (f : Yoke → Yoke) : (s.modYoke y f).hdg = s.hdg := rfl
@[simp] theorem State.modYoke_dbg (y : Nat) (f : Yoke → Yoke) : (s.modYoke y f).dbg = s.dbg := rfl
@[simp] theorem State.modYoke_cust (y : Nat) (f : Yoke → Yoke) : (s.modYoke y f).cust = s.cust := rfl
@[simp] theorem State.modYoke_lcs (y : Nat) (f : Yoke → Yoke) : (s.modYoke y f).lcs = s.lcs := rfl
@[simp] theorem State.modYoke_flash (y : Nat) (f : Yoke → Yoke) : (s.modYoke y f).flash = s.flash := rfl
@[simp] theorem State.modYoke_evr (y : Nat) (f : Yoke → Yoke) : (s.modYoke y f).evr = s.evr := rfl
@[simp] theorem State.modYoke_clu (y : Nat) (f : Yoke → Yoke) : (s.modYoke y f).clu = s.clu := rfl
@[simp] theorem State.modYoke_pwr (y : Nat) (f : Yoke → Yoke) : (s.modYoke y f).pwr = s.pwr := rfl
@[simp] theorem State.modYoke_owed (y : Nat) (f : Yoke → Yoke) : (s.modYoke y f).owed = s.owed := rfl
@[simp] theorem State.modYoke_snaps (y : Nat) (f : Yoke → Yoke) : (s.modYoke y f).snaps = s.snaps := rfl

/-! `State.modTx` -/

@[simp] theorem State.modTx_pending (y : Nat) (f : Tx → Tx) : (s.modTx y f).pending = s.pending := rfl
@[simp] theorem State.modTx_now (y : Nat) (f : Tx → Tx) : (s.modTx y f).now = s.now := rfl
@[simp] theorem State.modTx_free (y : Nat) (f : Tx → Tx) : (s.modTx y f).free = s.free := rfl
@[simp] theorem State.modTx_out (y : Nat) (f : Tx → Tx) : (s.modTx y f).out = s.out := rfl
@[simp] theorem State.modTx_link (y : Nat) (f : Tx → Tx) : (s.modTx y f).link = s.link := rfl
@[simp] theorem State.modTx_adm (y : Nat) (f : Tx → Tx) : (s.modTx y f).adm = s.adm := rfl
@[simp] theorem State.modTx_disp (y : Nat) (f : Tx → Tx) : (s.modTx y f).disp = s.disp := rfl
@[simp] theorem State.modTx_plots (y : Nat) (f : Tx → Tx) : (s.modTx y f).plots = s.plots := rfl
@[simp] theorem State.modTx_yreg (y : Nat) (f : Tx → Tx) : (s.modTx y f).yreg = s.yreg := rfl
@[simp] theorem State.modTx_stw (y : Nat) (f : Tx → Tx) : (s.modTx y f).stw = s.stw := rfl
@[simp] theorem State.modTx_prog (y : Nat) (f : Tx → Tx) : (s.modTx y f).prog = s.prog := rfl
@[simp] theorem State.modTx_kp (y : Nat) (f : Tx → Tx) : (s.modTx y f).kp = s.kp := rfl
@[simp] theorem State.modTx_rpl (y : Nat) (f : Tx → Tx) : (s.modTx y f).rpl = s.rpl := rfl
@[simp] theorem State.modTx_vlt (y : Nat) (f : Tx → Tx) : (s.modTx y f).vlt = s.vlt := rfl
@[simp] theorem State.modTx_lan (y : Nat) (f : Tx → Tx) : (s.modTx y f).lan = s.lan := rfl
@[simp] theorem State.modTx_pke (y : Nat) (f : Tx → Tx) : (s.modTx y f).pke = s.pke := rfl
@[simp] theorem State.modTx_rng (y : Nat) (f : Tx → Tx) : (s.modTx y f).rng = s.rng := rfl
@[simp] theorem State.modTx_kpr (y : Nat) (f : Tx → Tx) : (s.modTx y f).kpr = s.kpr := rfl
@[simp] theorem State.modTx_hdg (y : Nat) (f : Tx → Tx) : (s.modTx y f).hdg = s.hdg := rfl
@[simp] theorem State.modTx_dbg (y : Nat) (f : Tx → Tx) : (s.modTx y f).dbg = s.dbg := rfl
@[simp] theorem State.modTx_cust (y : Nat) (f : Tx → Tx) : (s.modTx y f).cust = s.cust := rfl
@[simp] theorem State.modTx_lcs (y : Nat) (f : Tx → Tx) : (s.modTx y f).lcs = s.lcs := rfl
@[simp] theorem State.modTx_flash (y : Nat) (f : Tx → Tx) : (s.modTx y f).flash = s.flash := rfl
@[simp] theorem State.modTx_evr (y : Nat) (f : Tx → Tx) : (s.modTx y f).evr = s.evr := rfl
@[simp] theorem State.modTx_clu (y : Nat) (f : Tx → Tx) : (s.modTx y f).clu = s.clu := rfl
@[simp] theorem State.modTx_pwr (y : Nat) (f : Tx → Tx) : (s.modTx y f).pwr = s.pwr := rfl
@[simp] theorem State.modTx_owed (y : Nat) (f : Tx → Tx) : (s.modTx y f).owed = s.owed := rfl
@[simp] theorem State.modTx_snaps (y : Nat) (f : Tx → Tx) : (s.modTx y f).snaps = s.snaps := rfl

/-! `State.setHop` -/

@[simp] theorem State.setHop_pending (r : HopRef) (x : Hopper) : (s.setHop r x).pending = s.pending := by cases r <;> rfl
@[simp] theorem State.setHop_now (r : HopRef) (x : Hopper) : (s.setHop r x).now = s.now := by cases r <;> rfl
@[simp] theorem State.setHop_free (r : HopRef) (x : Hopper) : (s.setHop r x).free = s.free := by cases r <;> rfl
@[simp] theorem State.setHop_out (r : HopRef) (x : Hopper) : (s.setHop r x).out = s.out := by cases r <;> rfl
@[simp] theorem State.setHop_link (r : HopRef) (x : Hopper) : (s.setHop r x).link = s.link := by cases r <;> rfl
@[simp] theorem State.setHop_disp (r : HopRef) (x : Hopper) : (s.setHop r x).disp = s.disp := by cases r <;> rfl
@[simp] theorem State.setHop_yokes (r : HopRef) (x : Hopper) : (s.setHop r x).yokes = s.yokes := by cases r <;> rfl
@[simp] theorem State.setHop_yreg (r : HopRef) (x : Hopper) : (s.setHop r x).yreg = s.yreg := by cases r <;> rfl
@[simp] theorem State.setHop_stw (r : HopRef) (x : Hopper) : (s.setHop r x).stw = s.stw := by cases r <;> rfl
@[simp] theorem State.setHop_prog (r : HopRef) (x : Hopper) : (s.setHop r x).prog = s.prog := by cases r <;> rfl
@[simp] theorem State.setHop_kp (r : HopRef) (x : Hopper) : (s.setHop r x).kp = s.kp := by cases r <;> rfl
@[simp] theorem State.setHop_rpl (r : HopRef) (x : Hopper) : (s.setHop r x).rpl = s.rpl := by cases r <;> rfl
@[simp] theorem State.setHop_vlt (r : HopRef) (x : Hopper) : (s.setHop r x).vlt = s.vlt := by cases r <;> rfl
@[simp] theorem State.setHop_lan (r : HopRef) (x : Hopper) : (s.setHop r x).lan = s.lan := by cases r <;> rfl
@[simp] theorem State.setHop_pke (r : HopRef) (x : Hopper) : (s.setHop r x).pke = s.pke := by cases r <;> rfl
@[simp] theorem State.setHop_rng (r : HopRef) (x : Hopper) : (s.setHop r x).rng = s.rng := by cases r <;> rfl
@[simp] theorem State.setHop_kpr (r : HopRef) (x : Hopper) : (s.setHop r x).kpr = s.kpr := by cases r <;> rfl
@[simp] theorem State.setHop_hdg (r : HopRef) (x : Hopper) : (s.setHop r x).hdg = s.hdg := by cases r <;> rfl
@[simp] theorem State.setHop_dbg (r : HopRef) (x : Hopper) : (s.setHop r x).dbg = s.dbg := by cases r <;> rfl
@[simp] theorem State.setHop_cust (r : HopRef) (x : Hopper) : (s.setHop r x).cust = s.cust := by cases r <;> rfl
@[simp] theorem State.setHop_lcs (r : HopRef) (x : Hopper) : (s.setHop r x).lcs = s.lcs := by cases r <;> rfl
@[simp] theorem State.setHop_flash (r : HopRef) (x : Hopper) : (s.setHop r x).flash = s.flash := by cases r <;> rfl
@[simp] theorem State.setHop_evr (r : HopRef) (x : Hopper) : (s.setHop r x).evr = s.evr := by cases r <;> rfl
@[simp] theorem State.setHop_clu (r : HopRef) (x : Hopper) : (s.setHop r x).clu = s.clu := by cases r <;> rfl
@[simp] theorem State.setHop_pwr (r : HopRef) (x : Hopper) : (s.setHop r x).pwr = s.pwr := by cases r <;> rfl
@[simp] theorem State.setHop_owed (r : HopRef) (x : Hopper) : (s.setHop r x).owed = s.owed := by cases r <;> rfl
@[simp] theorem State.setHop_snaps (r : HopRef) (x : Hopper) : (s.setHop r x).snaps = s.snaps := by cases r <;> rfl

/-! `State.modHop` -/

@[simp] theorem State.modHop_pending (r : HopRef) (f : Hopper → Hopper) : (s.modHop r f).pending = s.pending := by cases r <;> rfl
@[simp] theorem State.modHop_now (r : HopRef) (f : Hopper → Hopper) : (s.modHop r f).now = s.now := by cases r <;> rfl
@[simp] theorem State.modHop_free (r : HopRef) (f : Hopper → Hopper) : (s.modHop r f).free = s.free := by cases r <;> rfl
@[simp] theorem State.modHop_out (r : HopRef) (f : Hopper → Hopper) : (s.modHop r f).out = s.out := by cases r <;> rfl
@[simp] theorem State.modHop_link (r : HopRef) (f : Hopper → Hopper) : (s.modHop r f).link = s.link := by cases r <;> rfl
@[simp] theorem State.modHop_disp (r : HopRef) (f : Hopper → Hopper) : (s.modHop r f).disp = s.disp := by cases r <;> rfl
@[simp] theorem State.modHop_yokes (r : HopRef) (f : Hopper → Hopper) : (s.modHop r f).yokes = s.yokes := by cases r <;> rfl
@[simp] theorem State.modHop_yreg (r : HopRef) (f : Hopper → Hopper) : (s.modHop r f).yreg = s.yreg := by cases r <;> rfl
@[simp] theorem State.modHop_stw (r : HopRef) (f : Hopper → Hopper) : (s.modHop r f).stw = s.stw := by cases r <;> rfl
@[simp] theorem State.modHop_prog (r : HopRef) (f : Hopper → Hopper) : (s.modHop r f).prog = s.prog := by cases r <;> rfl
@[simp] theorem State.modHop_kp (r : HopRef) (f : Hopper → Hopper) : (s.modHop r f).kp = s.kp := by cases r <;> rfl
@[simp] theorem State.modHop_rpl (r : HopRef) (f : Hopper → Hopper) : (s.modHop r f).rpl = s.rpl := by cases r <;> rfl
@[simp] theorem State.modHop_vlt (r : HopRef) (f : Hopper → Hopper) : (s.modHop r f).vlt = s.vlt := by cases r <;> rfl
@[simp] theorem State.modHop_lan (r : HopRef) (f : Hopper → Hopper) : (s.modHop r f).lan = s.lan := by cases r <;> rfl
@[simp] theorem State.modHop_pke (r : HopRef) (f : Hopper → Hopper) : (s.modHop r f).pke = s.pke := by cases r <;> rfl
@[simp] theorem State.modHop_rng (r : HopRef) (f : Hopper → Hopper) : (s.modHop r f).rng = s.rng := by cases r <;> rfl
@[simp] theorem State.modHop_kpr (r : HopRef) (f : Hopper → Hopper) : (s.modHop r f).kpr = s.kpr := by cases r <;> rfl
@[simp] theorem State.modHop_hdg (r : HopRef) (f : Hopper → Hopper) : (s.modHop r f).hdg = s.hdg := by cases r <;> rfl
@[simp] theorem State.modHop_dbg (r : HopRef) (f : Hopper → Hopper) : (s.modHop r f).dbg = s.dbg := by cases r <;> rfl
@[simp] theorem State.modHop_cust (r : HopRef) (f : Hopper → Hopper) : (s.modHop r f).cust = s.cust := by cases r <;> rfl
@[simp] theorem State.modHop_lcs (r : HopRef) (f : Hopper → Hopper) : (s.modHop r f).lcs = s.lcs := by cases r <;> rfl
@[simp] theorem State.modHop_flash (r : HopRef) (f : Hopper → Hopper) : (s.modHop r f).flash = s.flash := by cases r <;> rfl
@[simp] theorem State.modHop_evr (r : HopRef) (f : Hopper → Hopper) : (s.modHop r f).evr = s.evr := by cases r <;> rfl
@[simp] theorem State.modHop_clu (r : HopRef) (f : Hopper → Hopper) : (s.modHop r f).clu = s.clu := by cases r <;> rfl
@[simp] theorem State.modHop_pwr (r : HopRef) (f : Hopper → Hopper) : (s.modHop r f).pwr = s.pwr := by cases r <;> rfl
@[simp] theorem State.modHop_owed (r : HopRef) (f : Hopper → Hopper) : (s.modHop r f).owed = s.owed := by cases r <;> rfl
@[simp] theorem State.modHop_snaps (r : HopRef) (f : Hopper → Hopper) : (s.modHop r f).snaps = s.snaps := by cases r <;> rfl

/-! `State.setMsix` -/

@[simp] theorem State.setMsix_pending (f : Fn) (m : Msix) : (s.setMsix f m).pending = s.pending := rfl
@[simp] theorem State.setMsix_now (f : Fn) (m : Msix) : (s.setMsix f m).now = s.now := rfl
@[simp] theorem State.setMsix_free (f : Fn) (m : Msix) : (s.setMsix f m).free = s.free := rfl
@[simp] theorem State.setMsix_out (f : Fn) (m : Msix) : (s.setMsix f m).out = s.out := rfl
@[simp] theorem State.setMsix_adm (f : Fn) (m : Msix) : (s.setMsix f m).adm = s.adm := rfl
@[simp] theorem State.setMsix_disp (f : Fn) (m : Msix) : (s.setMsix f m).disp = s.disp := rfl
@[simp] theorem State.setMsix_plots (f : Fn) (m : Msix) : (s.setMsix f m).plots = s.plots := rfl
@[simp] theorem State.setMsix_yokes (f : Fn) (m : Msix) : (s.setMsix f m).yokes = s.yokes := rfl
@[simp] theorem State.setMsix_yreg (f : Fn) (m : Msix) : (s.setMsix f m).yreg = s.yreg := rfl
@[simp] theorem State.setMsix_stw (f : Fn) (m : Msix) : (s.setMsix f m).stw = s.stw := rfl
@[simp] theorem State.setMsix_prog (f : Fn) (m : Msix) : (s.setMsix f m).prog = s.prog := rfl
@[simp] theorem State.setMsix_kp (f : Fn) (m : Msix) : (s.setMsix f m).kp = s.kp := rfl
@[simp] theorem State.setMsix_rpl (f : Fn) (m : Msix) : (s.setMsix f m).rpl = s.rpl := rfl
@[simp] theorem State.setMsix_vlt (f : Fn) (m : Msix) : (s.setMsix f m).vlt = s.vlt := rfl
@[simp] theorem State.setMsix_lan (f : Fn) (m : Msix) : (s.setMsix f m).lan = s.lan := rfl
@[simp] theorem State.setMsix_pke (f : Fn) (m : Msix) : (s.setMsix f m).pke = s.pke := rfl
@[simp] theorem State.setMsix_rng (f : Fn) (m : Msix) : (s.setMsix f m).rng = s.rng := rfl
@[simp] theorem State.setMsix_kpr (f : Fn) (m : Msix) : (s.setMsix f m).kpr = s.kpr := rfl
@[simp] theorem State.setMsix_hdg (f : Fn) (m : Msix) : (s.setMsix f m).hdg = s.hdg := rfl
@[simp] theorem State.setMsix_dbg (f : Fn) (m : Msix) : (s.setMsix f m).dbg = s.dbg := rfl
@[simp] theorem State.setMsix_cust (f : Fn) (m : Msix) : (s.setMsix f m).cust = s.cust := rfl
@[simp] theorem State.setMsix_lcs (f : Fn) (m : Msix) : (s.setMsix f m).lcs = s.lcs := rfl
@[simp] theorem State.setMsix_flash (f : Fn) (m : Msix) : (s.setMsix f m).flash = s.flash := rfl
@[simp] theorem State.setMsix_evr (f : Fn) (m : Msix) : (s.setMsix f m).evr = s.evr := rfl
@[simp] theorem State.setMsix_clu (f : Fn) (m : Msix) : (s.setMsix f m).clu = s.clu := rfl
@[simp] theorem State.setMsix_pwr (f : Fn) (m : Msix) : (s.setMsix f m).pwr = s.pwr := rfl
@[simp] theorem State.setMsix_owed (f : Fn) (m : Msix) : (s.setMsix f m).owed = s.owed := rfl
@[simp] theorem State.setMsix_snaps (f : Fn) (m : Msix) : (s.setMsix f m).snaps = s.snaps := rfl

/-! `State.setCore` -/

@[simp] theorem State.setCore_pending (c : CoreId) (k : Core) : (s.setCore c k).pending = s.pending := by cases c <;> rfl
@[simp] theorem State.setCore_now (c : CoreId) (k : Core) : (s.setCore c k).now = s.now := by cases c <;> rfl
@[simp] theorem State.setCore_free (c : CoreId) (k : Core) : (s.setCore c k).free = s.free := by cases c <;> rfl
@[simp] theorem State.setCore_out (c : CoreId) (k : Core) : (s.setCore c k).out = s.out := by cases c <;> rfl
@[simp] theorem State.setCore_link (c : CoreId) (k : Core) : (s.setCore c k).link = s.link := by cases c <;> rfl
@[simp] theorem State.setCore_adm (c : CoreId) (k : Core) : (s.setCore c k).adm = s.adm := by cases c <;> rfl
@[simp] theorem State.setCore_disp (c : CoreId) (k : Core) : (s.setCore c k).disp = s.disp := by cases c <;> rfl
@[simp] theorem State.setCore_plots (c : CoreId) (k : Core) : (s.setCore c k).plots = s.plots := by cases c <;> rfl
@[simp] theorem State.setCore_yreg (c : CoreId) (k : Core) : (s.setCore c k).yreg = s.yreg := by cases c <;> rfl
@[simp] theorem State.setCore_prog (c : CoreId) (k : Core) : (s.setCore c k).prog = s.prog := by cases c <;> rfl
@[simp] theorem State.setCore_kp (c : CoreId) (k : Core) : (s.setCore c k).kp = s.kp := by cases c <;> rfl
@[simp] theorem State.setCore_rpl (c : CoreId) (k : Core) : (s.setCore c k).rpl = s.rpl := by cases c <;> rfl
@[simp] theorem State.setCore_vlt (c : CoreId) (k : Core) : (s.setCore c k).vlt = s.vlt := by cases c <;> rfl
@[simp] theorem State.setCore_lan (c : CoreId) (k : Core) : (s.setCore c k).lan = s.lan := by cases c <;> rfl
@[simp] theorem State.setCore_pke (c : CoreId) (k : Core) : (s.setCore c k).pke = s.pke := by cases c <;> rfl
@[simp] theorem State.setCore_rng (c : CoreId) (k : Core) : (s.setCore c k).rng = s.rng := by cases c <;> rfl
@[simp] theorem State.setCore_kpr (c : CoreId) (k : Core) : (s.setCore c k).kpr = s.kpr := by cases c <;> rfl
@[simp] theorem State.setCore_hdg (c : CoreId) (k : Core) : (s.setCore c k).hdg = s.hdg := by cases c <;> rfl
@[simp] theorem State.setCore_dbg (c : CoreId) (k : Core) : (s.setCore c k).dbg = s.dbg := by cases c <;> rfl
@[simp] theorem State.setCore_cust (c : CoreId) (k : Core) : (s.setCore c k).cust = s.cust := by cases c <;> rfl
@[simp] theorem State.setCore_lcs (c : CoreId) (k : Core) : (s.setCore c k).lcs = s.lcs := by cases c <;> rfl
@[simp] theorem State.setCore_flash (c : CoreId) (k : Core) : (s.setCore c k).flash = s.flash := by cases c <;> rfl
@[simp] theorem State.setCore_evr (c : CoreId) (k : Core) : (s.setCore c k).evr = s.evr := by cases c <;> rfl
@[simp] theorem State.setCore_clu (c : CoreId) (k : Core) : (s.setCore c k).clu = s.clu := by cases c <;> rfl
@[simp] theorem State.setCore_pwr (c : CoreId) (k : Core) : (s.setCore c k).pwr = s.pwr := by cases c <;> rfl
@[simp] theorem State.setCore_owed (c : CoreId) (k : Core) : (s.setCore c k).owed = s.owed := by cases c <;> rfl
@[simp] theorem State.setCore_snaps (c : CoreId) (k : Core) : (s.setCore c k).snaps = s.snaps := by cases c <;> rfl

/-! `State.modSlot` -/

@[simp] theorem State.modSlot_pending (i : Nat) (f : Slot → Slot) : (s.modSlot i f).pending = s.pending := rfl
@[simp] theorem State.modSlot_now (i : Nat) (f : Slot → Slot) : (s.modSlot i f).now = s.now := rfl
@[simp] theorem State.modSlot_free (i : Nat) (f : Slot → Slot) : (s.modSlot i f).free = s.free := rfl
@[simp] theorem State.modSlot_out (i : Nat) (f : Slot → Slot) : (s.modSlot i f).out = s.out := rfl
@[simp] theorem State.modSlot_link (i : Nat) (f : Slot → Slot) : (s.modSlot i f).link = s.link := rfl
@[simp] theorem State.modSlot_adm (i : Nat) (f : Slot → Slot) : (s.modSlot i f).adm = s.adm := rfl
@[simp] theorem State.modSlot_disp (i : Nat) (f : Slot → Slot) : (s.modSlot i f).disp = s.disp := rfl
@[simp] theorem State.modSlot_plots (i : Nat) (f : Slot → Slot) : (s.modSlot i f).plots = s.plots := rfl
@[simp] theorem State.modSlot_yokes (i : Nat) (f : Slot → Slot) : (s.modSlot i f).yokes = s.yokes := rfl
@[simp] theorem State.modSlot_yreg (i : Nat) (f : Slot → Slot) : (s.modSlot i f).yreg = s.yreg := rfl
@[simp] theorem State.modSlot_stw (i : Nat) (f : Slot → Slot) : (s.modSlot i f).stw = s.stw := rfl
@[simp] theorem State.modSlot_prog (i : Nat) (f : Slot → Slot) : (s.modSlot i f).prog = s.prog := rfl
@[simp] theorem State.modSlot_rpl (i : Nat) (f : Slot → Slot) : (s.modSlot i f).rpl = s.rpl := rfl
@[simp] theorem State.modSlot_vlt (i : Nat) (f : Slot → Slot) : (s.modSlot i f).vlt = s.vlt := rfl
@[simp] theorem State.modSlot_lan (i : Nat) (f : Slot → Slot) : (s.modSlot i f).lan = s.lan := rfl
@[simp] theorem State.modSlot_pke (i : Nat) (f : Slot → Slot) : (s.modSlot i f).pke = s.pke := rfl
@[simp] theorem State.modSlot_rng (i : Nat) (f : Slot → Slot) : (s.modSlot i f).rng = s.rng := rfl
@[simp] theorem State.modSlot_kpr (i : Nat) (f : Slot → Slot) : (s.modSlot i f).kpr = s.kpr := rfl
@[simp] theorem State.modSlot_hdg (i : Nat) (f : Slot → Slot) : (s.modSlot i f).hdg = s.hdg := rfl
@[simp] theorem State.modSlot_dbg (i : Nat) (f : Slot → Slot) : (s.modSlot i f).dbg = s.dbg := rfl
@[simp] theorem State.modSlot_cust (i : Nat) (f : Slot → Slot) : (s.modSlot i f).cust = s.cust := rfl
@[simp] theorem State.modSlot_lcs (i : Nat) (f : Slot → Slot) : (s.modSlot i f).lcs = s.lcs := rfl
@[simp] theorem State.modSlot_flash (i : Nat) (f : Slot → Slot) : (s.modSlot i f).flash = s.flash := rfl
@[simp] theorem State.modSlot_evr (i : Nat) (f : Slot → Slot) : (s.modSlot i f).evr = s.evr := rfl
@[simp] theorem State.modSlot_clu (i : Nat) (f : Slot → Slot) : (s.modSlot i f).clu = s.clu := rfl
@[simp] theorem State.modSlot_pwr (i : Nat) (f : Slot → Slot) : (s.modSlot i f).pwr = s.pwr := rfl
@[simp] theorem State.modSlot_owed (i : Nat) (f : Slot → Slot) : (s.modSlot i f).owed = s.owed := rfl
@[simp] theorem State.modSlot_snaps (i : Nat) (f : Slot → Slot) : (s.modSlot i f).snaps = s.snaps := rfl

/-! `State.modCtx` -/

@[simp] theorem State.modCtx_pending (i : Nat) (f : LaneCtx → LaneCtx) : (s.modCtx i f).pending = s.pending := rfl
@[simp] theorem State.modCtx_now (i : Nat) (f : LaneCtx → LaneCtx) : (s.modCtx i f).now = s.now := rfl
@[simp] theorem State.modCtx_free (i : Nat) (f : LaneCtx → LaneCtx) : (s.modCtx i f).free = s.free := rfl
@[simp] theorem State.modCtx_out (i : Nat) (f : LaneCtx → LaneCtx) : (s.modCtx i f).out = s.out := rfl
@[simp] theorem State.modCtx_link (i : Nat) (f : LaneCtx → LaneCtx) : (s.modCtx i f).link = s.link := rfl
@[simp] theorem State.modCtx_adm (i : Nat) (f : LaneCtx → LaneCtx) : (s.modCtx i f).adm = s.adm := rfl
@[simp] theorem State.modCtx_disp (i : Nat) (f : LaneCtx → LaneCtx) : (s.modCtx i f).disp = s.disp := rfl
@[simp] theorem State.modCtx_plots (i : Nat) (f : LaneCtx → LaneCtx) : (s.modCtx i f).plots = s.plots := rfl
@[simp] theorem State.modCtx_yokes (i : Nat) (f : LaneCtx → LaneCtx) : (s.modCtx i f).yokes = s.yokes := rfl
@[simp] theorem State.modCtx_yreg (i : Nat) (f : LaneCtx → LaneCtx) : (s.modCtx i f).yreg = s.yreg := rfl
@[simp] theorem State.modCtx_stw (i : Nat) (f : LaneCtx → LaneCtx) : (s.modCtx i f).stw = s.stw := rfl
@[simp] theorem State.modCtx_prog (i : Nat) (f : LaneCtx → LaneCtx) : (s.modCtx i f).prog = s.prog := rfl
@[simp] theorem State.modCtx_kp (i : Nat) (f : LaneCtx → LaneCtx) : (s.modCtx i f).kp = s.kp := rfl
@[simp] theorem State.modCtx_rpl (i : Nat) (f : LaneCtx → LaneCtx) : (s.modCtx i f).rpl = s.rpl := rfl
@[simp] theorem State.modCtx_vlt (i : Nat) (f : LaneCtx → LaneCtx) : (s.modCtx i f).vlt = s.vlt := rfl
@[simp] theorem State.modCtx_pke (i : Nat) (f : LaneCtx → LaneCtx) : (s.modCtx i f).pke = s.pke := rfl
@[simp] theorem State.modCtx_rng (i : Nat) (f : LaneCtx → LaneCtx) : (s.modCtx i f).rng = s.rng := rfl
@[simp] theorem State.modCtx_kpr (i : Nat) (f : LaneCtx → LaneCtx) : (s.modCtx i f).kpr = s.kpr := rfl
@[simp] theorem State.modCtx_hdg (i : Nat) (f : LaneCtx → LaneCtx) : (s.modCtx i f).hdg = s.hdg := rfl
@[simp] theorem State.modCtx_dbg (i : Nat) (f : LaneCtx → LaneCtx) : (s.modCtx i f).dbg = s.dbg := rfl
@[simp] theorem State.modCtx_cust (i : Nat) (f : LaneCtx → LaneCtx) : (s.modCtx i f).cust = s.cust := rfl
@[simp] theorem State.modCtx_lcs (i : Nat) (f : LaneCtx → LaneCtx) : (s.modCtx i f).lcs = s.lcs := rfl
@[simp] theorem State.modCtx_flash (i : Nat) (f : LaneCtx → LaneCtx) : (s.modCtx i f).flash = s.flash := rfl
@[simp] theorem State.modCtx_evr (i : Nat) (f : LaneCtx → LaneCtx) : (s.modCtx i f).evr = s.evr := rfl
@[simp] theorem State.modCtx_clu (i : Nat) (f : LaneCtx → LaneCtx) : (s.modCtx i f).clu = s.clu := rfl
@[simp] theorem State.modCtx_pwr (i : Nat) (f : LaneCtx → LaneCtx) : (s.modCtx i f).pwr = s.pwr := rfl
@[simp] theorem State.modCtx_owed (i : Nat) (f : LaneCtx → LaneCtx) : (s.modCtx i f).owed = s.owed := rfl
@[simp] theorem State.modCtx_snaps (i : Nat) (f : LaneCtx → LaneCtx) : (s.modCtx i f).snaps = s.snaps := rfl

/-! `State.modEslot` -/

@[simp] theorem State.modEslot_pending (i : Nat) (f : EngSlot → EngSlot) : (s.modEslot i f).pending = s.pending := rfl
@[simp] theorem State.modEslot_now (i : Nat) (f : EngSlot → EngSlot) : (s.modEslot i f).now = s.now := rfl
@[simp] theorem State.modEslot_free (i : Nat) (f : EngSlot → EngSlot) : (s.modEslot i f).free = s.free := rfl
@[simp] theorem State.modEslot_out (i : Nat) (f : EngSlot → EngSlot) : (s.modEslot i f).out = s.out := rfl
@[simp] theorem State.modEslot_link (i : Nat) (f : EngSlot → EngSlot) : (s.modEslot i f).link = s.link := rfl
@[simp] theorem State.modEslot_adm (i : Nat) (f : EngSlot → EngSlot) : (s.modEslot i f).adm = s.adm := rfl
@[simp] theorem State.modEslot_disp (i : Nat) (f : EngSlot → EngSlot) : (s.modEslot i f).disp = s.disp := rfl
@[simp] theorem State.modEslot_plots (i : Nat) (f : EngSlot → EngSlot) : (s.modEslot i f).plots = s.plots := rfl
@[simp] theorem State.modEslot_yokes (i : Nat) (f : EngSlot → EngSlot) : (s.modEslot i f).yokes = s.yokes := rfl
@[simp] theorem State.modEslot_yreg (i : Nat) (f : EngSlot → EngSlot) : (s.modEslot i f).yreg = s.yreg := rfl
@[simp] theorem State.modEslot_stw (i : Nat) (f : EngSlot → EngSlot) : (s.modEslot i f).stw = s.stw := rfl
@[simp] theorem State.modEslot_prog (i : Nat) (f : EngSlot → EngSlot) : (s.modEslot i f).prog = s.prog := rfl
@[simp] theorem State.modEslot_kp (i : Nat) (f : EngSlot → EngSlot) : (s.modEslot i f).kp = s.kp := rfl
@[simp] theorem State.modEslot_rpl (i : Nat) (f : EngSlot → EngSlot) : (s.modEslot i f).rpl = s.rpl := rfl
@[simp] theorem State.modEslot_vlt (i : Nat) (f : EngSlot → EngSlot) : (s.modEslot i f).vlt = s.vlt := rfl
@[simp] theorem State.modEslot_lan (i : Nat) (f : EngSlot → EngSlot) : (s.modEslot i f).lan = s.lan := rfl
@[simp] theorem State.modEslot_rng (i : Nat) (f : EngSlot → EngSlot) : (s.modEslot i f).rng = s.rng := rfl
@[simp] theorem State.modEslot_kpr (i : Nat) (f : EngSlot → EngSlot) : (s.modEslot i f).kpr = s.kpr := rfl
@[simp] theorem State.modEslot_hdg (i : Nat) (f : EngSlot → EngSlot) : (s.modEslot i f).hdg = s.hdg := rfl
@[simp] theorem State.modEslot_dbg (i : Nat) (f : EngSlot → EngSlot) : (s.modEslot i f).dbg = s.dbg := rfl
@[simp] theorem State.modEslot_cust (i : Nat) (f : EngSlot → EngSlot) : (s.modEslot i f).cust = s.cust := rfl
@[simp] theorem State.modEslot_lcs (i : Nat) (f : EngSlot → EngSlot) : (s.modEslot i f).lcs = s.lcs := rfl
@[simp] theorem State.modEslot_flash (i : Nat) (f : EngSlot → EngSlot) : (s.modEslot i f).flash = s.flash := rfl
@[simp] theorem State.modEslot_evr (i : Nat) (f : EngSlot → EngSlot) : (s.modEslot i f).evr = s.evr := rfl
@[simp] theorem State.modEslot_clu (i : Nat) (f : EngSlot → EngSlot) : (s.modEslot i f).clu = s.clu := rfl
@[simp] theorem State.modEslot_pwr (i : Nat) (f : EngSlot → EngSlot) : (s.modEslot i f).pwr = s.pwr := rfl
@[simp] theorem State.modEslot_owed (i : Nat) (f : EngSlot → EngSlot) : (s.modEslot i f).owed = s.owed := rfl
@[simp] theorem State.modEslot_snaps (i : Nat) (f : EngSlot → EngSlot) : (s.modEslot i f).snaps = s.snaps := rfl

/-! `State.modMac` -/

@[simp] theorem State.modMac_pending (e : Nat) (f : Mac → Mac) : (s.modMac e f).pending = s.pending := rfl
@[simp] theorem State.modMac_now (e : Nat) (f : Mac → Mac) : (s.modMac e f).now = s.now := rfl
@[simp] theorem State.modMac_free (e : Nat) (f : Mac → Mac) : (s.modMac e f).free = s.free := rfl
@[simp] theorem State.modMac_out (e : Nat) (f : Mac → Mac) : (s.modMac e f).out = s.out := rfl
@[simp] theorem State.modMac_link (e : Nat) (f : Mac → Mac) : (s.modMac e f).link = s.link := rfl
@[simp] theorem State.modMac_adm (e : Nat) (f : Mac → Mac) : (s.modMac e f).adm = s.adm := rfl
@[simp] theorem State.modMac_disp (e : Nat) (f : Mac → Mac) : (s.modMac e f).disp = s.disp := rfl
@[simp] theorem State.modMac_plots (e : Nat) (f : Mac → Mac) : (s.modMac e f).plots = s.plots := rfl
@[simp] theorem State.modMac_yokes (e : Nat) (f : Mac → Mac) : (s.modMac e f).yokes = s.yokes := rfl
@[simp] theorem State.modMac_yreg (e : Nat) (f : Mac → Mac) : (s.modMac e f).yreg = s.yreg := rfl
@[simp] theorem State.modMac_stw (e : Nat) (f : Mac → Mac) : (s.modMac e f).stw = s.stw := rfl
@[simp] theorem State.modMac_prog (e : Nat) (f : Mac → Mac) : (s.modMac e f).prog = s.prog := rfl
@[simp] theorem State.modMac_kp (e : Nat) (f : Mac → Mac) : (s.modMac e f).kp = s.kp := rfl
@[simp] theorem State.modMac_rpl (e : Nat) (f : Mac → Mac) : (s.modMac e f).rpl = s.rpl := rfl
@[simp] theorem State.modMac_vlt (e : Nat) (f : Mac → Mac) : (s.modMac e f).vlt = s.vlt := rfl
@[simp] theorem State.modMac_lan (e : Nat) (f : Mac → Mac) : (s.modMac e f).lan = s.lan := rfl
@[simp] theorem State.modMac_rng (e : Nat) (f : Mac → Mac) : (s.modMac e f).rng = s.rng := rfl
@[simp] theorem State.modMac_kpr (e : Nat) (f : Mac → Mac) : (s.modMac e f).kpr = s.kpr := rfl
@[simp] theorem State.modMac_hdg (e : Nat) (f : Mac → Mac) : (s.modMac e f).hdg = s.hdg := rfl
@[simp] theorem State.modMac_dbg (e : Nat) (f : Mac → Mac) : (s.modMac e f).dbg = s.dbg := rfl
@[simp] theorem State.modMac_cust (e : Nat) (f : Mac → Mac) : (s.modMac e f).cust = s.cust := rfl
@[simp] theorem State.modMac_lcs (e : Nat) (f : Mac → Mac) : (s.modMac e f).lcs = s.lcs := rfl
@[simp] theorem State.modMac_flash (e : Nat) (f : Mac → Mac) : (s.modMac e f).flash = s.flash := rfl
@[simp] theorem State.modMac_evr (e : Nat) (f : Mac → Mac) : (s.modMac e f).evr = s.evr := rfl
@[simp] theorem State.modMac_clu (e : Nat) (f : Mac → Mac) : (s.modMac e f).clu = s.clu := rfl
@[simp] theorem State.modMac_pwr (e : Nat) (f : Mac → Mac) : (s.modMac e f).pwr = s.pwr := rfl
@[simp] theorem State.modMac_owed (e : Nat) (f : Mac → Mac) : (s.modMac e f).owed = s.owed := rfl
@[simp] theorem State.modMac_snaps (e : Nat) (f : Mac → Mac) : (s.modMac e f).snaps = s.snaps := rfl

/-! `State.setSrc` -/

@[simp] theorem State.setSrc_pending (i : Nat) (x : Src) : (s.setSrc i x).pending = s.pending := rfl
@[simp] theorem State.setSrc_now (i : Nat) (x : Src) : (s.setSrc i x).now = s.now := rfl
@[simp] theorem State.setSrc_free (i : Nat) (x : Src) : (s.setSrc i x).free = s.free := rfl
@[simp] theorem State.setSrc_out (i : Nat) (x : Src) : (s.setSrc i x).out = s.out := rfl
@[simp] theorem State.setSrc_link (i : Nat) (x : Src) : (s.setSrc i x).link = s.link := rfl
@[simp] theorem State.setSrc_adm (i : Nat) (x : Src) : (s.setSrc i x).adm = s.adm := rfl
@[simp] theorem State.setSrc_disp (i : Nat) (x : Src) : (s.setSrc i x).disp = s.disp := rfl
@[simp] theorem State.setSrc_plots (i : Nat) (x : Src) : (s.setSrc i x).plots = s.plots := rfl
@[simp] theorem State.setSrc_yokes (i : Nat) (x : Src) : (s.setSrc i x).yokes = s.yokes := rfl
@[simp] theorem State.setSrc_yreg (i : Nat) (x : Src) : (s.setSrc i x).yreg = s.yreg := rfl
@[simp] theorem State.setSrc_stw (i : Nat) (x : Src) : (s.setSrc i x).stw = s.stw := rfl
@[simp] theorem State.setSrc_prog (i : Nat) (x : Src) : (s.setSrc i x).prog = s.prog := rfl
@[simp] theorem State.setSrc_kp (i : Nat) (x : Src) : (s.setSrc i x).kp = s.kp := rfl
@[simp] theorem State.setSrc_rpl (i : Nat) (x : Src) : (s.setSrc i x).rpl = s.rpl := rfl
@[simp] theorem State.setSrc_vlt (i : Nat) (x : Src) : (s.setSrc i x).vlt = s.vlt := rfl
@[simp] theorem State.setSrc_lan (i : Nat) (x : Src) : (s.setSrc i x).lan = s.lan := rfl
@[simp] theorem State.setSrc_pke (i : Nat) (x : Src) : (s.setSrc i x).pke = s.pke := rfl
@[simp] theorem State.setSrc_kpr (i : Nat) (x : Src) : (s.setSrc i x).kpr = s.kpr := rfl
@[simp] theorem State.setSrc_hdg (i : Nat) (x : Src) : (s.setSrc i x).hdg = s.hdg := rfl
@[simp] theorem State.setSrc_dbg (i : Nat) (x : Src) : (s.setSrc i x).dbg = s.dbg := rfl
@[simp] theorem State.setSrc_cust (i : Nat) (x : Src) : (s.setSrc i x).cust = s.cust := rfl
@[simp] theorem State.setSrc_lcs (i : Nat) (x : Src) : (s.setSrc i x).lcs = s.lcs := rfl
@[simp] theorem State.setSrc_flash (i : Nat) (x : Src) : (s.setSrc i x).flash = s.flash := rfl
@[simp] theorem State.setSrc_evr (i : Nat) (x : Src) : (s.setSrc i x).evr = s.evr := rfl
@[simp] theorem State.setSrc_clu (i : Nat) (x : Src) : (s.setSrc i x).clu = s.clu := rfl
@[simp] theorem State.setSrc_pwr (i : Nat) (x : Src) : (s.setSrc i x).pwr = s.pwr := rfl
@[simp] theorem State.setSrc_owed (i : Nat) (x : Src) : (s.setSrc i x).owed = s.owed := rfl
@[simp] theorem State.setSrc_snaps (i : Nat) (x : Src) : (s.setSrc i x).snaps = s.snaps := rfl

/-! `State.modPriv` -/

@[simp] theorem State.modPriv_pending (k : Nat) (f : Drill → Drill) : (s.modPriv k f).pending = s.pending := rfl
@[simp] theorem State.modPriv_now (k : Nat) (f : Drill → Drill) : (s.modPriv k f).now = s.now := rfl
@[simp] theorem State.modPriv_free (k : Nat) (f : Drill → Drill) : (s.modPriv k f).free = s.free := rfl
@[simp] theorem State.modPriv_out (k : Nat) (f : Drill → Drill) : (s.modPriv k f).out = s.out := rfl
@[simp] theorem State.modPriv_link (k : Nat) (f : Drill → Drill) : (s.modPriv k f).link = s.link := rfl
@[simp] theorem State.modPriv_adm (k : Nat) (f : Drill → Drill) : (s.modPriv k f).adm = s.adm := rfl
@[simp] theorem State.modPriv_disp (k : Nat) (f : Drill → Drill) : (s.modPriv k f).disp = s.disp := rfl
@[simp] theorem State.modPriv_plots (k : Nat) (f : Drill → Drill) : (s.modPriv k f).plots = s.plots := rfl
@[simp] theorem State.modPriv_yokes (k : Nat) (f : Drill → Drill) : (s.modPriv k f).yokes = s.yokes := rfl
@[simp] theorem State.modPriv_yreg (k : Nat) (f : Drill → Drill) : (s.modPriv k f).yreg = s.yreg := rfl
@[simp] theorem State.modPriv_stw (k : Nat) (f : Drill → Drill) : (s.modPriv k f).stw = s.stw := rfl
@[simp] theorem State.modPriv_prog (k : Nat) (f : Drill → Drill) : (s.modPriv k f).prog = s.prog := rfl
@[simp] theorem State.modPriv_kp (k : Nat) (f : Drill → Drill) : (s.modPriv k f).kp = s.kp := rfl
@[simp] theorem State.modPriv_rpl (k : Nat) (f : Drill → Drill) : (s.modPriv k f).rpl = s.rpl := rfl
@[simp] theorem State.modPriv_vlt (k : Nat) (f : Drill → Drill) : (s.modPriv k f).vlt = s.vlt := rfl
@[simp] theorem State.modPriv_lan (k : Nat) (f : Drill → Drill) : (s.modPriv k f).lan = s.lan := rfl
@[simp] theorem State.modPriv_pke (k : Nat) (f : Drill → Drill) : (s.modPriv k f).pke = s.pke := rfl
@[simp] theorem State.modPriv_kpr (k : Nat) (f : Drill → Drill) : (s.modPriv k f).kpr = s.kpr := rfl
@[simp] theorem State.modPriv_hdg (k : Nat) (f : Drill → Drill) : (s.modPriv k f).hdg = s.hdg := rfl
@[simp] theorem State.modPriv_dbg (k : Nat) (f : Drill → Drill) : (s.modPriv k f).dbg = s.dbg := rfl
@[simp] theorem State.modPriv_cust (k : Nat) (f : Drill → Drill) : (s.modPriv k f).cust = s.cust := rfl
@[simp] theorem State.modPriv_lcs (k : Nat) (f : Drill → Drill) : (s.modPriv k f).lcs = s.lcs := rfl
@[simp] theorem State.modPriv_flash (k : Nat) (f : Drill → Drill) : (s.modPriv k f).flash = s.flash := rfl
@[simp] theorem State.modPriv_evr (k : Nat) (f : Drill → Drill) : (s.modPriv k f).evr = s.evr := rfl
@[simp] theorem State.modPriv_clu (k : Nat) (f : Drill → Drill) : (s.modPriv k f).clu = s.clu := rfl
@[simp] theorem State.modPriv_pwr (k : Nat) (f : Drill → Drill) : (s.modPriv k f).pwr = s.pwr := rfl
@[simp] theorem State.modPriv_owed (k : Nat) (f : Drill → Drill) : (s.modPriv k f).owed = s.owed := rfl
@[simp] theorem State.modPriv_snaps (k : Nat) (f : Drill → Drill) : (s.modPriv k f).snaps = s.snaps := rfl

/-! `State.modDrill` -/

@[simp] theorem State.modDrill_pending (p : Nat) (f : Drill → Drill) : (s.modDrill p f).pending = s.pending := rfl
@[simp] theorem State.modDrill_now (p : Nat) (f : Drill → Drill) : (s.modDrill p f).now = s.now := rfl
@[simp] theorem State.modDrill_free (p : Nat) (f : Drill → Drill) : (s.modDrill p f).free = s.free := rfl
@[simp] theorem State.modDrill_out (p : Nat) (f : Drill → Drill) : (s.modDrill p f).out = s.out := rfl
@[simp] theorem State.modDrill_link (p : Nat) (f : Drill → Drill) : (s.modDrill p f).link = s.link := rfl
@[simp] theorem State.modDrill_adm (p : Nat) (f : Drill → Drill) : (s.modDrill p f).adm = s.adm := rfl
@[simp] theorem State.modDrill_disp (p : Nat) (f : Drill → Drill) : (s.modDrill p f).disp = s.disp := rfl
@[simp] theorem State.modDrill_yokes (p : Nat) (f : Drill → Drill) : (s.modDrill p f).yokes = s.yokes := rfl
@[simp] theorem State.modDrill_yreg (p : Nat) (f : Drill → Drill) : (s.modDrill p f).yreg = s.yreg := rfl
@[simp] theorem State.modDrill_stw (p : Nat) (f : Drill → Drill) : (s.modDrill p f).stw = s.stw := rfl
@[simp] theorem State.modDrill_prog (p : Nat) (f : Drill → Drill) : (s.modDrill p f).prog = s.prog := rfl
@[simp] theorem State.modDrill_kp (p : Nat) (f : Drill → Drill) : (s.modDrill p f).kp = s.kp := rfl
@[simp] theorem State.modDrill_rpl (p : Nat) (f : Drill → Drill) : (s.modDrill p f).rpl = s.rpl := rfl
@[simp] theorem State.modDrill_vlt (p : Nat) (f : Drill → Drill) : (s.modDrill p f).vlt = s.vlt := rfl
@[simp] theorem State.modDrill_lan (p : Nat) (f : Drill → Drill) : (s.modDrill p f).lan = s.lan := rfl
@[simp] theorem State.modDrill_pke (p : Nat) (f : Drill → Drill) : (s.modDrill p f).pke = s.pke := rfl
@[simp] theorem State.modDrill_rng (p : Nat) (f : Drill → Drill) : (s.modDrill p f).rng = s.rng := rfl
@[simp] theorem State.modDrill_kpr (p : Nat) (f : Drill → Drill) : (s.modDrill p f).kpr = s.kpr := rfl
@[simp] theorem State.modDrill_hdg (p : Nat) (f : Drill → Drill) : (s.modDrill p f).hdg = s.hdg := rfl
@[simp] theorem State.modDrill_dbg (p : Nat) (f : Drill → Drill) : (s.modDrill p f).dbg = s.dbg := rfl
@[simp] theorem State.modDrill_cust (p : Nat) (f : Drill → Drill) : (s.modDrill p f).cust = s.cust := rfl
@[simp] theorem State.modDrill_lcs (p : Nat) (f : Drill → Drill) : (s.modDrill p f).lcs = s.lcs := rfl
@[simp] theorem State.modDrill_flash (p : Nat) (f : Drill → Drill) : (s.modDrill p f).flash = s.flash := rfl
@[simp] theorem State.modDrill_evr (p : Nat) (f : Drill → Drill) : (s.modDrill p f).evr = s.evr := rfl
@[simp] theorem State.modDrill_clu (p : Nat) (f : Drill → Drill) : (s.modDrill p f).clu = s.clu := rfl
@[simp] theorem State.modDrill_pwr (p : Nat) (f : Drill → Drill) : (s.modDrill p f).pwr = s.pwr := rfl
@[simp] theorem State.modDrill_owed (p : Nat) (f : Drill → Drill) : (s.modDrill p f).owed = s.owed := rfl
@[simp] theorem State.modDrill_snaps (p : Nat) (f : Drill → Drill) : (s.modDrill p f).snaps = s.snaps := rfl

/-! `State.setSess` -/

@[simp] theorem State.setSess_pending (peer : Nat) (x : Sess) : (s.setSess peer x).pending = s.pending := rfl
@[simp] theorem State.setSess_now (peer : Nat) (x : Sess) : (s.setSess peer x).now = s.now := rfl
@[simp] theorem State.setSess_free (peer : Nat) (x : Sess) : (s.setSess peer x).free = s.free := rfl
@[simp] theorem State.setSess_out (peer : Nat) (x : Sess) : (s.setSess peer x).out = s.out := rfl
@[simp] theorem State.setSess_link (peer : Nat) (x : Sess) : (s.setSess peer x).link = s.link := rfl
@[simp] theorem State.setSess_adm (peer : Nat) (x : Sess) : (s.setSess peer x).adm = s.adm := rfl
@[simp] theorem State.setSess_disp (peer : Nat) (x : Sess) : (s.setSess peer x).disp = s.disp := rfl
@[simp] theorem State.setSess_plots (peer : Nat) (x : Sess) : (s.setSess peer x).plots = s.plots := rfl
@[simp] theorem State.setSess_yokes (peer : Nat) (x : Sess) : (s.setSess peer x).yokes = s.yokes := rfl
@[simp] theorem State.setSess_yreg (peer : Nat) (x : Sess) : (s.setSess peer x).yreg = s.yreg := rfl
@[simp] theorem State.setSess_stw (peer : Nat) (x : Sess) : (s.setSess peer x).stw = s.stw := rfl
@[simp] theorem State.setSess_prog (peer : Nat) (x : Sess) : (s.setSess peer x).prog = s.prog := rfl
@[simp] theorem State.setSess_kp (peer : Nat) (x : Sess) : (s.setSess peer x).kp = s.kp := rfl
@[simp] theorem State.setSess_rpl (peer : Nat) (x : Sess) : (s.setSess peer x).rpl = s.rpl := rfl
@[simp] theorem State.setSess_vlt (peer : Nat) (x : Sess) : (s.setSess peer x).vlt = s.vlt := rfl
@[simp] theorem State.setSess_lan (peer : Nat) (x : Sess) : (s.setSess peer x).lan = s.lan := rfl
@[simp] theorem State.setSess_pke (peer : Nat) (x : Sess) : (s.setSess peer x).pke = s.pke := rfl
@[simp] theorem State.setSess_rng (peer : Nat) (x : Sess) : (s.setSess peer x).rng = s.rng := rfl
@[simp] theorem State.setSess_kpr (peer : Nat) (x : Sess) : (s.setSess peer x).kpr = s.kpr := rfl
@[simp] theorem State.setSess_hdg (peer : Nat) (x : Sess) : (s.setSess peer x).hdg = s.hdg := rfl
@[simp] theorem State.setSess_dbg (peer : Nat) (x : Sess) : (s.setSess peer x).dbg = s.dbg := rfl
@[simp] theorem State.setSess_cust (peer : Nat) (x : Sess) : (s.setSess peer x).cust = s.cust := rfl
@[simp] theorem State.setSess_lcs (peer : Nat) (x : Sess) : (s.setSess peer x).lcs = s.lcs := rfl
@[simp] theorem State.setSess_flash (peer : Nat) (x : Sess) : (s.setSess peer x).flash = s.flash := rfl
@[simp] theorem State.setSess_evr (peer : Nat) (x : Sess) : (s.setSess peer x).evr = s.evr := rfl
@[simp] theorem State.setSess_pwr (peer : Nat) (x : Sess) : (s.setSess peer x).pwr = s.pwr := rfl
@[simp] theorem State.setSess_owed (peer : Nat) (x : Sess) : (s.setSess peer x).owed = s.owed := rfl
@[simp] theorem State.setSess_snaps (peer : Nat) (x : Sess) : (s.setSess peer x).snaps = s.snaps := rfl

/-! `State.setFnCfg` -/

@[simp] theorem State.setFnCfg_pending (f : Fn) (c : FnCfg) : (s.setFnCfg f c).pending = s.pending := rfl
@[simp] theorem State.setFnCfg_now (f : Fn) (c : FnCfg) : (s.setFnCfg f c).now = s.now := rfl
@[simp] theorem State.setFnCfg_free (f : Fn) (c : FnCfg) : (s.setFnCfg f c).free = s.free := rfl
@[simp] theorem State.setFnCfg_out (f : Fn) (c : FnCfg) : (s.setFnCfg f c).out = s.out := rfl
@[simp] theorem State.setFnCfg_adm (f : Fn) (c : FnCfg) : (s.setFnCfg f c).adm = s.adm := rfl
@[simp] theorem State.setFnCfg_disp (f : Fn) (c : FnCfg) : (s.setFnCfg f c).disp = s.disp := rfl
@[simp] theorem State.setFnCfg_plots (f : Fn) (c : FnCfg) : (s.setFnCfg f c).plots = s.plots := rfl
@[simp] theorem State.setFnCfg_yokes (f : Fn) (c : FnCfg) : (s.setFnCfg f c).yokes = s.yokes := rfl
@[simp] theorem State.setFnCfg_yreg (f : Fn) (c : FnCfg) : (s.setFnCfg f c).yreg = s.yreg := rfl
@[simp] theorem State.setFnCfg_stw (f : Fn) (c : FnCfg) : (s.setFnCfg f c).stw = s.stw := rfl
@[simp] theorem State.setFnCfg_prog (f : Fn) (c : FnCfg) : (s.setFnCfg f c).prog = s.prog := rfl
@[simp] theorem State.setFnCfg_kp (f : Fn) (c : FnCfg) : (s.setFnCfg f c).kp = s.kp := rfl
@[simp] theorem State.setFnCfg_rpl (f : Fn) (c : FnCfg) : (s.setFnCfg f c).rpl = s.rpl := rfl
@[simp] theorem State.setFnCfg_vlt (f : Fn) (c : FnCfg) : (s.setFnCfg f c).vlt = s.vlt := rfl
@[simp] theorem State.setFnCfg_lan (f : Fn) (c : FnCfg) : (s.setFnCfg f c).lan = s.lan := rfl
@[simp] theorem State.setFnCfg_pke (f : Fn) (c : FnCfg) : (s.setFnCfg f c).pke = s.pke := rfl
@[simp] theorem State.setFnCfg_rng (f : Fn) (c : FnCfg) : (s.setFnCfg f c).rng = s.rng := rfl
@[simp] theorem State.setFnCfg_kpr (f : Fn) (c : FnCfg) : (s.setFnCfg f c).kpr = s.kpr := rfl
@[simp] theorem State.setFnCfg_hdg (f : Fn) (c : FnCfg) : (s.setFnCfg f c).hdg = s.hdg := rfl
@[simp] theorem State.setFnCfg_dbg (f : Fn) (c : FnCfg) : (s.setFnCfg f c).dbg = s.dbg := rfl
@[simp] theorem State.setFnCfg_cust (f : Fn) (c : FnCfg) : (s.setFnCfg f c).cust = s.cust := rfl
@[simp] theorem State.setFnCfg_lcs (f : Fn) (c : FnCfg) : (s.setFnCfg f c).lcs = s.lcs := rfl
@[simp] theorem State.setFnCfg_flash (f : Fn) (c : FnCfg) : (s.setFnCfg f c).flash = s.flash := rfl
@[simp] theorem State.setFnCfg_evr (f : Fn) (c : FnCfg) : (s.setFnCfg f c).evr = s.evr := rfl
@[simp] theorem State.setFnCfg_clu (f : Fn) (c : FnCfg) : (s.setFnCfg f c).clu = s.clu := rfl
@[simp] theorem State.setFnCfg_pwr (f : Fn) (c : FnCfg) : (s.setFnCfg f c).pwr = s.pwr := rfl
@[simp] theorem State.setFnCfg_owed (f : Fn) (c : FnCfg) : (s.setFnCfg f c).owed = s.owed := rfl
@[simp] theorem State.setFnCfg_snaps (f : Fn) (c : FnCfg) : (s.setFnCfg f c).snaps = s.snaps := rfl

/-! `State.setCab` -/

@[simp] theorem State.setCab_pending (f : Cabinet → Cabinet) : (s.setCab f).pending = s.pending := rfl
@[simp] theorem State.setCab_now (f : Cabinet → Cabinet) : (s.setCab f).now = s.now := rfl
@[simp] theorem State.setCab_free (f : Cabinet → Cabinet) : (s.setCab f).free = s.free := rfl
@[simp] theorem State.setCab_out (f : Cabinet → Cabinet) : (s.setCab f).out = s.out := rfl
@[simp] theorem State.setCab_link (f : Cabinet → Cabinet) : (s.setCab f).link = s.link := rfl
@[simp] theorem State.setCab_adm (f : Cabinet → Cabinet) : (s.setCab f).adm = s.adm := rfl
@[simp] theorem State.setCab_disp (f : Cabinet → Cabinet) : (s.setCab f).disp = s.disp := rfl
@[simp] theorem State.setCab_plots (f : Cabinet → Cabinet) : (s.setCab f).plots = s.plots := rfl
@[simp] theorem State.setCab_yokes (f : Cabinet → Cabinet) : (s.setCab f).yokes = s.yokes := rfl
@[simp] theorem State.setCab_yreg (f : Cabinet → Cabinet) : (s.setCab f).yreg = s.yreg := rfl
@[simp] theorem State.setCab_stw (f : Cabinet → Cabinet) : (s.setCab f).stw = s.stw := rfl
@[simp] theorem State.setCab_prog (f : Cabinet → Cabinet) : (s.setCab f).prog = s.prog := rfl
@[simp] theorem State.setCab_kp (f : Cabinet → Cabinet) : (s.setCab f).kp = s.kp := rfl
@[simp] theorem State.setCab_rpl (f : Cabinet → Cabinet) : (s.setCab f).rpl = s.rpl := rfl
@[simp] theorem State.setCab_vlt (f : Cabinet → Cabinet) : (s.setCab f).vlt = s.vlt := rfl
@[simp] theorem State.setCab_lan (f : Cabinet → Cabinet) : (s.setCab f).lan = s.lan := rfl
@[simp] theorem State.setCab_pke (f : Cabinet → Cabinet) : (s.setCab f).pke = s.pke := rfl
@[simp] theorem State.setCab_rng (f : Cabinet → Cabinet) : (s.setCab f).rng = s.rng := rfl
@[simp] theorem State.setCab_hdg (f : Cabinet → Cabinet) : (s.setCab f).hdg = s.hdg := rfl
@[simp] theorem State.setCab_dbg (f : Cabinet → Cabinet) : (s.setCab f).dbg = s.dbg := rfl
@[simp] theorem State.setCab_cust (f : Cabinet → Cabinet) : (s.setCab f).cust = s.cust := rfl
@[simp] theorem State.setCab_lcs (f : Cabinet → Cabinet) : (s.setCab f).lcs = s.lcs := rfl
@[simp] theorem State.setCab_flash (f : Cabinet → Cabinet) : (s.setCab f).flash = s.flash := rfl
@[simp] theorem State.setCab_evr (f : Cabinet → Cabinet) : (s.setCab f).evr = s.evr := rfl
@[simp] theorem State.setCab_clu (f : Cabinet → Cabinet) : (s.setCab f).clu = s.clu := rfl
@[simp] theorem State.setCab_pwr (f : Cabinet → Cabinet) : (s.setCab f).pwr = s.pwr := rfl
@[simp] theorem State.setCab_owed (f : Cabinet → Cabinet) : (s.setCab f).owed = s.owed := rfl
@[simp] theorem State.setCab_snaps (f : Cabinet → Cabinet) : (s.setCab f).snaps = s.snaps := rfl

/-! `State.setSeed` -/

@[simp] theorem State.setSeed_pending (p k : Nat) : (s.setSeed p k).pending = s.pending := rfl
@[simp] theorem State.setSeed_now (p k : Nat) : (s.setSeed p k).now = s.now := rfl
@[simp] theorem State.setSeed_free (p k : Nat) : (s.setSeed p k).free = s.free := rfl
@[simp] theorem State.setSeed_out (p k : Nat) : (s.setSeed p k).out = s.out := rfl
@[simp] theorem State.setSeed_link (p k : Nat) : (s.setSeed p k).link = s.link := rfl
@[simp] theorem State.setSeed_adm (p k : Nat) : (s.setSeed p k).adm = s.adm := rfl
@[simp] theorem State.setSeed_disp (p k : Nat) : (s.setSeed p k).disp = s.disp := rfl
@[simp] theorem State.setSeed_plots (p k : Nat) : (s.setSeed p k).plots = s.plots := rfl
@[simp] theorem State.setSeed_yokes (p k : Nat) : (s.setSeed p k).yokes = s.yokes := rfl
@[simp] theorem State.setSeed_yreg (p k : Nat) : (s.setSeed p k).yreg = s.yreg := rfl
@[simp] theorem State.setSeed_stw (p k : Nat) : (s.setSeed p k).stw = s.stw := rfl
@[simp] theorem State.setSeed_prog (p k : Nat) : (s.setSeed p k).prog = s.prog := rfl
@[simp] theorem State.setSeed_kp (p k : Nat) : (s.setSeed p k).kp = s.kp := rfl
@[simp] theorem State.setSeed_rpl (p k : Nat) : (s.setSeed p k).rpl = s.rpl := rfl
@[simp] theorem State.setSeed_vlt (p k : Nat) : (s.setSeed p k).vlt = s.vlt := rfl
@[simp] theorem State.setSeed_lan (p k : Nat) : (s.setSeed p k).lan = s.lan := rfl
@[simp] theorem State.setSeed_pke (p k : Nat) : (s.setSeed p k).pke = s.pke := rfl
@[simp] theorem State.setSeed_rng (p k : Nat) : (s.setSeed p k).rng = s.rng := rfl
@[simp] theorem State.setSeed_hdg (p k : Nat) : (s.setSeed p k).hdg = s.hdg := rfl
@[simp] theorem State.setSeed_dbg (p k : Nat) : (s.setSeed p k).dbg = s.dbg := rfl
@[simp] theorem State.setSeed_cust (p k : Nat) : (s.setSeed p k).cust = s.cust := rfl
@[simp] theorem State.setSeed_lcs (p k : Nat) : (s.setSeed p k).lcs = s.lcs := rfl
@[simp] theorem State.setSeed_flash (p k : Nat) : (s.setSeed p k).flash = s.flash := rfl
@[simp] theorem State.setSeed_evr (p k : Nat) : (s.setSeed p k).evr = s.evr := rfl
@[simp] theorem State.setSeed_clu (p k : Nat) : (s.setSeed p k).clu = s.clu := rfl
@[simp] theorem State.setSeed_pwr (p k : Nat) : (s.setSeed p k).pwr = s.pwr := rfl
@[simp] theorem State.setSeed_owed (p k : Nat) : (s.setSeed p k).owed = s.owed := rfl
@[simp] theorem State.setSeed_snaps (p k : Nat) : (s.setSeed p k).snaps = s.snaps := rfl

/-! `State.setSession` -/

@[simp] theorem State.setSession_pending (k : Nat) (x : Option Session) : (s.setSession k x).pending = s.pending := rfl
@[simp] theorem State.setSession_now (k : Nat) (x : Option Session) : (s.setSession k x).now = s.now := rfl
@[simp] theorem State.setSession_free (k : Nat) (x : Option Session) : (s.setSession k x).free = s.free := rfl
@[simp] theorem State.setSession_out (k : Nat) (x : Option Session) : (s.setSession k x).out = s.out := rfl
@[simp] theorem State.setSession_link (k : Nat) (x : Option Session) : (s.setSession k x).link = s.link := rfl
@[simp] theorem State.setSession_adm (k : Nat) (x : Option Session) : (s.setSession k x).adm = s.adm := rfl
@[simp] theorem State.setSession_disp (k : Nat) (x : Option Session) : (s.setSession k x).disp = s.disp := rfl
@[simp] theorem State.setSession_plots (k : Nat) (x : Option Session) : (s.setSession k x).plots = s.plots := rfl
@[simp] theorem State.setSession_yokes (k : Nat) (x : Option Session) : (s.setSession k x).yokes = s.yokes := rfl
@[simp] theorem State.setSession_yreg (k : Nat) (x : Option Session) : (s.setSession k x).yreg = s.yreg := rfl
@[simp] theorem State.setSession_stw (k : Nat) (x : Option Session) : (s.setSession k x).stw = s.stw := rfl
@[simp] theorem State.setSession_prog (k : Nat) (x : Option Session) : (s.setSession k x).prog = s.prog := rfl
@[simp] theorem State.setSession_kp (k : Nat) (x : Option Session) : (s.setSession k x).kp = s.kp := rfl
@[simp] theorem State.setSession_rpl (k : Nat) (x : Option Session) : (s.setSession k x).rpl = s.rpl := rfl
@[simp] theorem State.setSession_vlt (k : Nat) (x : Option Session) : (s.setSession k x).vlt = s.vlt := rfl
@[simp] theorem State.setSession_lan (k : Nat) (x : Option Session) : (s.setSession k x).lan = s.lan := rfl
@[simp] theorem State.setSession_pke (k : Nat) (x : Option Session) : (s.setSession k x).pke = s.pke := rfl
@[simp] theorem State.setSession_rng (k : Nat) (x : Option Session) : (s.setSession k x).rng = s.rng := rfl
@[simp] theorem State.setSession_kpr (k : Nat) (x : Option Session) : (s.setSession k x).kpr = s.kpr := rfl
@[simp] theorem State.setSession_hdg (k : Nat) (x : Option Session) : (s.setSession k x).hdg = s.hdg := rfl
@[simp] theorem State.setSession_dbg (k : Nat) (x : Option Session) : (s.setSession k x).dbg = s.dbg := rfl
@[simp] theorem State.setSession_lcs (k : Nat) (x : Option Session) : (s.setSession k x).lcs = s.lcs := rfl
@[simp] theorem State.setSession_flash (k : Nat) (x : Option Session) : (s.setSession k x).flash = s.flash := rfl
@[simp] theorem State.setSession_evr (k : Nat) (x : Option Session) : (s.setSession k x).evr = s.evr := rfl
@[simp] theorem State.setSession_clu (k : Nat) (x : Option Session) : (s.setSession k x).clu = s.clu := rfl
@[simp] theorem State.setSession_pwr (k : Nat) (x : Option Session) : (s.setSession k x).pwr = s.pwr := rfl
@[simp] theorem State.setSession_owed (k : Nat) (x : Option Session) : (s.setSession k x).owed = s.owed := rfl
@[simp] theorem State.setSession_snaps (k : Nat) (x : Option Session) : (s.setSession k x).snaps = s.snaps := rfl

/-! `State.setRegistry` -/

@[simp] theorem State.setRegistry_pending (scope : Nat) (r : Registry) : (s.setRegistry scope r).pending = s.pending := rfl
@[simp] theorem State.setRegistry_now (scope : Nat) (r : Registry) : (s.setRegistry scope r).now = s.now := rfl
@[simp] theorem State.setRegistry_free (scope : Nat) (r : Registry) : (s.setRegistry scope r).free = s.free := rfl
@[simp] theorem State.setRegistry_out (scope : Nat) (r : Registry) : (s.setRegistry scope r).out = s.out := rfl
@[simp] theorem State.setRegistry_link (scope : Nat) (r : Registry) : (s.setRegistry scope r).link = s.link := rfl
@[simp] theorem State.setRegistry_adm (scope : Nat) (r : Registry) : (s.setRegistry scope r).adm = s.adm := rfl
@[simp] theorem State.setRegistry_disp (scope : Nat) (r : Registry) : (s.setRegistry scope r).disp = s.disp := rfl
@[simp] theorem State.setRegistry_plots (scope : Nat) (r : Registry) : (s.setRegistry scope r).plots = s.plots := rfl
@[simp] theorem State.setRegistry_yokes (scope : Nat) (r : Registry) : (s.setRegistry scope r).yokes = s.yokes := rfl
@[simp] theorem State.setRegistry_yreg (scope : Nat) (r : Registry) : (s.setRegistry scope r).yreg = s.yreg := rfl
@[simp] theorem State.setRegistry_stw (scope : Nat) (r : Registry) : (s.setRegistry scope r).stw = s.stw := rfl
@[simp] theorem State.setRegistry_prog (scope : Nat) (r : Registry) : (s.setRegistry scope r).prog = s.prog := rfl
@[simp] theorem State.setRegistry_kp (scope : Nat) (r : Registry) : (s.setRegistry scope r).kp = s.kp := rfl
@[simp] theorem State.setRegistry_rpl (scope : Nat) (r : Registry) : (s.setRegistry scope r).rpl = s.rpl := rfl
@[simp] theorem State.setRegistry_vlt (scope : Nat) (r : Registry) : (s.setRegistry scope r).vlt = s.vlt := rfl
@[simp] theorem State.setRegistry_lan (scope : Nat) (r : Registry) : (s.setRegistry scope r).lan = s.lan := rfl
@[simp] theorem State.setRegistry_pke (scope : Nat) (r : Registry) : (s.setRegistry scope r).pke = s.pke := rfl
@[simp] theorem State.setRegistry_rng (scope : Nat) (r : Registry) : (s.setRegistry scope r).rng = s.rng := rfl
@[simp] theorem State.setRegistry_kpr (scope : Nat) (r : Registry) : (s.setRegistry scope r).kpr = s.kpr := rfl
@[simp] theorem State.setRegistry_hdg (scope : Nat) (r : Registry) : (s.setRegistry scope r).hdg = s.hdg := rfl
@[simp] theorem State.setRegistry_dbg (scope : Nat) (r : Registry) : (s.setRegistry scope r).dbg = s.dbg := rfl
@[simp] theorem State.setRegistry_lcs (scope : Nat) (r : Registry) : (s.setRegistry scope r).lcs = s.lcs := rfl
@[simp] theorem State.setRegistry_evr (scope : Nat) (r : Registry) : (s.setRegistry scope r).evr = s.evr := rfl
@[simp] theorem State.setRegistry_clu (scope : Nat) (r : Registry) : (s.setRegistry scope r).clu = s.clu := rfl
@[simp] theorem State.setRegistry_pwr (scope : Nat) (r : Registry) : (s.setRegistry scope r).pwr = s.pwr := rfl
@[simp] theorem State.setRegistry_owed (scope : Nat) (r : Registry) : (s.setRegistry scope r).owed = s.owed := rfl
@[simp] theorem State.setRegistry_snaps (scope : Nat) (r : Registry) : (s.setRegistry scope r).snaps = s.snaps := rfl

/-! `State.setIde` -/

@[simp] theorem State.setIde_pending (k : Nat) (i : Ide) : (s.setIde k i).pending = s.pending := rfl
@[simp] theorem State.setIde_now (k : Nat) (i : Ide) : (s.setIde k i).now = s.now := rfl
@[simp] theorem State.setIde_free (k : Nat) (i : Ide) : (s.setIde k i).free = s.free := rfl
@[simp] theorem State.setIde_out (k : Nat) (i : Ide) : (s.setIde k i).out = s.out := rfl
@[simp] theorem State.setIde_adm (k : Nat) (i : Ide) : (s.setIde k i).adm = s.adm := rfl
@[simp] theorem State.setIde_disp (k : Nat) (i : Ide) : (s.setIde k i).disp = s.disp := rfl
@[simp] theorem State.setIde_plots (k : Nat) (i : Ide) : (s.setIde k i).plots = s.plots := rfl
@[simp] theorem State.setIde_yokes (k : Nat) (i : Ide) : (s.setIde k i).yokes = s.yokes := rfl
@[simp] theorem State.setIde_yreg (k : Nat) (i : Ide) : (s.setIde k i).yreg = s.yreg := rfl
@[simp] theorem State.setIde_stw (k : Nat) (i : Ide) : (s.setIde k i).stw = s.stw := rfl
@[simp] theorem State.setIde_prog (k : Nat) (i : Ide) : (s.setIde k i).prog = s.prog := rfl
@[simp] theorem State.setIde_kp (k : Nat) (i : Ide) : (s.setIde k i).kp = s.kp := rfl
@[simp] theorem State.setIde_rpl (k : Nat) (i : Ide) : (s.setIde k i).rpl = s.rpl := rfl
@[simp] theorem State.setIde_vlt (k : Nat) (i : Ide) : (s.setIde k i).vlt = s.vlt := rfl
@[simp] theorem State.setIde_lan (k : Nat) (i : Ide) : (s.setIde k i).lan = s.lan := rfl
@[simp] theorem State.setIde_pke (k : Nat) (i : Ide) : (s.setIde k i).pke = s.pke := rfl
@[simp] theorem State.setIde_rng (k : Nat) (i : Ide) : (s.setIde k i).rng = s.rng := rfl
@[simp] theorem State.setIde_kpr (k : Nat) (i : Ide) : (s.setIde k i).kpr = s.kpr := rfl
@[simp] theorem State.setIde_hdg (k : Nat) (i : Ide) : (s.setIde k i).hdg = s.hdg := rfl
@[simp] theorem State.setIde_dbg (k : Nat) (i : Ide) : (s.setIde k i).dbg = s.dbg := rfl
@[simp] theorem State.setIde_cust (k : Nat) (i : Ide) : (s.setIde k i).cust = s.cust := rfl
@[simp] theorem State.setIde_lcs (k : Nat) (i : Ide) : (s.setIde k i).lcs = s.lcs := rfl
@[simp] theorem State.setIde_flash (k : Nat) (i : Ide) : (s.setIde k i).flash = s.flash := rfl
@[simp] theorem State.setIde_evr (k : Nat) (i : Ide) : (s.setIde k i).evr = s.evr := rfl
@[simp] theorem State.setIde_clu (k : Nat) (i : Ide) : (s.setIde k i).clu = s.clu := rfl
@[simp] theorem State.setIde_pwr (k : Nat) (i : Ide) : (s.setIde k i).pwr = s.pwr := rfl
@[simp] theorem State.setIde_owed (k : Nat) (i : Ide) : (s.setIde k i).owed = s.owed := rfl
@[simp] theorem State.setIde_snaps (k : Nat) (i : Ide) : (s.setIde k i).snaps = s.snaps := rfl

/-! `State.setBank` -/

@[simp] theorem State.setBank_pending (b : Bool) (x : Bank) : (s.setBank b x).pending = s.pending := rfl
@[simp] theorem State.setBank_now (b : Bool) (x : Bank) : (s.setBank b x).now = s.now := rfl
@[simp] theorem State.setBank_free (b : Bool) (x : Bank) : (s.setBank b x).free = s.free := rfl
@[simp] theorem State.setBank_out (b : Bool) (x : Bank) : (s.setBank b x).out = s.out := rfl
@[simp] theorem State.setBank_link (b : Bool) (x : Bank) : (s.setBank b x).link = s.link := rfl
@[simp] theorem State.setBank_adm (b : Bool) (x : Bank) : (s.setBank b x).adm = s.adm := rfl
@[simp] theorem State.setBank_disp (b : Bool) (x : Bank) : (s.setBank b x).disp = s.disp := rfl
@[simp] theorem State.setBank_plots (b : Bool) (x : Bank) : (s.setBank b x).plots = s.plots := rfl
@[simp] theorem State.setBank_yokes (b : Bool) (x : Bank) : (s.setBank b x).yokes = s.yokes := rfl
@[simp] theorem State.setBank_yreg (b : Bool) (x : Bank) : (s.setBank b x).yreg = s.yreg := rfl
@[simp] theorem State.setBank_stw (b : Bool) (x : Bank) : (s.setBank b x).stw = s.stw := rfl
@[simp] theorem State.setBank_prog (b : Bool) (x : Bank) : (s.setBank b x).prog = s.prog := rfl
@[simp] theorem State.setBank_kp (b : Bool) (x : Bank) : (s.setBank b x).kp = s.kp := rfl
@[simp] theorem State.setBank_rpl (b : Bool) (x : Bank) : (s.setBank b x).rpl = s.rpl := rfl
@[simp] theorem State.setBank_vlt (b : Bool) (x : Bank) : (s.setBank b x).vlt = s.vlt := rfl
@[simp] theorem State.setBank_lan (b : Bool) (x : Bank) : (s.setBank b x).lan = s.lan := rfl
@[simp] theorem State.setBank_pke (b : Bool) (x : Bank) : (s.setBank b x).pke = s.pke := rfl
@[simp] theorem State.setBank_rng (b : Bool) (x : Bank) : (s.setBank b x).rng = s.rng := rfl
@[simp] theorem State.setBank_kpr (b : Bool) (x : Bank) : (s.setBank b x).kpr = s.kpr := rfl
@[simp] theorem State.setBank_hdg (b : Bool) (x : Bank) : (s.setBank b x).hdg = s.hdg := rfl
@[simp] theorem State.setBank_dbg (b : Bool) (x : Bank) : (s.setBank b x).dbg = s.dbg := rfl
@[simp] theorem State.setBank_cust (b : Bool) (x : Bank) : (s.setBank b x).cust = s.cust := rfl
@[simp] theorem State.setBank_flash (b : Bool) (x : Bank) : (s.setBank b x).flash = s.flash := rfl
@[simp] theorem State.setBank_evr (b : Bool) (x : Bank) : (s.setBank b x).evr = s.evr := rfl
@[simp] theorem State.setBank_clu (b : Bool) (x : Bank) : (s.setBank b x).clu = s.clu := rfl
@[simp] theorem State.setBank_pwr (b : Bool) (x : Bank) : (s.setBank b x).pwr = s.pwr := rfl
@[simp] theorem State.setBank_owed (b : Bool) (x : Bank) : (s.setBank b x).owed = s.owed := rfl
@[simp] theorem State.setBank_snaps (b : Bool) (x : Bank) : (s.setBank b x).snaps = s.snaps := rfl

/-! `emit` -/

@[simp] theorem emit_pending (o : Out) : (emit s o).pending = s.pending := rfl
@[simp] theorem emit_now (o : Out) : (emit s o).now = s.now := rfl
@[simp] theorem emit_free (o : Out) : (emit s o).free = s.free := rfl
@[simp] theorem emit_link (o : Out) : (emit s o).link = s.link := rfl
@[simp] theorem emit_adm (o : Out) : (emit s o).adm = s.adm := rfl
@[simp] theorem emit_disp (o : Out) : (emit s o).disp = s.disp := rfl
@[simp] theorem emit_plots (o : Out) : (emit s o).plots = s.plots := rfl
@[simp] theorem emit_yokes (o : Out) : (emit s o).yokes = s.yokes := rfl
@[simp] theorem emit_yreg (o : Out) : (emit s o).yreg = s.yreg := rfl
@[simp] theorem emit_stw (o : Out) : (emit s o).stw = s.stw := rfl
@[simp] theorem emit_prog (o : Out) : (emit s o).prog = s.prog := rfl
@[simp] theorem emit_kp (o : Out) : (emit s o).kp = s.kp := rfl
@[simp] theorem emit_rpl (o : Out) : (emit s o).rpl = s.rpl := rfl
@[simp] theorem emit_vlt (o : Out) : (emit s o).vlt = s.vlt := rfl
@[simp] theorem emit_lan (o : Out) : (emit s o).lan = s.lan := rfl
@[simp] theorem emit_pke (o : Out) : (emit s o).pke = s.pke := rfl
@[simp] theorem emit_rng (o : Out) : (emit s o).rng = s.rng := rfl
@[simp] theorem emit_kpr (o : Out) : (emit s o).kpr = s.kpr := rfl
@[simp] theorem emit_hdg (o : Out) : (emit s o).hdg = s.hdg := rfl
@[simp] theorem emit_dbg (o : Out) : (emit s o).dbg = s.dbg := rfl
@[simp] theorem emit_cust (o : Out) : (emit s o).cust = s.cust := rfl
@[simp] theorem emit_lcs (o : Out) : (emit s o).lcs = s.lcs := rfl
@[simp] theorem emit_flash (o : Out) : (emit s o).flash = s.flash := rfl
@[simp] theorem emit_evr (o : Out) : (emit s o).evr = s.evr := rfl
@[simp] theorem emit_clu (o : Out) : (emit s o).clu = s.clu := rfl
@[simp] theorem emit_pwr (o : Out) : (emit s o).pwr = s.pwr := rfl
@[simp] theorem emit_owed (o : Out) : (emit s o).owed = s.owed := rfl
@[simp] theorem emit_snaps (o : Out) : (emit s o).snaps = s.snaps := rfl

/-! `drawn` -/

@[simp] theorem drawn_pending (n : Nat) : (drawn s n).pending = s.pending := rfl
@[simp] theorem drawn_now (n : Nat) : (drawn s n).now = s.now := rfl
@[simp] theorem drawn_out (n : Nat) : (drawn s n).out = s.out := rfl
@[simp] theorem drawn_link (n : Nat) : (drawn s n).link = s.link := rfl
@[simp] theorem drawn_adm (n : Nat) : (drawn s n).adm = s.adm := rfl
@[simp] theorem drawn_disp (n : Nat) : (drawn s n).disp = s.disp := rfl
@[simp] theorem drawn_plots (n : Nat) : (drawn s n).plots = s.plots := rfl
@[simp] theorem drawn_yokes (n : Nat) : (drawn s n).yokes = s.yokes := rfl
@[simp] theorem drawn_yreg (n : Nat) : (drawn s n).yreg = s.yreg := rfl
@[simp] theorem drawn_stw (n : Nat) : (drawn s n).stw = s.stw := rfl
@[simp] theorem drawn_prog (n : Nat) : (drawn s n).prog = s.prog := rfl
@[simp] theorem drawn_kp (n : Nat) : (drawn s n).kp = s.kp := rfl
@[simp] theorem drawn_rpl (n : Nat) : (drawn s n).rpl = s.rpl := rfl
@[simp] theorem drawn_vlt (n : Nat) : (drawn s n).vlt = s.vlt := rfl
@[simp] theorem drawn_lan (n : Nat) : (drawn s n).lan = s.lan := rfl
@[simp] theorem drawn_pke (n : Nat) : (drawn s n).pke = s.pke := rfl
@[simp] theorem drawn_rng (n : Nat) : (drawn s n).rng = s.rng := rfl
@[simp] theorem drawn_kpr (n : Nat) : (drawn s n).kpr = s.kpr := rfl
@[simp] theorem drawn_hdg (n : Nat) : (drawn s n).hdg = s.hdg := rfl
@[simp] theorem drawn_dbg (n : Nat) : (drawn s n).dbg = s.dbg := rfl
@[simp] theorem drawn_cust (n : Nat) : (drawn s n).cust = s.cust := rfl
@[simp] theorem drawn_lcs (n : Nat) : (drawn s n).lcs = s.lcs := rfl
@[simp] theorem drawn_flash (n : Nat) : (drawn s n).flash = s.flash := rfl
@[simp] theorem drawn_evr (n : Nat) : (drawn s n).evr = s.evr := rfl
@[simp] theorem drawn_clu (n : Nat) : (drawn s n).clu = s.clu := rfl
@[simp] theorem drawn_pwr (n : Nat) : (drawn s n).pwr = s.pwr := rfl
@[simp] theorem drawn_owed (n : Nat) : (drawn s n).owed = s.owed := rfl
@[simp] theorem drawn_snaps (n : Nat) : (drawn s n).snaps = s.snaps := rfl

/-! `advanceTo` -/

@[simp] theorem advanceTo_pending (t : Nat) : (advanceTo s t).pending = s.pending := rfl
@[simp] theorem advanceTo_free (t : Nat) : (advanceTo s t).free = s.free := rfl
@[simp] theorem advanceTo_out (t : Nat) : (advanceTo s t).out = s.out := rfl
@[simp] theorem advanceTo_link (t : Nat) : (advanceTo s t).link = s.link := rfl
@[simp] theorem advanceTo_adm (t : Nat) : (advanceTo s t).adm = s.adm := rfl
@[simp] theorem advanceTo_disp (t : Nat) : (advanceTo s t).disp = s.disp := rfl
@[simp] theorem advanceTo_plots (t : Nat) : (advanceTo s t).plots = s.plots := rfl
@[simp] theorem advanceTo_yokes (t : Nat) : (advanceTo s t).yokes = s.yokes := rfl
@[simp] theorem advanceTo_yreg (t : Nat) : (advanceTo s t).yreg = s.yreg := rfl
@[simp] theorem advanceTo_stw (t : Nat) : (advanceTo s t).stw = s.stw := rfl
@[simp] theorem advanceTo_prog (t : Nat) : (advanceTo s t).prog = s.prog := rfl
@[simp] theorem advanceTo_kp (t : Nat) : (advanceTo s t).kp = s.kp := rfl
@[simp] theorem advanceTo_rpl (t : Nat) : (advanceTo s t).rpl = s.rpl := rfl
@[simp] theorem advanceTo_vlt (t : Nat) : (advanceTo s t).vlt = s.vlt := rfl
@[simp] theorem advanceTo_lan (t : Nat) : (advanceTo s t).lan = s.lan := rfl
@[simp] theorem advanceTo_pke (t : Nat) : (advanceTo s t).pke = s.pke := rfl
@[simp] theorem advanceTo_rng (t : Nat) : (advanceTo s t).rng = s.rng := rfl
@[simp] theorem advanceTo_kpr (t : Nat) : (advanceTo s t).kpr = s.kpr := rfl
@[simp] theorem advanceTo_hdg (t : Nat) : (advanceTo s t).hdg = s.hdg := rfl
@[simp] theorem advanceTo_dbg (t : Nat) : (advanceTo s t).dbg = s.dbg := rfl
@[simp] theorem advanceTo_cust (t : Nat) : (advanceTo s t).cust = s.cust := rfl
@[simp] theorem advanceTo_lcs (t : Nat) : (advanceTo s t).lcs = s.lcs := rfl
@[simp] theorem advanceTo_flash (t : Nat) : (advanceTo s t).flash = s.flash := rfl
@[simp] theorem advanceTo_evr (t : Nat) : (advanceTo s t).evr = s.evr := rfl
@[simp] theorem advanceTo_clu (t : Nat) : (advanceTo s t).clu = s.clu := rfl
@[simp] theorem advanceTo_pwr (t : Nat) : (advanceTo s t).pwr = s.pwr := rfl
@[simp] theorem advanceTo_owed (t : Nat) : (advanceTo s t).owed = s.owed := rfl
@[simp] theorem advanceTo_snaps (t : Nat) : (advanceTo s t).snaps = s.snaps := rfl

/-! `ledAct` -/

@[simp] theorem ledAct_pending  : (ledAct s).pending = s.pending := rfl
@[simp] theorem ledAct_now  : (ledAct s).now = s.now := rfl
@[simp] theorem ledAct_free  : (ledAct s).free = s.free := rfl
@[simp] theorem ledAct_out  : (ledAct s).out = s.out := rfl
@[simp] theorem ledAct_link  : (ledAct s).link = s.link := rfl
@[simp] theorem ledAct_adm  : (ledAct s).adm = s.adm := rfl
@[simp] theorem ledAct_disp  : (ledAct s).disp = s.disp := rfl
@[simp] theorem ledAct_plots  : (ledAct s).plots = s.plots := rfl
@[simp] theorem ledAct_yokes  : (ledAct s).yokes = s.yokes := rfl
@[simp] theorem ledAct_yreg  : (ledAct s).yreg = s.yreg := rfl
@[simp] theorem ledAct_stw  : (ledAct s).stw = s.stw := rfl
@[simp] theorem ledAct_prog  : (ledAct s).prog = s.prog := rfl
@[simp] theorem ledAct_kp  : (ledAct s).kp = s.kp := rfl
@[simp] theorem ledAct_rpl  : (ledAct s).rpl = s.rpl := rfl
@[simp] theorem ledAct_vlt  : (ledAct s).vlt = s.vlt := rfl
@[simp] theorem ledAct_lan  : (ledAct s).lan = s.lan := rfl
@[simp] theorem ledAct_pke  : (ledAct s).pke = s.pke := rfl
@[simp] theorem ledAct_rng  : (ledAct s).rng = s.rng := rfl
@[simp] theorem ledAct_kpr  : (ledAct s).kpr = s.kpr := rfl
@[simp] theorem ledAct_hdg  : (ledAct s).hdg = s.hdg := rfl
@[simp] theorem ledAct_dbg  : (ledAct s).dbg = s.dbg := rfl
@[simp] theorem ledAct_cust  : (ledAct s).cust = s.cust := rfl
@[simp] theorem ledAct_lcs  : (ledAct s).lcs = s.lcs := rfl
@[simp] theorem ledAct_flash  : (ledAct s).flash = s.flash := rfl
@[simp] theorem ledAct_evr  : (ledAct s).evr = s.evr := rfl
@[simp] theorem ledAct_clu  : (ledAct s).clu = s.clu := rfl
@[simp] theorem ledAct_owed  : (ledAct s).owed = s.owed := rfl
@[simp] theorem ledAct_snaps  : (ledAct s).snaps = s.snaps := rfl

/-! `holdOut` -/

@[simp] theorem holdOut_pending (h : HeldOut) : (holdOut s h).pending = s.pending := rfl
@[simp] theorem holdOut_now (h : HeldOut) : (holdOut s h).now = s.now := rfl
@[simp] theorem holdOut_free (h : HeldOut) : (holdOut s h).free = s.free := rfl
@[simp] theorem holdOut_out (h : HeldOut) : (holdOut s h).out = s.out := rfl
@[simp] theorem holdOut_adm (h : HeldOut) : (holdOut s h).adm = s.adm := rfl
@[simp] theorem holdOut_disp (h : HeldOut) : (holdOut s h).disp = s.disp := rfl
@[simp] theorem holdOut_plots (h : HeldOut) : (holdOut s h).plots = s.plots := rfl
@[simp] theorem holdOut_yokes (h : HeldOut) : (holdOut s h).yokes = s.yokes := rfl
@[simp] theorem holdOut_yreg (h : HeldOut) : (holdOut s h).yreg = s.yreg := rfl
@[simp] theorem holdOut_stw (h : HeldOut) : (holdOut s h).stw = s.stw := rfl
@[simp] theorem holdOut_prog (h : HeldOut) : (holdOut s h).prog = s.prog := rfl
@[simp] theorem holdOut_kp (h : HeldOut) : (holdOut s h).kp = s.kp := rfl
@[simp] theorem holdOut_rpl (h : HeldOut) : (holdOut s h).rpl = s.rpl := rfl
@[simp] theorem holdOut_vlt (h : HeldOut) : (holdOut s h).vlt = s.vlt := rfl
@[simp] theorem holdOut_lan (h : HeldOut) : (holdOut s h).lan = s.lan := rfl
@[simp] theorem holdOut_pke (h : HeldOut) : (holdOut s h).pke = s.pke := rfl
@[simp] theorem holdOut_rng (h : HeldOut) : (holdOut s h).rng = s.rng := rfl
@[simp] theorem holdOut_kpr (h : HeldOut) : (holdOut s h).kpr = s.kpr := rfl
@[simp] theorem holdOut_hdg (h : HeldOut) : (holdOut s h).hdg = s.hdg := rfl
@[simp] theorem holdOut_dbg (h : HeldOut) : (holdOut s h).dbg = s.dbg := rfl
@[simp] theorem holdOut_cust (h : HeldOut) : (holdOut s h).cust = s.cust := rfl
@[simp] theorem holdOut_lcs (h : HeldOut) : (holdOut s h).lcs = s.lcs := rfl
@[simp] theorem holdOut_flash (h : HeldOut) : (holdOut s h).flash = s.flash := rfl
@[simp] theorem holdOut_evr (h : HeldOut) : (holdOut s h).evr = s.evr := rfl
@[simp] theorem holdOut_clu (h : HeldOut) : (holdOut s h).clu = s.clu := rfl
@[simp] theorem holdOut_pwr (h : HeldOut) : (holdOut s h).pwr = s.pwr := rfl
@[simp] theorem holdOut_owed (h : HeldOut) : (holdOut s h).owed = s.owed := rfl
@[simp] theorem holdOut_snaps (h : HeldOut) : (holdOut s h).snaps = s.snaps := rfl

/-! `issueRead` -/

@[simp] theorem issueRead_pending (f : Fn) (a : W64) (n : Nat) : (issueRead s f a n).pending = s.pending := by unfold issueRead; split <;> rfl
@[simp] theorem issueRead_now (f : Fn) (a : W64) (n : Nat) : (issueRead s f a n).now = s.now := by unfold issueRead; split <;> rfl
@[simp] theorem issueRead_free (f : Fn) (a : W64) (n : Nat) : (issueRead s f a n).free = s.free := by unfold issueRead; split <;> rfl
@[simp] theorem issueRead_adm (f : Fn) (a : W64) (n : Nat) : (issueRead s f a n).adm = s.adm := by unfold issueRead; split <;> rfl
@[simp] theorem issueRead_disp (f : Fn) (a : W64) (n : Nat) : (issueRead s f a n).disp = s.disp := by unfold issueRead; split <;> rfl
@[simp] theorem issueRead_plots (f : Fn) (a : W64) (n : Nat) : (issueRead s f a n).plots = s.plots := by unfold issueRead; split <;> rfl
@[simp] theorem issueRead_yokes (f : Fn) (a : W64) (n : Nat) : (issueRead s f a n).yokes = s.yokes := by unfold issueRead; split <;> rfl
@[simp] theorem issueRead_yreg (f : Fn) (a : W64) (n : Nat) : (issueRead s f a n).yreg = s.yreg := by unfold issueRead; split <;> rfl
@[simp] theorem issueRead_stw (f : Fn) (a : W64) (n : Nat) : (issueRead s f a n).stw = s.stw := by unfold issueRead; split <;> rfl
@[simp] theorem issueRead_prog (f : Fn) (a : W64) (n : Nat) : (issueRead s f a n).prog = s.prog := by unfold issueRead; split <;> rfl
@[simp] theorem issueRead_kp (f : Fn) (a : W64) (n : Nat) : (issueRead s f a n).kp = s.kp := by unfold issueRead; split <;> rfl
@[simp] theorem issueRead_rpl (f : Fn) (a : W64) (n : Nat) : (issueRead s f a n).rpl = s.rpl := by unfold issueRead; split <;> rfl
@[simp] theorem issueRead_vlt (f : Fn) (a : W64) (n : Nat) : (issueRead s f a n).vlt = s.vlt := by unfold issueRead; split <;> rfl
@[simp] theorem issueRead_lan (f : Fn) (a : W64) (n : Nat) : (issueRead s f a n).lan = s.lan := by unfold issueRead; split <;> rfl
@[simp] theorem issueRead_pke (f : Fn) (a : W64) (n : Nat) : (issueRead s f a n).pke = s.pke := by unfold issueRead; split <;> rfl
@[simp] theorem issueRead_rng (f : Fn) (a : W64) (n : Nat) : (issueRead s f a n).rng = s.rng := by unfold issueRead; split <;> rfl
@[simp] theorem issueRead_kpr (f : Fn) (a : W64) (n : Nat) : (issueRead s f a n).kpr = s.kpr := by unfold issueRead; split <;> rfl
@[simp] theorem issueRead_hdg (f : Fn) (a : W64) (n : Nat) : (issueRead s f a n).hdg = s.hdg := by unfold issueRead; split <;> rfl
@[simp] theorem issueRead_dbg (f : Fn) (a : W64) (n : Nat) : (issueRead s f a n).dbg = s.dbg := by unfold issueRead; split <;> rfl
@[simp] theorem issueRead_cust (f : Fn) (a : W64) (n : Nat) : (issueRead s f a n).cust = s.cust := by unfold issueRead; split <;> rfl
@[simp] theorem issueRead_lcs (f : Fn) (a : W64) (n : Nat) : (issueRead s f a n).lcs = s.lcs := by unfold issueRead; split <;> rfl
@[simp] theorem issueRead_flash (f : Fn) (a : W64) (n : Nat) : (issueRead s f a n).flash = s.flash := by unfold issueRead; split <;> rfl
@[simp] theorem issueRead_evr (f : Fn) (a : W64) (n : Nat) : (issueRead s f a n).evr = s.evr := by unfold issueRead; split <;> rfl
@[simp] theorem issueRead_clu (f : Fn) (a : W64) (n : Nat) : (issueRead s f a n).clu = s.clu := by unfold issueRead; split <;> rfl
@[simp] theorem issueRead_pwr (f : Fn) (a : W64) (n : Nat) : (issueRead s f a n).pwr = s.pwr := by unfold issueRead; split <;> rfl
@[simp] theorem issueRead_owed (f : Fn) (a : W64) (n : Nat) : (issueRead s f a n).owed = s.owed := by unfold issueRead; split <;> rfl
@[simp] theorem issueRead_snaps (f : Fn) (a : W64) (n : Nat) : (issueRead s f a n).snaps = s.snaps := by unfold issueRead; split <;> rfl

/-! `issueWrite` -/

@[simp] theorem issueWrite_pending (f : Fn) (a : W64) (d : Bytes) : (issueWrite s f a d).pending = s.pending := by unfold issueWrite; split <;> rfl
@[simp] theorem issueWrite_now (f : Fn) (a : W64) (d : Bytes) : (issueWrite s f a d).now = s.now := by unfold issueWrite; split <;> rfl
@[simp] theorem issueWrite_free (f : Fn) (a : W64) (d : Bytes) : (issueWrite s f a d).free = s.free := by unfold issueWrite; split <;> rfl
@[simp] theorem issueWrite_adm (f : Fn) (a : W64) (d : Bytes) : (issueWrite s f a d).adm = s.adm := by unfold issueWrite; split <;> rfl
@[simp] theorem issueWrite_disp (f : Fn) (a : W64) (d : Bytes) : (issueWrite s f a d).disp = s.disp := by unfold issueWrite; split <;> rfl
@[simp] theorem issueWrite_plots (f : Fn) (a : W64) (d : Bytes) : (issueWrite s f a d).plots = s.plots := by unfold issueWrite; split <;> rfl
@[simp] theorem issueWrite_yokes (f : Fn) (a : W64) (d : Bytes) : (issueWrite s f a d).yokes = s.yokes := by unfold issueWrite; split <;> rfl
@[simp] theorem issueWrite_yreg (f : Fn) (a : W64) (d : Bytes) : (issueWrite s f a d).yreg = s.yreg := by unfold issueWrite; split <;> rfl
@[simp] theorem issueWrite_stw (f : Fn) (a : W64) (d : Bytes) : (issueWrite s f a d).stw = s.stw := by unfold issueWrite; split <;> rfl
@[simp] theorem issueWrite_prog (f : Fn) (a : W64) (d : Bytes) : (issueWrite s f a d).prog = s.prog := by unfold issueWrite; split <;> rfl
@[simp] theorem issueWrite_kp (f : Fn) (a : W64) (d : Bytes) : (issueWrite s f a d).kp = s.kp := by unfold issueWrite; split <;> rfl
@[simp] theorem issueWrite_rpl (f : Fn) (a : W64) (d : Bytes) : (issueWrite s f a d).rpl = s.rpl := by unfold issueWrite; split <;> rfl
@[simp] theorem issueWrite_vlt (f : Fn) (a : W64) (d : Bytes) : (issueWrite s f a d).vlt = s.vlt := by unfold issueWrite; split <;> rfl
@[simp] theorem issueWrite_lan (f : Fn) (a : W64) (d : Bytes) : (issueWrite s f a d).lan = s.lan := by unfold issueWrite; split <;> rfl
@[simp] theorem issueWrite_pke (f : Fn) (a : W64) (d : Bytes) : (issueWrite s f a d).pke = s.pke := by unfold issueWrite; split <;> rfl
@[simp] theorem issueWrite_rng (f : Fn) (a : W64) (d : Bytes) : (issueWrite s f a d).rng = s.rng := by unfold issueWrite; split <;> rfl
@[simp] theorem issueWrite_kpr (f : Fn) (a : W64) (d : Bytes) : (issueWrite s f a d).kpr = s.kpr := by unfold issueWrite; split <;> rfl
@[simp] theorem issueWrite_hdg (f : Fn) (a : W64) (d : Bytes) : (issueWrite s f a d).hdg = s.hdg := by unfold issueWrite; split <;> rfl
@[simp] theorem issueWrite_dbg (f : Fn) (a : W64) (d : Bytes) : (issueWrite s f a d).dbg = s.dbg := by unfold issueWrite; split <;> rfl
@[simp] theorem issueWrite_cust (f : Fn) (a : W64) (d : Bytes) : (issueWrite s f a d).cust = s.cust := by unfold issueWrite; split <;> rfl
@[simp] theorem issueWrite_lcs (f : Fn) (a : W64) (d : Bytes) : (issueWrite s f a d).lcs = s.lcs := by unfold issueWrite; split <;> rfl
@[simp] theorem issueWrite_flash (f : Fn) (a : W64) (d : Bytes) : (issueWrite s f a d).flash = s.flash := by unfold issueWrite; split <;> rfl
@[simp] theorem issueWrite_evr (f : Fn) (a : W64) (d : Bytes) : (issueWrite s f a d).evr = s.evr := by unfold issueWrite; split <;> rfl
@[simp] theorem issueWrite_clu (f : Fn) (a : W64) (d : Bytes) : (issueWrite s f a d).clu = s.clu := by unfold issueWrite; split <;> rfl
@[simp] theorem issueWrite_pwr (f : Fn) (a : W64) (d : Bytes) : (issueWrite s f a d).pwr = s.pwr := by unfold issueWrite; split <;> rfl
@[simp] theorem issueWrite_owed (f : Fn) (a : W64) (d : Bytes) : (issueWrite s f a d).owed = s.owed := by unfold issueWrite; split <;> rfl
@[simp] theorem issueWrite_snaps (f : Fn) (a : W64) (d : Bytes) : (issueWrite s f a d).snaps = s.snaps := by unfold issueWrite; split <;> rfl

/-! `cluEvent` -/

@[simp] theorem cluEvent_pending (b : Nat) : (cluEvent s b).pending = s.pending := rfl
@[simp] theorem cluEvent_now (b : Nat) : (cluEvent s b).now = s.now := rfl
@[simp] theorem cluEvent_free (b : Nat) : (cluEvent s b).free = s.free := rfl
@[simp] theorem cluEvent_out (b : Nat) : (cluEvent s b).out = s.out := rfl
@[simp] theorem cluEvent_link (b : Nat) : (cluEvent s b).link = s.link := rfl
@[simp] theorem cluEvent_adm (b : Nat) : (cluEvent s b).adm = s.adm := rfl
@[simp] theorem cluEvent_disp (b : Nat) : (cluEvent s b).disp = s.disp := rfl
@[simp] theorem cluEvent_plots (b : Nat) : (cluEvent s b).plots = s.plots := rfl
@[simp] theorem cluEvent_yokes (b : Nat) : (cluEvent s b).yokes = s.yokes := rfl
@[simp] theorem cluEvent_yreg (b : Nat) : (cluEvent s b).yreg = s.yreg := rfl
@[simp] theorem cluEvent_stw (b : Nat) : (cluEvent s b).stw = s.stw := rfl
@[simp] theorem cluEvent_prog (b : Nat) : (cluEvent s b).prog = s.prog := rfl
@[simp] theorem cluEvent_kp (b : Nat) : (cluEvent s b).kp = s.kp := rfl
@[simp] theorem cluEvent_rpl (b : Nat) : (cluEvent s b).rpl = s.rpl := rfl
@[simp] theorem cluEvent_vlt (b : Nat) : (cluEvent s b).vlt = s.vlt := rfl
@[simp] theorem cluEvent_lan (b : Nat) : (cluEvent s b).lan = s.lan := rfl
@[simp] theorem cluEvent_pke (b : Nat) : (cluEvent s b).pke = s.pke := rfl
@[simp] theorem cluEvent_rng (b : Nat) : (cluEvent s b).rng = s.rng := rfl
@[simp] theorem cluEvent_kpr (b : Nat) : (cluEvent s b).kpr = s.kpr := rfl
@[simp] theorem cluEvent_hdg (b : Nat) : (cluEvent s b).hdg = s.hdg := rfl
@[simp] theorem cluEvent_dbg (b : Nat) : (cluEvent s b).dbg = s.dbg := rfl
@[simp] theorem cluEvent_cust (b : Nat) : (cluEvent s b).cust = s.cust := rfl
@[simp] theorem cluEvent_lcs (b : Nat) : (cluEvent s b).lcs = s.lcs := rfl
@[simp] theorem cluEvent_flash (b : Nat) : (cluEvent s b).flash = s.flash := rfl
@[simp] theorem cluEvent_evr (b : Nat) : (cluEvent s b).evr = s.evr := rfl
@[simp] theorem cluEvent_pwr (b : Nat) : (cluEvent s b).pwr = s.pwr := rfl
@[simp] theorem cluEvent_owed (b : Nat) : (cluEvent s b).owed = s.owed := rfl
@[simp] theorem cluEvent_snaps (b : Nat) : (cluEvent s b).snaps = s.snaps := rfl

/-! `rngEvent` -/

@[simp] theorem rngEvent_pending (b : Nat) : (rngEvent s b).pending = s.pending := rfl
@[simp] theorem rngEvent_now (b : Nat) : (rngEvent s b).now = s.now := rfl
@[simp] theorem rngEvent_free (b : Nat) : (rngEvent s b).free = s.free := rfl
@[simp] theorem rngEvent_out (b : Nat) : (rngEvent s b).out = s.out := rfl
@[simp] theorem rngEvent_link (b : Nat) : (rngEvent s b).link = s.link := rfl
@[simp] theorem rngEvent_adm (b : Nat) : (rngEvent s b).adm = s.adm := rfl
@[simp] theorem rngEvent_disp (b : Nat) : (rngEvent s b).disp = s.disp := rfl
@[simp] theorem rngEvent_plots (b : Nat) : (rngEvent s b).plots = s.plots := rfl
@[simp] theorem rngEvent_yokes (b : Nat) : (rngEvent s b).yokes = s.yokes := rfl
@[simp] theorem rngEvent_yreg (b : Nat) : (rngEvent s b).yreg = s.yreg := rfl
@[simp] theorem rngEvent_stw (b : Nat) : (rngEvent s b).stw = s.stw := rfl
@[simp] theorem rngEvent_prog (b : Nat) : (rngEvent s b).prog = s.prog := rfl
@[simp] theorem rngEvent_kp (b : Nat) : (rngEvent s b).kp = s.kp := rfl
@[simp] theorem rngEvent_rpl (b : Nat) : (rngEvent s b).rpl = s.rpl := rfl
@[simp] theorem rngEvent_vlt (b : Nat) : (rngEvent s b).vlt = s.vlt := rfl
@[simp] theorem rngEvent_lan (b : Nat) : (rngEvent s b).lan = s.lan := rfl
@[simp] theorem rngEvent_pke (b : Nat) : (rngEvent s b).pke = s.pke := rfl
@[simp] theorem rngEvent_kpr (b : Nat) : (rngEvent s b).kpr = s.kpr := rfl
@[simp] theorem rngEvent_hdg (b : Nat) : (rngEvent s b).hdg = s.hdg := rfl
@[simp] theorem rngEvent_dbg (b : Nat) : (rngEvent s b).dbg = s.dbg := rfl
@[simp] theorem rngEvent_cust (b : Nat) : (rngEvent s b).cust = s.cust := rfl
@[simp] theorem rngEvent_lcs (b : Nat) : (rngEvent s b).lcs = s.lcs := rfl
@[simp] theorem rngEvent_flash (b : Nat) : (rngEvent s b).flash = s.flash := rfl
@[simp] theorem rngEvent_evr (b : Nat) : (rngEvent s b).evr = s.evr := rfl
@[simp] theorem rngEvent_clu (b : Nat) : (rngEvent s b).clu = s.clu := rfl
@[simp] theorem rngEvent_pwr (b : Nat) : (rngEvent s b).pwr = s.pwr := rfl
@[simp] theorem rngEvent_owed (b : Nat) : (rngEvent s b).owed = s.owed := rfl
@[simp] theorem rngEvent_snaps (b : Nat) : (rngEvent s b).snaps = s.snaps := rfl

/-! `yokEvent` -/

@[simp] theorem yokEvent_pending (b : Nat) : (yokEvent s b).pending = s.pending := rfl
@[simp] theorem yokEvent_now (b : Nat) : (yokEvent s b).now = s.now := rfl
@[simp] theorem yokEvent_free (b : Nat) : (yokEvent s b).free = s.free := rfl
@[simp] theorem yokEvent_out (b : Nat) : (yokEvent s b).out = s.out := rfl
@[simp] theorem yokEvent_link (b : Nat) : (yokEvent s b).link = s.link := rfl
@[simp] theorem yokEvent_adm (b : Nat) : (yokEvent s b).adm = s.adm := rfl
@[simp] theorem yokEvent_disp (b : Nat) : (yokEvent s b).disp = s.disp := rfl
@[simp] theorem yokEvent_plots (b : Nat) : (yokEvent s b).plots = s.plots := rfl
@[simp] theorem yokEvent_yokes (b : Nat) : (yokEvent s b).yokes = s.yokes := rfl
@[simp] theorem yokEvent_stw (b : Nat) : (yokEvent s b).stw = s.stw := rfl
@[simp] theorem yokEvent_prog (b : Nat) : (yokEvent s b).prog = s.prog := rfl
@[simp] theorem yokEvent_kp (b : Nat) : (yokEvent s b).kp = s.kp := rfl
@[simp] theorem yokEvent_rpl (b : Nat) : (yokEvent s b).rpl = s.rpl := rfl
@[simp] theorem yokEvent_vlt (b : Nat) : (yokEvent s b).vlt = s.vlt := rfl
@[simp] theorem yokEvent_lan (b : Nat) : (yokEvent s b).lan = s.lan := rfl
@[simp] theorem yokEvent_pke (b : Nat) : (yokEvent s b).pke = s.pke := rfl
@[simp] theorem yokEvent_rng (b : Nat) : (yokEvent s b).rng = s.rng := rfl
@[simp] theorem yokEvent_kpr (b : Nat) : (yokEvent s b).kpr = s.kpr := rfl
@[simp] theorem yokEvent_hdg (b : Nat) : (yokEvent s b).hdg = s.hdg := rfl
@[simp] theorem yokEvent_dbg (b : Nat) : (yokEvent s b).dbg = s.dbg := rfl
@[simp] theorem yokEvent_cust (b : Nat) : (yokEvent s b).cust = s.cust := rfl
@[simp] theorem yokEvent_lcs (b : Nat) : (yokEvent s b).lcs = s.lcs := rfl
@[simp] theorem yokEvent_flash (b : Nat) : (yokEvent s b).flash = s.flash := rfl
@[simp] theorem yokEvent_evr (b : Nat) : (yokEvent s b).evr = s.evr := rfl
@[simp] theorem yokEvent_clu (b : Nat) : (yokEvent s b).clu = s.clu := rfl
@[simp] theorem yokEvent_pwr (b : Nat) : (yokEvent s b).pwr = s.pwr := rfl
@[simp] theorem yokEvent_owed (b : Nat) : (yokEvent s b).owed = s.owed := rfl
@[simp] theorem yokEvent_snaps (b : Nat) : (yokEvent s b).snaps = s.snaps := rfl

/-! What the updates put -/

@[simp] theorem State.setPlot_plots (p : Nat) (x : Plot) : (s.setPlot p x).plots = tset Plot.zero p x s.plots := rfl
@[simp] theorem State.modPlot_plots (p : Nat) (f : Plot → Plot) :
    (s.modPlot p f).plots = tset Plot.zero p (f (s.plot p)) s.plots := rfl
@[simp] theorem State.setYoke_yokes (y : Nat) (x : Yoke) : (s.setYoke y x).yokes = tset Yoke.zero y x s.yokes := rfl
@[simp] theorem State.modYoke_yokes (y : Nat) (f : Yoke → Yoke) :
    (s.modYoke y f).yokes = tset Yoke.zero y (f (s.yoke y)) s.yokes := rfl
@[simp] theorem emit_out (o : Out) : (emit s o).out = s.out ++ [o] := rfl
@[simp] theorem drawn_free (n : Nat) : (drawn s n).free = s.free + n := rfl
@[simp] theorem advanceTo_now (t : Nat) : (advanceTo s t).now = max s.now t := rfl
@[simp] theorem ledAct_pwr : (ledAct s).pwr = { s.pwr with ledAct := true } := rfl
@[simp] theorem State.setCore_steward_stw (k : Core) : (s.setCore .steward k).stw = { s.stw with core := k } := rfl
@[simp] theorem State.setCore_steward_yokes (k : Core) : (s.setCore .steward k).yokes = s.yokes := rfl
@[simp] theorem State.setCore_tiller_stw (y : YokeId) (k : Core) : (s.setCore (.tiller y) k).stw = s.stw := rfl
@[simp] theorem State.setHop_admin_plots (x : Hopper) : (s.setHop .admin x).plots = s.plots := rfl
@[simp] theorem State.setHop_vf_adm (p : PlotId) (h : Fin 16) (x : Hopper) : (s.setHop (.vf p h) x).adm = s.adm := rfl

/-- Another plot is as it was. -/
theorem State.setPlot_plot_ne {p q : Nat} (n : q ≠ p) (x : Plot) : (s.setPlot p x).plot q = s.plot q :=
  tget_tset_ne n s.plots

/-- The plot that was put, in a canonical table. -/
theorem State.setPlot_plot_same {p : Nat} (h : twf Plot.zero s.plots = true) (x : Plot) : (s.setPlot p x).plot p = x :=
  tget_tset_same h

/-- The plot that was changed, in a canonical table. -/
theorem State.modPlot_plot_same {p : Nat} (h : twf Plot.zero s.plots = true) (f : Plot → Plot) :
    (s.modPlot p f).plot p = f (s.plot p) := tget_tset_same h

/-- Another plot is as it was. -/
theorem State.modPlot_plot_ne {p q : Nat} (n : q ≠ p) (f : Plot → Plot) : (s.modPlot p f).plot q = s.plot q :=
  tget_tset_ne n s.plots

/-- Another yoke is as it was. -/
theorem State.setYoke_yoke_ne {y z : Nat} (n : z ≠ y) (x : Yoke) : (s.setYoke y x).yoke z = s.yoke z :=
  tget_tset_ne n s.yokes

/-- The yoke that was put, in a canonical table. -/
theorem State.setYoke_yoke_same {y : Nat} (h : twf Yoke.zero s.yokes = true) (x : Yoke) : (s.setYoke y x).yoke y = x :=
  tget_tset_same h

/-- The yoke that was changed, in a canonical table. -/
theorem State.modYoke_yoke_same {y : Nat} (h : twf Yoke.zero s.yokes = true) (f : Yoke → Yoke) :
    (s.modYoke y f).yoke y = f (s.yoke y) := tget_tset_same h

/-- Another yoke is as it was. -/
theorem State.modYoke_yoke_ne {y z : Nat} (n : z ≠ y) (f : Yoke → Yoke) : (s.modYoke y f).yoke z = s.yoke z :=
  tget_tset_ne n s.yokes

end Sys2Proof.Machine
end

