-- ==== Sys2Proof/Laws/Cores.lean ====
section
/-! SUPPORT. The course of one instruction, said once: what `runIns` answers where a core comes to its next
instruction, and what the two common shapes of instruction make of it. -/

namespace Sys2Proof.Machine

/-- With nothing in front of it, an instruction has the effect of its body. -/
theorem runIns_comes {s : State} {c : CoreId} {hw : Hw} {ext fin : Bool} {body : State → Core → Acc Done}
    (h : Comes s c hw ext) :
    runIns c hw ext fin body s =
      match body (fetched s c) (regsOf s c) with
      | .ok s1 d => retire s s1 c ext d
      | .trap s1 t => takeTrap (fetched s c) s1 c t (regsOf s c).pc
      | .stop s1 => s1 := by
  obtain ⟨h1, h2, h3, rfl, h5⟩ := h
  have e : eccNote s c .ok = s := by cases c <;> rfl
  have f : fetchUnc s .ok c = none := by cases c <;> simp [fetchUnc]
  have n : noInstr .ok = false := rfl
  unfold runIns atBoundary
  rw [h1, h2, h3, f, e]
  simp only [Bool.false_and, Bool.false_eq_true, if_false, Bool.true_eq_false]
  change runBody c .ok ext body (fetched s c) = _
  simp only [runBody, n, Bool.false_eq_true, if_false]
  unfold regsOf at h5 ⊢
  rw [h5]
  rfl

/-- An instruction whose body goes on with no change of the state. -/
theorem runIns_ok {s : State} {c : CoreId} {hw : Hw} {ext fin : Bool} {body : State → Core → Acc Done} {s1 : State}
    {d : Done} (h : Comes s c hw ext) (b : body (fetched s c) (regsOf s c) = .ok s1 d) :
    runIns c hw ext fin body s = retire s s1 c ext d := by
  rw [runIns_comes h, b]

/-- An instruction whose checks trap. -/
theorem runIns_trap {s : State} {c : CoreId} {hw : Hw} {ext fin : Bool} {body : State → Core → Acc Done} {t : Trap}
    (h : Comes s c hw ext) (b : body (fetched s c) (regsOf s c) = .trap (fetched s c) t) :
    runIns c hw ext fin body s = trapped s c t := by
  rw [runIns_comes h, b]; rfl

/-- Checks that pass say that the minor opcode and the format are ones the instruction has. -/
theorem checks_sub {k : Core} {cls : Nat} {sub rep fmt priv : Bool} (h : checks k cls sub rep fmt priv = none) :
    sub = true ∧ fmt = true ∧ priv = true := by
  unfold checks at h
  cases sub <;> cases fmt <;> cases priv <;> simp at h ⊢ <;> (repeat (first | contradiction | split at h))

/-- An ordinary instruction with an operand that can be read. -/
theorem operandIns_ok {s t : State} {c : CoreId} {i : Ins} {signed : Bool} {modes : List Nat} {sz3 reads : Bool}
    {cost n : Nat} {f : Core → W64 → Core} {v : W64} (h : Comes s c i.hw i.e)
    (l : checks (regsOf s c) 0 (i.sub == 0 || (signed && i.sub == 1)) true (i.modeOk (regsOf s c) modes sz3)
      (i.privOk (regsOf s c)) = none)
    (o : opval (fetched s c) c (macStall (regsOf s c) (reads || i.readsMac)) i (i.sub == 1) = .ok t (v, n)) :
    operandIns c i signed modes sz3 reads cost f s =
      .next (retire s t c i.e
        { core := i.post (f (macStall (regsOf s c) (reads || i.readsMac)) v), cost := cost + n }) := by
  unfold operandIns
  congr 1
  refine runIns_ok h ?_
  simp only [l, o, Acc.bind]

/-- An ordinary instruction with an operand whose checks trap. -/
theorem operandIns_trap {s : State} {c : CoreId} {i : Ins} {signed : Bool} {modes : List Nat} {sz3 reads : Bool}
    {cost : Nat} {f : Core → W64 → Core} {t : Trap} (h : Comes s c i.hw i.e)
    (l : checks (regsOf s c) 0 (i.sub == 0 || (signed && i.sub == 1)) true (i.modeOk (regsOf s c) modes sz3)
      (i.privOk (regsOf s c)) = some t) :
    operandIns c i signed modes sz3 reads cost f s = .next (trapped s c t) := by
  unfold operandIns
  congr 1
  refine runIns_trap h ?_
  simp only [l]

/-- An ordinary instruction with no operand. -/
theorem plainIns_ok {s : State} {c : CoreId} {i : Ins} {fmt rep reads : Bool} {cost : Nat} {f : Core → Core}
    (h : Comes s c i.hw i.e) (l : checks (regsOf s c) 0 (i.sub == 0) rep fmt true = none) :
    plainIns c i fmt rep reads cost f s =
      .next (retire s (fetched s c) c i.e { core := f (macStall (regsOf s c) reads), cost := cost }) := by
  unfold plainIns
  congr 1
  refine runIns_ok h ?_
  simp only [l]

end Sys2Proof.Machine
end

