-- ==== Sys2Proof/Laws/Access.lean ====
section
/-! SUPPORT. Accesses that may be carried out at once, said once: what a load reads, what a store leaves, and the operand
of each addressing mode. -/

namespace Sys2Proof.Machine

/-- The instruction boundary changes nothing that decides whether an access may be carried out. -/
theorem mayLoad_fetched {s : State} {c : CoreId} {a : W64} {n : Nat} (h : MayLoad s c a n) : MayLoad (fetched s c) c a n := by
  cases c <;> exact h

/-- The same for a store. -/
theorem mayStore_fetched {s : State} {c : CoreId} {a : W64} {n : Nat} (h : MayStore s c a n) : MayStore (fetched s c) c a n := by
  cases c <;> exact h

/-- A load that may be carried out reads the bytes little-endian and changes nothing. -/
theorem load_may {s : State} {c : CoreId} {a : W64} {n : Nat} (h : MayLoad s c a n) :
    load s c .ok a n = .ok s (loadedAt s c a n) := by
  cases c with
  | tiller y =>
    obtain ⟨h1, h2⟩ := h
    have a1 : ¬ 0xFFFF < a.toNat := by omega
    have a2 : ¬ 0xF000 ≤ a.toNat := by omega
    simp only [load, benchLoad, if_neg a1, if_neg a2, h2, ne_eq, not_true_eq_false, if_false, reduceCtorEq]
    rfl
  | steward =>
    obtain ⟨h1, h2, h3⟩ := h
    have a1 : ¬ 2 ^ 32 ≤ a.toNat := by omega
    simp only [load, fabricLoad, if_neg a1, h2, Bool.false_eq_true, if_false, hedgeCheck, h3]
    rfl

/-- A store that may be carried out leaves its bytes. -/
theorem store_may {s : State} {c : CoreId} {a : W64} {n : Nat} (v : W64) (h : MayStore s c a n) :
    store s c .ok a n v = .ok (storedAt s c a n v) 0 := by
  cases c with
  | tiller y =>
    obtain ⟨h1, h3, h2⟩ := h
    have a1 : ¬ 0xFFFF < a.toNat := by omega
    have a2 : ¬ 0xF000 ≤ a.toNat := by omega
    have a3 : regionOf a.toNat ≠ .command := by
      unfold regionOf
      rcases h3 with h3 | h3
      · simp [h3]
      · have b1 : ¬ a.toNat < 0xC000 := by omega
        have b2 : ¬ a.toNat < 0xE000 := by omega
        simp [b1, b2]
    simp only [store, benchStore, if_neg a1, if_neg a2, if_neg a3, h2, ne_eq, not_true_eq_false, if_false, reduceCtorEq]
    rfl
  | steward =>
    obtain ⟨h1, h2, h3⟩ := h
    have a1 : ¬ 2 ^ 32 ≤ a.toNat := by omega
    simp only [store, fabricStore, if_neg a1, h2, Bool.false_eq_true, if_false, hedgeCheck, h3]
    rfl

/-- A load below port space costs one cycle. -/
theorem loadCost_may {s : State} {c : CoreId} {a : W64} {n : Nat} (h : MayLoad s c a n) : loadCost c a = 1 := by
  cases c with
  | tiller y =>
    obtain ⟨h1, -⟩ := h
    have a2 : ¬ 0xF000 ≤ a.toNat := by omega
    simp only [loadCost, if_neg a2]
  | steward => rfl

/-- An operand that is there at once. -/
theorem opval_open {s : State} {c : CoreId} {k : Core} {i : Ins} {signed : Bool} (e : i.hw = .ok) (h : OperandOpen s c k i) :
    opval s c k i signed = .ok s (operandOf s c k i signed) := by
  by_cases h0 : i.mode = 0
  · have : i.mode.toNat = 0 := by rw [h0]; rfl
    simp only [opval, this, operandOf, if_pos h0]
  · by_cases h7 : i.mode = 7
    · have : i.mode.toNat = 7 := by rw [h7]; rfl
      simp only [opval, this, operandOf, if_neg h0, if_pos h7]
    · have m : MayLoad s c (i.addr k) i.bytes := by
        rcases h with h | h | h
        · exact absurd h h0
        · exact absurd h h7
        · exact h
      have n0 : i.mode.toNat ≠ 0 := fun x => h0 (BitVec.eq_of_toNat_eq x)
      have n7 : i.mode.toNat ≠ 7 := fun x => h7 (BitVec.eq_of_toNat_eq x)
      unfold opval
      split
      · rename_i x; exact absurd x n0
      · rename_i x; exact absurd x n7
      · rw [e, load_may m]
        simp only [Acc.bind, operandOf, if_neg h0, if_neg h7, loadCost_may m]

/-- The operand as the instruction at a boundary finds it. -/
theorem operandOpen_fetched {s : State} {c : CoreId} {k : Core} {i : Ins} (h : OperandOpen s c k i) :
    OperandOpen (fetched s c) c k i := by
  rcases h with h | h | h
  · exact .inl h
  · exact .inr (.inl h)
  · exact .inr (.inr (mayLoad_fetched h))

/-- An accepted instruction meets no error code. -/
theorem accepted_hw {s : State} {c : CoreId} {hw : Hw} {ext : Bool} {cls : Nat} {sub rep fmt priv : Bool}
    (h : Accepted s c hw ext cls sub rep fmt priv) : hw = .ok := h.1.2.2.2.1

/-- A multiply-accumulate's wait changes the cycle count alone. -/
theorem settled_cyc (k : Core) (b : Bool) : settled k b = { k with cyc := (settled k b).cyc } := by
  unfold settled macStall
  split
  · split <;> rfl
  · rfl

/-- Nobody waits who does not read the result. -/
@[simp] theorem settled_false (k : Core) : settled k false = k := by
  unfold settled macStall
  split <;> rfl

@[simp] theorem settled_a (k : Core) (b : Bool) : (settled k b).a = k.a := by rw [settled_cyc]
@[simp] theorem settled_sp (k : Core) (b : Bool) : (settled k b).sp = k.sp := by rw [settled_cyc]
@[simp] theorem settled_pc (k : Core) (b : Bool) : (settled k b).pc = k.pc := by rw [settled_cyc]
@[simp] theorem settled_addr (i : Ins) (k : Core) (b : Bool) : i.addr (settled k b) = i.addr k := by rw [settled_cyc]; rfl
@[simp] theorem settled_open (s : State) (c : CoreId) (i : Ins) (k : Core) (b : Bool) :
    OperandOpen s c (settled k b) i ↔ OperandOpen s c k i := by
  unfold OperandOpen; rw [settled_addr]

/-- A record that may be accessed is read. -/
theorem record_may {s : State} {y : YokeId} {a : W64} {n align : Nat} {l : List Region} (h : MayRecord a n align l) :
    record s y .ok a n align l = .ok s (benchRecord s y a n) := by
  obtain ⟨h1, h2⟩ := h
  have b : a.toNat < 0xF000 := by
    simp only [rangeIn, Bool.and_eq_true, decide_eq_true_eq] at h1
    omega
  have c : (decide (0xFFFF < a.toNat) || !rangeIn l a.toNat n) = false := by
    rw [h1]; simp; omega
  simp only [record, c, h2, ne_eq, not_true_eq_false, if_false, Bool.false_eq_true, reduceCtorEq]
  rfl

/-- A job descriptor that may be read, with ranges that a job may name. -/
theorem descriptor_may {s : State} {y : YokeId} {a : W64} (h : MayDescribe s y a) :
    descriptor s y .ok a = .ok s (benchRecord s y a 64) := by
  obtain ⟨h1, h2, h3, h4⟩ := h
  simp only [descriptor, record_may h1, Acc.bind, h2, h3, h4, Bool.and_self, if_true]

/-- An instruction of 0x70 to 0x78 that comes and passes its checks has the effect of its body. -/
theorem keyIns_body {s : State} {y : YokeId} {i : Ins} {sub fmt fin reads : Bool} {body : State → Nat → Tx → Core → Acc Done}
    {t : Tx} (h : Comes s (.tiller y) i.hw i.e)
    (l : checks (regsOf s (.tiller y)) 1 sub false fmt (i.privOk (regsOf s (.tiller y))) = none)
    (ht : (fetched s (.tiller y)).tx y = some t) :
    keyIns (.tiller y) i sub fmt fin reads body s = .next (
      match body (fetched s (.tiller y)) y t (settled (regsOf s (.tiller y)) reads) with
      | .ok s1 d => retire s s1 (.tiller y) i.e d
      | .trap s1 t => takeTrap (fetched s (.tiller y)) s1 (.tiller y) t (regsOf s (.tiller y)).pc
      | .stop s1 => s1) := by
  unfold keyIns; congr 1
  rw [runIns_comes h]
  simp only [l, ht]; rfl

end Sys2Proof.Machine
end

