-- ==== Sys2Proof/Laws/Admin.lean ====
section
/-! SUPPORT. The course of an admin command, said once (R99, R608): what `admin` answers where every gate lets the command
pass, where one stops it, and where another command is in front. -/

namespace Sys2Proof.Machine

/-- Every gate of R608 passes: the command runs on the state without it in the queue. -/
theorem admin_run {code : BitVec 16} {fa ta a b c : Bool} {n : Nat} {lcs args plot quorum : State → Adm → Bool}
    {run : State → Adm → State} {s : State} {d : Adm} {rest : List Adm} (h : Serves s d rest a b c n) (hc : d.code = code)
    (hl : lcs (popAdm s rest) d = true) (ha : args (popAdm s rest) d = true) (hp : plot (popAdm s rest) d = true)
    (hq : quorum (popAdm s rest) d = true) (hab : ((!a || fa) && (!b || ta)) = true := by decide) :
    admin code fa ta lcs args plot quorum run s = run (popAdm s rest) d := by
  obtain ⟨q, nb, ab, f, t, _, _⟩ := h
  unfold admin
  simp only [q, hc, nb, ab, and_self, if_true]
  change (match gate (popAdm s rest) d fa ta lcs args plot quorum with
    | some (st, det) => admFail (popAdm s rest) d st det
    | none => run (popAdm s rest) d) = _
  have f' : (s.lcs.fallow && !fa) = false := by
    revert hab f t; cases s.lcs.fallow <;> cases s.kpr.tampered <;> cases a <;> cases b <;> cases fa <;> cases ta <;> decide
  have t' : (!s.lcs.fallow && s.kpr.tampered && !ta) = false := by
    revert hab f t; cases s.lcs.fallow <;> cases s.kpr.tampered <;> cases a <;> cases b <;> cases fa <;> cases ta <;> decide
  have f' : ((popAdm s rest).lcs.fallow && !fa) = false := f'
  have t' : (!(popAdm s rest).lcs.fallow && (popAdm s rest).kpr.tampered && !ta) = false := t'
  simp only [gate, f', t', hl, ha, hp, hq, Bool.not_true, Bool.false_eq_true, if_false]

/-- A module that is no standby runs the command of `notStandby` itself. -/
theorem notStandby_run {a b : Bool} {n : Nat} {s : State} {d : Adm} {rest : List Adm} (h : Serves s d rest a b false n)
    (run : State → Adm → State) : notStandby run (popAdm s rest) d = run (popAdm s rest) d :=
  if_neg fun e => absurd (h.2.2.2.2.2.2 e) (by decide)

/-- A module outside DECOMMISSIONED passes the life-cycle gate. -/
theorem notDecom_run {a b c : Bool} {s : State} {d : Adm} {rest : List Adm} (h : Serves s d rest a b c) :
    notDecom (popAdm s rest) d = true := decide_eq_true h.2.2.2.2.2.1

/-- A plot admin command whose gates pass. -/
theorem plotCmd_run {code : BitVec 16} {args : State → Adm → Bool} {sts : List PlotSt} {quorum : State → Adm → Bool}
    {run : State → Adm → State} {s : State} {d : Adm} {rest : List Adm} (h : Serves s d rest) (hc : d.code = code)
    (hn : plotNamed d = true) (ha : args (popAdm s rest) d = true) (hp : (s.plot d.pid).st ∈ sts)
    (hq : quorum (popAdm s rest) d = true) :
    plotCmd code args sts quorum run s = .next (run (popAdm s rest) d) := by
  unfold plotCmd
  rw [admin_run h hc (notDecom_run h) (by rw [hn, ha]; rfl) (by
    have : (popAdm s rest).plot d.pid = s.plot d.pid := rfl
    simp only [plotIn, this]; simpa using hp) hq, notStandby_run h]

/-- A custodian command whose gates pass: of the manager scope in fallow mode, TAMPERED and DECOMMISSIONED too. -/
theorem custCmd_run {code : BitVec 16} {args quorum : State → Adm → Bool} {run : State → Adm → State} {s : State} {d : Adm}
    {rest : List Adm} (h : Serves s d rest (isManager d) (isManager d) true (if isManager d then 5 else 4)) (hc : d.code = code)
    (hn : scopeNamed d = true) (ha : args (popAdm s rest) d = true) (ht : scopeThere (popAdm s rest) d = true)
    (hq : quorum (popAdm s rest) d = true) :
    custCmd code args quorum run s = .next (run (popAdm s rest) d) := by
  have dec : (isManager d || notDecom (popAdm s rest) d) = true := by
    cases e : isManager d
    · rw [e] at h; exact notDecom_run h
    · rfl
  unfold custCmd
  simp only [h.1]
  rw [admin_run h hc dec (by rw [hn, ha]; rfl) ht hq (by cases isManager d <;> rfl)]

end Sys2Proof.Machine
end

