-- ==== Sys2Proof/Laws/Bench.lean ====
section
/-! SUPPORT. A program's write to its bench, said once: its bytes, the free choices that the jobs which have not read their input
make (R246), and nothing else. -/

namespace Sys2Proof.Machine

/-- What a write to the bench of yoke `y` can change beside the bytes: the old bytes that the jobs of its transaction may still
meet, and the numbers of the free values. -/
def JobsNoted (y : Nat) (s t : State) : Prop :=
  (t = { s with yokes := t.yokes, free := t.free }) ∧ (∀ z, z ≠ y → t.yoke z = s.yoke z) ∧
    (twf Yoke.zero s.yokes = true → twf Yoke.zero t.yokes = true ∧ { t.yoke y with tx := s.tx y } = s.yoke y ∧
      (t.tx y).map (fun x => { x with jobs := [] }) = (s.tx y).map (fun x => { x with jobs := [] }) ∧
      ∀ x, s.tx y = some x → x.jobs = [] → t.tx y = some x)

theorem JobsNoted.refl (y : Nat) (s : State) : JobsNoted y s s := ⟨rfl, fun _ _ => rfl, fun h => ⟨h, rfl, rfl, fun _ h _ => h⟩⟩

theorem JobsNoted.trans {y : Nat} {a b c : State} (h : JobsNoted y a b) (k : JobsNoted y b c) : JobsNoted y a c := by
  obtain ⟨h1, h2, h3⟩ := h
  obtain ⟨k1, k2, k3⟩ := k
  refine ⟨?_, fun z n => (k2 z n).trans (h2 z n), fun w => ?_⟩
  · rw [k1, h1]
  · obtain ⟨w1, e1, m1, x1⟩ := h3 w
    obtain ⟨w2, e2, m2, x2⟩ := k3 w1
    refine ⟨w2, ?_, m2.trans m1, fun x hx hj => x2 x (x1 x hx hj) hj⟩
    rw [← e1, ← e2]

/-- A change of the jobs of a transaction that has some. -/
theorem modTx_noted (s : State) (y n : Nat) (f : Tx → Tx) (hf : ∀ t, { f t with jobs := [] } = { t with jobs := [] })
    (hj : ∀ t, s.tx y = some t → t.jobs ≠ []) : JobsNoted y s (drawn (s.modTx y f) n) := by
  have same : ∀ w : twf Yoke.zero s.yokes = true,
      (drawn (s.modTx y f) n).yoke y = { s.yoke y with tx := (s.yoke y).tx.map f } := fun w => tget_tset_same w
  refine ⟨rfl, fun z k => tget_tset_ne k s.yokes, fun w => ⟨twf_tset w _ _, ?_, ?_, fun x hx he => absurd he (hj x hx)⟩⟩
  · rw [same w]; rfl
  · have e : (drawn (s.modTx y f) n).tx y = (s.tx y).map f := congrArg Yoke.tx (same w)
    rw [e]
    cases s.tx y with
    | none => rfl
    | some x => exact congrArg some (hf x)

/-- One byte of a write. -/
theorem noteByte_noted (s : State) (y a : Nat) : JobsNoted y s (noteByte s y a) := by
  unfold noteByte
  cases ht : s.tx y with
  | none => exact JobsNoted.refl y s
  | some t =>
    dsimp only
    split
    · rename_i hit
      refine modTx_noted s y 8 _ (fun _ => rfl) fun x hx hj => ?_
      rw [ht] at hx
      cases hx
      rw [hj] at hit
      cases hit
    · exact JobsNoted.refl y s

/-- All the bytes of a write. -/
theorem noteBytes_noted (y p : Nat) : ∀ (l : List Nat) (s : State),
    JobsNoted y s (l.foldl (fun s i => noteByte s y (p + i)) s)
  | [], s => JobsNoted.refl y s
  | i :: l, s => (noteByte_noted s y (p + i)).trans (noteBytes_noted y p l _)

end Sys2Proof.Machine
end

