-- ==== Sys2Proof/Laws/Commands.lean ====
section
/-! SUPPORT. Administrative commands: the doorbell of the admin hopper, the cluster commands and the custodian operations. -/

namespace Sys2Proof.Machine

/-- With PF0 in reach, the doorbell of the admin hopper is taken. -/
theorem reach_admin {s : State} (hr : reach s .pf0 = true) : ¬ (!reach s (hopFn .admin) || hopDropped s .admin) = true := by
  change ¬ (!reach s .pf0 || false) = true
  rw [hr]; decide

/-- The admin hopper written twice is the second write. -/
theorem setHop_admin_twice (s : State) (x y : Hopper) : (s.setHop .admin x).setHop .admin y = s.setHop .admin y := rfl

/-- The function of a plot is its VF. -/
theorem vfOf_val (p : PlotId) : vfOf p.val = .vf p := congrArg Fn.vf (Fin.ext (Nat.mod_eq_of_lt p.isLt))

/-- The charge of a dispatched transaction counts one more busy in its plot. -/
theorem charge_plots (s : State) (p h y : Nat) (hp : p < 1024) : ∃ f : Plot → Plot, (∀ pl, (f pl).busy = pl.busy + 1) ∧
    (charge s p h y).plots = tset Plot.zero p (f (tget Plot.zero (tset Plot.zero p ({ s.plot p with hoppers := tset Hopper.zero (Fin.ofNat 16 h).val { s.hop (hopRef p h) with reads := (s.hop (hopRef p h)).reads + 1 } (s.plot p).hoppers } : Plot) s.plots) p)) (tset Plot.zero p { s.plot p with hoppers := tset Hopper.zero (Fin.ofNat 16 h).val { s.hop (hopRef p h) with reads := (s.hop (hopRef p h)).reads + 1 } (s.plot p).hoppers } s.plots) := by
  refine ⟨fun pl => { pl with busy := pl.busy + 1 }, fun _ => rfl, ?_⟩
  have e : (Fin.ofNat 1024 p).val = p := Nat.mod_eq_of_lt hp
  simp only [charge, issueRead_plots, drawn_plots, hopRef, State.setHop, holdImages, State.modYoke, State.setYoke, State.modPlot, State.setPlot, State.plot, e]

/-- A cluster command past its gates runs. -/
theorem cluCmd_run {code : BitVec 16} {args quorum : State → Adm → Bool} {run : State → Adm → State} {s : State} {d : Adm}
    {rest : List Adm} (h : Serves s d rest) (h3 : s.lcs.state = 3) (hc : d.code = code)
    (ha : args (popAdm s rest) d = true) (hq : quorum (popAdm s rest) d = true) :
    cluCmd code args quorum run s = .next (run (popAdm s rest) d) := by
  unfold cluCmd
  rw [admin_run h hc (by rw [show (popAdm s rest).lcs.state = 3 from h3]; rfl) ha rfl hq]

/-- A custodian operation that is no ceremony begins at its card step. -/
theorem beginOp_eq (u : State) (d : Adm) (op : CustOp) (need : Nat) (h : op ≠ .ceremony) :
    beginOp u d op need = { reserve u with cust := { (reserve u).cust with
        op := op, need := need, scope := d.pid, role := byteAt d.inl 4, counted := [], step := .card, part := [], xored := [],
        groups := 0 } } := by
  unfold beginOp; simp only [if_neg h]; rfl

end Sys2Proof.Machine
end

