-- ==== Sys2Proof/Laws/Dispatch.lean ====
section
/-! SUPPORT. What `exec` calls for each command, one rewriting lemma per constructor. -/

namespace Sys2Proof.Machine

variable (s : State)

theorem exec_hopTailDb (x1 : HopRef) (x2 : W32) (x3 : Bool) : exec (.hopTailDb x1 x2 x3) s = execHopTailDb x1 x2 x3 s := rfl
theorem exec_hopHeadDb (x1 : HopRef) (x2 : W32) (x3 : Bool) : exec (.hopHeadDb x1 x2 x3) s = execHopHeadDb x1 x2 x3 s := rfl
theorem exec_hopperEnable (x1 : HopRef) (x2 : W32) : exec (.hopperEnable x1 x2) s = execHopperEnable x1 x2 s := rfl
theorem exec_hopperDisable (x1 : HopRef) (x2 : W32) : exec (.hopperDisable x1 x2) s = execHopperDisable x1 x2 s := rfl
theorem exec_registerWrite (x1 : Writer) (x2 : Nat) (x3 : Nat) (x4 : W64) : exec (.registerWrite x1 x2 x3 x4) s = execRegisterWrite x1 x2 x3 x4 s := rfl
theorem exec_dispatch : exec .dispatch s = execDispatch s := rfl
theorem exec_descriptorArrival (x1 : ReadFor) (x2 : HostRead) : exec (.descriptorArrival x1 x2) s = execDescriptorArrival x1 x2 s := rfl
theorem exec_stagingReadComplete (x1 : YokeId) (x2 : HostRead) : exec (.stagingReadComplete x1 x2) s = execStagingReadComplete x1 x2 s := rfl
theorem exec_deadlineExpired (x1 : DlTarget) : exec (.deadlineExpired x1) s = execDeadlineExpired x1 s := rfl
theorem exec_tMarginReached (x1 : YokeId) : exec (.tMarginReached x1) s = execTMarginReached x1 s := rfl
theorem exec_coalescingTimer (x1 : HopRef) : exec (.coalescingTimer x1) s = execCoalescingTimer x1 s := rfl
theorem exec_msixUnmask (x1 : Fn) (x2 : MsixField) : exec (.msixUnmask x1 x2) s = execMsixUnmask x1 x2 s := rfl
theorem exec_ideIntegrityFailure (x1 : Fin 2) : exec (.ideIntegrityFailure x1) s = execIdeIntegrityFailure x1 s := rfl
theorem exec_ideKmQuery (x1 : Fin 2) : exec (.ideKmQuery x1) s = execIdeKmQuery x1 s := rfl
theorem exec_ideKmKeyProg (x1 : Fin 2) (x2 : Fin 2) (x3 : IdeRids) (x4 : IdeAddrs) : exec (.ideKmKeyProg x1 x2 x3 x4) s = execIdeKmKeyProg x1 x2 x3 x4 s := rfl
theorem exec_ideKmKSetGo (x1 : Fin 2) (x2 : Fin 2) : exec (.ideKmKSetGo x1 x2) s = execIdeKmKSetGo x1 x2 s := rfl
theorem exec_ideKmKSetStop (x1 : Fin 2) (x2 : Fin 2) : exec (.ideKmKSetStop x1 x2) s = execIdeKmKSetStop x1 x2 s := rfl
theorem exec_spdmGetCertificate (x1 : Fin 8) : exec (.spdmGetCertificate x1) s = execSpdmGetCertificate x1 s := rfl
theorem exec_spdmChallenge (x1 : Bytes) : exec (.spdmChallenge x1) s = execSpdmChallenge x1 s := rfl
theorem exec_spdmGetMeasurements (x1 : Byte) (x2 : Bytes) : exec (.spdmGetMeasurements x1 x2) s = execSpdmGetMeasurements x1 x2 s := rfl
theorem exec_spdmKeyExchange (x1 : Bytes) : exec (.spdmKeyExchange x1) s = execSpdmKeyExchange x1 s := rfl
theorem exec_vfFlr (x1 : PlotId) : exec (.vfFlr x1) s = execVfFlr x1 s := rfl
theorem exec_vfEnableClear : exec .vfEnableClear s = execVfEnableClear s := rfl
theorem exec_pf0Flr : exec .pf0Flr s = execPf0Flr s := rfl
theorem exec_perstN : exec .perstN s = execPerstN s := rfl
theorem exec_plotCreate : exec .plotCreate s = execPlotCreate s := rfl
theorem exec_plotOpen : exec .plotOpen s = execPlotOpen s := rfl
theorem exec_plotStop : exec .plotStop s = execPlotStop s := rfl
theorem exec_plotStart : exec .plotStart s = execPlotStart s := rfl
theorem exec_plotResize : exec .plotResize s = execPlotResize s := rfl
theorem exec_plotReset : exec .plotReset s = execPlotReset s := rfl
theorem exec_resetSequenceComplete (x1 : PlotId) : exec (.resetSequenceComplete x1) s = execResetSequenceComplete x1 s := rfl
theorem exec_plotRemove : exec .plotRemove s = execPlotRemove s := rfl
theorem exec_removalSequenceComplete (x1 : PlotId) : exec (.removalSequenceComplete x1) s = execRemovalSequenceComplete x1 s := rfl
theorem exec_plotPolicyStage (x1 : HostRead) : exec (.plotPolicyStage x1) s = execPlotPolicyStage x1 s := rfl
theorem exec_plotPolicyCommit : exec .plotPolicyCommit s = execPlotPolicyCommit s := rfl
theorem exec_plotQuery : exec .plotQuery s = execPlotQuery s := rfl
theorem exec_drawerSend : exec .drawerSend s = execDrawerSend s := rfl
theorem exec_drawerRecv : exec .drawerRecv s = execDrawerRecv s := rfl
theorem exec_pltVopenGo (x1 : PlotId) (x2 : W32) : exec (.pltVopenGo x1 x2) s = execPltVopenGo x1 x2 s := rfl
theorem exec_inValid (x1 : PlotId) : exec (.inValid x1) s = execInValid x1 s := rfl
theorem exec_outAck (x1 : PlotId) : exec (.outAck x1) s = execOutAck x1 s := rfl
theorem exec_plotTick (x1 : PlotId) : exec (.plotTick x1) s = execPlotTick x1 s := rfl
theorem exec_add (x1 : CoreId) (x2 : Ins) : exec (.add x1 x2) s = execAdd x1 x2 s := rfl
theorem exec_adc (x1 : CoreId) (x2 : Ins) : exec (.adc x1 x2) s = execAdc x1 x2 s := rfl
theorem exec_sub (x1 : CoreId) (x2 : Ins) : exec (.sub x1 x2) s = execSub x1 x2 s := rfl
theorem exec_sbc (x1 : CoreId) (x2 : Ins) : exec (.sbc x1 x2) s = execSbc x1 x2 s := rfl
theorem exec_cmp (x1 : CoreId) (x2 : Ins) : exec (.cmp x1 x2) s = execCmp x1 x2 s := rfl
theorem exec_and (x1 : CoreId) (x2 : Ins) : exec (.and x1 x2) s = execAnd x1 x2 s := rfl
theorem exec_or (x1 : CoreId) (x2 : Ins) : exec (.or x1 x2) s = execOr x1 x2 s := rfl
theorem exec_xor (x1 : CoreId) (x2 : Ins) : exec (.xor x1 x2) s = execXor x1 x2 s := rfl
theorem exec_tst (x1 : CoreId) (x2 : Ins) : exec (.tst x1 x2) s = execTst x1 x2 s := rfl
theorem exec_neg (x1 : CoreId) (x2 : Ins) : exec (.neg x1 x2) s = execNeg x1 x2 s := rfl
theorem exec_not (x1 : CoreId) (x2 : Ins) : exec (.not x1 x2) s = execNot x1 x2 s := rfl
theorem exec_lda (x1 : CoreId) (x2 : Ins) : exec (.lda x1 x2) s = execLda x1 x2 s := rfl
theorem exec_ldx (x1 : CoreId) (x2 : Ins) : exec (.ldx x1 x2) s = execLdx x1 x2 s := rfl
theorem exec_ldy (x1 : CoreId) (x2 : Ins) : exec (.ldy x1 x2) s = execLdy x1 x2 s := rfl
theorem exec_ldsp (x1 : CoreId) (x2 : Ins) : exec (.ldsp x1 x2) s = execLdsp x1 x2 s := rfl
theorem exec_sta (x1 : CoreId) (x2 : Ins) : exec (.sta x1 x2) s = execSta x1 x2 s := rfl
theorem exec_stx (x1 : CoreId) (x2 : Ins) : exec (.stx x1 x2) s = execStx x1 x2 s := rfl
theorem exec_sty (x1 : CoreId) (x2 : Ins) : exec (.sty x1 x2) s = execSty x1 x2 s := rfl
theorem exec_push (x1 : CoreId) (x2 : Ins) : exec (.push x1 x2) s = execPush x1 x2 s := rfl
theorem exec_pop (x1 : CoreId) (x2 : Ins) : exec (.pop x1 x2) s = execPop x1 x2 s := rfl
theorem exec_leax (x1 : CoreId) (x2 : Ins) : exec (.leax x1 x2) s = execLeax x1 x2 s := rfl
theorem exec_leay (x1 : CoreId) (x2 : Ins) : exec (.leay x1 x2) s = execLeay x1 x2 s := rfl
theorem exec_mul (x1 : CoreId) (x2 : Ins) : exec (.mul x1 x2) s = execMul x1 x2 s := rfl
theorem exec_muls (x1 : CoreId) (x2 : Ins) : exec (.muls x1 x2) s = execMuls x1 x2 s := rfl
theorem exec_clrm (x1 : CoreId) (x2 : Ins) : exec (.clrm x1 x2) s = execClrm x1 x2 s := rfl
theorem exec_macd (x1 : CoreId) (x2 : Ins) : exec (.macd x1 x2) s = execMacd x1 x2 s := rfl
theorem exec_macs (x1 : CoreId) (x2 : Ins) : exec (.macs x1 x2) s = execMacs x1 x2 s := rfl
theorem exec_macc (x1 : CoreId) (x2 : Ins) : exec (.macc x1 x2) s = execMacc x1 x2 s := rfl
theorem exec_divu (x1 : CoreId) (x2 : Ins) : exec (.divu x1 x2) s = execDivu x1 x2 s := rfl
theorem exec_divs (x1 : CoreId) (x2 : Ins) : exec (.divs x1 x2) s = execDivs x1 x2 s := rfl
theorem exec_shl (x1 : CoreId) (x2 : Ins) : exec (.shl x1 x2) s = execShl x1 x2 s := rfl
theorem exec_shr (x1 : CoreId) (x2 : Ins) : exec (.shr x1 x2) s = execShr x1 x2 s := rfl
theorem exec_sar (x1 : CoreId) (x2 : Ins) : exec (.sar x1 x2) s = execSar x1 x2 s := rfl
theorem exec_rol (x1 : CoreId) (x2 : Ins) : exec (.rol x1 x2) s = execRol x1 x2 s := rfl
theorem exec_ror (x1 : CoreId) (x2 : Ins) : exec (.ror x1 x2) s = execRor x1 x2 s := rfl
theorem exec_bset (x1 : CoreId) (x2 : Ins) : exec (.bset x1 x2) s = execBset x1 x2 s := rfl
theorem exec_bclr (x1 : CoreId) (x2 : Ins) : exec (.bclr x1 x2) s = execBclr x1 x2 s := rfl
theorem exec_btst (x1 : CoreId) (x2 : Ins) : exec (.btst x1 x2) s = execBtst x1 x2 s := rfl
theorem exec_clz (x1 : CoreId) (x2 : Ins) : exec (.clz x1 x2) s = execClz x1 x2 s := rfl
theorem exec_popc (x1 : CoreId) (x2 : Ins) : exec (.popc x1 x2) s = execPopc x1 x2 s := rfl
theorem exec_bswp (x1 : CoreId) (x2 : Ins) : exec (.bswp x1 x2) s = execBswp x1 x2 s := rfl
theorem exec_bcond (x1 : CoreId) (x2 : InsB) : exec (.bcond x1 x2) s = execBcond x1 x2 s := rfl
theorem exec_call (x1 : CoreId) (x2 : InsB) : exec (.call x1 x2) s = execCall x1 x2 s := rfl
theorem exec_ret (x1 : CoreId) (x2 : Ins) : exec (.ret x1 x2) s = execRet x1 x2 s := rfl
theorem exec_jmp (x1 : CoreId) (x2 : Ins) : exec (.jmp x1 x2) s = execJmp x1 x2 s := rfl
theorem exec_callr (x1 : CoreId) (x2 : Ins) : exec (.callr x1 x2) s = execCallr x1 x2 s := rfl
theorem exec_rte (x1 : CoreId) (x2 : Ins) : exec (.rte x1 x2) s = execRte x1 x2 s := rfl
theorem exec_loop (x1 : CoreId) (x2 : InsL) : exec (.loop x1 x2) s = execLoop x1 x2 s := rfl
theorem exec_lpop (x1 : CoreId) (x2 : Ins) : exec (.lpop x1 x2) s = execLpop x1 x2 s := rfl
theorem exec_rpt (x1 : CoreId) (x2 : InsP) : exec (.rpt x1 x2) s = execRpt x1 x2 s := rfl
theorem exec_kfnd (x1 : CoreId) (x2 : Ins) : exec (.kfnd x1 x2) s = execKfnd x1 x2 s := rfl
theorem exec_vaultReloadComplete (x1 : YokeId) (x2 : Bool) : exec (.vaultReloadComplete x1 x2) s = execVaultReloadComplete x1 x2 s := rfl
theorem exec_ljob (x1 : CoreId) (x2 : Ins) : exec (.ljob x1 x2) s = execLjob x1 x2 s := rfl
theorem exec_pjob (x1 : CoreId) (x2 : Ins) : exec (.pjob x1 x2) s = execPjob x1 x2 s := rfl
theorem exec_wjob (x1 : CoreId) (x2 : Ins) : exec (.wjob x1 x2) s = execWjob x1 x2 s := rfl
theorem exec_rand (x1 : CoreId) (x2 : Ins) : exec (.rand x1 x2) s = execRand x1 x2 s := rfl
theorem exec_rply (x1 : CoreId) (x2 : Ins) : exec (.rply x1 x2) s = execRply x1 x2 s := rfl
theorem exec_xfer (x1 : CoreId) (x2 : Ins) : exec (.xfer x1 x2) s = execXfer x1 x2 s := rfl
theorem exec_xferReadComplete (x1 : YokeId) (x2 : HostRead) : exec (.xferReadComplete x1 x2) s = execXferReadComplete x1 x2 s := rfl
theorem exec_done (x1 : CoreId) (x2 : Ins) : exec (.done x1 x2) s = execDone x1 x2 s := rfl
theorem exec_fail (x1 : CoreId) (x2 : Ins) : exec (.fail x1 x2) s = execFail x1 x2 s := rfl
theorem exec_wait (x1 : CoreId) (x2 : Ins) : exec (.wait x1 x2) s = execWait x1 x2 s := rfl
theorem exec_fence (x1 : CoreId) (x2 : Ins) : exec (.fence x1 x2) s = execFence x1 x2 s := rfl
theorem exec_evack (x1 : CoreId) (x2 : Ins) : exec (.evack x1 x2) s = execEvack x1 x2 s := rfl
theorem exec_stewardEvent (x1 : Fin 16) : exec (.stewardEvent x1) s = execStewardEvent x1 s := rfl
theorem exec_stewardWatchdog : exec .stewardWatchdog s = execStewardWatchdog s := rfl
theorem exec_yokeResetComplete (x1 : YokeId) : exec (.yokeResetComplete x1) s = execYokeResetComplete x1 s := rfl
theorem exec_progSignerAdd (x1 : HostRead) : exec (.progSignerAdd x1) s = execProgSignerAdd x1 s := rfl
theorem exec_progSignerRemove : exec .progSignerRemove s = execProgSignerRemove s := rfl
theorem exec_progInstall (x1 : HostRead) : exec (.progInstall x1) s = execProgInstall x1 s := rfl
theorem exec_progRemove : exec .progRemove s = execProgRemove s := rfl
theorem exec_progList : exec .progList s = execProgList s := rfl
theorem exec_pinXlate (x1 : YokeId) (x2 : JobIx) (x3 : LaneEv) : exec (.pinXlate x1 x2 x3) s = execPinXlate x1 x2 x3 s := rfl
theorem exec_pinOpen (x1 : YokeId) (x2 : JobIx) (x3 : LaneEv) : exec (.pinOpen x1 x2 x3) s = execPinOpen x1 x2 x3 s := rfl
theorem exec_pinReseal (x1 : YokeId) (x2 : JobIx) (x3 : LaneEv) : exec (.pinReseal x1 x2 x3) s = execPinReseal x1 x2 x3 s := rfl
theorem exec_pinVer3624 (x1 : YokeId) (x2 : JobIx) (x3 : LaneEv) : exec (.pinVer3624 x1 x2 x3) s = execPinVer3624 x1 x2 x3 s := rfl
theorem exec_pinVerPvv (x1 : YokeId) (x2 : JobIx) (x3 : LaneEv) : exec (.pinVerPvv x1 x2 x3) s = execPinVerPvv x1 x2 x3 s := rfl
theorem exec_cvv (x1 : YokeId) (x2 : JobIx) (x3 : LaneEv) : exec (.cvv x1 x2 x3) s = execCvv x1 x2 x3 s := rfl
theorem exec_arqcArpc (x1 : YokeId) (x2 : JobIx) (x3 : LaneEv) : exec (.arqcArpc x1 x2 x3) s = execArqcArpc x1 x2 x3 s := rfl
theorem exec_dukptDerive (x1 : YokeId) (x2 : JobIx) (x3 : LaneEv) : exec (.dukptDerive x1 x2 x3) s = execDukptDerive x1 x2 x3 s := rfl
theorem exec_kbUnwrap (x1 : YokeId) (x2 : JobIx) (x3 : LaneEv) : exec (.kbUnwrap x1 x2 x3) s = execKbUnwrap x1 x2 x3 s := rfl
theorem exec_kbWrap (x1 : YokeId) (x2 : JobIx) (x3 : LaneEv) : exec (.kbWrap x1 x2 x3) s = execKbWrap x1 x2 x3 s := rfl
theorem exec_cmac (x1 : YokeId) (x2 : JobIx) (x3 : LaneEv) : exec (.cmac x1 x2 x3) s = execCmac x1 x2 x3 s := rfl
theorem exec_mac9797 (x1 : YokeId) (x2 : JobIx) (x3 : LaneEv) : exec (.mac9797 x1 x2 x3) s = execMac9797 x1 x2 x3 s := rfl
theorem exec_hmac (x1 : YokeId) (x2 : JobIx) (x3 : LaneEv) : exec (.hmac x1 x2 x3) s = execHmac x1 x2 x3 s := rfl
theorem exec_gcmDec (x1 : YokeId) (x2 : JobIx) (x3 : LaneEv) : exec (.gcmDec x1 x2 x3) s = execGcmDec x1 x2 x3 s := rfl
theorem exec_ff1 (x1 : YokeId) (x2 : JobIx) (x3 : LaneEv) : exec (.ff1 x1 x2 x3) s = execFf1 x1 x2 x3 s := rfl
theorem exec_cipher (x1 : YokeId) (x2 : JobIx) (x3 : LaneEv) : exec (.cipher x1 x2 x3) s = execCipher x1 x2 x3 s := rfl
theorem exec_hash (x1 : YokeId) (x2 : JobIx) (x3 : LaneEv) : exec (.hash x1 x2 x3) s = execHash x1 x2 x3 s := rfl
theorem exec_rsaSign (x1 : YokeId) (x2 : JobIx) (x3 : EngEv) : exec (.rsaSign x1 x2 x3) s = execRsaSign x1 x2 x3 s := rfl
theorem exec_rsaVerify (x1 : YokeId) (x2 : JobIx) (x3 : EngEv) : exec (.rsaVerify x1 x2 x3) s = execRsaVerify x1 x2 x3 s := rfl
theorem exec_rsaDecrypt (x1 : YokeId) (x2 : JobIx) (x3 : EngEv) : exec (.rsaDecrypt x1 x2 x3) s = execRsaDecrypt x1 x2 x3 s := rfl
theorem exec_ecdsaSign (x1 : YokeId) (x2 : JobIx) (x3 : EngEv) : exec (.ecdsaSign x1 x2 x3) s = execEcdsaSign x1 x2 x3 s := rfl
theorem exec_ecdsaVerify (x1 : YokeId) (x2 : JobIx) (x3 : EngEv) : exec (.ecdsaVerify x1 x2 x3) s = execEcdsaVerify x1 x2 x3 s := rfl
theorem exec_ecdh (x1 : YokeId) (x2 : JobIx) (x3 : EngEv) : exec (.ecdh x1 x2 x3) s = execEcdh x1 x2 x3 s := rfl
theorem exec_ecKeyPairGeneration (x1 : YokeId) (x2 : JobIx) (x3 : EngEv) : exec (.ecKeyPairGeneration x1 x2 x3) s = execEcKeyPairGeneration x1 x2 x3 s := rfl
theorem exec_eddsaSign (x1 : YokeId) (x2 : JobIx) (x3 : EngEv) : exec (.eddsaSign x1 x2 x3) s = execEddsaSign x1 x2 x3 s := rfl
theorem exec_eddsaVerify (x1 : YokeId) (x2 : JobIx) (x3 : EngEv) : exec (.eddsaVerify x1 x2 x3) s = execEddsaVerify x1 x2 x3 s := rfl
theorem exec_x25519X448 (x1 : YokeId) (x2 : JobIx) (x3 : EngEv) : exec (.x25519X448 x1 x2 x3) s = execX25519X448 x1 x2 x3 s := rfl
theorem exec_mlkemEncapsulate (x1 : YokeId) (x2 : JobIx) (x3 : EngEv) : exec (.mlkemEncapsulate x1 x2 x3) s = execMlkemEncapsulate x1 x2 x3 s := rfl
theorem exec_mlkemDecapsulate (x1 : YokeId) (x2 : JobIx) (x3 : EngEv) : exec (.mlkemDecapsulate x1 x2 x3) s = execMlkemDecapsulate x1 x2 x3 s := rfl
theorem exec_mldsaSign (x1 : YokeId) (x2 : JobIx) (x3 : EngEv) : exec (.mldsaSign x1 x2 x3) s = execMldsaSign x1 x2 x3 s := rfl
theorem exec_mldsaVerify (x1 : YokeId) (x2 : JobIx) (x3 : EngEv) : exec (.mldsaVerify x1 x2 x3) s = execMldsaVerify x1 x2 x3 s := rfl
theorem exec_attach (x1 : YokeId) (x2 : JobIx) : exec (.attach x1 x2) s = execAttach x1 x2 s := rfl
theorem exec_validationWindowEnd (x1 : YokeId) (x2 : JobIx) : exec (.validationWindowEnd x1 x2) s = execValidationWindowEnd x1 x2 s := rfl
theorem exec_engineSquashComplete (x1 : EngId) (x2 : Fin 2) : exec (.engineSquashComplete x1 x2) s = execEngineSquashComplete x1 x2 s := rfl
theorem exec_engineDetachComplete (x1 : EngId) : exec (.engineDetachComplete x1) s = execEngineDetachComplete x1 s := rfl
theorem exec_zero (x1 : EngId) : exec (.zero x1) s = execZero x1 s := rfl
theorem exec_copy (x1 : EngId) : exec (.copy x1) s = execCopy x1 s := rfl
theorem exec_mprep (x1 : EngId) : exec (.mprep x1) s = execMprep x1 s := rfl
theorem exec_mmul (x1 : EngId) : exec (.mmul x1) s = execMmul x1 s := rfl
theorem exec_madd (x1 : EngId) : exec (.madd x1) s = execMadd x1 s := rfl
theorem exec_msub (x1 : EngId) : exec (.msub x1) s = execMsub x1 s := rfl
theorem exec_mac (x1 : EngId) : exec (.mac x1) s = execMac x1 s := rfl
theorem exec_ntt (x1 : EngId) : exec (.ntt x1) s = execNtt x1 s := rfl
theorem exec_intt (x1 : EngId) : exec (.intt x1) s = execIntt x1 s := rfl
theorem exec_pwmul (x1 : EngId) : exec (.pwmul x1) s = execPwmul x1 s := rfl
theorem exec_padd (x1 : EngId) : exec (.padd x1) s = execPadd x1 s := rfl
theorem exec_pkeCurveLoad (x1 : HostRead) : exec (.pkeCurveLoad x1) s = execPkeCurveLoad x1 s := rfl
theorem exec_pkeCurveClear : exec .pkeCurveClear s = execPkeCurveClear s := rfl
theorem exec_pkePubkeyLoad (x1 : HostRead) : exec (.pkePubkeyLoad x1) s = execPkePubkeyLoad x1 s := rfl
theorem exec_kitRehash : exec .kitRehash s = execKitRehash s := rfl
theorem exec_rehashSweep : exec .rehashSweep s = execRehashSweep s := rfl
theorem exec_walkTokenTaken : exec .walkTokenTaken s = execWalkTokenTaken s := rfl
theorem exec_sweeperVisit (x1 : SweepTarget) : exec (.sweeperVisit x1) s = execSweeperVisit x1 s := rfl
theorem exec_vaultSave : exec .vaultSave s = execVaultSave s := rfl
theorem exec_vaultLoad (x1 : HostRead) : exec (.vaultLoad x1) s = execVaultLoad x1 s := rfl
theorem exec_healthTestFailure (x1 : Fin 20) (x2 : List Bool) : exec (.healthTestFailure x1 x2) s = execHealthTestFailure x1 x2 s := rfl
theorem exec_sourceRetestStart (x1 : Fin 20) : exec (.sourceRetestStart x1) s = execSourceRetestStart x1 s := rfl
theorem exec_startupTestEnd (x1 : Fin 20) (x2 : List Bool) : exec (.startupTestEnd x1 x2) s = execStartupTestEnd x1 x2 s := rfl
theorem exec_conditionerBlock : exec .conditionerBlock s = execConditionerBlock s := rfl
theorem exec_maskKeyRefresh (x1 : UnitId) : exec (.maskKeyRefresh x1) s = execMaskKeyRefresh x1 s := rfl
theorem exec_rngSctlPr : exec .rngSctlPr s = execRngSctlPr s := rfl
theorem exec_rngSctlSel (x1 : BitVec 2) : exec (.rngSctlSel x1) s = execRngSctlSel x1 s := rfl
theorem exec_rngDataRead : exec .rngDataRead s = execRngDataRead s := rfl
theorem exec_claimStartTimeout : exec .claimStartTimeout s = execClaimStartTimeout s := rfl
theorem exec_rngRawCapture : exec .rngRawCapture s = execRngRawCapture s := rfl
theorem exec_rawCaptureEnd (x1 : List Bool) : exec (.rawCaptureEnd x1) s = execRawCaptureEnd x1 s := rfl
theorem exec_tamper (x1 : Fin 15) (x2 : BitVec 8) : exec (.tamper x1 x2) s = execTamper x1 x2 s := rfl
theorem exec_logWindowClose : exec .logWindowClose s = execLogWindowClose s := rfl
theorem exec_keeperPowerOn : exec .keeperPowerOn s = execKeeperPowerOn s := rfl
theorem exec_keeperSourceSwitch (x1 : Bool) : exec (.keeperSourceSwitch x1) s = execKeeperSourceSwitch x1 s := rfl
theorem exec_batLow : exec .batLow s = execBatLow s := rfl
theorem exec_batLowClear : exec .batLowClear s = execBatLowClear s := rfl
theorem exec_operatingMinute : exec .operatingMinute s = execOperatingMinute s := rfl
theorem exec_kprVoltUpdate (x1 : BitVec 16) (x2 : BitVec 16) : exec (.kprVoltUpdate x1 x2) s = execKprVoltUpdate x1 x2 s := rfl
theorem exec_tmpLoopSet : exec .tmpLoopSet s = execTmpLoopSet s := rfl
theorem exec_tmpRearm : exec .tmpRearm s = execTmpRearm s := rfl
theorem exec_smbusDeviceId : exec .smbusDeviceId s = execSmbusDeviceId s := rfl
theorem exec_smbusKprStat : exec .smbusKprStat s = execSmbusKprStat s := rfl
theorem exec_smbusTmpCause : exec .smbusTmpCause s = execSmbusTmpCause s := rfl
theorem exec_smbusTmpLive : exec .smbusTmpLive s = execSmbusTmpLive s := rfl
theorem exec_smbusKprOpmin : exec .smbusKprOpmin s = execSmbusKprOpmin s := rfl
theorem exec_smbusKprPwrcyc : exec .smbusKprPwrcyc s = execSmbusKprPwrcyc s := rfl
theorem exec_smbusKprStartfail : exec .smbusKprStartfail s = execSmbusKprStartfail s := rfl
theorem exec_smbusKprVolt : exec .smbusKprVolt s = execSmbusKprVolt s := rfl
theorem exec_smbusTmpLoopCfg : exec .smbusTmpLoopCfg s = execSmbusTmpLoopCfg s := rfl
theorem exec_smbusKprStarts : exec .smbusKprStarts s = execSmbusKprStarts s := rfl
theorem exec_smbusTmpLog (x1 : Fin 16) : exec (.smbusTmpLog x1) s = execSmbusTmpLog x1 s := rfl
theorem exec_smbusWrite : exec .smbusWrite s = execSmbusWrite s := rfl
theorem exec_holdSet : exec .holdSet s = execHoldSet s := rfl
theorem exec_held : exec .held s = execHeld s := rfl
theorem exec_holdRelease : exec .holdRelease s = execHoldRelease s := rfl
theorem exec_holdLong : exec .holdLong s = execHoldLong s := rfl
theorem exec_hdgRegionWrite (x1 : Fin 256) (x2 : HdgReg) (x3 : W32) : exec (.hdgRegionWrite x1 x2 x3) s = execHdgRegionWrite x1 x2 x3 s := rfl
theorem exec_debugMemAccess (x1 : W32) (x2 : DbgAccess) : exec (.debugMemAccess x1 x2) s = execDebugMemAccess x1 x2 s := rfl
theorem exec_debugHalt (x1 : CoreId) : exec (.debugHalt x1) s = execDebugHalt x1 s := rfl
theorem exec_bypass : exec .bypass s = execBypass s := rfl
theorem exec_idcode : exec .idcode s = execIdcode s := rfl
theorem exec_sample : exec .sample s = execSample s := rfl
theorem exec_extest : exec .extest s = execExtest s := rfl
theorem exec_dbgChallenge (x1 : BitVec 4) : exec (.dbgChallenge x1) s = execDbgChallenge x1 s := rfl
theorem exec_dbgToken (x1 : Bytes) : exec (.dbgToken x1) s = execDbgToken x1 s := rfl
theorem exec_challengeExpiry : exec .challengeExpiry s = execChallengeExpiry s := rfl
theorem exec_dbgConsent : exec .dbgConsent s = execDbgConsent s := rfl
theorem exec_custEnrol : exec .custEnrol s = execCustEnrol s := rfl
theorem exec_custRevoke : exec .custRevoke s = execCustRevoke s := rfl
theorem exec_custSetM : exec .custSetM s = execCustSetM s := rfl
theorem exec_custSessionOpen : exec .custSessionOpen s = execCustSessionOpen s := rfl
theorem exec_custSessionEnd : exec .custSessionEnd s = execCustSessionEnd s := rfl
theorem exec_keyCeremony : exec .keyCeremony s = execKeyCeremony s := rfl
theorem exec_custCancel : exec .custCancel s = execCustCancel s := rfl
theorem exec_pedEnrol (x1 : HostRead) : exec (.pedEnrol x1) s = execPedEnrol x1 s := rfl
theorem exec_cardInsert (x1 : Fin 2) (x2 : Bytes) : exec (.cardInsert x1 x2) s = execCardInsert x1 x2 s := rfl
theorem exec_cardWithdraw (x1 : Fin 2) : exec (.cardWithdraw x1) s = execCardWithdraw x1 s := rfl
theorem exec_cardOvercurrent (x1 : Fin 2) : exec (.cardOvercurrent x1) s = execCardOvercurrent x1 s := rfl
theorem exec_cardResponse (x1 : Fin 2) (x2 : CardAnswer) : exec (.cardResponse x1 x2) s = execCardResponse x1 x2 s := rfl
theorem exec_consoleFrame (x1 : W32) (x2 : Bool) (x3 : ConsoleMsg) : exec (.consoleFrame x1 x2 x3) s = execConsoleFrame x1 x2 x3 s := rfl
theorem exec_authStepTimeout : exec .authStepTimeout s = execAuthStepTimeout s := rfl
theorem exec_assemblyTimeout : exec .assemblyTimeout s = execAssemblyTimeout s := rfl
theorem exec_sessionExpiry (x1 : Fin 2) : exec (.sessionExpiry x1) s = execSessionExpiry x1 s := rfl
theorem exec_lcsAdvance : exec .lcsAdvance s = execLcsAdvance s := rfl
theorem exec_lcsStatus : exec .lcsStatus s = execLcsStatus s := rfl
theorem exec_fwLoad (x1 : HostRead) : exec (.fwLoad x1) s = execFwLoad x1 s := rfl
theorem exec_fwActivate : exec .fwActivate s = execFwActivate s := rfl
theorem exec_startCntReset : exec .startCntReset s = execStartCntReset s := rfl
theorem exec_fallowRequest : exec .fallowRequest s = execFallowRequest s := rfl
theorem exec_modReconfig : exec .modReconfig s = execModReconfig s := rfl
theorem exec_stopChangeRestartApply : exec .stopChangeRestartApply s = execStopChangeRestartApply s := rfl
theorem exec_moduleStart (x1 : StartEnv) : exec (.moduleStart x1) s = execModuleStart x1 s := rfl
theorem exec_fullService (x1 : InstanceTests) : exec (.fullService x1) s = execFullService x1 s := rfl
theorem exec_mainPowerGood (x1 : PowerPins) : exec (.mainPowerGood x1) s = execMainPowerGood x1 s := rfl
theorem exec_mainPowerLoss : exec .mainPowerLoss s = execMainPowerLoss s := rfl
theorem exec_mrstN (x1 : MrstPulse) : exec (.mrstN x1) s = execMrstN x1 s := rfl
theorem exec_vioLoss : exec .vioLoss s = execVioLoss s := rfl
theorem exec_vioReturn (x1 : VioPins) : exec (.vioReturn x1) s = execVioReturn x1 s := rfl
theorem exec_thermalShutdown : exec .thermalShutdown s = execThermalShutdown s := rfl
theorem exec_holdupStoreCharged : exec .holdupStoreCharged s = execHoldupStoreCharged s := rfl
theorem exec_pllLock (x1 : Fin 6) : exec (.pllLock x1) s = execPllLock x1 s := rfl
theorem exec_dozeEntry : exec .dozeEntry s = execDozeEntry s := rfl
theorem exec_pwrPolicyWrite (x1 : W32) : exec (.pwrPolicyWrite x1) s = execPwrPolicyWrite x1 s := rfl
theorem exec_unitGate (x1 : UnitId) : exec (.unitGate x1) s = execUnitGate x1 s := rfl
theorem exec_evrExport : exec .evrExport s = execEvrExport s := rfl
theorem exec_evrAck : exec .evrAck s = execEvrAck s := rfl
theorem exec_cluJoin (x1 : HostRead) : exec (.cluJoin x1) s = execCluJoin x1 s := rfl
theorem exec_cluMembers (x1 : HostRead) : exec (.cluMembers x1) s = execCluMembers x1 s := rfl
theorem exec_cluLeave : exec .cluLeave s = execCluLeave s := rfl
theorem exec_cluPlotBind : exec .cluPlotBind s = execCluPlotBind s := rfl
theorem exec_cluPair : exec .cluPair s = execCluPair s := rfl
theorem exec_pairCopyDone (x1 : PairCopy) : exec (.pairCopyDone x1) s = execPairCopyDone x1 s := rfl
theorem exec_cluUnpair : exec .cluUnpair s = execCluUnpair s := rfl
theorem exec_cluSwap : exec .cluSwap s = execCluSwap s := rfl
theorem exec_swapPlotsStopped (x1 : Bool) : exec (.swapPlotsStopped x1) s = execSwapPlotsStopped x1 s := rfl
theorem exec_cluPromote : exec .cluPromote s = execCluPromote s := rfl
theorem exec_portLinkChange (x1 : PortId) (x2 : Bool) : exec (.portLinkChange x1 x2) s = execPortLinkChange x1 x2 s := rfl
theorem exec_foreignFrame (x1 : PortId) : exec (.foreignFrame x1) s = execForeignFrame x1 s := rfl
theorem exec_hello (x1 : Hdr) (x2 : W32) (x3 : Bytes) (x4 : Bytes) : exec (.hello x1 x2 x3 x4) s = execHello x1 x2 x3 x4 s := rfl
theorem exec_kex (x1 : Hdr) (x2 : Bytes) (x3 : Bytes) : exec (.kex x1 x2 x3) s = execKex x1 x2 x3 s := rfl
theorem exec_kexReply (x1 : Hdr) (x2 : Bytes) (x3 : Bytes) (x4 : Bytes) : exec (.kexReply x1 x2 x3 x4) s = execKexReply x1 x2 x3 x4 s := rfl
theorem exec_finish (x1 : Hdr) (x2 : Bytes) : exec (.finish x1 x2) s = execFinish x1 x2 s := rfl
theorem exec_rekey (x1 : Hdr) (x2 : Bytes) (x3 : Bytes) : exec (.rekey x1 x2 x3) s = execRekey x1 x2 x3 s := rfl
theorem exec_rekeyReply (x1 : Hdr) (x2 : Bytes) (x3 : Bytes) (x4 : Bytes) : exec (.rekeyReply x1 x2 x3 x4) s = execRekeyReply x1 x2 x3 x4 s := rfl
theorem exec_rekeyThreshold (x1 : BitVec 12) : exec (.rekeyThreshold x1) s = execRekeyThreshold x1 s := rfl
theorem exec_phaseOverlapEnd (x1 : BitVec 12) : exec (.phaseOverlapEnd x1) s = execPhaseOverlapEnd x1 s := rfl
theorem exec_heartbeat (x1 : Hdr) (x2 : W64) (x3 : W64) : exec (.heartbeat x1 x2 x3) s = execHeartbeat x1 x2 x3 s := rfl
theorem exec_heartbeatSend (x1 : PortId) : exec (.heartbeatSend x1) s = execHeartbeatSend x1 s := rfl
theorem exec_ack (x1 : Hdr) (x2 : List W64) : exec (.ack x1 x2) s = execAck x1 x2 s := rfl
theorem exec_resendTimer (x1 : BitVec 12) (x2 : W64) : exec (.resendTimer x1 x2) s = execResendTimer x1 x2 s := rfl
theorem exec_bind (x1 : Hdr) (x2 : List W32) : exec (.bind x1 x2) s = execBind x1 x2 s := rfl
theorem exec_shareLearn (x1 : Hdr) (x2 : ShareUpd) : exec (.shareLearn x1 x2) s = execShareLearn x1 x2 s := rfl
theorem exec_shareForget (x1 : Hdr) (x2 : W32) (x3 : W64) (x4 : BitVec 48) (x5 : BitVec 12) : exec (.shareForget x1 x2 x3 x4 x5) s = execShareForget x1 x2 x3 x4 x5 s := rfl
theorem exec_syncReq (x1 : Hdr) (x2 : W32) : exec (.syncReq x1 x2) s = execSyncReq x1 x2 s := rfl
theorem exec_claim (x1 : Hdr) (x2 : W32) (x3 : BitVec 96) : exec (.claim x1 x2 x3) s = execClaim x1 x2 x3 s := rfl
theorem exec_claimReply (x1 : Hdr) (x2 : W32) (x3 : BitVec 96) (x4 : ClaimAnswer) : exec (.claimReply x1 x2 x3 x4) s = execClaimReply x1 x2 x3 x4 s := rfl
theorem exec_rehome (x1 : Hdr) (x2 : W32) (x3 : List (BitVec 96)) (x4 : Bool) : exec (.rehome x1 x2 x3 x4) s = execRehome x1 x2 x3 x4 s := rfl
theorem exec_pairState (x1 : Hdr) (x2 : PairInfo) : exec (.pairState x1 x2) s = execPairState x1 x2 s := rfl
theorem exec_pairStream (x1 : Hdr) (x2 : PairDispatch) : exec (.pairStream x1 x2) s = execPairStream x1 x2 s := rfl
theorem exec_pairAdmin (x1 : Hdr) (x2 : PairOutcome) : exec (.pairAdmin x1 x2) s = execPairAdmin x1 x2 s := rfl
theorem exec_pairAbort (x1 : Hdr) (x2 : W64) (x3 : W64) : exec (.pairAbort x1 x2 x3) s = execPairAbort x1 x2 x3 s := rfl
theorem exec_pairDigest (x1 : Hdr) (x2 : W64) (x3 : Nat) (x4 : Bytes) : exec (.pairDigest x1 x2 x3 x4) s = execPairDigest x1 x2 x3 x4 s := rfl
theorem exec_pairAck (x1 : Hdr) (x2 : W64) (x3 : Nat) : exec (.pairAck x1 x2 x3) s = execPairAck x1 x2 x3 s := rfl
theorem exec_pairSwap (x1 : Hdr) : exec (.pairSwap x1) s = execPairSwap x1 s := rfl
theorem exec_packed (x1 : Hdr) (x2 : List Msg) : exec (.packed x1 x2) s = execPacked x1 x2 s := rfl
theorem exec_batchClose : exec .batchClose s = execBatchClose s := rfl
theorem exec_standbyTakeover : exec .standbyTakeover s = execStandbyTakeover s := rfl
theorem exec_activeUnpair : exec .activeUnpair s = execActiveUnpair s := rfl
theorem exec_keeperSupplyLoss : exec .keeperSupplyLoss s = execKeeperSupplyLoss s := rfl
theorem exec_tamperConditionClear (x1 : Fin 15) : exec (.tamperConditionClear x1) s = execTamperConditionClear x1 s := rfl
theorem exec_debugResume (x1 : CoreId) : exec (.debugResume x1) s = execDebugResume x1 s := rfl
theorem exec_vfEnableSet (x1 : Nat) : exec (.vfEnableSet x1) s = execVfEnableSet x1 s := rfl
theorem exec_msixMask (x1 : Fn) (x2 : MsixField) : exec (.msixMask x1 x2) s = execMsixMask x1 x2 s := rfl
theorem exec_perstNRelease : exec .perstNRelease s = execPerstNRelease s := rfl
theorem exec_ledActTimeout : exec .ledActTimeout s = execLedActTimeout s := rfl
theorem exec_adminBoundExpired : exec .adminBoundExpired s = execAdminBoundExpired s := rfl

end Sys2Proof.Machine
end

