-- ==== Sys2Proof/Laws/Lanes.lean ====
section
/-! SUPPORT. What a lane job past its checks does: the course of a lane row by what its computation comes to (R321, R322). -/

namespace Sys2Proof.Machine

/-- A job past its checks is the job of its place, with its transaction, descriptor and context. -/
theorem laneGate_ok {s : State} {y j u : Nat} {t : Tx} {d : Bytes} {ev : LaneEv} {sp : LaneSpec} {s1 : State} {q : LJ}
    (h : laneGate s y j t d u ev sp = (s1, .ok q)) :
    q.y = y ∧ q.j = j ∧ q.t = t ∧ q.d = d ∧ q.u = u ∧ q.ev = ev := by
  have key : ∀ (P : Prop) [Decidable P] (e : BitVec 16) (X : State × Except (BitVec 16) LJ),
      (if P then (s, Except.error e) else X) = (s1, .ok q) → X = (s1, .ok q) := by
    intro P _ e X h'
    split at h'
    · cases h'
    · exact h'
  unfold laneGate at h
  have h := key _ _ _ (key _ _ _ h)
  split at h
  · cases h
  · have h := key _ _ _ (key _ _ _ (key _ _ _ (key _ _ _ (key _ _ _ h))))
    cases h
    exact ⟨rfl, rfl, rfl, rfl, rfl, rfl⟩

/-- Counting a use leaves the yokes alone. -/
theorem useSlot_yoke (s : State) (i y : Nat) : (useSlot s i).yoke y = s.yoke y := rfl
/-- Counting the uses of a job leaves the yokes alone. -/
theorem benchUses (s : State) (q : LJ) (y : Nat) : ((countUses s q).yoke y) = s.yoke y := by
  unfold countUses
  generalize ([q.k1.slot, q.k2.slot].filterMap id).eraseDups = l
  induction l generalizing s with
  | nil => rfl
  | cons a l ih => exact (ih _).trans (useSlot_yoke s a y)

/-- A lane row past its checks is decided by its computation alone. -/
theorem runLane_past {s : State} {y : YokeId} {j : JobIx} {ev : LaneEv} {ty : Nat} {spec} {t x q}
    (h : LanePast s y j ev ty spec t x q) (comp : State → LJ → Comp) :
    laneRow ty spec comp y j ev s = .next (laneFinish (laneIn s y ev x) q (comp (laneAt s y ev x q) q)) := by
  obtain ⟨h0, h1, h2, h3, h4⟩ := h
  unfold laneRow runLane
  have h5 : ¬ (ev = .benchUnc ∧ readsBench x.desc = true) := fun e => by rw [h4 e.1] at e; exact absurd e.2 (by decide)
  simp only [h0, h1, h2, h3, Bool.not_true, Bool.false_eq_true, if_false, if_neg h5]
  rfl

/-- A job past its checks is the job of its place. -/
theorem past_fields {s : State} {y : YokeId} {j : JobIx} {ev : LaneEv} {ty : Nat} {spec} {t x q}
    (h : LanePast s y j ev ty spec t x q) :
    q.y = y.val ∧ q.j = j.val ∧ q.t = t ∧ q.d = x.desc ∧ q.u = x.unit ∧ q.ev = ev := laneGate_ok h.2.2.2.1

/-- The type of a job that is there to run is the one asked for. -/
theorem laneReady_type {t : Tx} {j ty : Nat} {x : Job} (h : laneReady t j ty = some x) : jType x.desc = ty := by
  unfold laneReady at h
  split at h
  · split at h
    · cases h; rename_i h; simp only [Bool.and_eq_true, beq_iff_eq] at h; exact h.1.2
    · cases h
  · cases h

/-- An event that is neither of two inverse checks. -/
theorem ne_contains2 {ev a b : LaneEv} (h : ev ≠ a) (h' : ev ≠ b) : [a, b].contains ev = false := by
  simp [h, h']
/-- An event that is not the one inverse check. -/
theorem ne_contains1 {ev a : LaneEv} (h : ev ≠ a) : [a].contains ev = false := by simp [h]

/-- A computation that ends OK and whose inverse checks hold ends the job. -/
theorem runFin {s : State} {y : YokeId} {j : JobIx} {ev : LaneEv} {ty : Nat} {spec} {t x q} (h : LanePast s y j ev ty spec t x q)
    {comp : State → LJ → Comp} {s2 out sl inv} (hc : comp (laneAt s y ev x q) q = .fin s2 stOK out sl inv)
    (hi : inv.contains ev = false) :
    laneRow ty spec comp y j ev s = .next (laneEnd (writeSeal s2 q sl) y j stOK out) := by
  obtain ⟨e1, e2, e3, e4, e5, e6⟩ := past_fields h
  rw [runLane_past h, hc]; simp only [laneFinish, e1, e2, e6, hi]; rfl

/-- A computation that ends with another status ends the job without output. -/
theorem runBad {s : State} {y : YokeId} {j : JobIx} {ev : LaneEv} {ty : Nat} {spec} {t x q} (h : LanePast s y j ev ty spec t x q)
    {comp : State → LJ → Comp} {s2 st out sl inv} (hc : comp (laneAt s y ev x q) q = .fin s2 st out sl inv)
    (hi : inv.contains ev = false) (hs : st ≠ stOK) :
    laneRow ty spec comp y j ev s = .next (laneEnd s2 y j st []) := by
  obtain ⟨e1, e2, e3, e4, e5, e6⟩ := past_fields h
  rw [runLane_past h, hc]; simp only [laneFinish, e1, e2, e6, hi, hs, if_false]; rfl

/-- An inverse check that fails is a lane fault of the job's lane, plot and type (R323). -/
theorem runFault {s : State} {y : YokeId} {j : JobIx} {ev : LaneEv} {ty : Nat} {spec} {t x q} (h : LanePast s y j ev ty spec t x q)
    {comp : State → LJ → Comp} {s2 st out sl inv} (hc : comp (laneAt s y ev x q) q = .fin s2 st out sl inv)
    (hi : inv.contains ev = true) :
    laneRow ty spec comp y j ev s = .next (laneFault s2 y.val (x.unit / 8) (faultKind ev) t.plot ty) := by
  obtain ⟨e1, e2, e3, e4, e5, e6⟩ := past_fields h
  rw [runLane_past h, hc]; simp only [laneFinish, e1, e3, e4, e5, e6, hi, if_true, laneReady_type h.2.2.1]

/-- A computation that learns a key begins the import. -/
theorem runLearn {s : State} {y : YokeId} {j : JobIx} {ev : LaneEv} {ty : Nat} {spec} {t x q} (h : LanePast s y j ev ty spec t x q)
    {comp : State → LJ → Comp} {s2 l inv} (hc : comp (laneAt s y ev x q) q = .learn s2 l inv)
    (hi : inv.contains ev = false) :
    laneRow ty spec comp y j ev s = .next (importStart s2 q l) := by
  obtain ⟨e1, e2, e3, e4, e5, e6⟩ := past_fields h
  rw [runLane_past h, hc]; simp only [laneFinish, e6, hi]; rfl

end Sys2Proof.Machine
end

