-- ==== Sys2Proof/Laws/Engines.lean ====
section
/-! SUPPORT. What an engine job that is ready holds, and small facts on its end. -/

namespace Sys2Proof.Machine

/-- A ready engine job names its yoke, its job and its type. -/
theorem engReady_fields {s : State} {y j ty : Nat} {st : JobSt} {q : EJ} (h : engReady s y j ty st = some q) :
    q.y = y ∧ q.j = j ∧ q.ty = ty ∧ ∃ t x, jobOf s (y, j) = some (t, x) ∧ q.t = t ∧ q.d = x.desc ∧ x.st = st ∧ jType x.desc = ty := by
  unfold engReady at h
  split at h
  · cases h
  · rename_i t x hj
    dsimp only at h
    split at h
    · rename_i hc
      cases h
      simp only [Bool.and_eq_true, beq_iff_eq] at hc
      exact ⟨rfl, rfl, rfl, t, x, hj, rfl, rfl, hc.1.1.1.2, hc.1.1.2⟩
    · cases h

/-- Using the slots of a job leaves its yoke alone. -/
theorem useEJ_yoke (q : EJ) (s : State) (y : Nat) : (q.use s).yoke y = s.yoke y := by
  unfold EJ.use; split
  · exact useSlot_yoke _ _ _
  · rfl

/-- Halving modulo an odd number undoes doubling. -/
theorem halveMod_spec (n : Nat) (hn : n % 2 = 1) : ∀ k v, v < n → halveMod n k v < n ∧ halveMod n k v * 2 ^ k % n = v := by
  intro k
  induction k with
  | zero => intro v hv; exact ⟨hv, by simp [halveMod, Nat.mod_eq_of_lt hv]⟩
  | succ k ih =>
    intro v hv
    unfold halveMod
    have h1 : (if v % 2 = 0 then v / 2 else (v + n) / 2) < n := by split <;> omega
    obtain ⟨a, b⟩ := ih _ h1
    refine ⟨a, ?_⟩
    rw [Nat.pow_succ, ← Nat.mul_assoc, Nat.mul_mod, b]
    rw [← Nat.mul_mod_mod, Nat.mod_mod, ] at *
    split
    · rw [Nat.mul_mod_mod, show v / 2 * 2 = v by omega, Nat.mod_eq_of_lt hv]
    · rw [Nat.mul_mod_mod, show (v + n) / 2 * 2 = v + n by omega, Nat.add_mod_right, Nat.mod_eq_of_lt hv]

/-- A job whose key is refused ends with that status. -/
theorem engLearn_refused {s s1 : State} {q : EJ} {l : Learn} {out : Bytes} {st}
    (h : learnFor s l (.engineJob q.y q.j) = (s1, some st)) :
    engLearn s q l out = engEnd s1 q.y q.j st out := by
  unfold engLearn; rw [h]

end Sys2Proof.Machine
end

