-- ==== Sys2Proof/Laws/Hedge.lean ====
section
/-! SUPPORT. The hedgerow: which regions can decide a byte, and what the first forbidden byte says. -/

namespace Sys2Proof.Machine

/-- The keys of a canonical table rise. -/
theorem keys_rise : ∀ (t : Tbl W32) (lo : Nat), twfFrom 0 lo t = true →
    (t.map (·.1)).Pairwise (· < ·) ∧ ∀ k ∈ t.map (·.1), lo ≤ k := by
  intro t
  induction t with
  | nil => intro lo _; exact ⟨List.Pairwise.nil, by intro k hk; cases hk⟩
  | cons x t ih =>
    intro lo h
    obtain ⟨k, v⟩ := x
    simp only [twfFrom, Bool.and_eq_true, decide_eq_true_eq] at h
    obtain ⟨h1, h2⟩ := ih _ h.2
    refine ⟨?_, ?_⟩
    · rw [List.map_cons, List.pairwise_cons]
      exact ⟨fun q hq => by have := h2 q hq; show k < q; omega, h1⟩
    · intro q hq
      rw [List.map_cons, List.mem_cons] at hq
      rcases hq with rfl | hq
      · exact h.1.1
      · have := h2 q hq; omega

/-- An entry that reads other than 0 is listed_of_nonzero. -/
theorem listed_of_nonzero (q : Nat) : ∀ t : Tbl W32, tget 0 t q ≠ 0 → q ∈ t.map (·.1)
  | [], h => absurd rfl h
  | (k, v) :: t, h => by
    unfold tget at h
    rw [List.map_cons, List.mem_cons]
    split at h
    · rename_i e; exact Or.inl e.symm
    · exact Or.inr (listed_of_nonzero q t h)

/-- A region that has a byte is listed_of_nonzero. -/
theorem regionHas_listed {h : Hedge} {q a : Nat} (e : regionHas h q a = true) : q ∈ h.cfg.map (·.1) := by
  apply listed_of_nonzero; intro z
  unfold regionHas at e
  rw [z] at e
  revert e
  simp [hdgEn]

/-- The first forbidden byte is forbidden, and every one before it permitted. -/
theorem firstForbidden_spec (h : Hedge) (cls ty : Nat) : ∀ n a b, firstForbidden h cls ty a n = some b →
    b < a + n ∧ a ≤ b ∧ bytePermitted h cls ty b = false ∧ ∀ c, a ≤ c → c < b → bytePermitted h cls ty c = true := by
  intro n
  induction n with
  | zero => intro a b h; cases h
  | succ n ih =>
    intro a b hb
    unfold firstForbidden at hb
    split at hb
    · rename_i hp
      obtain ⟨h1, h2, h3, h4⟩ := ih _ _ hb
      refine ⟨by omega, by omega, h3, fun c hc hcb => ?_⟩
      by_cases e : c = a
      · subst e; exact hp
      · exact h4 c (by omega) hcb
    · rename_i hp
      cases hb
      exact ⟨by omega, by omega, by simpa using hp, fun c h1 h2 => by omega⟩

end Sys2Proof.Machine
end

