-- ==== Sys2Proof/Laws/Words.lean ====
section
/-! SUPPORT. Numbers and words: the exact arithmetic of the machine said in bit vectors. -/

namespace Sys2Proof.Machine

/-- A word is the word of its value. -/
theorem ofNat_of_toNat (x : W64) : BitVec.ofNat 64 x.toNat = x := by simp

/-- `sgn` is the signed value of a word of any width above 0. -/
theorem sgn_toInt (w : Nat) (hw : 0 < w) (x : BitVec w) : sgn w x.toNat = x.toInt := by
  rw [BitVec.toInt_eq_toNat_cond]
  simp only [sgn]
  have : 2^w = 2 * 2^(w-1) := by rw [← Nat.pow_succ']; congr 1; omega
  split <;> split <;> first | rfl | omega

/-- A wrapped integer is the word of the integer. -/
theorem ofNat_wrap (z : Int) : BitVec.ofNat 64 (wrap 64 z) = BitVec.ofInt 64 z := by
  apply BitVec.eq_of_toNat_eq
  simp only [wrap, BitVec.toNat_ofInt, BitVec.toNat_ofNat]
  have : (z % (2:Int)^64).toNat < 2^64 := by omega
  rw [Nat.mod_eq_of_lt this]; rfl

/-- Counting the leading zeros is finding the first one from the top. -/
theorem clz_count (a : W64) (n : Nat) (hn : n ≤ 64) :
    (List.range n).countP (fun j => (List.range 64).all fun m => !(decide (63 - j ≤ m) && a.getLsbD m)) =
    ((List.range n).find? fun i => a.getLsbD (63 - i)).getD n := by
  induction n with
  | zero => simp
  | succ n ih =>
    rw [List.range_succ (n := n), List.countP_append, ih (by omega), List.find?_append]
    cases hf : (List.range n).find? fun i => a.getLsbD (63 - i) with
    | none =>
      simp only [List.find?_eq_none, List.mem_range] at hf
      simp only [Option.getD_none, List.countP_singleton, Option.none_or]
      by_cases hb : a.getLsbD (63 - n)
      · have : ((List.range 64).all fun m => !(decide (63 - n ≤ m) && a.getLsbD m)) = false := by
          rw [List.all_eq_false]; exact ⟨63 - n, by simp; omega, by simp [hb]⟩
        simp only [this]; simp [hb]
      · have : ((List.range 64).all fun m => !(decide (63 - n ≤ m) && a.getLsbD m)) = true := by
          rw [List.all_eq_true]; intro m hm; simp at hm
          by_cases e : m = 63 - n
          · subst e; simp only [Bool.not_eq_true] at hb; simp [hb]
          · by_cases g : 63 - n ≤ m
            · have := hf (63 - m) (by omega); rw [show 63 - (63 - m) = m by omega] at this
              simp at this ⊢; right; exact this
            · simp [g]
        simp only [this]; simp [hb]
    | some x =>
      have hx := List.find?_some hf
      have hl : x < n := by have := List.mem_of_find?_eq_some hf; simpa using this
      simp only [Option.getD_some, List.countP_singleton, Option.some_or]
      have : ((List.range 64).all fun m => !(decide (63 - n ≤ m) && a.getLsbD m)) = false := by
        rw [List.all_eq_false]; exact ⟨63 - x, by simp; omega, by simp at hx ⊢; exact ⟨by omega, hx⟩⟩
      simp only [this]; simp

/-- `ones` counts the bits that are 1. -/
theorem ones_count (a : W64) : ones a = (List.range 64).countP fun j => a.getLsbD j := by
  have : ∀ (l : List Nat) (n : Nat), l.foldl (fun n i => if a.getLsbD i then n + 1 else n) n = n + l.countP fun j => a.getLsbD j := by
    intro l; induction l with
    | nil => simp
    | cons x l ih =>
      intro n; simp only [List.foldl_cons, ih, List.countP_cons]
      by_cases h : a.getLsbD x = true
      · rw [if_pos h, if_pos h]; omega
      · rw [if_neg h, if_neg h]; omega
  simpa [ones] using this (List.range 64) 0

/-- Byte k of a number laid out little-endian. -/
theorem le_getD (n v : Nat) : ∀ k, k < n → ((le n v).getD k 0) = BitVec.ofNat 8 (v / 256 ^ k) := by
  induction n generalizing v with
  | zero => intro k h; omega
  | succ n ih =>
    intro k h
    cases k with
    | zero => simp [le]
    | succ k => simp only [le, List.getD_cons_succ]; rw [ih _ k (by omega), Nat.div_div_eq_div_mul, Nat.pow_succ']

/-- A number laid out in n bytes is n bytes. -/
theorem le_length (n v : Nat) : (le n v).length = n := by
  induction n generalizing v with
  | zero => rfl
  | succ n ih => simp [le, ih]

/-- Bit j of the number that bytes spell is bit j mod 8 of byte j / 8. -/
theorem leNat_testBit : ∀ (l : Bytes) (j : Nat), (leNat l).testBit j = (l.getD (j / 8) 0).getLsbD (j % 8)
  | [], j => by simp [leNat]
  | b :: l, j => by
    simp only [leNat]
    have : b.toNat + 256 * leNat l = 2^8 * leNat l + b.toNat := by omega
    rw [this, Nat.testBit_two_pow_mul_add _ (by omega)]
    split
    · rename_i h; rw [Nat.div_eq_of_lt h, Nat.mod_eq_of_lt h]; simp [BitVec.testBit_toNat]
    · rename_i h
      rw [leNat_testBit l (j-8)]
      obtain ⟨q, rfl⟩ : ∃ q, j = q + 8 := ⟨j - 8, by omega⟩
      simp [Nat.add_div_right]

/-- Bit j of a swapped word comes from the mirrored byte. -/
theorem byteSwap_getLsbD (n : Nat) (a : W64) (hn : n = 2 ∨ n = 4 ∨ n = 8) (j : Nat) :
   (byteSwap n a).getLsbD j = (decide (j < 8 * n) && a.getLsbD (8 * (n - 1 - j / 8) + j % 8)) := by
  unfold byteSwap beNat
  rw [BitVec.getLsbD_ofNat, leNat_testBit]
  by_cases h : j < 8 * n
  · have hj : j / 8 < n := by omega
    have : j < 64 := by omega
    simp only [this, decide_true, Bool.true_and, h]
    rw [List.getD_eq_getElem?_getD, List.getElem?_reverse (by rw [le_length]; omega), ← List.getD_eq_getElem?_getD, le_length, le_getD _ _ _ (by omega)]
    rw [BitVec.getLsbD_ofNat, ← BitVec.testBit_toNat]
    have : (256 : Nat) = 2^8 := rfl
    rw [this, ← Nat.pow_mul, Nat.testBit_div_two_pow]
    simp [show j % 8 < 8 by omega]
    congr 1; omega
  · simp only [h, decide_false, Bool.false_and]
    rw [List.getD_eq_getElem?_getD, List.getElem?_eq_none (by simp [le_length]; omega)]; simp

/-- The fit of an operand is a truncation and an extension. -/
theorem fitVal_eq (i : Ins) (signed : Bool) (v : W64) : fitVal i.bytes signed v =
    if signed then (v.setWidth (8 * i.bytes)).signExtend 64 else (v.setWidth (8 * i.bytes)).setWidth 64 := by
  unfold fitVal
  cases signed
  · simp only [Bool.false_eq_true, if_false]
    apply BitVec.eq_of_toNat_eq; simp
  · simp only [if_true]
    have hs : 0 < 8 * i.bytes := by unfold Ins.bytes; have := Nat.two_pow_pos i.sz.toNat; omega
    have hle : 8 * i.bytes ≤ 64 := by
      unfold Ins.bytes; have := i.sz.isLt
      have : 2 ^ i.sz.toNat ≤ 2 ^ 3 := Nat.pow_le_pow_right (by omega) (by omega)
      omega
    have e : sgn (8 * i.bytes) (v.toNat % 2 ^ (8 * i.bytes)) = (v.setWidth (8 * i.bytes)).toInt := by
      rw [BitVec.toInt_eq_toNat_cond, BitVec.toNat_setWidth]
      simp only [sgn]
      have : 2^(8 * i.bytes) = 2 * 2^(8 * i.bytes-1) := by rw [← Nat.pow_succ']; congr 1; omega
      split <;> split <;> first | rfl | omega
    rw [e]
    have : BitVec.ofNat 64 (wrap 64 (v.setWidth (8 * i.bytes)).toInt) = BitVec.ofInt 64 (v.setWidth (8 * i.bytes)).toInt := by
      apply BitVec.eq_of_toNat_eq
      simp only [wrap, BitVec.toNat_ofInt, BitVec.toNat_ofNat]
      have : ((v.setWidth (8 * i.bytes)).toInt % (2:Int)^64).toNat < 2^64 := by omega
      rw [Nat.mod_eq_of_lt this]; rfl
    rw [this]; rfl

/-- What the pointers hold after a paired access. -/
theorem pairedPost_eq (k : Core) (i : Ins) : pairedPost k i = if i.mode = 4 then { k with x := k.x + 8, y := k.y + 8 } else k := rfl

/-- MACD on the accumulator, in words. -/
theorem setAcc_macd (k : Core) (acc p q : Nat) : setAcc k (macdFlags k.fl acc p q) = { k with
         ah := BitVec.ofNat 64 ((acc + p * q) / 2 ^ 64), a := BitVec.ofNat 64 (acc + p * q),
         fl := { k.fl with z := BitVec.ofNat 128 (acc + p * q) == 0, n := (BitVec.ofNat 128 (acc + p * q)).msb, c := decide (2 ^ 128 ≤ acc + p * q) } } := by
  generalize h : acc + p * q = r
  have z : (r % 2^128 == 0) = (BitVec.ofNat 128 r == 0) := by
    rw [Bool.eq_iff_iff, beq_iff_eq, beq_iff_eq, BitVec.toNat_eq, BitVec.toNat_ofNat]; rfl
  have m : bit (r % 2^128) 127 = (BitVec.ofNat 128 r).msb := by
    rw [BitVec.msb_eq_getLsbD_last, ← BitVec.testBit_toNat, BitVec.toNat_ofNat]; rfl
  have a1 : BitVec.ofNat 64 (r % 2^128 / 2^64) = BitVec.ofNat 64 (r / 2^64) := by
    apply BitVec.eq_of_toNat_eq; rw [BitVec.toNat_ofNat, BitVec.toNat_ofNat]; omega
  have a2 : BitVec.ofNat 64 (r % 2^128) = BitVec.ofNat 64 r := by
    apply BitVec.eq_of_toNat_eq; rw [BitVec.toNat_ofNat, BitVec.toNat_ofNat]; omega
  simp only [setAcc, macdFlags, Flags.zn128, h, z, m, a1, a2]

/-- MACS on the accumulator, in words. -/
theorem macsFlags_eq (k : Core) (p q : W64) :
  let r := (BitVec.ofNat 128 (accOf k)).toInt + p.toInt * q.toInt
  let v : BitVec 128 := BitVec.ofInt 128 r
  macsFlags k.fl (accOf k) p.toNat q.toNat = (v.toNat, { k.fl with z := v == 0, n := v.msb, v := r != v.toInt }) := by
  intro r v
  have hacc : accOf k < 2^128 := by simp only [accOf]; have := k.ah.isLt; have := k.a.isLt; omega
  have er : sgn 128 (accOf k) + sgn 64 p.toNat * sgn 64 q.toNat = r := by
    simp only [r]; rw [sgn_toInt 64 (by omega), sgn_toInt 64 (by omega), ← sgn_toInt 128 (by omega) (BitVec.ofNat 128 _)]
    rw [BitVec.toNat_ofNat, Nat.mod_eq_of_lt hacc]
  have ev : wrap 128 r = v.toNat := by simp only [wrap, v, BitVec.toNat_ofInt]; rfl
  have z : (v.toNat == 0) = (v == 0) := by rw [Bool.eq_iff_iff]; simp [BitVec.toNat_eq]
  have m : bit v.toNat 127 = v.msb := by
    simp only [bit]; rw [BitVec.testBit_toNat, BitVec.msb_eq_getLsbD_last]
  have o : sgn 128 v.toNat = v.toInt := sgn_toInt 128 (by omega) v
  simp only [macsFlags, er, ev, Flags.zn128, z, m, o]

/-- The accumulator set to a 128-bit word. -/
theorem setAcc_toNat (k : Core) (v : BitVec 128) (f : Flags) : setAcc k (v.toNat, f) = 
   { k with ah := v.extractLsb' 64 64, a := v.extractLsb' 0 64, fl := f } := by
  have e1 : v.extractLsb' 64 64 = BitVec.ofNat 64 (v.toNat / 2^64) := by
    apply BitVec.eq_of_toNat_eq; simp [Nat.shiftRight_eq_div_pow]
  have e2 : v.extractLsb' 0 64 = BitVec.ofNat 64 v.toNat := by
    apply BitVec.eq_of_toNat_eq; simp
  rw [e1, e2]; rfl

end Sys2Proof.Machine
end

