-- ==== Sys2Proof/Laws/Instructions.lean ====
section
/-! SUPPORT. The course of each shape of instruction that is let in: operand, divide, store, multiply-accumulate, key plane. -/

namespace Sys2Proof.Machine

/-- An operand instruction past its checks retires with the settled registers. -/
theorem operandIns_settled {s t c i v n cost} (h : ReadsOperand s t c i false allModes false true v n) (f : Core → W64 → Core) :
    operandIns c i false allModes false true cost f s =
     .next (retire s t c i.e { core := i.post (f (settled (regsOf s c) true) v), cost := cost + n }) := by
  obtain ⟨h, l, o⟩ := h
  have := operandIns_ok (cost := cost) (f := f) h l o
  simpa [settled] using this

/-- A divide past its checks traps on a zero divisor with DZTRAP, or retires. -/
theorem divIns_ok {s t c i v n signed} (h : ReadsOperand s t c i false allModes false true v n) :
    divIns c i signed s = .next (
      let k := settled (regsOf s c) true
      if v = 0 ∧ k.dztrap then takeTrap (fetched s c) t c .divZero (regsOf s c).pc
      else
        let r := divFlags k.fl signed k.a v
        retire s t c i.e { core := i.post { k with a := r.1, ah := r.2.1, fl := r.2.2 }, cost := 34 + (if n ≤ 1 then 0 else n + 1) }) := by
  obtain ⟨h, l, o⟩ := h
  unfold divIns
  congr 1
  rw [runIns_comes h]
  simp only [Bool.true_or, Bool.false_and, Bool.or_false, settled] at l o ⊢
  have sb : (i.sub == 1) = false := by
    have := (checks_sub l).1
    simp at this ⊢; rw [this]; decide
  rw [sb] at o
  simp only [l, o, Acc.bind]
  by_cases z : v = 0 ∧ (macStall (regsOf s c) true).dztrap = true
  · rw [if_pos z]; exact (if_pos z).symm
  · rw [if_neg z]; exact (if_neg z).symm

/-- A store past its checks writes the register, or memory. -/
theorem storeIns_ok {s t : State} {c i} {g : Core → W64} {reads : Bool}
   (h : Accepted s c i.hw i.e 0 (i.sub == 0) (i.mode != 7 || !loopReg i.rn) (i.modeOk (regsOf s c) storeModes false)
      (i.privOk (regsOf s c))) :
    let k := settled (regsOf s c) reads
    (i.mode = 7 → storeIns c i reads g s = .next (retire s (fetched s c) c i.e { core := k.setReg i.rn (g k) })) ∧
    (i.mode ≠ 7 → store (fetched s c) c i.hw (i.addr k) i.bytes (g k) = .ok t 0 →
      storeIns c i reads g s = .next (retire s t c i.e { core := i.post k })) := by
  obtain ⟨h, l⟩ := h
  refine ⟨fun m => ?_, fun m e => ?_⟩
  · unfold storeIns; congr 1
    refine runIns_ok h ?_
    simp only [l, if_pos m]; rfl
  · unfold storeIns; congr 1
    refine runIns_ok h ?_
    simp only [settled] at e
    simp only [l, if_neg m, e, Acc.bind]; rfl

/-- A multiply-accumulate whose two operands are read retires. -/
theorem macIns_ok {s t u c} {i : Ins} {p q} {f} 
    (h : Accepted s c i.hw i.e 0 (i.sub == 0) true ((i.mode == 2 || (i.mode == 4 && i.f16 == 0)) && i.sz == 3 && !i.e) true) 
    (hp : (pairedOk c readable (pairedAddr (regsOf s c) i).1) = none) (hq : pairedOk c readable (pairedAddr (regsOf s c) i).2 = none)
    (l1 : load (fetched s c) c i.hw (pairedAddr (regsOf s c) i).1 8 = .ok t p)
    (l2 : load t c i.hw (pairedAddr (regsOf s c) i).2 8 = .ok u q) :
    macIns c i false f s = .next (retire s u c i.e { core := pairedPost (f { regsOf s c with macAt := some (regsOf s c).cyc } p.toNat q.toNat).1 i }) := by
  obtain ⟨h, l⟩ := h
  unfold macIns; congr 1
  refine runIns_ok h ?_
  simp only [l, hp, hq, Option.or, l1, l2, Acc.bind, Bool.false_eq_true, if_false]

/-- MACC reads both operands and writes the second one back. -/
theorem maccIns_ok {s t u w c} {i : Ins} {p q} {f} 
    (h : Accepted s c i.hw i.e 0 (i.sub == 0) true ((i.mode == 2 || (i.mode == 4 && i.f16 == 0)) && i.sz == 3 && !i.e) true) 
    (hp : (pairedOk c readable (pairedAddr (regsOf s c) i).1) = none) (hq : pairedOk c writable (pairedAddr (regsOf s c) i).2 = none)
    (l1 : load (fetched s c) c i.hw (pairedAddr (regsOf s c) i).1 8 = .ok t p)
    (l2 : load t c i.hw (pairedAddr (regsOf s c) i).2 8 = .ok u q) 
    (l3 : store u c i.hw (pairedAddr (regsOf s c) i).2 8 (f { regsOf s c with macAt := some (regsOf s c).cyc } p.toNat q.toNat).2 = .ok w 0) :
    macIns c i true f s = .next (retire s w c i.e { core := pairedPost (f { regsOf s c with macAt := some (regsOf s c).cyc } p.toNat q.toNat).1 i }) := by
  obtain ⟨h, l⟩ := h
  unfold macIns; congr 1
  refine runIns_ok h ?_
  simp only [l, hp, hq, Option.or, l1, l2, Acc.bind, if_true, l3]

/-- An instruction that comes has no uncorrectable fault in its way. -/
theorem hw_of_comes {s c hw e} (h : Comes s c hw e) : hw = .ok := h.2.2.2.1

/-- An instruction that does not read the accumulator does not wait for it. -/
theorem macStall_false (k : Core) : macStall k false = k := by unfold macStall; split <;> rfl

/-- DONE and FAIL run even past the deadline. -/
theorem runIns_fin {s : State} {c : CoreId} {hw : Hw} {ext : Bool} {body : State → Core → Acc Done}
    (h1 : active s c = true) (h2 : copyStops s c = false) (h4 : hw = .ok) (h5 : fetchFault (fetched s c) c (regsOf s c) ext = none) :
    runIns c hw ext true body s =
      match body (fetched s c) (regsOf s c) with
      | .ok s1 d => retire s s1 c ext d
      | .trap s1 t => takeTrap (fetched s c) s1 c t (regsOf s c).pc
      | .stop s1 => s1 := by
  subst h4
  have e : eccNote s c .ok = s := by cases c <;> rfl
  have f : fetchUnc s .ok c = none := by cases c <;> simp [fetchUnc]
  unfold runIns atBoundary
  rw [h1, h2, f, e]
  simp only [Bool.not_true, Bool.and_false, Bool.false_eq_true, if_false, Bool.true_eq_false]
  have n : noInstr .ok = false := rfl
  change runBody c .ok ext body (fetched s c) = _
  simp only [runBody, n, Bool.false_eq_true, if_false]
  unfold regsOf at h5 ⊢
  rw [h5]
  rfl

end Sys2Proof.Machine
end

