-- ==== Sys2Proof/Laws/KeepsBase.lean ====
section
/-! SUPPORT. What every effect of the module keeps: the queue of commands, the canonical form of the memories and of the tables
of plots and yokes, the blown fuses; with the ways to show it of a state built from another. -/

namespace Sys2Proof.Machine

/-- From `s` to `t` the queue is the same, the canonical forms stand if they stood, no blown fuse is unblown, and neither the
clock, the numbers of the free values nor what has left the module goes back. -/
structure Keeps (s t : State) : Prop where
  queue : t.pending = s.pending
  canon : Canon s → Canon t
  fuses : FusesKept s t
  onward : Onward s t

/-- The same for a state with a value. -/
def KeepsP {α : Type} (w : State) (p : State × α) : Prop := Keeps w p.1
/-- The same for a state that may be absent. -/
def KeepsO (w : State) (o : Option State) : Prop := ∀ t, o = some t → Keeps w t
/-- The same for a state with a value, which may be absent. -/
def KeepsQ {α : Type} (w : State) (o : Option (State × α)) : Prop := ∀ p, o = some p → Keeps w p.1
/-- The same for an access. -/
def KeepsA {α : Type} (w : State) : Acc α → Prop
  | .ok s _ => Keeps w s
  | .trap s _ => Keeps w s
  | .stop s => Keeps w s
/-- The same for a command's outcome. -/
def KeepsR (w : State) : Res → Prop
  | .next t => Keeps w t
  | .fault _ => True
  | .refused _ => True
/-- The same for a lane job's computation. -/
def KeepsC (w : State) : Comp → Prop
  | .fin s _ _ _ _ => Keeps w s
  | .derived s _ _ _ _ => Keeps w s
  | .exported s _ _ => Keeps w s
  | .learn s _ _ => Keeps w s
  | .wait => True
  | .conflict s _ => Keeps w s

theorem Keeps.refl (s : State) : Keeps s s := ⟨rfl, id, ⟨fun _ => Nat.le_refl _, id⟩, Nat.le_refl _, Nat.le_refl _, List.prefix_refl _⟩

theorem Keeps.trans {s t u : State} (h : Keeps s t) (k : Keeps t u) : Keeps s u :=
  ⟨k.queue.trans h.queue, fun c => k.canon (h.canon c),
    ⟨fun g => Nat.le_trans (h.fuses.1 g) (k.fuses.1 g), fun b => k.fuses.2 (h.fuses.2 b)⟩,
    Nat.le_trans h.onward.1 k.onward.1, Nat.le_trans h.onward.2.1 k.onward.2.1, h.onward.2.2.trans k.onward.2.2⟩

/-- A state that agrees with a kept one on what is kept. -/
theorem Keeps.same {w x t : State} (h : Keeps w x) (e1 : t.pending = x.pending) (e2 : t.plots = x.plots)
    (e3 : t.yokes = x.yokes) (e4 : t.stw.mem = x.stw.mem) (e5 : t.lcs.fuses = x.lcs.fuses)
    (e6 : t.lcs.trimBlown = x.lcs.trimBlown) (e7 : t.now = x.now) (e8 : t.free = x.free) (e9 : t.out = x.out) : Keeps w t := by
  refine h.trans ⟨e1, fun c => ?_, ⟨fun g => Nat.le_of_eq (by rw [e5]), fun b => e6.trans b⟩,
    Nat.le_of_eq e7.symm, Nat.le_of_eq e8.symm, e9 ▸ List.prefix_refl _⟩
  obtain ⟨c1, c2, c3, c4⟩ := c
  refine ⟨by rw [e2]; exact c1, by rw [e3]; exact c2, by rw [e4]; exact c3, fun y => ?_⟩
  have := c4 y
  unfold State.yoke at this ⊢
  rw [e3]; exact this

theorem Keeps.ite {w a b : State} {c : Prop} [Decidable c] (h : Keeps w a) (k : Keeps w b) : Keeps w (if c then a else b) := by
  split
  · exact h
  · exact k

/-- A record whose kept fields are those of a kept state. -/
theorem Keeps.upd {w x : State} {pending now free out link adm disp plots yokes yreg stw prog kp rpl vlt lan pke rng kpr hdg dbg
    cust lcs flash evr clu pwr owed snaps} (h : Keeps w x) (e1 : pending = x.pending) (e2 : plots = x.plots) (e3 : yokes = x.yokes)
    (e4 : stw.mem = x.stw.mem) (e5 : lcs.fuses = x.lcs.fuses) (e6 : lcs.trimBlown = x.lcs.trimBlown) (e7 : now = x.now)
    (e8 : free = x.free) (e9 : out = x.out) :
    Keeps w (State.mk pending now free out link adm disp plots yokes yreg stw prog kp rpl vlt lan pke rng kpr hdg dbg cust lcs
      flash evr clu pwr owed snaps) := h.same e1 e2 e3 e4 e5 e6 e7 e8 e9

/-- A record whose plots, yokes, memory or fuses change in a way that keeps them. -/
theorem Keeps.updG {w x : State} {pending now free out link adm disp plots yokes yreg stw prog kp rpl vlt lan pke rng kpr hdg dbg
    cust lcs flash evr clu pwr owed snaps} (h : Keeps w x) (e1 : pending = x.pending)
    (e2 : twf Plot.zero x.plots = true → twf Plot.zero plots = true)
    (e3 : twf Yoke.zero x.yokes = true → (∀ y, Memory.wf (tget Yoke.zero x.yokes y).bench = true) →
      twf Yoke.zero yokes = true ∧ ∀ y, Memory.wf (tget Yoke.zero yokes y).bench = true)
    (e4 : Memory.wf x.stw.mem = true → Memory.wf stw.mem = true)
    (e5 : ∀ g, x.lcs.fuses.getD g 0 ≤ lcs.fuses.getD g 0) (e6 : x.lcs.trimBlown = true → lcs.trimBlown = true)
    (e7 : x.now ≤ now) (e8 : x.free ≤ free) (e9 : x.out <+: out) :
    Keeps w (State.mk pending now free out link adm disp plots yokes yreg stw prog kp rpl vlt lan pke rng kpr hdg dbg cust lcs
      flash evr clu pwr owed snaps) :=
  h.trans ⟨e1, fun c => ⟨e2 c.1, (e3 c.2.1 c.2.2.2).1, e4 c.2.2.1, (e3 c.2.1 c.2.2.2).2⟩, ⟨e5, e6⟩, e7, e8, e9⟩

theorem KeepsP.mk {α : Type} {w s : State} {a : α} (h : Keeps w s) : KeepsP w (s, a) := h
theorem KeepsP.fst {α : Type} {w : State} {p : State × α} (h : KeepsP w p) : Keeps w p.1 := h
theorem KeepsP.of {α : Type} {w s : State} {p : State × α} {a : α} (h : KeepsP w p) (e : p = (s, a)) : Keeps w s := by
  subst e; exact h
theorem KeepsO.none {w : State} : KeepsO w none := fun _ e => nomatch e
theorem KeepsO.some {w s : State} (h : Keeps w s) : KeepsO w (some s) := fun _ e => by cases e; exact h
theorem KeepsO.of {w s : State} {o : Option State} (h : KeepsO w o) (e : o = Option.some s) : Keeps w s := h s e
theorem KeepsO.getD {w s : State} {o : Option State} (h : KeepsO w o) (k : Keeps w s) : Keeps w (o.getD s) := by
  cases o with
  | none => exact k
  | some t => exact h t rfl
theorem KeepsQ.none {α : Type} {w : State} : KeepsQ w (none : Option (State × α)) := fun _ e => nomatch e
theorem KeepsQ.some {α : Type} {w s : State} {a : α} (h : Keeps w s) : KeepsQ w (some (s, a)) := fun _ e => by cases e; exact h
theorem KeepsQ.of {α : Type} {w s : State} {a : α} {o : Option (State × α)} (h : KeepsQ w o) (e : o = Option.some (s, a)) :
    Keeps w s := h (s, a) e
theorem KeepsO.map {α : Type} {w : State} {o : Option State} {f : State → State × α} (h : KeepsO w o)
    (hf : ∀ s, Keeps w s → Keeps w (f s).1) : KeepsQ w (o.map f) := by
  intro p e
  cases o with
  | none => cases e
  | some s => cases e; exact hf s (h s rfl)
theorem KeepsO.map1 {w : State} {o : Option State} {f : State → State} (h : KeepsO w o)
    (hf : ∀ s, Keeps w s → Keeps w (f s)) : KeepsO w (o.map f) := by
  intro p e
  cases o with
  | none => cases e
  | some s => cases e; exact hf s (h s rfl)
theorem KeepsA.ok {α : Type} {w s : State} {a : α} (h : Keeps w s) : KeepsA w (.ok s a) := h
theorem KeepsA.trap {α : Type} {w s : State} {t : Trap} (h : Keeps w s) : KeepsA w (.trap s t : Acc α) := h
theorem KeepsA.stop {α : Type} {w s : State} (h : Keeps w s) : KeepsA w (.stop s : Acc α) := h
theorem KeepsA.of_ok {α : Type} {w s : State} {x : Acc α} {a : α} (h : KeepsA w x) (e : x = .ok s a) : Keeps w s := by
  subst e; exact h
theorem KeepsA.of_trap {α : Type} {w s : State} {x : Acc α} {t : Trap} (h : KeepsA w x) (e : x = .trap s t) : Keeps w s := by
  subst e; exact h
theorem KeepsA.of_stop {α : Type} {w s : State} {x : Acc α} (h : KeepsA w x) (e : x = .stop s) : Keeps w s := by
  subst e; exact h
theorem KeepsA.bind {α β : Type} {w : State} {x : Acc α} {f : State → α → Acc β} (h : KeepsA w x)
    (hf : ∀ s a, Keeps w s → KeepsA w (f s a)) : KeepsA w (x.bind f) := by
  cases x with
  | ok s a => exact hf s a h
  | trap s t => exact h
  | stop s => exact h
theorem KeepsR.next {w t : State} (h : Keeps w t) : KeepsR w (.next t) := h
theorem KeepsR.fault {w : State} {f : Fault} : KeepsR w (.fault f) := trivial
theorem KeepsR.refused {w : State} {f : Refusal} : KeepsR w (.refused f) := trivial
theorem KeepsR.of {w t : State} {r : Res} (h : KeepsR w r) (e : r = .next t) : Keeps w t := by subst e; exact h
theorem KeepsC.fin {w s : State} {st out sl inv} (h : Keeps w s) : KeepsC w (.fin s st out sl inv) := h
theorem KeepsC.learn {w s : State} {l inv} (h : Keeps w s) : KeepsC w (.learn s l inv) := h
theorem KeepsC.derived {w s : State} {st out sl ls} (h : Keeps w s) : KeepsC w (.derived s st out sl ls) := h
theorem KeepsC.exported {w s : State} {out pay} (h : Keeps w s) : KeepsC w (.exported s out pay) := h
theorem KeepsC.wait {w : State} : KeepsC w .wait := trivial
theorem KeepsC.conflict {w s : State} {ls} (h : Keeps w s) : KeepsC w (.conflict s ls) := h
theorem KeepsC.of_fin {w s : State} {c : Comp} {st out sl inv} (h : KeepsC w c) (e : c = .fin s st out sl inv) : Keeps w s := by
  subst e; exact h
theorem KeepsC.of_learn {w s : State} {c : Comp} {l inv} (h : KeepsC w c) (e : c = .learn s l inv) : Keeps w s := by
  subst e; exact h
theorem KeepsC.of_derived {w s : State} {c : Comp} {st out sl ls} (h : KeepsC w c) (e : c = .derived s st out sl ls) : Keeps w s := by
  subst e; exact h
theorem KeepsC.of_exported {w s : State} {c : Comp} {out pay} (h : KeepsC w c) (e : c = .exported s out pay) : Keeps w s := by
  subst e; exact h
theorem KeepsC.of_conflict {w s : State} {c : Comp} {ls} (h : KeepsC w c) (e : c = .conflict s ls) : Keeps w s := by
  subst e; exact h

theorem Keeps.foldl {α : Type} {w : State} {f : State → α → State} (hf : ∀ s a, Keeps w s → Keeps w (f s a)) :
    ∀ (l : List α) {s : State}, Keeps w s → Keeps w (l.foldl f s)
  | [], _, h => h
  | a :: l, s, h => Keeps.foldl hf l (hf s a h)

theorem KeepsP.foldl {α β : Type} {w : State} {f : State × β → α → State × β} (hf : ∀ s a, KeepsP w s → KeepsP w (f s a)) :
    ∀ (l : List α) {s : State × β}, KeepsP w s → KeepsP w (l.foldl f s)
  | [], _, h => h
  | a :: l, s, h => KeepsP.foldl hf l (hf s a h)

/-- The byte memories keep their form under a write of a byte string. -/
theorem wf_mwrite {m : Mem} (h : Memory.wf m = true) (a : Nat) (b : Bytes) : Memory.wf (mwrite m a b) = true := by
  induction b generalizing m a with
  | nil => exact h
  | cons x b ih => exact ih (twf_tset h a x) (a + 1)

theorem wf_nil : Memory.wf [] = true := rfl

theorem wf_mzero {m : Mem} (h : Memory.wf m = true) (a n : Nat) : Memory.wf (mzero m a n) = true := wf_mwrite h a _

theorem twfFrom_tmap {α : Type} [DecidableEq α] {d : α} (f : Nat → α → α) :
    ∀ {t : Tbl α} {lo : Nat}, twfFrom d lo t = true → twfFrom d lo (tmap d f t) = true
  | [], _, _ => rfl
  | (k, v) :: t, lo, h => by
    simp only [twfFrom, Bool.and_eq_true, decide_eq_true_eq] at h
    have ih := twfFrom_tmap f h.2
    unfold tmap at ih ⊢
    rw [List.map_cons, List.filter_cons]
    split
    · simp only [twfFrom, Bool.and_eq_true, decide_eq_true_eq]
      rename_i hne
      exact ⟨⟨h.1.1, by simpa using hne⟩, ih⟩
    · exact twfFrom_mono ih (by omega)

/-- Changing every entry keeps a table's form. -/
theorem twf_tmap {α : Type} [DecidableEq α] {d : α} {t : Tbl α} (h : twf d t = true) (f : Nat → α → α) :
    twf d (tmap d f t) = true := twfFrom_tmap f h

theorem setPlot_keeps {w s : State} (p : Nat) (x : Plot) (h : Keeps w s) : Keeps w (s.setPlot p x) :=
  h.trans ⟨rfl, fun c => ⟨twf_tset c.1 p x, c.2⟩, (Keeps.refl s).fuses, (Keeps.refl s).onward⟩

theorem modPlot_keeps {w s : State} (p : Nat) (f : Plot → Plot) (h : Keeps w s) : Keeps w (s.modPlot p f) :=
  setPlot_keeps p _ h

theorem setYoke_keeps {w s : State} (y : Nat) (x : Yoke) (hx : Canon s → Memory.wf x.bench = true) (h : Keeps w s) :
    Keeps w (s.setYoke y x) := by
  refine h.trans ⟨rfl, fun c => ⟨c.1, twf_tset c.2.1 y x, c.2.2.1, fun z => ?_⟩, (Keeps.refl s).fuses, (Keeps.refl s).onward⟩
  by_cases e : z = y
  · subst e
    have : (s.setYoke z x).yoke z = x := tget_tset_same c.2.1
    rw [this]; exact hx c
  · have : (s.setYoke y x).yoke z = s.yoke z := tget_tset_ne e _
    rw [this]; exact c.2.2.2 z

theorem modYoke_keeps {w s : State} (y : Nat) (f : Yoke → Yoke) (hf : ∀ k, Memory.wf k.bench = true → Memory.wf (f k).bench = true)
    (h : Keeps w s) : Keeps w (s.modYoke y f) :=
  setYoke_keeps y _ (fun c => hf _ (c.2.2.2 y)) h

theorem modTx_keeps {w s : State} (y : Nat) (f : Tx → Tx) (h : Keeps w s) : Keeps w (s.modTx y f) :=
  modYoke_keeps y _ (fun _ k => k) h

end Sys2Proof.Machine
end

