-- ==== Sys2Proof/Laws/KeepsOps.lean ====
section
/-! SUPPORT. What every effect keeps, function by function: the shared operations: memories, events, completions, drills, the key plane, transactions, the hedgerow. -/

namespace Sys2Proof.Machine
set_option linter.unusedVariables false
set_option linter.unusedTactic false
set_option linter.unreachableTactic false
set_option linter.unusedSimpArgs false

/-! `Machine.Ops` -/

theorem setHop_keeps {w0 : State} (s : State) (r : HopRef) (x : Hopper) (hK : Keeps w0 s) :
    Keeps w0 (State.setHop s r x) := by
  unfold State.setHop
  repeat' (first
    | with_reducible (first
        | assumption | exact Keeps.refl _ | apply modPlot_keeps | apply admin_keeps | apply modPlot_keeps)
    | dsimp only | split
    | with_reducible (first | intro _ | refine Keeps.upd ?_ rfl rfl rfl rfl rfl rfl rfl rfl rfl))

theorem modHop_keeps {w0 : State} (s : State) (r : HopRef) (f : Hopper → Hopper) (hK : Keeps w0 s) :
    Keeps w0 (State.modHop s r f) := by
  unfold State.modHop
  repeat' (first
    | with_reducible (first
        | assumption | exact Keeps.refl _ | apply setHop_keeps)
    | dsimp only | split
    | with_reducible (first | refine Keeps.upd ?_ rfl rfl rfl rfl rfl rfl rfl rfl rfl))

theorem emit_keeps {w0 : State} (s : State) (o : Out) (hK : Keeps w0 s) : Keeps w0 (emit s o) :=
  Keeps.updG hK rfl id (fun h k => ⟨h, k⟩) id (fun _ => Nat.le_refl _) id (Nat.le_refl _) (Nat.le_refl _) (List.prefix_append _ _)

theorem drawn_keeps {w0 : State} (s : State) (n : Nat) (hK : Keeps w0 s) : Keeps w0 (drawn s n) :=
  Keeps.updG hK rfl id (fun h k => ⟨h, k⟩) id (fun _ => Nat.le_refl _) id (Nat.le_refl _) (Nat.le_add_right _ _) (List.prefix_refl _)

theorem advanceTo_keeps {w0 : State} (s : State) (t : Nat) (hK : Keeps w0 s) : Keeps w0 (advanceTo s t) :=
  Keeps.updG hK rfl id (fun h k => ⟨h, k⟩) id (fun _ => Nat.le_refl _) id (Nat.le_max_left _ _) (Nat.le_refl _) (List.prefix_refl _)

theorem setMsix_keeps {w0 : State} (s : State) (f : Fn) (m : Msix) (hK : Keeps w0 s) :
    Keeps w0 (State.setMsix s f m) := by
  unfold State.setMsix
  repeat' (first
    | with_reducible (first
        | assumption | exact Keeps.refl _)
    | dsimp only | split
    | with_reducible (first | refine Keeps.upd ?_ rfl rfl rfl rfl rfl rfl rfl rfl rfl))

theorem holdOut_keeps {w0 : State} (s : State) (h : HeldOut) (hK : Keeps w0 s) :
    Keeps w0 (holdOut s h) := by
  unfold holdOut
  repeat' (first
    | with_reducible (first
        | assumption | exact Keeps.refl _)
    | dsimp only | split
    | with_reducible (first | refine Keeps.upd ?_ rfl rfl rfl rfl rfl rfl rfl rfl rfl))

theorem setFnCfg_keeps {w0 : State} (s : State) (f : Fn) (c : FnCfg) (hK : Keeps w0 s) :
    Keeps w0 (State.setFnCfg s f c) := by
  unfold State.setFnCfg
  repeat' (first
    | with_reducible (first
        | assumption | exact Keeps.refl _)
    | dsimp only | split
    | with_reducible (first | refine Keeps.upd ?_ rfl rfl rfl rfl rfl rfl rfl rfl rfl))

theorem issueWrite_keeps {w0 : State} (s : State) (f : Fn) (addr : W64) (data : Bytes) (hK : Keeps w0 s) :
    Keeps w0 (issueWrite s f addr data) := by
  unfold issueWrite
  repeat' (first
    | with_reducible (first
        | assumption | exact Keeps.refl _ | apply emit_keeps | apply holdOut_keeps)
    | dsimp only | split
    | with_reducible (first | refine Keeps.upd ?_ rfl rfl rfl rfl rfl rfl rfl rfl rfl))

theorem issueRead_keeps {w0 : State} (s : State) (f : Fn) (addr : W64) (len : Nat) (hK : Keeps w0 s) :
    Keeps w0 (issueRead s f addr len) := by
  unfold issueRead
  repeat' (first
    | with_reducible (first
        | assumption | exact Keeps.refl _ | apply emit_keeps | apply holdOut_keeps)
    | dsimp only | split
    | with_reducible (first | refine Keeps.upd ?_ rfl rfl rfl rfl rfl rfl rfl rfl rfl))

theorem raiseVec_keeps {w0 : State} (s : State) (f : Fn) (v : Nat) (hK : Keeps w0 s) :
    Keeps w0 (raiseVec s f v) := by
  unfold raiseVec
  repeat' (first
    | with_reducible (first
        | assumption | exact Keeps.refl _ | apply emit_keeps | apply setMsix_keeps | apply holdOut_keeps)
    | dsimp only | split
    | with_reducible (first | refine Keeps.upd ?_ rfl rfl rfl rfl rfl rfl rfl rfl rfl))

theorem sendPending_keeps {w0 : State} (s : State) (f : Fn) (hK : Keeps w0 s) :
    Keeps w0 (sendPending s f) := by
  unfold sendPending
  repeat' (first
    | with_reducible (first
        | assumption | exact Keeps.refl _ | apply setMsix_keeps | apply raiseVec_keeps | apply Keeps.foldl
        | apply KeepsP.foldl)
    | dsimp only | split
    | with_reducible (first | intro _ | refine Keeps.upd ?_ rfl rfl rfl rfl rfl rfl rfl rfl rfl))

theorem modEvent_keeps {w0 : State} (s : State) (hK : Keeps w0 s) :
    Keeps w0 (modEvent s) := by
  unfold modEvent
  repeat' (first
    | with_reducible (first
        | assumption | exact Keeps.refl _ | apply raiseVec_keeps)
    | dsimp only | split
    | with_reducible (first | refine Keeps.upd ?_ rfl rfl rfl rfl rfl rfl rfl rfl rfl))

theorem cluVec_keeps {w0 : State} (s : State) (hK : Keeps w0 s) :
    Keeps w0 (cluVec s) := by
  unfold cluVec
  repeat' (first
    | with_reducible (first
        | assumption | exact Keeps.refl _ | apply raiseVec_keeps)
    | dsimp only | split
    | with_reducible (first | refine Keeps.upd ?_ rfl rfl rfl rfl rfl rfl rfl rfl rfl))

theorem plotEvent_keeps {w0 : State} (s : State) (p b : Nat) (hK : Keeps w0 s) :
    Keeps w0 (plotEvent s p b) := by
  unfold plotEvent
  repeat' (first
    | with_reducible (first
        | assumption | exact Keeps.refl _ | apply modPlot_keeps | apply raiseVec_keeps | apply modPlot_keeps)
    | dsimp only | split
    | with_reducible (first | intro _ | refine Keeps.upd ?_ rfl rfl rfl rfl rfl rfl rfl rfl rfl))

theorem enterState_keeps {w0 : State} (s : State) (p : Nat) (st : PlotSt) (hK : Keeps w0 s) :
    Keeps w0 (enterState s p st) := by
  unfold enterState
  repeat' (first
    | with_reducible (first
        | assumption | exact Keeps.refl _ | apply modPlot_keeps | apply plotEvent_keeps | apply modPlot_keeps)
    | dsimp only | split
    | with_reducible (first | intro _ | refine Keeps.upd ?_ rfl rfl rfl rfl rfl rfl rfl rfl rfl))

theorem crossings_keeps {w0 : State} (s : State) (e : Recorder) (hK : Keeps w0 s) :
    Keeps w0 (crossings s e) := by
  unfold crossings
  repeat' (first
    | with_reducible (first
        | assumption | exact Keeps.refl _ | apply modEvent_keeps)
    | dsimp only | split
    | with_reducible (first | refine Keeps.upd ?_ rfl rfl rfl rfl rfl rfl rfl rfl rfl))

theorem keepEvent_keeps {w0 : State} (s : State) (e : Recorder) (r : EvRec) (hK : Keeps w0 s) :
    Keeps w0 (keepEvent s e r) := by
  unfold keepEvent
  repeat' (first
    | with_reducible (first
        | assumption | exact Keeps.refl _ | apply crossings_keeps)
    | dsimp only | split
    | with_reducible (first | refine Keeps.upd ?_ rfl rfl rfl rfl rfl rfl rfl rfl rfl))

theorem event_keeps {w0 : State} (s : State) (code : BitVec 16) (scope : Nat) (payload : Bytes) (flags : Byte) (hK : Keeps w0 s) :
    Keeps w0 (event s code scope payload flags) := by
  unfold event
  repeat' (first
    | with_reducible (first
        | assumption | exact Keeps.refl _ | apply keepEvent_keeps)
    | dsimp only | split
    | with_reducible (first | intro _ | refine Keeps.upd ?_ rfl rfl rfl rfl rfl rfl rfl rfl rfl))

theorem reserve_keeps {w0 : State} (s : State) (hK : Keeps w0 s) :
    Keeps w0 (reserve s) := by
  unfold reserve
  repeat' (first
    | with_reducible (first
        | assumption | exact Keeps.refl _ | apply crossings_keeps)
    | dsimp only | split
    | with_reducible (first | refine Keeps.upd ?_ rfl rfl rfl rfl rfl rfl rfl rfl rfl))

theorem unreserve_keeps {w0 : State} (s : State) (hK : Keeps w0 s) :
    Keeps w0 (unreserve s) := by
  unfold unreserve
  repeat' (first
    | with_reducible (first
        | assumption | exact Keeps.refl _ | apply crossings_keeps)
    | dsimp only | split
    | with_reducible (first | refine Keeps.upd ?_ rfl rfl rfl rfl rfl rfl rfl rfl rfl))

theorem writeReserved_keeps {w0 : State} (s : State) (code : BitVec 16) (scope : Nat) (payload : Bytes) (hK : Keeps w0 s) :
    Keeps w0 (writeReserved s code scope payload) := by
  unfold writeReserved
  repeat' (first
    | with_reducible (first
        | assumption | exact Keeps.refl _ | apply keepEvent_keeps)
    | dsimp only | split
    | with_reducible (first | refine Keeps.upd ?_ rfl rfl rfl rfl rfl rfl rfl rfl rfl))

theorem hopInterrupt_keeps {w0 : State} (s : State) (r : HopRef) (hK : Keeps w0 s) :
    Keeps w0 (hopInterrupt s r) := by
  unfold hopInterrupt
  repeat' (first
    | with_reducible (first
        | assumption | exact Keeps.refl _ | apply modHop_keeps | apply raiseVec_keeps)
    | dsimp only | split
    | with_reducible (first | intro _ | refine Keeps.upd ?_ rfl rfl rfl rfl rfl rfl rfl rfl rfl))

theorem coalesce_keeps {w0 : State} (s : State) (r : HopRef) (irqNow : Bool) (hK : Keeps w0 s) :
    Keeps w0 (coalesce s r irqNow) := by
  unfold coalesce
  repeat' (first
    | with_reducible (first
        | assumption | exact Keeps.refl _ | apply modHop_keeps | apply hopInterrupt_keeps)
    | dsimp only | split
    | with_reducible (first | intro _ | refine Keeps.upd ?_ rfl rfl rfl rfl rfl rfl rfl rfl rfl))

theorem dropEnabled_keeps {w0 : State} (s : State) (r : HopRef) (hK : Keeps w0 s) :
    Keeps w0 (dropEnabled s r) := by
  unfold dropEnabled
  repeat' (first
    | with_reducible (first
        | assumption | exact Keeps.refl _ | apply setHop_keeps)
    | dsimp only | split
    | with_reducible (first | refine Keeps.upd ?_ rfl rfl rfl rfl rfl rfl rfl rfl rfl))

theorem putEntry_keeps {w0 : State} (s : State) (r : HopRef) (e : Entry) (hK : Keeps w0 s) :
    Keeps w0 (putEntry s r e) := by
  unfold putEntry
  repeat' (first
    | with_reducible (first
        | assumption | exact Keeps.refl _ | apply modPlot_keeps | apply setHop_keeps | apply emit_keeps | apply coalesce_keeps
        | apply dropEnabled_keeps | apply admin_keeps | apply modPlot_keeps)
    | dsimp only | split
    | with_reducible (first | intro _ | refine Keeps.upd ?_ rfl rfl rfl rfl rfl rfl rfl rfl rfl))

theorem complete_keeps {w0 : State} (s : State) (r : HopRef) (e : Entry) (hK : Keeps w0 s) :
    Keeps w0 (complete s r e) := by
  unfold complete
  repeat' (first
    | with_reducible (first
        | assumption | exact Keeps.refl _ | apply holdOut_keeps | apply putEntry_keeps)
    | dsimp only | split
    | with_reducible (first | refine Keeps.upd ?_ rfl rfl rfl rfl rfl rfl rfl rfl rfl))

theorem releaseHeld_keeps {w0 : State} (s : State) (hK : Keeps w0 s) :
    Keeps w0 (releaseHeld s) := by
  unfold releaseHeld
  repeat' (first
    | with_reducible (first
        | assumption | exact Keeps.refl _ | apply issueWrite_keeps | apply issueRead_keeps | apply raiseVec_keeps
        | apply complete_keeps | apply Keeps.foldl | apply KeepsP.foldl)
    | dsimp only | split
    | with_reducible (first | intro _ | refine Keeps.upd ?_ rfl rfl rfl rfl rfl rfl rfl rfl rfl))

theorem ledAct_keeps {w0 : State} (s : State) (hK : Keeps w0 s) :
    Keeps w0 (ledAct s) := by
  unfold ledAct
  repeat' (first
    | with_reducible (first
        | assumption | exact Keeps.refl _)
    | dsimp only | split
    | with_reducible (first | refine Keeps.upd ?_ rfl rfl rfl rfl rfl rfl rfl rfl rfl))

/-! `Machine.Cabinet` -/

theorem setCab_keeps {w0 : State} (s : State) (f : Cabinet → Cabinet) (hK : Keeps w0 s) :
    Keeps w0 (State.setCab s f) := by
  unfold State.setCab
  repeat' (first
    | with_reducible (first
        | assumption | exact Keeps.refl _)
    | dsimp only | split
    | with_reducible (first | refine Keeps.upd ?_ rfl rfl rfl rfl rfl rfl rfl rfl rfl))

theorem setSeed_keeps {w0 : State} (s : State) (p k : Nat) (hK : Keeps w0 s) :
    Keeps w0 (State.setSeed s p k) := by
  unfold State.setSeed
  repeat' (first
    | with_reducible (first
        | assumption | exact Keeps.refl _ | apply setCab_keeps)
    | dsimp only | split
    | with_reducible (first | intro _ | refine Keeps.upd ?_ rfl rfl rfl rfl rfl rfl rfl rfl rfl))

theorem resealRegistries_keeps {w0 : State} (s : State) (hK : Keeps w0 s) :
    Keeps w0 (resealRegistries s) := by
  unfold resealRegistries
  repeat' (first
    | with_reducible (first
        | assumption | exact Keeps.refl _ | apply Keeps.foldl | apply KeepsP.foldl)
    | dsimp only | split
    | with_reducible (first | intro _ | refine Keeps.upd ?_ rfl rfl rfl rfl rfl rfl rfl rfl rfl))

/-! `Machine.Policy` -/

theorem saveRecord_keeps {w0 : State} (s : State) (p : Nat) (hK : Keeps w0 s) :
    Keeps w0 (saveRecord s p) := by
  unfold saveRecord
  repeat' (first
    | with_reducible (first
        | assumption | exact Keeps.refl _)
    | dsimp only | split
    | with_reducible (first | refine Keeps.upd ?_ rfl rfl rfl rfl rfl rfl rfl rfl rfl))

/-! `Machine.RngOps` -/

theorem setSrc_keeps {w0 : State} (s : State) (i : Nat) (x : Src) (hK : Keeps w0 s) :
    Keeps w0 (State.setSrc s i x) := by
  unfold State.setSrc
  repeat' (first
    | with_reducible (first
        | assumption | exact Keeps.refl _)
    | dsimp only | split
    | with_reducible (first | refine Keeps.upd ?_ rfl rfl rfl rfl rfl rfl rfl rfl rfl))

theorem rngEvent_keeps {w0 : State} (s : State) (b : Nat) (hK : Keeps w0 s) :
    Keeps w0 (rngEvent s b) := by
  unfold rngEvent
  repeat' (first
    | with_reducible (first
        | assumption | exact Keeps.refl _ | apply event_keeps)
    | dsimp only | split
    | with_reducible (first | refine Keeps.upd ?_ rfl rfl rfl rfl rfl rfl rfl rfl rfl))

theorem condBlock_keeps {w0 : State} (s : State) (hK : Keeps w0 s) :
    Keeps w0 (condBlock s) := by
  unfold condBlock
  repeat' (first
    | with_reducible (first
        | assumption | exact Keeps.refl _ | apply drawn_keeps)
    | dsimp only | split
    | with_reducible (first | refine Keeps.upd ?_ rfl rfl rfl rfl rfl rfl rfl rfl rfl))

theorem modPriv_keeps {w0 : State} (s : State) (k : Nat) (f : Drill → Drill) (hK : Keeps w0 s) :
    Keeps w0 (State.modPriv s k f) := by
  unfold State.modPriv
  repeat' (first
    | with_reducible (first
        | assumption | exact Keeps.refl _)
    | dsimp only | split
    | with_reducible (first | refine Keeps.upd ?_ rfl rfl rfl rfl rfl rfl rfl rfl rfl))

theorem modDrill_keeps {w0 : State} (s : State) (p : Nat) (f : Drill → Drill) (hK : Keeps w0 s) :
    Keeps w0 (State.modDrill s p f) := by
  unfold State.modDrill
  repeat' (first
    | with_reducible (first
        | assumption | exact Keeps.refl _ | apply modPlot_keeps | apply modPlot_keeps)
    | dsimp only | split
    | with_reducible (first | intro _ | refine Keeps.upd ?_ rfl rfl rfl rfl rfl rfl rfl rfl rfl))

theorem countInst_keeps {w0 : State} (s : State) (r : SeedReq) (d : Drill) (hK : Keeps w0 s) :
    Keeps w0 (countInst s r d) := by
  unfold countInst
  repeat' (first
    | with_reducible (first
        | assumption | exact Keeps.refl _)
    | dsimp only | split
    | with_reducible (first | refine Keeps.upd ?_ rfl rfl rfl rfl rfl rfl rfl rfl rfl))

theorem seedDone_keeps {w0 : State} (s : State) (r : SeedReq) (entropy : Bytes) (hK : Keeps w0 s) :
    Keeps w0 (seedDone s r entropy) := by
  unfold seedDone
  repeat' (first
    | with_reducible (first
        | assumption | exact Keeps.refl _ | apply modPriv_keeps | apply modDrill_keeps | apply countInst_keeps)
    | dsimp only | split
    | with_reducible (first | intro _ | refine Keeps.upd ?_ rfl rfl rfl rfl rfl rfl rfl rfl rfl))

theorem pumpN_keeps {w0 : State} (n : Nat) (s : State) (hK : Keeps w0 s) : Keeps w0 (pumpN n s) := by
  induction n generalizing s with
  | zero => exact hK
  | succ n ih =>
    unfold pumpN
    split
    · exact hK
    · split
      · exact ih _ (seedDone_keeps _ _ _ (Keeps.upd hK rfl rfl rfl rfl rfl rfl rfl rfl rfl))
      · exact hK

theorem pump_keeps {w0 : State} (s : State) (hK : Keeps w0 s) :
    Keeps w0 (pump s) := by
  unfold pump
  repeat' (first
    | with_reducible (first
        | assumption | exact Keeps.refl _ | apply pumpN_keeps)
    | dsimp only | split
    | with_reducible (first | refine Keeps.upd ?_ rfl rfl rfl rfl rfl rfl rfl rfl rfl))

theorem wantSeed_keeps {w0 : State} (s : State) (r : SeedReq) (hK : Keeps w0 s) :
    Keeps w0 (wantSeed s r) := by
  unfold wantSeed
  repeat' (first
    | with_reducible (first
        | assumption | exact Keeps.refl _ | apply drawn_keeps | apply seedDone_keeps | apply pump_keeps)
    | dsimp only | split
    | with_reducible (first | refine Keeps.upd ?_ rfl rfl rfl rfl rfl rfl rfl rfl rfl))

theorem privGen_keeps {w0 : State} (s : State) (k : Nat) (hK : Keeps w0 s) :
    Keeps w0 (privGen s k) := by
  unfold privGen
  repeat' (first
    | with_reducible (first
        | assumption | exact Keeps.refl _ | apply modPriv_keeps | apply wantSeed_keeps)
    | dsimp only | split
    | with_reducible (first | intro _ | refine Keeps.upd ?_ rfl rfl rfl rfl rfl rfl rfl rfl rfl))

theorem keyGen_keeps {w0 : State} (s : State) (k : Nat) (hK : Keeps w0 s) :
    KeepsP w0 (keyGen s k) := by
  unfold keyGen
  repeat' (first
    | with_reducible (first
        | assumption | exact Keeps.refl _ | apply modPriv_keeps | apply wantSeed_keeps | refine KeepsP.of ?_ (by assumption)
        | apply KeepsP.fst)
    | dsimp only | split
    | with_reducible (first | apply KeepsP.mk | intro _ | refine Keeps.upd ?_ rfl rfl rfl rfl rfl rfl rfl rfl rfl))

theorem privDraws_keeps {w0 : State} (s : State) (k n : Nat) (hK : Keeps w0 s) : KeepsP w0 (privDraws s k n) := by
  induction n generalizing s with
  | zero => exact hK
  | succ n ih =>
    unfold privDraws
    split
    · exact ih _ (privGen_keeps _ _ hK)
    · exact hK

theorem keyGens_keeps {w0 : State} (s : State) (k n : Nat) (hK : Keeps w0 s) : KeepsP w0 (keyGens s k n) := by
  induction n generalizing s with
  | zero => exact hK
  | succ n ih =>
    unfold keyGens
    dsimp only
    split
    · exact ih _ (keyGen_keeps _ _ hK)
    · exact keyGen_keeps _ _ hK

theorem settleWaits_keeps {w0 : State} (s : State) (hK : Keeps w0 s) :
    Keeps w0 (settleWaits s) := by
  unfold settleWaits
  repeat' (first
    | with_reducible (first
        | assumption | exact Keeps.refl _ | apply modPriv_keeps | apply Keeps.foldl | apply KeepsP.foldl)
    | dsimp only | split
    | with_reducible (first | intro _ | refine Keeps.upd ?_ rfl rfl rfl rfl rfl rfl rfl rfl rfl))

theorem keyServed_keeps {w0 : State} (s : State) (hK : Keeps w0 s) :
    Keeps w0 (keyServed s) := by
  unfold keyServed
  repeat' (first
    | with_reducible (first
        | assumption | exact Keeps.refl _ | apply settleWaits_keeps)
    | dsimp only | split
    | with_reducible (first | refine Keeps.upd ?_ rfl rfl rfl rfl rfl rfl rfl rfl rfl))

theorem keyHeld_keeps {w0 : State} (s : State) (d : Adm) (got : Nat) (hK : Keeps w0 s) :
    Keeps w0 (keyHeld s d got) := by
  unfold keyHeld
  repeat' (first
    | with_reducible (first
        | assumption | exact Keeps.refl _)
    | dsimp only | split
    | with_reducible (first | refine Keeps.upd ?_ rfl rfl rfl rfl rfl rfl rfl rfl rfl))

theorem drillCheck_keeps {w0 : State} (s : State) (p : Nat) (hK : Keeps w0 s) :
    Keeps w0 (drillCheck s p) := by
  unfold drillCheck
  repeat' (first
    | with_reducible (first
        | assumption | exact Keeps.refl _ | apply modDrill_keeps | apply wantSeed_keeps)
    | dsimp only | split
    | with_reducible (first | intro _ | refine Keeps.upd ?_ rfl rfl rfl rfl rfl rfl rfl rfl rfl))

theorem plotGen_keeps {w0 : State} (s : State) (p : Nat) (hK : Keeps w0 s) :
    KeepsO w0 (plotGen s p) := by
  unfold plotGen
  repeat' (first
    | with_reducible (first
        | assumption | exact Keeps.refl _ | apply KeepsO.some | exact KeepsO.none | apply KeepsQ.some | exact KeepsQ.none
        | apply modDrill_keeps | apply drillCheck_keeps | refine KeepsO.of ?_ (by assumption))
    | dsimp only | split
    | with_reducible (first | intro _ | refine Keeps.upd ?_ rfl rfl rfl rfl rfl rfl rfl rfl rfl))

theorem markReseed_keeps {w0 : State} (s : State) (p : Nat) (hK : Keeps w0 s) :
    Keeps w0 (markReseed s p) := by
  unfold markReseed
  repeat' (first
    | with_reducible (first
        | assumption | exact Keeps.refl _ | apply modDrill_keeps | apply wantSeed_keeps)
    | dsimp only | split
    | with_reducible (first | intro _ | refine Keeps.upd ?_ rfl rfl rfl rfl rfl rfl rfl rfl rfl))

theorem newSecret_keeps {w0 : State} (s : State) (n : Nat) (hK : Keeps w0 s) : KeepsP w0 (newSecret s n) :=
  Keeps.updG hK rfl id (fun h k => ⟨h, k⟩) id (fun _ => Nat.le_refl _) id (Nat.le_refl _)
    (Nat.le_trans (Nat.le_max_left _ 1) (Nat.le_add_right _ n)) (List.prefix_refl _)

/-! `Machine.KeyOps` -/

theorem modSlot_keeps {w0 : State} (s : State) (i : Nat) (f : Slot → Slot) (hK : Keeps w0 s) :
    Keeps w0 (State.modSlot s i f) := by
  unfold State.modSlot
  repeat' (first
    | with_reducible (first
        | assumption | exact Keeps.refl _)
    | dsimp only | split
    | with_reducible (first | intro _ | refine Keeps.upd ?_ rfl rfl rfl rfl rfl rfl rfl rfl rfl))

theorem freeSlotIfDone_keeps {w0 : State} (s : State) (i : Nat) (hK : Keeps w0 s) :
    Keeps w0 (freeSlotIfDone s i) := by
  unfold freeSlotIfDone
  repeat' (first
    | with_reducible (first
        | assumption | exact Keeps.refl _ | apply modPlot_keeps | apply modSlot_keeps | apply modPlot_keeps)
    | dsimp only | split
    | with_reducible (first | intro _ | refine Keeps.upd ?_ rfl rfl rfl rfl rfl rfl rfl rfl rfl))

theorem dropEntry_keeps {w0 : State} (s : State) (i : Nat) (hK : Keeps w0 s) :
    Keeps w0 (dropEntry s i) := by
  unfold dropEntry
  repeat' (first
    | with_reducible (first
        | assumption | exact Keeps.refl _ | apply modPlot_keeps | apply modSlot_keeps | apply freeSlotIfDone_keeps
        | apply modPlot_keeps)
    | dsimp only | split
    | with_reducible (first | intro _ | refine Keeps.upd ?_ rfl rfl rfl rfl rfl rfl rfl rfl rfl))

theorem releaseHandle_keeps {w0 : State} (s : State) (h : Handle) (hK : Keeps w0 s) :
    Keeps w0 (releaseHandle s h) := by
  unfold releaseHandle
  repeat' (first
    | with_reducible (first
        | assumption | exact Keeps.refl _ | apply modSlot_keeps | apply freeSlotIfDone_keeps)
    | dsimp only | split
    | with_reducible (first | intro _ | refine Keeps.upd ?_ rfl rfl rfl rfl rfl rfl rfl rfl rfl))

theorem takeHandle_keeps {w0 : State} (s : State) (y : Nat) (e : KitEntry) (hK : Keeps w0 s) :
    KeepsP w0 (takeHandle s y e) := by
  unfold takeHandle
  repeat' (first
    | with_reducible (first
        | assumption | exact Keeps.refl _ | apply modTx_keeps | apply modSlot_keeps | apply modTx_keeps
        | refine KeepsP.of ?_ (by assumption) | apply KeepsP.fst)
    | dsimp only | split
    | with_reducible (first | apply KeepsP.mk | intro _ | refine Keeps.upd ?_ rfl rfl rfl rfl rfl rfl rfl rfl rfl))

theorem kitLookup_keeps {w0 : State} (s : State) (p : Nat) (name : W64) (derived : Bool) (hK : Keeps w0 s) :
    KeepsP w0 (kitLookup s p name derived) := by
  unfold kitLookup
  repeat' (first
    | with_reducible (first
        | assumption | exact Keeps.refl _ | refine KeepsP.of ?_ (by assumption) | apply KeepsP.fst)
    | dsimp only | split
    | with_reducible (first | apply KeepsP.mk | refine Keeps.upd ?_ rfl rfl rfl rfl rfl rfl rfl rfl rfl))

theorem placeKey_keeps {w0 : State} (s : State) (l : Learn) (i : Nat) (hK : Keeps w0 s) :
    Keeps w0 (placeKey s l i) := by
  unfold placeKey
  repeat' (first
    | with_reducible (first
        | assumption | exact Keeps.refl _ | apply modPlot_keeps | apply drawn_keeps | apply modSlot_keeps
        | apply dropEntry_keeps | apply modPlot_keeps | apply Keeps.foldl | apply KeepsP.foldl)
    | dsimp only | split
    | with_reducible (first | intro _ | refine Keeps.upd ?_ rfl rfl rfl rfl rfl rfl rfl rfl rfl))

theorem learnFast_keeps {w0 : State} (s : State) (l : Learn) (hK : Keeps w0 s) :
    KeepsP w0 (learnFast s l) := by
  unfold learnFast
  repeat' (first
    | with_reducible (first
        | assumption | exact Keeps.refl _ | apply placeKey_keeps | refine KeepsP.of ?_ (by assumption) | apply KeepsP.fst)
    | dsimp only | split
    | with_reducible (first | apply KeepsP.mk | refine Keeps.upd ?_ rfl rfl rfl rfl rfl rfl rfl rfl rfl))

theorem rehashReq_keeps {w0 : State} (s : State) (derived : Bool) (hK : Keeps w0 s) :
    Keeps w0 (rehashReq s derived) := by
  unfold rehashReq
  repeat' (first
    | with_reducible (first
        | assumption | exact Keeps.refl _)
    | dsimp only | split
    | with_reducible (first | refine Keeps.upd ?_ rfl rfl rfl rfl rfl rfl rfl rfl rfl))

theorem learnWalk_keeps {w0 : State} (s : State) (l : Learn) (hK : Keeps w0 s) :
    KeepsP w0 (learnWalk s l) := by
  unfold learnWalk
  repeat' (first
    | with_reducible (first
        | assumption | exact Keeps.refl _ | apply placeKey_keeps | apply rehashReq_keeps | apply KeepsA.bind
        | refine KeepsP.of ?_ (by assumption) | apply KeepsP.fst)
    | dsimp only | split
    | with_reducible (first | apply KeepsP.mk | intro _ | refine Keeps.upd ?_ rfl rfl rfl rfl rfl rfl rfl rfl rfl))

theorem derivedDone_keeps {w0 : State} (s : State) (l : Learn) (st : BitVec 16) (hK : Keeps w0 s) :
    KeepsP w0 (derivedDone s l st) := by
  unfold derivedDone
  repeat' (first
    | with_reducible (first
        | assumption | exact Keeps.refl _ | apply dropEntry_keeps | refine KeepsP.of ?_ (by assumption) | apply KeepsP.fst)
    | dsimp only | split
    | with_reducible (first | apply KeepsP.mk | refine Keeps.upd ?_ rfl rfl rfl rfl rfl rfl rfl rfl rfl))

theorem vltSet_keeps {w0 : State} (s : State) (i : Nat) (r : VRec) (hK : Keeps w0 s) :
    Keeps w0 (vltSet s i r) := by
  unfold vltSet
  repeat' (first
    | with_reducible (first
        | assumption | exact Keeps.refl _ | apply modPlot_keeps | apply modPlot_keeps)
    | dsimp only | split
    | with_reducible (first | intro _ | refine Keeps.upd ?_ rfl rfl rfl rfl rfl rfl rfl rfl rfl))

theorem vltFull_keeps {w0 : State} (s : State) (hK : Keeps w0 s) :
    Keeps w0 (vltFull s) := by
  unfold vltFull
  repeat' (first
    | with_reducible (first
        | assumption | exact Keeps.refl _)
    | dsimp only | split
    | with_reducible (first | refine Keeps.upd ?_ rfl rfl rfl rfl rfl rfl rfl rfl rfl))

theorem vltWrite_keeps {w0 : State} (s : State) (r : VRec) (hK : Keeps w0 s) :
    Keeps w0 (vltWrite s r) := by
  unfold vltWrite
  repeat' (first
    | with_reducible (first
        | assumption | exact Keeps.refl _ | apply KeepsO.some | exact KeepsO.none | apply KeepsQ.some | exact KeepsQ.none
        | apply drawn_keeps | apply plotGen_keeps | apply vltSet_keeps | apply vltFull_keeps
        | refine KeepsO.of ?_ (by assumption))
    | dsimp only | split
    | with_reducible (first | refine Keeps.upd ?_ rfl rfl rfl rfl rfl rfl rfl rfl rfl))

theorem forgetKey_keeps {w0 : State} (s : State) (i : Nat) (hK : Keeps w0 s) :
    Keeps w0 (forgetKey s i) := by
  unfold forgetKey
  repeat' (first
    | with_reducible (first
        | assumption | exact Keeps.refl _ | apply dropEntry_keeps | apply vltWrite_keeps)
    | dsimp only | split
    | with_reducible (first | refine Keeps.upd ?_ rfl rfl rfl rfl rfl rfl rfl rfl rfl))

/-! `Machine.ReileOps` -/

theorem cluEvent_keeps {w0 : State} (s : State) (b : Nat) (hK : Keeps w0 s) :
    Keeps w0 (cluEvent s b) := by
  unfold cluEvent
  repeat' (first
    | with_reducible (first
        | assumption | exact Keeps.refl _ | apply event_keeps)
    | dsimp only | split
    | with_reducible (first | refine Keeps.upd ?_ rfl rfl rfl rfl rfl rfl rfl rfl rfl))

theorem setSess_keeps {w0 : State} (s : State) (peer : Nat) (x : Sess) (hK : Keeps w0 s) :
    Keeps w0 (State.setSess s peer x) := by
  unfold State.setSess
  repeat' (first
    | with_reducible (first
        | assumption | exact Keeps.refl _)
    | dsimp only | split
    | with_reducible (first | refine Keeps.upd ?_ rfl rfl rfl rfl rfl rfl rfl rfl rfl))

theorem sendMsg_keeps {w0 : State} (s : State) (peer : Nat) (m : Msg) (hK : Keeps w0 s) :
    Keeps w0 (sendMsg s peer m) := by
  unfold sendMsg
  repeat' (first
    | with_reducible (first
        | assumption | exact Keeps.refl _ | apply emit_keeps | apply setSess_keeps)
    | dsimp only | split
    | with_reducible (first | refine Keeps.upd ?_ rfl rfl rfl rfl rfl rfl rfl rfl rfl))

theorem sendAll_keeps {w0 : State} (s : State) (m : Msg) (hK : Keeps w0 s) :
    Keeps w0 (sendAll s m) := by
  unfold sendAll
  repeat' (first
    | with_reducible (first
        | assumption | exact Keeps.refl _ | apply sendMsg_keeps | apply Keeps.foldl | apply KeepsP.foldl)
    | dsimp only | split
    | with_reducible (first | intro _ | refine Keeps.upd ?_ rfl rfl rfl rfl rfl rfl rfl rfl rfl))

theorem forward_keeps {w0 : State} (s : State) (m : Msg) (hK : Keeps w0 s) :
    Keeps w0 (forward s m) := by
  unfold forward
  repeat' (first
    | with_reducible (first
        | assumption | exact Keeps.refl _ | apply sendMsg_keeps)
    | dsimp only | split
    | with_reducible (first | refine Keeps.upd ?_ rfl rfl rfl rfl rfl rfl rfl rfl rfl))

theorem forwardAbort_keeps {w0 : State} (s : State) (y : Nat) (hK : Keeps w0 s) :
    Keeps w0 (forwardAbort s y) := by
  unfold forwardAbort
  repeat' (first
    | with_reducible (first
        | assumption | exact Keeps.refl _ | apply forward_keeps)
    | dsimp only | split
    | with_reducible (first | refine Keeps.upd ?_ rfl rfl rfl rfl rfl rfl rfl rfl rfl))

theorem cluFlag_keeps {w0 : State} (s : State) (b : Nat) (hK : Keeps w0 s) :
    Keeps w0 (cluFlag s b) := by
  unfold cluFlag
  repeat' (first
    | with_reducible (first
        | assumption | exact Keeps.refl _ | apply cluVec_keeps | apply cluEvent_keeps)
    | dsimp only | split
    | with_reducible (first | refine Keeps.upd ?_ rfl rfl rfl rfl rfl rfl rfl rfl rfl))

theorem unpair_keeps {w0 : State} (s : State) (hK : Keeps w0 s) :
    Keeps w0 (unpair s) := by
  unfold unpair
  repeat' (first
    | with_reducible (first
        | assumption | exact Keeps.refl _ | apply cluFlag_keeps)
    | dsimp only | split
    | with_reducible (first | refine Keeps.upd ?_ rfl rfl rfl rfl rfl rfl rfl rfl rfl))

theorem sendDigests_keeps {w0 : State} (s : State) (hK : Keeps w0 s) :
    Keeps w0 (sendDigests s) := by
  unfold sendDigests
  repeat' (first
    | with_reducible (first
        | assumption | exact Keeps.refl _ | apply forward_keeps | apply Keeps.foldl | apply KeepsP.foldl)
    | dsimp only | split
    | with_reducible (first | intro _ | refine Keeps.upd ?_ rfl rfl rfl rfl rfl rfl rfl rfl rfl))

theorem closeBatch_keeps {w0 : State} (s : State) (hK : Keeps w0 s) :
    Keeps w0 (closeBatch s) := by
  unfold closeBatch
  repeat' (first
    | with_reducible (first
        | assumption | exact Keeps.refl _ | apply sendDigests_keeps)
    | dsimp only | split
    | with_reducible (first | refine Keeps.upd ?_ rfl rfl rfl rfl rfl rfl rfl rfl rfl))

theorem forgetBatch_keeps {w0 : State} (s : State) (first : W64) (n : Nat) (hK : Keeps w0 s) :
    Keeps w0 (forgetBatch s first n) := by
  unfold forgetBatch
  repeat' (first
    | with_reducible (first
        | assumption | exact Keeps.refl _)
    | dsimp only | split
    | with_reducible (first | intro _ | refine Keeps.upd ?_ rfl rfl rfl rfl rfl rfl rfl rfl rfl))

theorem diverge_keeps {w0 : State} (s : State) (first : W64) (hK : Keeps w0 s) :
    Keeps w0 (diverge s first) := by
  unfold diverge
  repeat' (first
    | with_reducible (first
        | assumption | exact Keeps.refl _ | apply event_keeps | apply cluFlag_keeps)
    | dsimp only | split
    | with_reducible (first | refine Keeps.upd ?_ rfl rfl rfl rfl rfl rfl rfl rfl rfl))

theorem digestCheck_keeps {w0 : State} (s : State) (hK : Keeps w0 s) :
    Keeps w0 (digestCheck s) := by
  unfold digestCheck
  repeat' (first
    | with_reducible (first
        | assumption | exact Keeps.refl _ | apply sendMsg_keeps | apply forgetBatch_keeps | apply diverge_keeps
        | apply Keeps.foldl | apply KeepsP.foldl)
    | dsimp only | split
    | with_reducible (first | intro _ | refine Keeps.upd ?_ rfl rfl rfl rfl rfl rfl rfl rfl rfl))

/-! `Machine.Tx` -/

theorem modCtx_keeps {w0 : State} (s : State) (i : Nat) (f : LaneCtx → LaneCtx) (hK : Keeps w0 s) :
    Keeps w0 (State.modCtx s i f) := by
  unfold State.modCtx
  repeat' (first
    | with_reducible (first
        | assumption | exact Keeps.refl _)
    | dsimp only | split
    | with_reducible (first | refine Keeps.upd ?_ rfl rfl rfl rfl rfl rfl rfl rfl rfl))

theorem modEslot_keeps {w0 : State} (s : State) (i : Nat) (f : EngSlot → EngSlot) (hK : Keeps w0 s) :
    Keeps w0 (State.modEslot s i f) := by
  unfold State.modEslot
  repeat' (first
    | with_reducible (first
        | assumption | exact Keeps.refl _)
    | dsimp only | split
    | with_reducible (first | refine Keeps.upd ?_ rfl rfl rfl rfl rfl rfl rfl rfl rfl))

theorem modMac_keeps {w0 : State} (s : State) (e : Nat) (f : Mac → Mac) (hK : Keeps w0 s) :
    Keeps w0 (State.modMac s e f) := by
  unfold State.modMac
  repeat' (first
    | with_reducible (first
        | assumption | exact Keeps.refl _)
    | dsimp only | split
    | with_reducible (first | refine Keeps.upd ?_ rfl rfl rfl rfl rfl rfl rfl rfl rfl))

theorem squashSlot_keeps {w0 : State} (s : State) (y j : Nat) (i : Nat) (hK : Keeps w0 s) :
    Keeps w0 (squashSlot s y j i) := by
  unfold squashSlot
  repeat' (first
    | with_reducible (first
        | assumption | exact Keeps.refl _ | apply modEslot_keeps)
    | dsimp only | split
    | with_reducible (first | intro _ | refine Keeps.upd ?_ rfl rfl rfl rfl rfl rfl rfl rfl rfl))

theorem endJob_keeps {w0 : State} (s : State) (y : Nat) (j : Nat) (x : Job) (hK : Keeps w0 s) :
    Keeps w0 (endJob s y j x) := by
  unfold endJob
  repeat' (first
    | with_reducible (first
        | assumption | exact Keeps.refl _ | apply unreserve_keeps | apply modCtx_keeps | apply squashSlot_keeps)
    | dsimp only | split
    | with_reducible (first | intro _ | refine Keeps.upd ?_ rfl rfl rfl rfl rfl rfl rfl rfl rfl))

theorem dropImages_keeps {w0 : State} (s : State) (l : List Nat) (hK : Keeps w0 s) :
    Keeps w0 (dropImages s l) := by
  unfold dropImages
  repeat' (first
    | with_reducible (first
        | assumption | exact Keeps.refl _ | apply Keeps.foldl | apply KeepsP.foldl)
    | dsimp only | split
    | with_reducible (first | refine Keeps.upd ?_ rfl rfl rfl rfl rfl rfl rfl rfl rfl))

theorem holdImages_keeps {w0 : State} (s : State) (l : List Nat) (hK : Keeps w0 s) :
    Keeps w0 (holdImages s l) := by
  unfold holdImages
  repeat' (first
    | with_reducible (first
        | assumption | exact Keeps.refl _ | apply Keeps.foldl | apply KeepsP.foldl)
    | dsimp only | split
    | with_reducible (first | intro _ | refine Keeps.upd ?_ rfl rfl rfl rfl rfl rfl rfl rfl rfl))

theorem endTx_keeps {w0 : State} (s : State) (y : Nat) (hK : Keeps w0 s) :
    Keeps w0 (endTx s y) := by
  unfold endTx
  repeat' (first
    | with_reducible (first
        | assumption | exact Keeps.refl _ | apply modPlot_keeps | apply modYoke_keeps | apply releaseHandle_keeps
        | apply modCtx_keeps | apply modMac_keeps | apply endJob_keeps | apply dropImages_keeps | apply modPlot_keeps
        | refine modYoke_keeps _ _ (fun _ k => k) ?_ | apply modYoke_keeps | exact wf_nil | apply wf_mwrite | apply wf_mzero
        | apply Keeps.foldl | apply KeepsP.foldl)
    | dsimp only | split
    | with_reducible (first | intro _ | refine Keeps.upd ?_ rfl rfl rfl rfl rfl rfl rfl rfl rfl))

theorem checkStopped_keeps {w0 : State} (s : State) (p : Nat) (hK : Keeps w0 s) :
    Keeps w0 (checkStopped s p) := by
  unfold checkStopped
  repeat' (first
    | with_reducible (first
        | assumption | exact Keeps.refl _ | apply enterState_keeps)
    | dsimp only | split
    | with_reducible (first | refine Keeps.upd ?_ rfl rfl rfl rfl rfl rfl rfl rfl rfl))

theorem noteDigest_keeps {w0 : State} (s : State) (t : Tx) (e : Entry) (hK : Keeps w0 s) :
    Keeps w0 (noteDigest s t e) := by
  unfold noteDigest
  repeat' (first
    | with_reducible (first
        | assumption | exact Keeps.refl _ | apply sendDigests_keeps | apply digestCheck_keeps)
    | dsimp only | split
    | with_reducible (first | intro _ | refine Keeps.upd ?_ rfl rfl rfl rfl rfl rfl rfl rfl rfl))

theorem landed_keeps {w0 : State} (s : State) (r : HopRef) (hK : Keeps w0 s) :
    Keeps w0 (landed s r) := by
  unfold landed
  repeat' (first
    | with_reducible (first
        | assumption | exact Keeps.refl _ | apply modHop_keeps)
    | dsimp only | split
    | with_reducible (first | intro _ | refine Keeps.upd ?_ rfl rfl rfl rfl rfl rfl rfl rfl rfl))

theorem writeEntry_keeps {w0 : State} (s : State) (t : Tx) (e : Entry) (hK : Keeps w0 s) :
    Keeps w0 (writeEntry s t e) := by
  unfold writeEntry
  repeat' (first
    | with_reducible (first
        | assumption | exact Keeps.refl _ | apply complete_keeps | apply ledAct_keeps | apply noteDigest_keeps
        | apply landed_keeps)
    | dsimp only | split
    | with_reducible (first | refine Keeps.upd ?_ rfl rfl rfl rfl rfl rfl rfl rfl rfl))

theorem finishTx_keeps {w0 : State} (s : State) (y : Nat) (st : BitVec 16) (inl : Bytes) (ext : Bool) (hK : Keeps w0 s) :
    Keeps w0 (finishTx s y st inl ext) := by
  unfold finishTx
  repeat' (first
    | with_reducible (first
        | assumption | exact Keeps.refl _ | apply modPlot_keeps | apply endTx_keeps | apply checkStopped_keeps
        | apply noteDigest_keeps | apply writeEntry_keeps | apply modPlot_keeps)
    | dsimp only | split
    | with_reducible (first | intro _ | refine Keeps.upd ?_ rfl rfl rfl rfl rfl rfl rfl rfl rfl))

theorem slotFreed_keeps {w0 : State} (s : State) (i : Nat) (hK : Keeps w0 s) :
    Keeps w0 (slotFreed s i) := by
  unfold slotFreed
  repeat' (first
    | with_reducible (first
        | assumption | exact Keeps.refl _ | apply checkStopped_keeps | apply writeEntry_keeps | apply Keeps.foldl
        | apply KeepsP.foldl)
    | dsimp only | split
    | with_reducible (first | intro _ | refine Keeps.upd ?_ rfl rfl rfl rfl rfl rfl rfl rfl rfl))

theorem endWith_keeps {w0 : State} (s : State) (y : Nat) (st : BitVec 16) (hK : Keeps w0 s) :
    Keeps w0 (endWith s y st) := by
  unfold endWith
  repeat' (first
    | with_reducible (first
        | assumption | exact Keeps.refl _ | apply finishTx_keeps)
    | dsimp only | split
    | with_reducible (first | refine Keeps.upd ?_ rfl rfl rfl rfl rfl rfl rfl rfl rfl))

theorem squashTx_keeps {w0 : State} (s : State) (y : Nat) (hK : Keeps w0 s) :
    Keeps w0 (squashTx s y) := by
  unfold squashTx
  repeat' (first
    | with_reducible (first
        | assumption | exact Keeps.refl _ | apply modPlot_keeps | apply modYoke_keeps | apply forwardAbort_keeps
        | apply endTx_keeps | apply noteDigest_keeps | apply modPlot_keeps | refine modYoke_keeps _ _ (fun _ k => k) ?_
        | apply modYoke_keeps | exact wf_nil | apply wf_mwrite | apply wf_mzero)
    | dsimp only | split
    | with_reducible (first | intro _ | refine Keeps.upd ?_ rfl rfl rfl rfl rfl rfl rfl rfl rfl))

theorem stopCopy_keeps {w0 : State} (s : State) (y : Nat) (hK : Keeps w0 s) :
    Keeps w0 (stopCopy s y) := by
  unfold stopCopy
  repeat' (first
    | with_reducible (first
        | assumption | exact Keeps.refl _ | apply drawn_keeps | apply endWith_keeps | apply squashTx_keeps)
    | dsimp only | split
    | with_reducible (first | refine Keeps.upd ?_ rfl rfl rfl rfl rfl rfl rfl rfl rfl))

theorem yokEvent_keeps {w0 : State} (s : State) (b : Nat) (hK : Keeps w0 s) :
    Keeps w0 (yokEvent s b) := by
  unfold yokEvent
  repeat' (first
    | with_reducible (first
        | assumption | exact Keeps.refl _ | apply event_keeps)
    | dsimp only | split
    | with_reducible (first | refine Keeps.upd ?_ rfl rfl rfl rfl rfl rfl rfl rfl rfl))

theorem retireYoke_keeps {w0 : State} (s : State) (y : Nat) (hK : Keeps w0 s) :
    Keeps w0 (retireYoke s y) := by
  unfold retireYoke
  repeat' (first
    | with_reducible (first
        | assumption | exact Keeps.refl _ | apply modEvent_keeps | apply event_keeps | apply yokEvent_keeps)
    | dsimp only | split
    | with_reducible (first | refine Keeps.upd ?_ rfl rfl rfl rfl rfl rfl rfl rfl rfl))

theorem recordFault_keeps {w0 : State} (s : State) (y kind p : Nat) (hK : Keeps w0 s) :
    Keeps w0 (recordFault s y kind p) := by
  unfold recordFault
  repeat' (first
    | with_reducible (first
        | assumption | exact Keeps.refl _ | apply modEvent_keeps | apply event_keeps | apply forwardAbort_keeps
        | apply yokEvent_keeps)
    | dsimp only | split
    | with_reducible (first | refine Keeps.upd ?_ rfl rfl rfl rfl rfl rfl rfl rfl rfl))

theorem stopYoke_keeps {w0 : State} (s : State) (y : Nat) (hK : Keeps w0 s) :
    Keeps w0 (stopYoke s y) := by
  unfold stopYoke
  repeat' (first
    | with_reducible (first
        | assumption | exact Keeps.refl _ | apply modYoke_keeps | apply retireYoke_keeps
        | refine modYoke_keeps _ _ (fun _ k => k) ?_ | apply modYoke_keeps | exact wf_nil | apply wf_mwrite | apply wf_mzero)
    | dsimp only | split
    | with_reducible (first | intro _ | refine Keeps.upd ?_ rfl rfl rfl rfl rfl rfl rfl rfl rfl))

theorem yokeFault_keeps {w0 : State} (s : State) (y kind : Nat) (hK : Keeps w0 s) :
    Keeps w0 (yokeFault s y kind) := by
  unfold yokeFault
  repeat' (first
    | with_reducible (first
        | assumption | exact Keeps.refl _ | apply endWith_keeps | apply squashTx_keeps | apply recordFault_keeps
        | apply stopYoke_keeps)
    | dsimp only | split
    | with_reducible (first | refine Keeps.upd ?_ rfl rfl rfl rfl rfl rfl rfl rfl rfl))

theorem lateFault_keeps {w0 : State} (s : State) (y kind : Nat) (hK : Keeps w0 s) :
    Keeps w0 (lateFault s y kind) := by
  unfold lateFault
  repeat' (first
    | with_reducible (first
        | assumption | exact Keeps.refl _ | apply recordFault_keeps | apply stopYoke_keeps)
    | dsimp only | split
    | with_reducible (first | refine Keeps.upd ?_ rfl rfl rfl rfl rfl rfl rfl rfl rfl))

theorem startProgram_keeps {w0 : State} (s : State) (y : Nat) (data : Bytes) (hK : Keeps w0 s) :
    Keeps w0 (startProgram s y data) := by
  unfold startProgram
  repeat' (first
    | with_reducible (first
        | assumption | exact Keeps.refl _ | apply modYoke_keeps | refine modYoke_keeps _ _ (fun _ k => k) ?_
        | apply modYoke_keeps | exact wf_nil | apply wf_mwrite | apply wf_mzero)
    | dsimp only | split
    | with_reducible (first | intro _ | refine Keeps.upd ?_ rfl rfl rfl rfl rfl rfl rfl rfl rfl))

/-! `Machine.JobOps` -/

theorem noteByte_keeps {w0 : State} (s : State) (y a : Nat) (hK : Keeps w0 s) :
    Keeps w0 (noteByte s y a) := by
  unfold noteByte
  repeat' (first
    | with_reducible (first
        | assumption | exact Keeps.refl _ | apply modTx_keeps | apply drawn_keeps | apply modTx_keeps)
    | dsimp only | split
    | with_reducible (first | intro _ | refine Keeps.upd ?_ rfl rfl rfl rfl rfl rfl rfl rfl rfl))

theorem benchPut_keeps {w0 : State} (s : State) (y p : Nat) (b : Bytes) (hK : Keeps w0 s) :
    Keeps w0 (benchPut s y p b) := by
  unfold benchPut
  repeat' (first
    | with_reducible (first
        | assumption | exact Keeps.refl _ | apply modYoke_keeps | apply noteByte_keeps
        | refine modYoke_keeps _ _ (fun _ k => k) ?_ | apply modYoke_keeps | exact wf_nil | apply wf_mwrite | apply wf_mzero
        | apply Keeps.foldl | apply KeepsP.foldl)
    | dsimp only | split
    | with_reducible (first | intro _ | refine Keeps.upd ?_ rfl rfl rfl rfl rfl rfl rfl rfl rfl))

theorem txDraw_keeps {w0 : State} (s : State) (y : Nat) (hK : Keeps w0 s) :
    KeepsO w0 (txDraw s y) := by
  unfold txDraw
  repeat' (first
    | with_reducible (first
        | assumption | exact Keeps.refl _ | apply KeepsO.some | exact KeepsO.none | apply KeepsQ.some | exact KeepsQ.none
        | apply modTx_keeps | apply drawn_keeps | apply plotGen_keeps | apply modTx_keeps | apply KeepsO.map1
        | apply KeepsO.map | refine KeepsO.of ?_ (by assumption))
    | dsimp only | split
    | with_reducible (first | intro _ | refine Keeps.upd ?_ rfl rfl rfl rfl rfl rfl rfl rfl rfl))

theorem txRandom_keeps {w0 : State} (s : State) (y j n : Nat) (hK : Keeps w0 s) :
    KeepsQ w0 (txRandom s y j n) := by
  unfold txRandom
  repeat' (first
    | with_reducible (first
        | assumption | exact Keeps.refl _ | apply KeepsO.some | exact KeepsO.none | apply KeepsQ.some | exact KeepsQ.none
        | apply modTx_keeps | apply drawn_keeps | apply txDraw_keeps | apply modTx_keeps | apply KeepsO.map1
        | apply KeepsO.map | refine KeepsO.of ?_ (by assumption) | refine KeepsQ.of ?_ (by assumption))
    | dsimp only | split
    | with_reducible (first | intro _ | refine Keeps.upd ?_ rfl rfl rfl rfl rfl rfl rfl rfl rfl))

theorem tagFailure_keeps {w0 : State} (s : State) (slot : Nat) (hK : Keeps w0 s) :
    Keeps w0 (tagFailure s slot) := by
  unfold tagFailure
  repeat' (first
    | with_reducible (first
        | assumption | exact Keeps.refl _ | apply event_keeps | apply modSlot_keeps | apply dropEntry_keeps)
    | dsimp only | split
    | with_reducible (first | intro _ | refine Keeps.upd ?_ rfl rfl rfl rfl rfl rfl rfl rfl rfl))

theorem useSlot_keeps {w0 : State} (s : State) (slot : Nat) (hK : Keeps w0 s) :
    Keeps w0 (useSlot s slot) := by
  unfold useSlot
  repeat' (first
    | with_reducible (first
        | assumption | exact Keeps.refl _ | apply modSlot_keeps)
    | dsimp only | split
    | with_reducible (first | intro _ | refine Keeps.upd ?_ rfl rfl rfl rfl rfl rfl rfl rfl rfl))

theorem learnGate_keeps {w0 : State} (s : State) (l : Learn) (hK : Keeps w0 s) :
    KeepsP w0 (learnGate s l) := by
  unfold learnGate
  repeat' (first
    | with_reducible (first
        | assumption | exact Keeps.refl _ | apply vltFull_keeps | refine KeepsP.of ?_ (by assumption) | apply KeepsP.fst)
    | dsimp only | split
    | with_reducible (first | apply KeepsP.mk | refine Keeps.upd ?_ rfl rfl rfl rfl rfl rfl rfl rfl rfl))

theorem placeBody_keeps {w0 : State} (s : State) (l : Learn) (hK : Keeps w0 s) :
    KeepsP w0 (placeBody s l) := by
  unfold placeBody
  repeat' (first
    | with_reducible (first
        | assumption | exact Keeps.refl _ | apply drawn_keeps | refine KeepsP.of ?_ (by assumption) | apply KeepsP.fst)
    | dsimp only | split
    | with_reducible (first | apply KeepsP.mk | refine Keeps.upd ?_ rfl rfl rfl rfl rfl rfl rfl rfl rfl))

theorem learnVault_keeps {w0 : State} (s : State) (l : Learn) (st : BitVec 16) (hK : Keeps w0 s) :
    Keeps w0 (learnVault s l st) := by
  unfold learnVault
  repeat' (first
    | with_reducible (first
        | assumption | exact Keeps.refl _ | apply vltWrite_keeps)
    | dsimp only | split
    | with_reducible (first | refine Keeps.upd ?_ rfl rfl rfl rfl rfl rfl rfl rfl rfl))

theorem learnKey_keeps {w0 : State} (s : State) (l : Learn) (hK : Keeps w0 s) :
    KeepsP w0 (learnKey s l) := by
  unfold learnKey
  repeat' (first
    | with_reducible (first
        | assumption | exact Keeps.refl _ | apply learnFast_keeps | apply learnGate_keeps | apply placeBody_keeps
        | apply learnVault_keeps | refine KeepsP.of ?_ (by assumption) | apply KeepsP.fst)
    | dsimp only | split
    | with_reducible (first | apply KeepsP.mk | refine Keeps.upd ?_ rfl rfl rfl rfl rfl rfl rfl rfl rfl))

theorem learnKeyWalk_keeps {w0 : State} (s : State) (l : Learn) (hK : Keeps w0 s) :
    KeepsP w0 (learnKeyWalk s l) := by
  unfold learnKeyWalk
  repeat' (first
    | with_reducible (first
        | assumption | exact Keeps.refl _ | apply learnWalk_keeps | apply learnGate_keeps | apply placeBody_keeps
        | apply learnVault_keeps | refine KeepsP.of ?_ (by assumption) | apply KeepsP.fst)
    | dsimp only | split
    | with_reducible (first | apply KeepsP.mk | refine Keeps.upd ?_ rfl rfl rfl rfl rfl rfl rfl rfl rfl))

theorem queueWalk_keeps {w0 : State} (s : State) (l : Learn) (w : Learner) (hK : Keeps w0 s) :
    Keeps w0 (queueWalk s l w) := by
  unfold queueWalk
  repeat' (first
    | with_reducible (first
        | assumption | exact Keeps.refl _)
    | dsimp only | split
    | with_reducible (first | refine Keeps.upd ?_ rfl rfl rfl rfl rfl rfl rfl rfl rfl))

theorem learnFor_keeps {w0 : State} (s : State) (l : Learn) (w : Learner) (hK : Keeps w0 s) :
    KeepsP w0 (learnFor s l w) := by
  unfold learnFor
  repeat' (first
    | with_reducible (first
        | assumption | exact Keeps.refl _ | apply learnKey_keeps | apply queueWalk_keeps | refine KeepsP.of ?_ (by assumption)
        | apply KeepsP.fst)
    | dsimp only | split
    | with_reducible (first | apply KeepsP.mk | refine Keeps.upd ?_ rfl rfl rfl rfl rfl rfl rfl rfl rfl))

/-! `Machine.HedgeOps` -/

theorem hdgCount_keeps {w0 : State} (s : State) (b : Nat) (hK : Keeps w0 s) :
    Keeps w0 (hdgCount s b) := by
  unfold hdgCount
  repeat' (first
    | with_reducible (first
        | assumption | exact Keeps.refl _)
    | dsimp only | split
    | with_reducible (first | refine Keeps.upd ?_ rfl rfl rfl rfl rfl rfl rfl rfl rfl))

theorem hedgeFault_keeps {w0 : State} (s : State) (cls ty a : Nat) (hK : Keeps w0 s) :
    Keeps w0 (hedgeFault s cls ty a) := by
  unfold hedgeFault
  repeat' (first
    | with_reducible (first
        | assumption | exact Keeps.refl _ | apply modEvent_keeps | apply event_keeps | apply hdgCount_keeps)
    | dsimp only | split
    | with_reducible (first | refine Keeps.upd ?_ rfl rfl rfl rfl rfl rfl rfl rfl rfl))

theorem hedgeCheck_keeps {w0 : State} (s : State) (cls ty a n : Nat) (hK : Keeps w0 s) :
    KeepsP w0 (hedgeCheck s cls ty a n) := by
  unfold hedgeCheck
  repeat' (first
    | with_reducible (first
        | assumption | exact Keeps.refl _ | apply hedgeFault_keeps | refine KeepsP.of ?_ (by assumption) | apply KeepsP.fst)
    | dsimp only | split
    | with_reducible (first | apply KeepsP.mk | refine Keeps.upd ?_ rfl rfl rfl rfl rfl rfl rfl rfl rfl))

end Sys2Proof.Machine
end

