-- ==== Sys2Proof/Laws/KeepsJobs.lean ====
section
/-! SUPPORT. What every effect keeps, function by function: jobs, replay entries and the course of an admin command. -/

namespace Sys2Proof.Machine
set_option linter.unusedVariables false
set_option linter.unusedTactic false
set_option linter.unreachableTactic false
set_option linter.unusedSimpArgs false

/-! `Machine.Ports` -/

theorem portWait_keeps {w0 : State} (s : State) (y : Nat) (hK : Keeps w0 s) :
    Keeps w0 (portWait s y) := by
  unfold portWait
  repeat' (first
    | with_reducible (first
        | assumption | exact Keeps.refl _ | apply modTx_keeps | apply modTx_keeps)
    | dsimp only | split
    | with_reducible (first | intro _ | refine Keeps.upd ?_ rfl rfl rfl rfl rfl rfl rfl rfl rfl))

theorem windowGate_keeps {w0 : State} (s : State) (y e : Nat) (w : Nat × Nat) (k : State → Acc W64) (hK : Keeps w0 s) (h_k : ∀ (a0 : State), Keeps w0 a0 → KeepsA w0 (k a0)) :
    KeepsA w0 (windowGate s y e w k) := by
  unfold windowGate
  repeat' (first
    | with_reducible (first
        | assumption | exact Keeps.refl _ | apply KeepsA.ok | apply KeepsA.trap | apply KeepsA.stop | apply h_k
        | apply portWait_keeps | refine KeepsA.of_ok ?_ (by assumption) | refine KeepsA.of_trap ?_ (by assumption)
        | refine KeepsA.of_stop ?_ (by assumption))
    | dsimp only | split
    | with_reducible (first | intro _ | refine Keeps.upd ?_ rfl rfl rfl rfl rfl rfl rfl rfl rfl))

theorem windowRead_keeps {w0 : State} (s : State) (y : Nat) (t : Tx) (addr : Nat) (hK : Keeps w0 s) :
    KeepsA w0 (windowRead s y t addr) := by
  unfold windowRead
  repeat' (first
    | with_reducible (first
        | assumption | exact Keeps.refl _ | apply KeepsA.ok | apply KeepsA.trap | apply KeepsA.stop | apply windowGate_keeps
        | refine KeepsA.of_ok ?_ (by assumption) | refine KeepsA.of_trap ?_ (by assumption)
        | refine KeepsA.of_stop ?_ (by assumption))
    | dsimp only | split
    | with_reducible (first | intro _ | refine Keeps.upd ?_ rfl rfl rfl rfl rfl rfl rfl rfl rfl))

theorem windowWrite_keeps {w0 : State} (s : State) (y : Nat) (t : Tx) (addr : Nat) (v : W64) (hK : Keeps w0 s) :
    KeepsA w0 (windowWrite s y t addr v) := by
  unfold windowWrite
  repeat' (first
    | with_reducible (first
        | assumption | exact Keeps.refl _ | apply KeepsA.ok | apply KeepsA.trap | apply KeepsA.stop | apply modMac_keeps
        | apply windowGate_keeps | refine KeepsA.of_ok ?_ (by assumption) | refine KeepsA.of_trap ?_ (by assumption)
        | refine KeepsA.of_stop ?_ (by assumption))
    | dsimp only | split
    | with_reducible (first | intro _ | refine Keeps.upd ?_ rfl rfl rfl rfl rfl rfl rfl rfl rfl))

theorem commandWrite_keeps {w0 : State} (s : State) (y : Nat) (t : Tx) (v : W64) (hK : Keeps w0 s) :
    KeepsA w0 (commandWrite s y t v) := by
  unfold commandWrite
  repeat' (first
    | with_reducible (first
        | assumption | exact Keeps.refl _ | apply KeepsA.ok | apply KeepsA.trap | apply KeepsA.stop | apply modMac_keeps
        | apply portWait_keeps | refine KeepsA.of_ok ?_ (by assumption) | refine KeepsA.of_trap ?_ (by assumption)
        | refine KeepsA.of_stop ?_ (by assumption))
    | dsimp only | split
    | with_reducible (first | intro _ | refine Keeps.upd ?_ rfl rfl rfl rfl rfl rfl rfl rfl rfl))

theorem portReadEffect_keeps {w0 : State} (s : State) (t : Tx) (addr : Nat) (hK : Keeps w0 s) :
    Keeps w0 (portReadEffect s t addr) := by
  unfold portReadEffect
  repeat' (first
    | with_reducible (first
        | assumption | exact Keeps.refl _ | apply drawn_keeps | apply modMac_keeps)
    | dsimp only | split
    | with_reducible (first | intro _ | refine Keeps.upd ?_ rfl rfl rfl rfl rfl rfl rfl rfl rfl))

theorem portRead_keeps {w0 : State} (s : State) (y addr n : Nat) (hK : Keeps w0 s) :
    KeepsA w0 (portRead s y addr n) := by
  unfold portRead
  repeat' (first
    | with_reducible (first
        | assumption | exact Keeps.refl _ | apply KeepsA.ok | apply KeepsA.trap | apply KeepsA.stop | apply windowRead_keeps
        | apply portReadEffect_keeps | refine KeepsA.of_ok ?_ (by assumption) | refine KeepsA.of_trap ?_ (by assumption)
        | refine KeepsA.of_stop ?_ (by assumption))
    | dsimp only | split
    | with_reducible (first | refine Keeps.upd ?_ rfl rfl rfl rfl rfl rfl rfl rfl rfl))

theorem portWrite_keeps {w0 : State} (s : State) (y addr n : Nat) (v : W64) (hK : Keeps w0 s) :
    KeepsA w0 (portWrite s y addr n v) := by
  unfold portWrite
  repeat' (first
    | with_reducible (first
        | assumption | exact Keeps.refl _ | apply KeepsA.ok | apply KeepsA.trap | apply KeepsA.stop | apply modTx_keeps
        | apply windowWrite_keeps | apply commandWrite_keeps | apply modTx_keeps | refine KeepsA.of_ok ?_ (by assumption)
        | refine KeepsA.of_trap ?_ (by assumption) | refine KeepsA.of_stop ?_ (by assumption))
    | dsimp only | split
    | with_reducible (first | intro _ | refine Keeps.upd ?_ rfl rfl rfl rfl rfl rfl rfl rfl rfl))

/-! `Machine.EngOps` -/

theorem engCheck_keeps {w0 : State} (s : State) (t : Tx) (d : Bytes) (fault : Bool) (hK : Keeps w0 s) :
    KeepsP w0 (engCheck s t d fault) := by
  unfold engCheck
  repeat' (first
    | with_reducible (first
        | assumption | exact Keeps.refl _ | apply tagFailure_keeps | refine KeepsP.of ?_ (by assumption) | apply KeepsP.fst)
    | dsimp only | split
    | with_reducible (first | apply KeepsP.mk | refine Keeps.upd ?_ rfl rfl rfl rfl rfl rfl rfl rfl rfl))

theorem modJob_keeps {w0 : State} (s : State) (y j : Nat) (f : Job → Job) (hK : Keeps w0 s) :
    Keeps w0 (modJob s y j f) := by
  unfold modJob
  repeat' (first
    | with_reducible (first
        | assumption | exact Keeps.refl _ | apply modTx_keeps | apply modTx_keeps)
    | dsimp only | split
    | with_reducible (first | intro _ | refine Keeps.upd ?_ rfl rfl rfl rfl rfl rfl rfl rfl rfl))

theorem ungateE_keeps {w0 : State} (s : State) (e : Nat) (hK : Keeps w0 s) :
    Keeps w0 (ungateE s e) := by
  unfold ungateE
  repeat' (first
    | with_reducible (first
        | assumption | exact Keeps.refl _)
    | dsimp only | split
    | with_reducible (first | refine Keeps.upd ?_ rfl rfl rfl rfl rfl rfl rfl rfl rfl))

theorem giveSlot_keeps {w0 : State} (s : State) (x : Nat × Nat) (e : Nat) (hK : Keeps w0 s) :
    Keeps w0 (giveSlot s x e) := by
  unfold giveSlot
  repeat' (first
    | with_reducible (first
        | assumption | exact Keeps.refl _ | apply modPlot_keeps | apply modTx_keeps | apply modEslot_keeps
        | apply modMac_keeps | apply modJob_keeps | apply ungateE_keeps | apply modPlot_keeps | apply modTx_keeps)
    | dsimp only | split
    | with_reducible (first | intro _ | refine Keeps.upd ?_ rfl rfl rfl rfl rfl rfl rfl rfl rfl))

theorem giveHalf_keeps {w0 : State} (s : State) (x : Nat × Nat) (hK : Keeps w0 s) :
    Keeps w0 (giveHalf s x) := by
  unfold giveHalf
  repeat' (first
    | with_reducible (first
        | assumption | exact Keeps.refl _ | apply modEslot_keeps | apply modJob_keeps | apply ungateE_keeps)
    | dsimp only | split
    | with_reducible (first | intro _ | refine Keeps.upd ?_ rfl rfl rfl rfl rfl rfl rfl rfl rfl))

theorem arbiter_keeps {w0 : State} (n : Nat) (l : List Nat) (s : State) (hK : Keeps w0 s) : Keeps w0 (arbiter n l s) := by
  induction n generalizing l s with
  | zero => exact hK
  | succ n ih =>
    cases l with
    | nil => exact hK
    | cons p ring =>
      unfold arbiter
      have next : Keeps w0 { s with pke := { s.pke with cursor := ring.headD p } } := Keeps.upd hK rfl rfl rfl rfl rfl rfl rfl rfl rfl
      dsimp only
      split
      · refine ih _ _ ?_
        split
        · exact modPlot_keeps _ _ next
        · exact next
      · split
        · exact ih _ _ (modPlot_keeps _ _ next)
        · split
          · exact giveSlot_keeps _ _ _ hK
          · exact hK

theorem pumpEngines_keeps {w0 : State} (n : Nat) (s : State) (hK : Keeps w0 s) : Keeps w0 (pumpEngines n s) := by
  induction n generalizing s with
  | zero => exact hK
  | succ n ih =>
    have h1 : Keeps w0 (s.pke.splitq.foldl giveHalf s) := Keeps.foldl (fun _ _ k => giveHalf_keeps _ _ k) _ hK
    unfold pumpEngines
    dsimp only
    split
    · exact ih _ (arbiter_keeps _ _ _ h1)
    · exact h1

theorem pumpEng_keeps {w0 : State} (s : State) (hK : Keeps w0 s) :
    Keeps w0 (pumpEng s) := by
  unfold pumpEng
  repeat' (first
    | with_reducible (first
        | assumption | exact Keeps.refl _ | apply drawn_keeps | apply pumpEngines_keeps)
    | dsimp only | split
    | with_reducible (first | refine Keeps.upd ?_ rfl rfl rfl rfl rfl rfl rfl rfl rfl))

theorem dropSlots_keeps {w0 : State} (s : State) (j : Job) (hK : Keeps w0 s) :
    Keeps w0 (dropSlots s j) := by
  unfold dropSlots
  repeat' (first
    | with_reducible (first
        | assumption | exact Keeps.refl _ | apply modEslot_keeps)
    | dsimp only | split
    | with_reducible (first | intro _ | refine Keeps.upd ?_ rfl rfl rfl rfl rfl rfl rfl rfl rfl))

theorem engEnd_keeps {w0 : State} (s : State) (y j : Nat) (st : BitVec 16) (out : Bytes) (hK : Keeps w0 s) :
    Keeps w0 (engEnd s y j st out) := by
  unfold engEnd
  repeat' (first
    | with_reducible (first
        | assumption | exact Keeps.refl _ | apply modJob_keeps | apply pumpEng_keeps | apply dropSlots_keeps)
    | dsimp only | split
    | with_reducible (first | intro _ | refine Keeps.upd ?_ rfl rfl rfl rfl rfl rfl rfl rfl rfl))

theorem pkeEvent_keeps {w0 : State} (s : State) (b : Nat) (hK : Keeps w0 s) :
    Keeps w0 (pkeEvent s b) := by
  unfold pkeEvent
  repeat' (first
    | with_reducible (first
        | assumption | exact Keeps.refl _ | apply event_keeps)
    | dsimp only | split
    | with_reducible (first | refine Keeps.upd ?_ rfl rfl rfl rfl rfl rfl rfl rfl rfl))

theorem countReason_keeps {w0 : State} (s : State) (e reason : Nat) (hK : Keeps w0 s) :
    Keeps w0 (countReason s e reason) := by
  unfold countReason
  repeat' (first
    | with_reducible (first
        | assumption | exact Keeps.refl _)
    | dsimp only | split
    | with_reducible (first | refine Keeps.upd ?_ rfl rfl rfl rfl rfl rfl rfl rfl rfl))

theorem reject_keeps {w0 : State} (s : State) (y j e reason : Nat) (hK : Keeps w0 s) :
    Keeps w0 (reject s y j e reason) := by
  unfold reject
  repeat' (first
    | with_reducible (first
        | assumption | exact Keeps.refl _ | apply engEnd_keeps | apply countReason_keeps)
    | dsimp only | split
    | with_reducible (first | refine Keeps.upd ?_ rfl rfl rfl rfl rfl rfl rfl rfl rfl))

theorem invariantFault_keeps {w0 : State} (s : State) (y j e k : Nat) (p ty : Nat) (hK : Keeps w0 s) :
    Keeps w0 (invariantFault s y j e k p ty) := by
  unfold invariantFault
  repeat' (first
    | with_reducible (first
        | assumption | exact Keeps.refl _ | apply modEvent_keeps | apply event_keeps | apply engEnd_keeps
        | apply pkeEvent_keeps | apply countReason_keeps)
    | dsimp only | split
    | with_reducible (first | refine Keeps.upd ?_ rfl rfl rfl rfl rfl rfl rfl rfl rfl))

/-! `Machine.LaneOps` -/

theorem ungateL_keeps {w0 : State} (s : State) (l : Nat) (hK : Keeps w0 s) :
    Keeps w0 (ungateL s l) := by
  unfold ungateL
  repeat' (first
    | with_reducible (first
        | assumption | exact Keeps.refl _)
    | dsimp only | split
    | with_reducible (first | refine Keeps.upd ?_ rfl rfl rfl rfl rfl rfl rfl rfl rfl))

theorem giveCtx_keeps {w0 : State} (s : State) (y j i : Nat) (hK : Keeps w0 s) :
    Keeps w0 (giveCtx s y j i) := by
  unfold giveCtx
  repeat' (first
    | with_reducible (first
        | assumption | exact Keeps.refl _ | apply modCtx_keeps | apply ungateL_keeps)
    | dsimp only | split
    | with_reducible (first | intro _ | refine Keeps.upd ?_ rfl rfl rfl rfl rfl rfl rfl rfl rfl))

theorem laneEnd1_keeps {w0 : State} (s : State) (y j : Nat) (st : BitVec 16) (out : Bytes) (hK : Keeps w0 s) :
    Keeps w0 (laneEnd1 s y j st out) := by
  unfold laneEnd1
  repeat' (first
    | with_reducible (first
        | assumption | exact Keeps.refl _ | apply modYoke_keeps | apply modCtx_keeps
        | refine modYoke_keeps _ _ (fun _ k => k) ?_ | apply modYoke_keeps | exact wf_nil | apply wf_mwrite | apply wf_mzero)
    | dsimp only | split
    | with_reducible (first | intro _ | refine Keeps.upd ?_ rfl rfl rfl rfl rfl rfl rfl rfl rfl))

theorem endUnknown_keeps {w0 : State} (n : Nat) (s : State) (y : Nat) (hK : Keeps w0 s) : Keeps w0 (endUnknown n s y) := by
  induction n generalizing s with
  | zero => exact hK
  | succ n ih =>
    unfold endUnknown
    split
    · split
      · exact hK
      · exact ih _ (laneEnd1_keeps _ _ _ _ _ hK)
    · exact hK

theorem laneEnd_keeps {w0 : State} (s : State) (y j : Nat) (st : BitVec 16) (out : Bytes) (hK : Keeps w0 s) :
    Keeps w0 (laneEnd s y j st out) := by
  unfold laneEnd
  repeat' (first
    | with_reducible (first
        | assumption | exact Keeps.refl _ | apply laneEnd1_keeps | apply endUnknown_keeps)
    | dsimp only | split
    | with_reducible (first | refine Keeps.upd ?_ rfl rfl rfl rfl rfl rfl rfl rfl rfl))

/-! `Machine.RplOps` -/

theorem rplDrop_keeps {w0 : State} (s : State) (i : Nat) (hK : Keeps w0 s) :
    Keeps w0 (rplDrop s i) := by
  unfold rplDrop
  repeat' (first
    | with_reducible (first
        | assumption | exact Keeps.refl _ | apply modPlot_keeps | apply modPlot_keeps)
    | dsimp only | split
    | with_reducible (first | intro _ | refine Keeps.upd ?_ rfl rfl rfl rfl rfl rfl rfl rfl rfl))

theorem rplRecord_keeps {w0 : State} (s : State) (p : Nat) (fp : BitVec 96) (shared claim : Bool) (hK : Keeps w0 s) :
    KeepsP w0 (rplRecord s p fp shared claim) := by
  unfold rplRecord
  repeat' (first
    | with_reducible (first
        | assumption | exact Keeps.refl _ | apply modPlot_keeps | apply rplDrop_keeps | apply modPlot_keeps
        | refine KeepsP.of ?_ (by assumption) | apply KeepsP.fst)
    | dsimp only | split
    | with_reducible (first | apply KeepsP.mk | intro _ | refine Keeps.upd ?_ rfl rfl rfl rfl rfl rfl rfl rfl rfl))

theorem rplSettle_keeps {w0 : State} (s : State) (p : Nat) (fp : BitVec 96) (keep : Bool) (hK : Keeps w0 s) :
    Keeps w0 (rplSettle s p fp keep) := by
  unfold rplSettle
  repeat' (first
    | with_reducible (first
        | assumption | exact Keeps.refl _ | apply rplDrop_keeps)
    | dsimp only | split
    | with_reducible (first | refine Keeps.upd ?_ rfl rfl rfl rfl rfl rfl rfl rfl rfl))

theorem claimStart_keeps {w0 : State} (s : State) (p : Nat) (dtid : W32) (fp : BitVec 96) (hK : Keeps w0 s) :
    KeepsP w0 (claimStart s p dtid fp) := by
  unfold claimStart
  repeat' (first
    | with_reducible (first
        | assumption | exact Keeps.refl _ | apply sendMsg_keeps | apply rplSettle_keeps | refine KeepsP.of ?_ (by assumption)
        | apply KeepsP.fst)
    | dsimp only | split
    | with_reducible (first | apply KeepsP.mk | refine Keeps.upd ?_ rfl rfl rfl rfl rfl rfl rfl rfl rfl))

/-! `Machine.LaneJobs` -/

theorem laneGate_keeps {w0 : State} (s : State) (y j : Nat) (t : Tx) (d : Bytes) (u : Nat) (ev : LaneEv) (sp : LaneSpec) (hK : Keeps w0 s) :
    KeepsP w0 (laneGate s y j t d u ev sp) := by
  unfold laneGate
  repeat' (first
    | with_reducible (first
        | assumption | exact Keeps.refl _ | apply tagFailure_keeps | apply EJ.use_keeps | refine KeepsP.of ?_ (by assumption)
        | apply KeepsP.fst)
    | dsimp only | split
    | with_reducible (first | apply KeepsP.mk | refine Keeps.upd ?_ rfl rfl rfl rfl rfl rfl rfl rfl rfl))

theorem lanEvent_keeps {w0 : State} (s : State) (b : Nat) (hK : Keeps w0 s) :
    Keeps w0 (lanEvent s b) := by
  unfold lanEvent
  repeat' (first
    | with_reducible (first
        | assumption | exact Keeps.refl _ | apply event_keeps)
    | dsimp only | split
    | with_reducible (first | refine Keeps.upd ?_ rfl rfl rfl rfl rfl rfl rfl rfl rfl))

theorem noteLaneFault_keeps {w0 : State} (s : State) (l kind p ty : Nat) (hK : Keeps w0 s) :
    Keeps w0 (noteLaneFault s l kind p ty) := by
  unfold noteLaneFault
  repeat' (first
    | with_reducible (first
        | assumption | exact Keeps.refl _ | apply modEvent_keeps | apply event_keeps | apply lanEvent_keeps)
    | dsimp only | split
    | with_reducible (first | refine Keeps.upd ?_ rfl rfl rfl rfl rfl rfl rfl rfl rfl))

theorem laneFault_keeps {w0 : State} (s : State) (y l kind p ty : Nat) (hK : Keeps w0 s) :
    Keeps w0 (laneFault s y l kind p ty) := by
  unfold laneFault
  repeat' (first
    | with_reducible (first
        | assumption | exact Keeps.refl _ | apply forwardAbort_keeps | apply endWith_keeps | apply squashTx_keeps
        | apply noteLaneFault_keeps)
    | dsimp only | split
    | with_reducible (first | refine Keeps.upd ?_ rfl rfl rfl rfl rfl rfl rfl rfl rfl))

theorem countUses_keeps {w0 : State} (s : State) (x : LJ) (hK : Keeps w0 s) :
    Keeps w0 (countUses s x) := by
  unfold countUses
  repeat' (first
    | with_reducible (first
        | assumption | exact Keeps.refl _ | apply useSlot_keeps | apply Keeps.foldl | apply KeepsP.foldl)
    | dsimp only | split
    | with_reducible (first | refine Keeps.upd ?_ rfl rfl rfl rfl rfl rfl rfl rfl rfl))

theorem writeSeal_keeps {w0 : State} (s : State) (x : LJ) (v : Option Sealed) (hK : Keeps w0 s) :
    Keeps w0 (writeSeal s x v) := by
  unfold writeSeal
  repeat' (first
    | with_reducible (first
        | assumption | exact Keeps.refl _ | apply modCtx_keeps)
    | dsimp only | split
    | with_reducible (first | intro _ | refine Keeps.upd ?_ rfl rfl rfl rfl rfl rfl rfl rfl rfl))

theorem sharedLearn_keeps {w0 : State} (s : State) (l : Learn) (hK : Keeps w0 s) :
    KeepsP w0 (sharedLearn s l) := by
  unfold sharedLearn
  repeat' (first
    | with_reducible (first
        | assumption | exact Keeps.refl _ | refine KeepsP.of ?_ (by assumption) | apply KeepsP.fst)
    | dsimp only | split
    | with_reducible (first | apply KeepsP.mk | refine Keeps.upd ?_ rfl rfl rfl rfl rfl rfl rfl rfl rfl))

theorem shareOut_keeps {w0 : State} (s : State) (l : Learn) (hK : Keeps w0 s) :
    Keeps w0 (shareOut s l) := by
  unfold shareOut
  repeat' (first
    | with_reducible (first
        | assumption | exact Keeps.refl _ | apply sendMsg_keeps | apply Keeps.foldl | apply KeepsP.foldl)
    | dsimp only | split
    | with_reducible (first | intro _ | refine Keeps.upd ?_ rfl rfl rfl rfl rfl rfl rfl rfl rfl))

theorem importDone_keeps {w0 : State} (s : State) (y j : Nat) (l : Learn) (st : BitVec 16) (hK : Keeps w0 s) :
    Keeps w0 (importDone s y j l st) := by
  unfold importDone
  repeat' (first
    | with_reducible (first
        | assumption | exact Keeps.refl _ | apply unreserve_keeps | apply writeReserved_keeps | apply laneEnd_keeps
        | apply shareOut_keeps)
    | dsimp only | split
    | with_reducible (first | refine Keeps.upd ?_ rfl rfl rfl rfl rfl rfl rfl rfl rfl))

theorem importStart_keeps {w0 : State} (s : State) (x : LJ) (l0 : Learn) (hK : Keeps w0 s) :
    Keeps w0 (importStart s x l0) := by
  unfold importStart
  repeat' (first
    | with_reducible (first
        | assumption | exact Keeps.refl _ | apply KeepsO.some | exact KeepsO.none | apply KeepsQ.some | exact KeepsQ.none
        | apply reserve_keeps | apply plotGen_keeps | apply learnFor_keeps | apply modJob_keeps | apply laneEnd_keeps
        | apply sharedLearn_keeps | apply importDone_keeps | refine KeepsP.of ?_ (by assumption) | apply KeepsP.fst
        | refine KeepsO.of ?_ (by assumption))
    | dsimp only | split
    | with_reducible (first | apply KeepsP.mk | intro _ | refine Keeps.upd ?_ rfl rfl rfl rfl rfl rfl rfl rfl rfl))

theorem derivedLearn_keeps {w0 : State} (s : State) (lane ty : Nat) (l : Learn) (hK : Keeps w0 s) :
    KeepsP w0 (derivedLearn s lane ty l) := by
  unfold derivedLearn
  repeat' (first
    | with_reducible (first
        | assumption | exact Keeps.refl _ | apply learnFast_keeps | apply derivedDone_keeps | apply queueWalk_keeps
        | refine KeepsP.of ?_ (by assumption) | apply KeepsP.fst)
    | dsimp only | split
    | with_reducible (first | apply KeepsP.mk | refine Keeps.upd ?_ rfl rfl rfl rfl rfl rfl rfl rfl rfl))

theorem learnAll_keeps {w0 : State} (lane ty : Nat) (l : List Learn) (s : State) (hK : Keeps w0 s) :
    KeepsP w0 (learnAll lane ty l s) := by
  induction l generalizing s with
  | nil => exact hK
  | cons a l ih =>
    unfold learnAll
    have h := derivedLearn_keeps s lane ty a hK
    split
    · exact ih _ (h.of (by assumption))
    · exact h.of (by assumption)

theorem laneConflict_keeps {w0 : State} (s : State) (x : LJ) (hK : Keeps w0 s) :
    Keeps w0 (laneConflict s x) := by
  unfold laneConflict
  repeat' (first
    | with_reducible (first
        | assumption | exact Keeps.refl _ | apply laneEnd_keeps | apply noteLaneFault_keeps)
    | dsimp only | split
    | with_reducible (first | refine Keeps.upd ?_ rfl rfl rfl rfl rfl rfl rfl rfl rfl))

theorem laneFinish_keeps {w0 : State} (s : State) (x : LJ) (c : Comp) (hK : Keeps w0 s) (hC : KeepsC w0 c) :
    Keeps w0 (laneFinish s x c) := by
  have fault : ∀ t, Keeps w0 t → Keeps w0 (laneFault t x.y (x.u / 8) (faultKind x.ev) x.t.plot (jType x.d)) :=
    fun t h => laneFault_keeps t _ _ _ _ _ h
  have wins : ∀ t v st out, Keeps w0 t → Keeps w0 (laneEnd (writeSeal t x v) x.y x.j st out) :=
    fun t v st out h => laneEnd_keeps _ _ _ _ _ (writeSeal_keeps t x v h)
  unfold laneFinish
  cases c with
  | fin s1 st out sl inv =>
    have hC : Keeps w0 s1 := hC
    dsimp only
    split
    · exact fault _ hC
    · split
      · exact wins _ _ _ _ hC
      · exact laneEnd_keeps _ _ _ _ _ hC
  | derived s1 st out sl ls =>
    have hC : Keeps w0 s1 := hC
    have hL := learnAll_keeps (x.u / 8) (jType x.d) ls s1 hC
    dsimp only
    split
    · exact fault _ hC
    · split
      · exact laneConflict_keeps _ x (hL.of (by assumption))
      · split
        · exact wins _ _ _ _ (hL.of (by assumption))
        · exact laneEnd_keeps _ _ _ _ _ (hL.of (by assumption))
  | exported s1 out pay =>
    have hC : Keeps w0 s1 := hC
    dsimp only
    split
    · exact fault _ hC
    · exact laneEnd_keeps _ _ _ _ _ (writeReserved_keeps _ _ _ _ (reserve_keeps _ hC))
  | learn s1 l inv =>
    have hC : Keeps w0 s1 := hC
    dsimp only
    split
    · exact fault _ hC
    · exact importStart_keeps _ x l hC
  | wait => exact modJob_keeps _ _ _ _ hK
  | conflict s1 ls =>
    have hC : Keeps w0 s1 := hC
    exact laneConflict_keeps _ x (learnAll_keeps _ _ ls s1 hC)

theorem benchNote_keeps {w0 : State} (s : State) (y : Nat) (corr : Bool) (hK : Keeps w0 s) :
    Keeps w0 (benchNote s y corr) := by
  unfold benchNote
  repeat' (first
    | with_reducible (first
        | assumption | exact Keeps.refl _ | apply modYoke_keeps | apply yokEvent_keeps
        | refine modYoke_keeps _ _ (fun _ k => k) ?_ | apply modYoke_keeps | exact wf_nil | apply wf_mwrite | apply wf_mzero)
    | dsimp only | split
    | with_reducible (first | intro _ | refine Keeps.upd ?_ rfl rfl rfl rfl rfl rfl rfl rfl rfl))

theorem runLane_keeps {w0 : State} (ty : Nat) (sp : State → Bytes → Tx → Bytes → Nat → LaneSpec) (comp : State → LJ → Comp) (y j : Nat) (ev : LaneEv) (s : State) (hK : Keeps w0 s) (h_comp : ∀ (a0 : State) (a1 : LJ), Keeps w0 a0 → KeepsC w0 (comp a0 a1)) :
    Keeps w0 (runLane ty sp comp y j ev s) := by
  unfold runLane
  repeat' (first
    | with_reducible (first
        | assumption | exact Keeps.refl _ | apply KeepsC.fin | apply KeepsC.derived | apply KeepsC.exported
        | apply KeepsC.learn | exact KeepsC.wait | apply KeepsC.conflict | apply h_comp | apply yokeFault_keeps
        | apply laneEnd_keeps | apply laneGate_keeps | apply countUses_keeps | apply laneFinish_keeps | apply benchNote_keeps
        | refine KeepsP.of ?_ (by assumption) | apply KeepsP.fst | refine KeepsC.of_fin ?_ (by assumption)
        | refine KeepsC.of_derived ?_ (by assumption) | refine KeepsC.of_exported ?_ (by assumption)
        | refine KeepsC.of_learn ?_ (by assumption) | refine KeepsC.of_conflict ?_ (by assumption))
    | dsimp only | split
    | with_reducible (first | apply KeepsP.mk | intro _ | refine Keeps.upd ?_ rfl rfl rfl rfl rfl rfl rfl rfl rfl))

theorem laneRow_keeps {w0 : State} (ty : Nat) (sp : State → Bytes → Tx → Bytes → Nat → LaneSpec) (comp : State → LJ → Comp) (y : YokeId) (j : JobIx) (ev : LaneEv) (s : State) (hK : Keeps w0 s) (h_comp : ∀ (a0 : State) (a1 : LJ), Keeps w0 a0 → KeepsC w0 (comp a0 a1)) :
    KeepsR w0 (laneRow ty sp comp y j ev s) := by
  unfold laneRow
  repeat' (first
    | with_reducible (first
        | assumption | exact Keeps.refl _ | apply KeepsR.next | exact KeepsR.fault | exact KeepsR.refused | apply KeepsC.fin
        | apply KeepsC.derived | apply KeepsC.exported | apply KeepsC.learn | exact KeepsC.wait | apply KeepsC.conflict
        | apply h_comp | apply runLane_keeps | refine KeepsC.of_fin ?_ (by assumption)
        | refine KeepsC.of_derived ?_ (by assumption) | refine KeepsC.of_exported ?_ (by assumption)
        | refine KeepsC.of_learn ?_ (by assumption) | refine KeepsC.of_conflict ?_ (by assumption))
    | dsimp only | split
    | with_reducible (first | intro _ | refine Keeps.upd ?_ rfl rfl rfl rfl rfl rfl rfl rfl rfl))

theorem sealPin_keeps {w0 : State} (s : State) (x : LJ) (fmt : Nat) (key : Bytes) (pin : List Nat) (hK : Keeps w0 s) :
    KeepsQ w0 (sealPin s x fmt key pin) := by
  have h := txRandom_keeps s x.y x.j 16 hK
  unfold sealPin
  dsimp only
  split
  · intro p e
    cases hr : txRandom s x.y x.j 16 with
    | none => rw [hr] at e; cases e
    | some r => rw [hr] at e; cases e; exact h r hr
  · exact KeepsQ.some hK

theorem derivedLook_keeps {w0 : State} (s : State) (x : LJ) (n : Nat) (name : W64) (hK : Keeps w0 s) :
    KeepsP w0 (derivedLook s x n name) := by
  unfold derivedLook
  repeat' (first
    | with_reducible (first
        | assumption | exact Keeps.refl _ | apply kitLookup_keeps | apply tagFailure_keeps | apply useSlot_keeps
        | refine KeepsP.of ?_ (by assumption) | apply KeepsP.fst)
    | dsimp only | split
    | with_reducible (first | apply KeepsP.mk | refine Keeps.upd ?_ rfl rfl rfl rfl rfl rfl rfl rfl rfl))

theorem deriveKey_keeps {w0 : State} (s : State) (x : LJ) (n : Nat) (name : W64) (attr : W32) (make : Bytes) (hK : Keeps w0 s) :
    KeepsP w0 (deriveKey s x n name attr make) := by
  unfold deriveKey
  repeat' (first
    | with_reducible (first
        | assumption | exact Keeps.refl _ | apply derivedLook_keeps | refine KeepsP.of ?_ (by assumption) | apply KeepsP.fst)
    | dsimp only | split
    | with_reducible (first | apply KeepsP.mk | refine Keeps.upd ?_ rfl rfl rfl rfl rfl rfl rfl rfl rfl))

/-! `Machine.AdmOps` -/

theorem admEntry_keeps {w0 : State} (s : State) (d : Adm) (st : BitVec 16) (inl : Bytes) (ext : Bool) (hK : Keeps w0 s) :
    Keeps w0 (admEntry s d st inl ext) := by
  unfold admEntry
  repeat' (first
    | with_reducible (first
        | assumption | exact Keeps.refl _ | apply complete_keeps | apply landed_keeps | apply admin_keeps)
    | dsimp only | split
    | with_reducible (first | intro _ | refine Keeps.upd ?_ rfl rfl rfl rfl rfl rfl rfl rfl rfl))

theorem endBad_keeps {w0 : State} (n : Nat) (s : State) (hK : Keeps w0 s) : Keeps w0 (endBad n s) := by
  induction n generalizing s with
  | zero => exact hK
  | succ n ih =>
    unfold endBad
    split
    · exact hK
    · split
      · exact hK
      · split
        · exact hK
        · exact ih _ (admEntry_keeps _ _ _ _ _ (Keeps.upd hK rfl rfl rfl rfl rfl rfl rfl rfl rfl))

theorem endFront_keeps {w0 : State} (s : State) (hK : Keeps w0 s) :
    Keeps w0 (endFront s) := by
  unfold endFront
  repeat' (first
    | with_reducible (first
        | assumption | exact Keeps.refl _ | apply endBad_keeps)
    | dsimp only | split
    | with_reducible (first | refine Keeps.upd ?_ rfl rfl rfl rfl rfl rfl rfl rfl rfl))

theorem admEnd_keeps {w0 : State} (s : State) (d : Adm) (st : BitVec 16) (inl : Bytes) (ext : Bool) (hK : Keeps w0 s) :
    Keeps w0 (admEnd s d st inl ext) := by
  unfold admEnd
  repeat' (first
    | with_reducible (first
        | assumption | exact Keeps.refl _ | apply admEntry_keeps | apply endFront_keeps)
    | dsimp only | split
    | with_reducible (first | refine Keeps.upd ?_ rfl rfl rfl rfl rfl rfl rfl rfl rfl))

theorem admOk_keeps {w0 : State} (s : State) (d : Adm) (hK : Keeps w0 s) :
    Keeps w0 (admOk s d) := by
  unfold admOk
  repeat' (first
    | with_reducible (first
        | assumption | exact Keeps.refl _ | apply admEnd_keeps)
    | dsimp only | split
    | with_reducible (first | refine Keeps.upd ?_ rfl rfl rfl rfl rfl rfl rfl rfl rfl))

theorem admFail_keeps {w0 : State} (s : State) (d : Adm) (st : BitVec 16) (detail : Byte) (hK : Keeps w0 s) :
    Keeps w0 (admFail s d st detail) := by
  unfold admFail
  repeat' (first
    | with_reducible (first
        | assumption | exact Keeps.refl _ | apply admEnd_keeps)
    | dsimp only | split
    | with_reducible (first | refine Keeps.upd ?_ rfl rfl rfl rfl rfl rfl rfl rfl rfl))

theorem admResult_keeps {w0 : State} (s : State) (d : Adm) (res : Bytes) (hK : Keeps w0 s) :
    Keeps w0 (admResult s d res) := by
  unfold admResult
  repeat' (first
    | with_reducible (first
        | assumption | exact Keeps.refl _ | apply issueWrite_keeps | apply admEnd_keeps)
    | dsimp only | split
    | with_reducible (first | refine Keeps.upd ?_ rfl rfl rfl rfl rfl rfl rfl rfl rfl))

theorem admin_keeps {w0 : State} (code : BitVec 16) (fallow tamper : Bool) (lcs args plot quorum : State → Adm → Bool) (run : State → Adm → State) (s : State) (hK : Keeps w0 s) (h_run : ∀ (a0 : State) (a1 : Adm), Keeps w0 a0 → Keeps w0 (run a0 a1)) :
    Keeps w0 (admin code fallow tamper lcs args plot quorum run s) := by
  unfold admin
  repeat' (first
    | with_reducible (first
        | assumption | exact Keeps.refl _ | apply h_run | apply admFail_keeps)
    | dsimp only | split
    | with_reducible (first | intro _ | refine Keeps.upd ?_ rfl rfl rfl rfl rfl rfl rfl rfl rfl))

theorem dataFail_keeps {w0 : State} (s : State) (d : Adm) (hK : Keeps w0 s) :
    Keeps w0 (dataFail s d) := by
  unfold dataFail
  repeat' (first
    | with_reducible (first
        | assumption | exact Keeps.refl _ | apply admFail_keeps)
    | dsimp only | split
    | with_reducible (first | refine Keeps.upd ?_ rfl rfl rfl rfl rfl rfl rfl rfl rfl))

theorem requeue_keeps {w0 : State} (s : State) (d : Adm) (hK : Keeps w0 s) :
    Keeps w0 (requeue s d) := by
  unfold requeue
  repeat' (first
    | with_reducible (first
        | assumption | exact Keeps.refl _)
    | dsimp only | split
    | with_reducible (first | refine Keeps.upd ?_ rfl rfl rfl rfl rfl rfl rfl rfl rfl))

theorem admRead_keeps {w0 : State} (s : State) (d : Adm) (n : Nat) (r : HostRead) (run : State → Bytes → State) (hK : Keeps w0 s) (h_run : ∀ (a0 : State) (a1 : Bytes), Keeps w0 a0 → Keeps w0 (run a0 a1)) :
    Keeps w0 (admRead s d n r run) := by
  unfold admRead
  repeat' (first
    | with_reducible (first
        | assumption | exact Keeps.refl _ | apply h_run | apply issueRead_keeps | apply dataFail_keeps | apply requeue_keeps)
    | dsimp only | split
    | with_reducible (first | intro _ | refine Keeps.upd ?_ rfl rfl rfl rfl rfl rfl rfl rfl rfl))

theorem notStandby_keeps {w0 : State} (run : State → Adm → State) (s : State) (d : Adm) (hK : Keeps w0 s) (h_run : ∀ (a0 : State) (a1 : Adm), Keeps w0 a0 → Keeps w0 (run a0 a1)) :
    Keeps w0 (notStandby run s d) := by
  unfold notStandby
  repeat' (first
    | with_reducible (first
        | assumption | exact Keeps.refl _ | apply h_run | apply admFail_keeps)
    | dsimp only | split
    | with_reducible (first | intro _ | refine Keeps.upd ?_ rfl rfl rfl rfl rfl rfl rfl rfl rfl))

theorem forwardData_keeps {w0 : State} (s : State) (d : Adm) (data : Bytes) (hK : Keeps w0 s) :
    Keeps w0 (forwardData s d data) := by
  unfold forwardData
  repeat' (first
    | with_reducible (first
        | assumption | exact Keeps.refl _ | apply forward_keeps)
    | dsimp only | split
    | with_reducible (first | refine Keeps.upd ?_ rfl rfl rfl rfl rfl rfl rfl rfl rfl))

theorem forwardAdmin_keeps {w0 : State} (s : State) (d : Adm) (hK : Keeps w0 s) :
    Keeps w0 (forwardAdmin s d) := by
  unfold forwardAdmin
  repeat' (first
    | with_reducible (first
        | assumption | exact Keeps.refl _ | apply forwardData_keeps)
    | dsimp only | split
    | with_reducible (first | refine Keeps.upd ?_ rfl rfl rfl rfl rfl rfl rfl rfl rfl))

end Sys2Proof.Machine
end

