-- ==== Sys2Proof/Laws/KeepsCores.lean ====
section
/-! SUPPORT. What every effect keeps, function by function: the operands of the cores, the key instructions, key blocks, custodian operations. -/

namespace Sys2Proof.Machine
set_option linter.unusedVariables false
set_option linter.unusedTactic false
set_option linter.unreachableTactic false
set_option linter.unusedSimpArgs false

/-! `Machine.Operands` -/

theorem setCore_keeps {w0 : State} (s : State) (c : CoreId) (k : Core) (hK : Keeps w0 s) :
    Keeps w0 (State.setCore s c k) := by
  unfold State.setCore
  repeat' (first
    | with_reducible (first
        | assumption | exact Keeps.refl _ | apply modYoke_keeps | refine modYoke_keeps _ _ (fun _ k => k) ?_
        | apply modYoke_keeps | exact wf_nil | apply wf_mwrite | apply wf_mzero)
    | dsimp only | split
    | with_reducible (first | intro _ | refine Keeps.upd ?_ rfl rfl rfl rfl rfl rfl rfl rfl rfl))

theorem benchLoad_keeps {w0 : State} (s : State) (y : Nat) (hw : Hw) (a : W64) (n : Nat) (hK : Keeps w0 s) :
    KeepsA w0 (benchLoad s y hw a n) := by
  unfold benchLoad
  repeat' (first
    | with_reducible (first
        | assumption | exact Keeps.refl _ | apply KeepsA.ok | apply KeepsA.trap | apply KeepsA.stop | apply yokeFault_keeps
        | apply portRead_keeps | refine KeepsA.of_ok ?_ (by assumption) | refine KeepsA.of_trap ?_ (by assumption)
        | refine KeepsA.of_stop ?_ (by assumption))
    | dsimp only | split
    | with_reducible (first | refine Keeps.upd ?_ rfl rfl rfl rfl rfl rfl rfl rfl rfl))

theorem benchStore_keeps {w0 : State} (s : State) (y : Nat) (hw : Hw) (a : W64) (n : Nat) (v : W64) (hK : Keeps w0 s) :
    KeepsA w0 (benchStore s y hw a n v) := by
  unfold benchStore
  repeat' (first
    | with_reducible (first
        | assumption | exact Keeps.refl _ | apply KeepsA.ok | apply KeepsA.trap | apply KeepsA.stop | apply yokeFault_keeps
        | apply benchPut_keeps | apply portWrite_keeps | refine KeepsA.of_ok ?_ (by assumption)
        | refine KeepsA.of_trap ?_ (by assumption) | refine KeepsA.of_stop ?_ (by assumption))
    | dsimp only | split
    | with_reducible (first | refine Keeps.upd ?_ rfl rfl rfl rfl rfl rfl rfl rfl rfl))

theorem fabricLoad_keeps {w0 : State} (s : State) (a : W64) (n : Nat) (hK : Keeps w0 s) :
    KeepsA w0 (fabricLoad s a n) := by
  unfold fabricLoad
  repeat' (first
    | with_reducible (first
        | assumption | exact Keeps.refl _ | apply KeepsA.ok | apply KeepsA.trap | apply KeepsA.stop | apply hedgeCheck_keeps
        | refine KeepsP.of ?_ (by assumption) | apply KeepsP.fst | refine KeepsA.of_ok ?_ (by assumption)
        | refine KeepsA.of_trap ?_ (by assumption) | refine KeepsA.of_stop ?_ (by assumption))
    | dsimp only | split
    | with_reducible (first | apply KeepsP.mk | refine Keeps.upd ?_ rfl rfl rfl rfl rfl rfl rfl rfl rfl))

theorem fabricStore_keeps {w0 : State} (s : State) (a : W64) (n : Nat) (v : W64) (hK : Keeps w0 s) :
    KeepsA w0 (fabricStore s a n v) := by
  unfold fabricStore
  dsimp only
  have h1 := hedgeCheck_keeps s 0 1 a.toNat n hK
  split
  · exact hK
  · split
    · exact hK
    · split
      · exact Keeps.updG h1 rfl id (fun h k => ⟨h, k⟩) (fun h => wf_mwrite h _ _) (fun _ => Nat.le_refl _) id (Nat.le_refl _) (Nat.le_refl _) (List.prefix_refl _)
      · exact h1

theorem load_keeps {w0 : State} (s : State) (c : CoreId) (hw : Hw) (a : W64) (n : Nat) (hK : Keeps w0 s) :
    KeepsA w0 (load s c hw a n) := by
  unfold load
  repeat' (first
    | with_reducible (first
        | assumption | exact Keeps.refl _ | apply KeepsA.ok | apply KeepsA.trap | apply KeepsA.stop | apply benchLoad_keeps
        | apply fabricLoad_keeps | refine KeepsA.of_ok ?_ (by assumption) | refine KeepsA.of_trap ?_ (by assumption)
        | refine KeepsA.of_stop ?_ (by assumption))
    | dsimp only | split
    | with_reducible (first | refine Keeps.upd ?_ rfl rfl rfl rfl rfl rfl rfl rfl rfl))

theorem store_keeps {w0 : State} (s : State) (c : CoreId) (hw : Hw) (a : W64) (n : Nat) (v : W64) (hK : Keeps w0 s) :
    KeepsA w0 (store s c hw a n v) := by
  unfold store
  repeat' (first
    | with_reducible (first
        | assumption | exact Keeps.refl _ | apply KeepsA.ok | apply KeepsA.trap | apply KeepsA.stop | apply benchStore_keeps
        | apply fabricStore_keeps | refine KeepsA.of_ok ?_ (by assumption) | refine KeepsA.of_trap ?_ (by assumption)
        | refine KeepsA.of_stop ?_ (by assumption))
    | dsimp only | split
    | with_reducible (first | refine Keeps.upd ?_ rfl rfl rfl rfl rfl rfl rfl rfl rfl))

theorem opval_keeps {w0 : State} (s : State) (c : CoreId) (k : Core) (i : Ins) (signed : Bool) (hK : Keeps w0 s) :
    KeepsA w0 (opval s c k i signed) := by
  unfold opval
  repeat' (first
    | with_reducible (first
        | assumption | exact Keeps.refl _ | apply KeepsA.ok | apply KeepsA.trap | apply KeepsA.stop | apply load_keeps
        | apply KeepsA.bind | refine KeepsA.of_ok ?_ (by assumption) | refine KeepsA.of_trap ?_ (by assumption)
        | refine KeepsA.of_stop ?_ (by assumption))
    | dsimp only | split
    | with_reducible (first | intro _ | refine Keeps.upd ?_ rfl rfl rfl rfl rfl rfl rfl rfl rfl))

theorem takeTrap_keeps {w0 : State} (old s : State) (c : CoreId) (t : Trap) (addr : W32) (hO : Keeps w0 old) (hK : Keeps w0 s) :
    Keeps w0 (takeTrap old s c t addr) := by
  unfold takeTrap
  split <;> dsimp only <;> split
  · exact endWith_keeps _ _ _ hO
  · exact setCore_keeps _ _ _ hO
  · exact Keeps.upd hK rfl rfl rfl rfl rfl rfl rfl rfl rfl
  · exact setCore_keeps _ _ _ hK

theorem marginFlag_keeps {w0 : State} (s : State) (c : CoreId) (hK : Keeps w0 s) :
    Keeps w0 (marginFlag s c) := by
  unfold marginFlag
  repeat' (first
    | with_reducible (first
        | assumption | exact Keeps.refl _ | apply setCore_keeps)
    | dsimp only | split
    | with_reducible (first | refine Keeps.upd ?_ rfl rfl rfl rfl rfl rfl rfl rfl rfl))

theorem watchdog_keeps {w0 : State} (s : State) (c : CoreId) (hK : Keeps w0 s) :
    Keeps w0 (watchdog s c) := by
  unfold watchdog
  repeat' (first
    | with_reducible (first
        | assumption | exact Keeps.refl _ | apply forwardAbort_keeps | apply endWith_keeps)
    | dsimp only | split
    | with_reducible (first | refine Keeps.upd ?_ rfl rfl rfl rfl rfl rfl rfl rfl rfl))

theorem eccNote_keeps {w0 : State} (s : State) (c : CoreId) (hw : Hw) (hK : Keeps w0 s) :
    Keeps w0 (eccNote s c hw) := by
  unfold eccNote
  repeat' (first
    | with_reducible (first
        | assumption | exact Keeps.refl _ | apply modYoke_keeps | apply yokEvent_keeps
        | refine modYoke_keeps _ _ (fun _ k => k) ?_ | apply modYoke_keeps | exact wf_nil | apply wf_mwrite | apply wf_mzero)
    | dsimp only | split
    | with_reducible (first | intro _ | refine Keeps.upd ?_ rfl rfl rfl rfl rfl rfl rfl rfl rfl))

theorem takeEvent_keeps {w0 : State} (s : State) (k : Nat) (hK : Keeps w0 s) :
    Keeps w0 (takeEvent s k) := by
  unfold takeEvent
  repeat' (first
    | with_reducible (first
        | assumption | exact Keeps.refl _)
    | dsimp only | split
    | with_reducible (first | refine Keeps.upd ?_ rfl rfl rfl rfl rfl rfl rfl rfl rfl))

theorem pumpEvents_keeps {w0 : State} (s : State) (hK : Keeps w0 s) :
    Keeps w0 (pumpEvents s) := by
  unfold pumpEvents
  repeat' (first
    | with_reducible (first
        | assumption | exact Keeps.refl _ | apply takeEvent_keeps)
    | dsimp only | split
    | with_reducible (first | refine Keeps.upd ?_ rfl rfl rfl rfl rfl rfl rfl rfl rfl))

theorem addStall_keeps {w0 : State} (s : State) (y : Nat) (hK : Keeps w0 s) :
    Keeps w0 (addStall s y) := by
  unfold addStall
  repeat' (first
    | with_reducible (first
        | assumption | exact Keeps.refl _ | apply modYoke_keeps | apply drawn_keeps
        | refine modYoke_keeps _ _ (fun _ k => k) ?_ | apply modYoke_keeps | exact wf_nil | apply wf_mwrite | apply wf_mzero)
    | dsimp only | split
    | with_reducible (first | intro _ | refine Keeps.upd ?_ rfl rfl rfl rfl rfl rfl rfl rfl rfl))

theorem passBoundary_keeps {w0 : State} (s : State) (c : CoreId) (hK : Keeps w0 s) :
    Keeps w0 (passBoundary s c) := by
  unfold passBoundary
  repeat' (first
    | with_reducible (first
        | assumption | exact Keeps.refl _ | apply modTx_keeps | apply pumpEvents_keeps | apply addStall_keeps
        | apply modTx_keeps)
    | dsimp only | split
    | with_reducible (first | intro _ | refine Keeps.upd ?_ rfl rfl rfl rfl rfl rfl rfl rfl rfl))

theorem runBody_keeps {w0 : State} (c : CoreId) (hw : Hw) (ext : Bool) (body : State → Core → Acc Done) (s0 : State) (hK : Keeps w0 s0) (h_body : ∀ (a0 : State) (a1 : Core), Keeps w0 a0 → KeepsA w0 (body a0 a1)) :
    Keeps w0 (runBody c hw ext body s0) := by
  unfold runBody
  repeat' (first
    | with_reducible (first
        | assumption | exact Keeps.refl _ | apply KeepsA.ok | apply KeepsA.trap | apply KeepsA.stop | apply h_body
        | apply hedgeCheck_keeps | apply setCore_keeps | apply takeTrap_keeps | apply passBoundary_keeps
        | refine KeepsP.of ?_ (by assumption) | apply KeepsP.fst | refine KeepsA.of_ok ?_ (by assumption)
        | refine KeepsA.of_trap ?_ (by assumption) | refine KeepsA.of_stop ?_ (by assumption))
    | dsimp only | split
    | with_reducible (first | apply KeepsP.mk | intro _ | refine Keeps.upd ?_ rfl rfl rfl rfl rfl rfl rfl rfl rfl))

theorem stopAtBoundary_keeps {w0 : State} (s : State) (z0 : CoreId) (hK : Keeps w0 s) :
    Keeps w0 (stopAtBoundary s z0) := by
  unfold stopAtBoundary
  repeat' (first
    | with_reducible (first
        | assumption | exact Keeps.refl _ | apply stopCopy_keeps)
    | dsimp only | split
    | with_reducible (first | refine Keeps.upd ?_ rfl rfl rfl rfl rfl rfl rfl rfl rfl))

theorem fetchUnc_keeps {w0 : State} (s : State) (hw : Hw) (z0 : CoreId) (hK : Keeps w0 s) :
    KeepsO w0 (fetchUnc s hw z0) := by
  unfold fetchUnc
  repeat' (first
    | with_reducible (first
        | assumption | exact Keeps.refl _ | apply KeepsO.some | exact KeepsO.none | apply KeepsQ.some | exact KeepsQ.none
        | apply yokeFault_keeps | refine KeepsO.of ?_ (by assumption))
    | dsimp only | split
    | with_reducible (first | refine Keeps.upd ?_ rfl rfl rfl rfl rfl rfl rfl rfl rfl))

theorem atBoundary_keeps {w0 : State} (c : CoreId) (hw : Hw) (ext : Bool) (body : State → Core → Acc Done) (s : State) (hK : Keeps w0 s) (h_body : ∀ (a0 : State) (a1 : Core), Keeps w0 a0 → KeepsA w0 (body a0 a1)) :
    Keeps w0 (atBoundary c hw ext body s) := by
  unfold atBoundary
  repeat' (first
    | with_reducible (first
        | assumption | exact Keeps.refl _ | apply KeepsO.some | exact KeepsO.none | apply KeepsQ.some | exact KeepsQ.none
        | apply KeepsA.ok | apply KeepsA.trap | apply KeepsA.stop | apply h_body | apply marginFlag_keeps
        | apply eccNote_keeps | apply runBody_keeps | apply fetchUnc_keeps | refine KeepsO.of ?_ (by assumption)
        | refine KeepsA.of_ok ?_ (by assumption) | refine KeepsA.of_trap ?_ (by assumption)
        | refine KeepsA.of_stop ?_ (by assumption))
    | dsimp only | split
    | with_reducible (first | intro _ | refine Keeps.upd ?_ rfl rfl rfl rfl rfl rfl rfl rfl rfl))

theorem pastDeadline_keeps {w0 : State} (c : CoreId) (hw : Hw) (ext : Bool) (body : State → Core → Acc Done) (s : State) (hK : Keeps w0 s) (h_body : ∀ (a0 : State) (a1 : Core), Keeps w0 a0 → KeepsA w0 (body a0 a1)) :
    Keeps w0 (pastDeadline c hw ext body s) := by
  unfold pastDeadline
  repeat' (first
    | with_reducible (first
        | assumption | exact Keeps.refl _ | apply KeepsA.ok | apply KeepsA.trap | apply KeepsA.stop | apply h_body
        | apply watchdog_keeps | apply atBoundary_keeps | refine KeepsA.of_ok ?_ (by assumption)
        | refine KeepsA.of_trap ?_ (by assumption) | refine KeepsA.of_stop ?_ (by assumption))
    | dsimp only | split
    | with_reducible (first | intro _ | refine Keeps.upd ?_ rfl rfl rfl rfl rfl rfl rfl rfl rfl))

theorem faultAfter_keeps {w0 : State} (c : CoreId) (hw : Hw) (finish : Bool) (s : State) (hK : Keeps w0 s) :
    Keeps w0 (faultAfter c hw finish s) := by
  unfold faultAfter
  repeat' (first
    | with_reducible (first
        | assumption | exact Keeps.refl _ | apply KeepsO.some | exact KeepsO.none | apply KeepsQ.some | exact KeepsQ.none
        | apply drawn_keeps | apply lateFault_keeps | apply fetchUnc_keeps | apply finish_keeps
        | refine KeepsO.of ?_ (by assumption))
    | dsimp only | split
    | with_reducible (first | refine Keeps.upd ?_ rfl rfl rfl rfl rfl rfl rfl rfl rfl))

theorem runIns_keeps {w0 : State} (c : CoreId) (hw : Hw) (ext finish : Bool) (body : State → Core → Acc Done) (s : State) (hK : Keeps w0 s) (h_body : ∀ (a0 : State) (a1 : Core), Keeps w0 a0 → KeepsA w0 (body a0 a1)) :
    Keeps w0 (runIns c hw ext finish body s) := by
  unfold runIns
  repeat' (first
    | with_reducible (first
        | assumption | exact Keeps.refl _ | apply KeepsA.ok | apply KeepsA.trap | apply KeepsA.stop | apply h_body
        | apply stopAtBoundary_keeps | apply atBoundary_keeps | apply pastDeadline_keeps | apply faultAfter_keeps
        | apply finish_keeps | refine KeepsA.of_ok ?_ (by assumption) | refine KeepsA.of_trap ?_ (by assumption)
        | refine KeepsA.of_stop ?_ (by assumption))
    | dsimp only | split
    | with_reducible (first | intro _ | refine Keeps.upd ?_ rfl rfl rfl rfl rfl rfl rfl rfl rfl))

/-! `Machine.TillerKeys` -/

theorem keyIns_keeps {w0 : State} (c : CoreId) (i : Ins) (sub fmt finish reads : Bool) (body : State → Nat → Tx → Core → Acc Done) (s : State) (hK : Keeps w0 s) (h_body : ∀ (a0 : State) (a1 : Nat) (a2 : Tx) (a3 : Core), Keeps w0 a0 → KeepsA w0 (body a0 a1 a2 a3)) :
    KeepsR w0 (keyIns c i sub fmt finish reads body s) := by
  unfold keyIns
  repeat' (first
    | with_reducible (first
        | assumption | exact Keeps.refl _ | apply KeepsA.ok | apply KeepsA.trap | apply KeepsA.stop | apply KeepsR.next
        | exact KeepsR.fault | exact KeepsR.refused | apply h_body | apply runIns_keeps | apply finish_keeps
        | refine KeepsA.of_ok ?_ (by assumption) | refine KeepsA.of_trap ?_ (by assumption)
        | refine KeepsA.of_stop ?_ (by assumption))
    | dsimp only | split
    | with_reducible (first | intro _ | refine Keeps.upd ?_ rfl rfl rfl rfl rfl rfl rfl rfl rfl))

theorem record_keeps {w0 : State} (s : State) (y : Nat) (hw : Hw) (a : W64) (n align : Nat) (l : List Region) (hK : Keeps w0 s) :
    KeepsA w0 (record s y hw a n align l) := by
  unfold record
  repeat' (first
    | with_reducible (first
        | assumption | exact Keeps.refl _ | apply KeepsA.ok | apply KeepsA.trap | apply KeepsA.stop | apply yokeFault_keeps
        | refine KeepsA.of_ok ?_ (by assumption) | refine KeepsA.of_trap ?_ (by assumption)
        | refine KeepsA.of_stop ?_ (by assumption))
    | dsimp only | split
    | with_reducible (first | refine Keeps.upd ?_ rfl rfl rfl rfl rfl rfl rfl rfl rfl))

theorem agree_keeps {w0 : State} (s : State) (y : Nat) (hw : Hw) (kind : Nat) (k : State → Acc Done) (hK : Keeps w0 s) (h_k : ∀ (a0 : State), Keeps w0 a0 → KeepsA w0 (k a0)) :
    KeepsA w0 (agree s y hw kind k) := by
  unfold agree
  repeat' (first
    | with_reducible (first
        | assumption | exact Keeps.refl _ | apply KeepsA.ok | apply KeepsA.trap | apply KeepsA.stop | apply h_k
        | apply yokeFault_keeps | refine KeepsA.of_ok ?_ (by assumption) | refine KeepsA.of_trap ?_ (by assumption)
        | refine KeepsA.of_stop ?_ (by assumption))
    | dsimp only | split
    | with_reducible (first | intro _ | refine Keeps.upd ?_ rfl rfl rfl rfl rfl rfl rfl rfl rfl))

theorem doneFree_keeps {w0 : State} (s : State) (k : Core) (base : Nat) (hK : Keeps w0 s) :
    KeepsA w0 (doneFree s k base) := by
  unfold doneFree
  repeat' (first
    | with_reducible (first
        | assumption | exact Keeps.refl _ | apply KeepsA.ok | apply KeepsA.trap | apply KeepsA.stop | apply drawn_keeps
        | refine KeepsA.of_ok ?_ (by assumption) | refine KeepsA.of_trap ?_ (by assumption)
        | refine KeepsA.of_stop ?_ (by assumption))
    | dsimp only | split
    | with_reducible (first | refine Keeps.upd ?_ rfl rfl rfl rfl rfl rfl rfl rfl rfl))

theorem waitFor_keeps {w0 : State} (s : State) (y : Nat) (w : WaitR) (hK : Keeps w0 s) :
    KeepsA w0 (waitFor s y w) := by
  unfold waitFor
  repeat' (first
    | with_reducible (first
        | assumption | exact Keeps.refl _ | apply KeepsA.ok | apply KeepsA.trap | apply KeepsA.stop | apply modTx_keeps
        | apply modTx_keeps | refine KeepsA.of_ok ?_ (by assumption) | refine KeepsA.of_trap ?_ (by assumption)
        | refine KeepsA.of_stop ?_ (by assumption))
    | dsimp only | split
    | with_reducible (first | intro _ | refine Keeps.upd ?_ rfl rfl rfl rfl rfl rfl rfl rfl rfl))

theorem hitResult_keeps {w0 : State} (s : State) (y p : Nat) (name : W64) (hK : Keeps w0 s) :
    KeepsP w0 (hitResult s y p name) := by
  unfold hitResult
  repeat' (first
    | with_reducible (first
        | assumption | exact Keeps.refl _ | apply takeHandle_keeps | apply kitLookup_keeps
        | refine KeepsP.of ?_ (by assumption) | apply KeepsP.fst)
    | dsimp only | split
    | with_reducible (first | apply KeepsP.mk | refine Keeps.upd ?_ rfl rfl rfl rfl rfl rfl rfl rfl rfl))

theorem gotName_keeps {w0 : State} (s : State) (y : Nat) (name : W64) (r : BitVec 16 × Nat) (hK : Keeps w0 s) :
    Keeps w0 (gotName s y name r) := by
  unfold gotName
  repeat' (first
    | with_reducible (first
        | assumption | exact Keeps.refl _ | apply modTx_keeps | apply modTx_keeps)
    | dsimp only | split
    | with_reducible (first | intro _ | refine Keeps.upd ?_ rfl rfl rfl rfl rfl rfl rfl rfl rfl))

theorem findName_keeps {w0 : State} (s : State) (y p : Nat) (name : W64) (hK : Keeps w0 s) :
    KeepsP w0 (findName s y p name) := by
  unfold findName
  repeat' (first
    | with_reducible (first
        | assumption | exact Keeps.refl _ | apply hitResult_keeps | apply gotName_keeps | refine KeepsP.of ?_ (by assumption)
        | apply KeepsP.fst)
    | dsimp only | split
    | with_reducible (first | apply KeepsP.mk | intro _ | refine Keeps.upd ?_ rfl rfl rfl rfl rfl rfl rfl rfl rfl))

theorem findAll_keeps {w0 : State} (s : State) (y p : Nat) (k : Core) (n0 : W64) (n1 : Option W64) (hK : Keeps w0 s) :
    KeepsA w0 (findAll s y p k n0 n1) := by
  unfold findAll
  repeat' (first
    | with_reducible (first
        | assumption | exact Keeps.refl _ | apply KeepsA.ok | apply KeepsA.trap | apply KeepsA.stop | apply modTx_keeps
        | apply doneFree_keeps | apply waitFor_keeps | apply findName_keeps | apply modTx_keeps
        | refine KeepsP.of ?_ (by assumption) | apply KeepsP.fst | refine KeepsA.of_ok ?_ (by assumption)
        | refine KeepsA.of_trap ?_ (by assumption) | refine KeepsA.of_stop ?_ (by assumption))
    | dsimp only | split
    | with_reducible (first | apply KeepsP.mk | intro _ | refine Keeps.upd ?_ rfl rfl rfl rfl rfl rfl rfl rfl rfl))

theorem execKfnd_keeps {w0 : State} (c : CoreId) (i : Ins) (s : State) (hK : Keeps w0 s) :
    KeepsR w0 (execKfnd c i s) := by
  unfold execKfnd
  repeat' (first
    | with_reducible (first
        | assumption | exact Keeps.refl _ | apply KeepsA.ok | apply KeepsA.trap | apply KeepsA.stop | apply KeepsR.next
        | exact KeepsR.fault | exact KeepsR.refused | apply keyIns_keeps | apply record_keeps | apply agree_keeps
        | apply findAll_keeps | refine KeepsA.of_ok ?_ (by assumption) | refine KeepsA.of_trap ?_ (by assumption)
        | refine KeepsA.of_stop ?_ (by assumption))
    | dsimp only | split
    | with_reducible (first | intro _ | refine Keeps.upd ?_ rfl rfl rfl rfl rfl rfl rfl rfl rfl))

theorem reloadDone_keeps {w0 : State} (s : State) (y : Nat) (name : W64) (st : BitVec 16) (hK : Keeps w0 s) :
    Keeps w0 (reloadDone s y name st) := by
  unfold reloadDone
  repeat' (first
    | with_reducible (first
        | assumption | exact Keeps.refl _ | apply modTx_keeps | apply hitResult_keeps | apply gotName_keeps
        | apply modTx_keeps | refine KeepsP.of ?_ (by assumption) | apply KeepsP.fst)
    | dsimp only | split
    | with_reducible (first | apply KeepsP.mk | intro _ | refine Keeps.upd ?_ rfl rfl rfl rfl rfl rfl rfl rfl rfl))

theorem reload_keeps {w0 : State} (s : State) (y : Nat) (authOk : Bool) (hK : Keeps w0 s) :
    Keeps w0 (reload s y authOk) := by
  unfold reload
  repeat' (first
    | with_reducible (first
        | assumption | exact Keeps.refl _ | apply modTx_keeps | apply event_keeps | apply learnFast_keeps
        | apply queueWalk_keeps | apply reloadDone_keeps | apply modTx_keeps | refine KeepsP.of ?_ (by assumption)
        | apply KeepsP.fst)
    | dsimp only | split
    | with_reducible (first | apply KeepsP.mk | intro _ | refine Keeps.upd ?_ rfl rfl rfl rfl rfl rfl rfl rfl rfl))

theorem execVaultReloadComplete_keeps {w0 : State} (y : YokeId) (authOk : Bool) (s : State) (hK : Keeps w0 s) :
    KeepsR w0 (execVaultReloadComplete y authOk s) := by
  unfold execVaultReloadComplete
  repeat' (first
    | with_reducible (first
        | assumption | exact Keeps.refl _ | apply KeepsR.next | exact KeepsR.fault | exact KeepsR.refused | apply reload_keeps)
    | dsimp only | split
    | with_reducible (first | refine Keeps.upd ?_ rfl rfl rfl rfl rfl rfl rfl rfl rfl))

theorem descriptor_keeps {w0 : State} (s : State) (y : Nat) (hw : Hw) (a : W64) (hK : Keeps w0 s) :
    KeepsA w0 (descriptor s y hw a) := by
  unfold descriptor
  repeat' (first
    | with_reducible (first
        | assumption | exact Keeps.refl _ | apply KeepsA.ok | apply KeepsA.trap | apply KeepsA.stop | apply record_keeps
        | apply KeepsA.bind | refine KeepsA.of_ok ?_ (by assumption) | refine KeepsA.of_trap ?_ (by assumption)
        | refine KeepsA.of_stop ?_ (by assumption))
    | dsimp only | split
    | with_reducible (first | intro _ | refine Keeps.upd ?_ rfl rfl rfl rfl rfl rfl rfl rfl rfl))

theorem startLane_keeps {w0 : State} (s : State) (y : Nat) (t : Tx) (k : Core) (d : Bytes) (u : Nat) (hK : Keeps w0 s) :
    KeepsA w0 (startLane s y t k d u) := by
  unfold startLane
  repeat' (first
    | with_reducible (first
        | assumption | exact Keeps.refl _ | apply KeepsA.ok | apply KeepsA.trap | apply KeepsA.stop | apply modTx_keeps
        | apply giveCtx_keeps | apply endUnknown_keeps | apply laneEnd_keeps | apply doneFree_keeps | apply modTx_keeps
        | refine KeepsA.of_ok ?_ (by assumption) | refine KeepsA.of_trap ?_ (by assumption)
        | refine KeepsA.of_stop ?_ (by assumption))
    | dsimp only | split
    | with_reducible (first | intro _ | refine Keeps.upd ?_ rfl rfl rfl rfl rfl rfl rfl rfl rfl))

theorem execLjob_keeps {w0 : State} (c : CoreId) (i : Ins) (s : State) (hK : Keeps w0 s) :
    KeepsR w0 (execLjob c i s) := by
  unfold execLjob
  repeat' (first
    | with_reducible (first
        | assumption | exact Keeps.refl _ | apply KeepsA.ok | apply KeepsA.trap | apply KeepsA.stop | apply KeepsR.next
        | exact KeepsR.fault | exact KeepsR.refused | apply modTx_keeps | apply modCtx_keeps | apply keyIns_keeps
        | apply agree_keeps | apply waitFor_keeps | apply descriptor_keeps | apply startLane_keeps | apply modTx_keeps
        | refine KeepsA.of_ok ?_ (by assumption) | refine KeepsA.of_trap ?_ (by assumption)
        | refine KeepsA.of_stop ?_ (by assumption))
    | dsimp only | split
    | with_reducible (first | intro _ | refine Keeps.upd ?_ rfl rfl rfl rfl rfl rfl rfl rfl rfl))

theorem startEngine_keeps {w0 : State} (s : State) (y : Nat) (t : Tx) (k : Core) (d : Bytes) (hw : Hw) (hK : Keeps w0 s) :
    KeepsA w0 (startEngine s y t k d hw) := by
  unfold startEngine
  repeat' (first
    | with_reducible (first
        | assumption | exact Keeps.refl _ | apply KeepsA.ok | apply KeepsA.trap | apply KeepsA.stop | apply modTx_keeps
        | apply engCheck_keeps | apply pumpEng_keeps | apply waitFor_keeps | apply modTx_keeps
        | refine KeepsP.of ?_ (by assumption) | apply KeepsP.fst | refine KeepsA.of_ok ?_ (by assumption)
        | refine KeepsA.of_trap ?_ (by assumption) | refine KeepsA.of_stop ?_ (by assumption))
    | dsimp only | split
    | with_reducible (first | apply KeepsP.mk | intro _ | refine Keeps.upd ?_ rfl rfl rfl rfl rfl rfl rfl rfl rfl))

theorem execPjob_keeps {w0 : State} (c : CoreId) (i : Ins) (s : State) (hK : Keeps w0 s) :
    KeepsR w0 (execPjob c i s) := by
  unfold execPjob
  repeat' (first
    | with_reducible (first
        | assumption | exact Keeps.refl _ | apply KeepsA.ok | apply KeepsA.trap | apply KeepsA.stop | apply KeepsR.next
        | exact KeepsR.fault | exact KeepsR.refused | apply keyIns_keeps | apply agree_keeps | apply doneFree_keeps
        | apply descriptor_keeps | apply startEngine_keeps | refine KeepsA.of_ok ?_ (by assumption)
        | refine KeepsA.of_trap ?_ (by assumption) | refine KeepsA.of_stop ?_ (by assumption))
    | dsimp only | split
    | with_reducible (first | intro _ | refine Keeps.upd ?_ rfl rfl rfl rfl rfl rfl rfl rfl rfl))

theorem collect_keeps {w0 : State} (s : State) (y : Nat) (hw : Hw) (k : Core) (j : Nat) (x : Job) (hK : Keeps w0 s) :
    KeepsA w0 (collect s y hw k j x) := by
  unfold collect
  repeat' (first
    | with_reducible (first
        | assumption | exact Keeps.refl _ | apply KeepsA.ok | apply KeepsA.trap | apply KeepsA.stop | apply modTx_keeps
        | apply benchPut_keeps | apply agree_keeps | apply doneFree_keeps | apply modTx_keeps
        | refine KeepsA.of_ok ?_ (by assumption) | refine KeepsA.of_trap ?_ (by assumption)
        | refine KeepsA.of_stop ?_ (by assumption))
    | dsimp only | split
    | with_reducible (first | intro _ | refine Keeps.upd ?_ rfl rfl rfl rfl rfl rfl rfl rfl rfl))

theorem waitJob_keeps {w0 : State} (s : State) (y : Nat) (hw : Hw) (t : Tx) (k : Core) (v : Nat) (hK : Keeps w0 s) :
    KeepsA w0 (waitJob s y hw t k v) := by
  unfold waitJob
  repeat' (first
    | with_reducible (first
        | assumption | exact Keeps.refl _ | apply KeepsA.ok | apply KeepsA.trap | apply KeepsA.stop | apply waitFor_keeps
        | apply collect_keeps | refine KeepsA.of_ok ?_ (by assumption) | refine KeepsA.of_trap ?_ (by assumption)
        | refine KeepsA.of_stop ?_ (by assumption))
    | dsimp only | split
    | with_reducible (first | refine Keeps.upd ?_ rfl rfl rfl rfl rfl rfl rfl rfl rfl))

theorem execWjob_keeps {w0 : State} (c : CoreId) (i : Ins) (s : State) (hK : Keeps w0 s) :
    KeepsR w0 (execWjob c i s) := by
  unfold execWjob
  repeat' (first
    | with_reducible (first
        | assumption | exact Keeps.refl _ | apply KeepsA.ok | apply KeepsA.trap | apply KeepsA.stop | apply KeepsR.next
        | exact KeepsR.fault | exact KeepsR.refused | apply keyIns_keeps | apply record_keeps | apply waitFor_keeps
        | apply collect_keeps | apply waitJob_keeps | refine KeepsA.of_ok ?_ (by assumption)
        | refine KeepsA.of_trap ?_ (by assumption) | refine KeepsA.of_stop ?_ (by assumption))
    | dsimp only | split
    | with_reducible (first | intro _ | refine Keeps.upd ?_ rfl rfl rfl rfl rfl rfl rfl rfl rfl))

theorem execRand_keeps {w0 : State} (c : CoreId) (i : Ins) (s : State) (hK : Keeps w0 s) :
    KeepsR w0 (execRand c i s) := by
  unfold execRand
  repeat' (first
    | with_reducible (first
        | assumption | exact Keeps.refl _ | apply KeepsO.some | exact KeepsO.none | apply KeepsQ.some | exact KeepsQ.none
        | apply KeepsA.ok | apply KeepsA.trap | apply KeepsA.stop | apply KeepsR.next | exact KeepsR.fault
        | exact KeepsR.refused | apply benchPut_keeps | apply txRandom_keeps | apply keyIns_keeps | apply record_keeps
        | apply agree_keeps | apply doneFree_keeps | apply waitFor_keeps | refine KeepsQ.of ?_ (by assumption)
        | refine KeepsA.of_ok ?_ (by assumption) | refine KeepsA.of_trap ?_ (by assumption)
        | refine KeepsA.of_stop ?_ (by assumption))
    | dsimp only | split
    | with_reducible (first | intro _ | refine Keeps.upd ?_ rfl rfl rfl rfl rfl rfl rfl rfl rfl))

theorem rplyDone_keeps {w0 : State} (s : State) (y : Nat) (k : Core) (st : BitVec 16) (hK : Keeps w0 s) :
    KeepsA w0 (rplyDone s y k st) := by
  unfold rplyDone
  repeat' (first
    | with_reducible (first
        | assumption | exact Keeps.refl _ | apply KeepsA.ok | apply KeepsA.trap | apply KeepsA.stop | apply modTx_keeps
        | apply doneFree_keeps | apply modTx_keeps | refine KeepsA.of_ok ?_ (by assumption)
        | refine KeepsA.of_trap ?_ (by assumption) | refine KeepsA.of_stop ?_ (by assumption))
    | dsimp only | split
    | with_reducible (first | intro _ | refine Keeps.upd ?_ rfl rfl rfl rfl rfl rfl rfl rfl rfl))

theorem replay_keeps {w0 : State} (s : State) (y : Nat) (t : Tx) (k : Core) (fp : BitVec 96) (shared : Bool) (hK : Keeps w0 s) :
    KeepsA w0 (replay s y t k fp shared) := by
  unfold replay
  repeat' (first
    | with_reducible (first
        | assumption | exact Keeps.refl _ | apply KeepsA.ok | apply KeepsA.trap | apply KeepsA.stop | apply drawn_keeps
        | apply rplRecord_keeps | apply claimStart_keeps | apply waitFor_keeps | apply rplyDone_keeps
        | refine KeepsP.of ?_ (by assumption) | apply KeepsP.fst | refine KeepsA.of_ok ?_ (by assumption)
        | refine KeepsA.of_trap ?_ (by assumption) | refine KeepsA.of_stop ?_ (by assumption))
    | dsimp only | split
    | with_reducible (first | apply KeepsP.mk | refine Keeps.upd ?_ rfl rfl rfl rfl rfl rfl rfl rfl rfl))

theorem execRply_keeps {w0 : State} (c : CoreId) (i : Ins) (s : State) (hK : Keeps w0 s) :
    KeepsR w0 (execRply c i s) := by
  unfold execRply
  repeat' (first
    | with_reducible (first
        | assumption | exact Keeps.refl _ | apply KeepsA.ok | apply KeepsA.trap | apply KeepsA.stop | apply KeepsR.next
        | exact KeepsR.fault | exact KeepsR.refused | apply keyIns_keeps | apply record_keeps | apply agree_keeps
        | apply rplyDone_keeps | apply replay_keeps | refine KeepsA.of_ok ?_ (by assumption)
        | refine KeepsA.of_trap ?_ (by assumption) | refine KeepsA.of_stop ?_ (by assumption))
    | dsimp only | split
    | with_reducible (first | intro _ | refine Keeps.upd ?_ rfl rfl rfl rfl rfl rfl rfl rfl rfl))

theorem transfer_keeps {w0 : State} (s : State) (y : Nat) (hw : Hw) (t : Tx) (k : Core) (b : Bytes) (hK : Keeps w0 s) :
    KeepsA w0 (transfer s y hw t k b) := by
  unfold transfer
  repeat' (first
    | with_reducible (first
        | assumption | exact Keeps.refl _ | apply KeepsA.ok | apply KeepsA.trap | apply KeepsA.stop | apply modTx_keeps
        | apply issueWrite_keeps | apply issueRead_keeps | apply endWith_keeps | apply yokeFault_keeps | apply benchPut_keeps
        | apply agree_keeps | apply waitFor_keeps | apply modTx_keeps | refine KeepsA.of_ok ?_ (by assumption)
        | refine KeepsA.of_trap ?_ (by assumption) | refine KeepsA.of_stop ?_ (by assumption))
    | dsimp only | split
    | with_reducible (first | intro _ | refine Keeps.upd ?_ rfl rfl rfl rfl rfl rfl rfl rfl rfl))

theorem execXfer_keeps {w0 : State} (c : CoreId) (i : Ins) (s : State) (hK : Keeps w0 s) :
    KeepsR w0 (execXfer c i s) := by
  unfold execXfer
  repeat' (first
    | with_reducible (first
        | assumption | exact Keeps.refl _ | apply KeepsA.ok | apply KeepsA.trap | apply KeepsA.stop | apply KeepsR.next
        | exact KeepsR.fault | exact KeepsR.refused | apply modTx_keeps | apply keyIns_keeps | apply record_keeps
        | apply agree_keeps | apply doneFree_keeps | apply transfer_keeps | apply modTx_keeps
        | refine KeepsA.of_ok ?_ (by assumption) | refine KeepsA.of_trap ?_ (by assumption)
        | refine KeepsA.of_stop ?_ (by assumption))
    | dsimp only | split
    | with_reducible (first | intro _ | refine Keeps.upd ?_ rfl rfl rfl rfl rfl rfl rfl rfl rfl))

theorem xferRead_keeps {w0 : State} (s : State) (y : Nat) (r : HostRead) (hK : Keeps w0 s) :
    Keeps w0 (xferRead s y r) := by
  unfold xferRead
  repeat' (first
    | with_reducible (first
        | assumption | exact Keeps.refl _ | apply modTx_keeps | apply forward_keeps | apply endWith_keeps
        | apply benchPut_keeps | apply staged_keeps | apply modTx_keeps)
    | dsimp only | split
    | with_reducible (first | intro _ | refine Keeps.upd ?_ rfl rfl rfl rfl rfl rfl rfl rfl rfl))

theorem execXferReadComplete_keeps {w0 : State} (y : YokeId) (r : HostRead) (s : State) (hK : Keeps w0 s) :
    KeepsR w0 (execXferReadComplete y r s) := by
  unfold execXferReadComplete
  repeat' (first
    | with_reducible (first
        | assumption | exact Keeps.refl _ | apply KeepsR.next | exact KeepsR.fault | exact KeepsR.refused
        | apply xferRead_keeps)
    | dsimp only | split
    | with_reducible (first | refine Keeps.upd ?_ rfl rfl rfl rfl rfl rfl rfl rfl rfl))

theorem finVal_keeps {w0 : State} (s : State) (y : Nat) (i : Ins) (k : Core) (hK : Keeps w0 s) :
    KeepsA w0 (finVal s y i k) := by
  unfold finVal
  repeat' (first
    | with_reducible (first
        | assumption | exact Keeps.refl _ | apply KeepsA.ok | apply KeepsA.trap | apply KeepsA.stop | apply record_keeps
        | apply KeepsA.bind | refine KeepsA.of_ok ?_ (by assumption) | refine KeepsA.of_trap ?_ (by assumption)
        | refine KeepsA.of_stop ?_ (by assumption))
    | dsimp only | split
    | with_reducible (first | intro _ | refine Keeps.upd ?_ rfl rfl rfl rfl rfl rfl rfl rfl rfl))

theorem shareForgetSend_keeps {w0 : State} (s : State) (p : Nat) (name : W64) (hK : Keeps w0 s) :
    Keeps w0 (shareForgetSend s p name) := by
  unfold shareForgetSend
  repeat' (first
    | with_reducible (first
        | assumption | exact Keeps.refl _ | apply sendMsg_keeps | apply Keeps.foldl | apply KeepsP.foldl)
    | dsimp only | split
    | with_reducible (first | intro _ | refine Keeps.upd ?_ rfl rfl rfl rfl rfl rfl rfl rfl rfl))

theorem forgetAct_keeps {w0 : State} (s : State) (t : Tx) (hK : Keeps w0 s) :
    KeepsP w0 (forgetAct s t) := by
  unfold forgetAct
  repeat' (first
    | with_reducible (first
        | assumption | exact Keeps.refl _ | apply reserve_keeps | apply writeReserved_keeps | apply forgetKey_keeps
        | apply shareForgetSend_keeps | refine KeepsP.of ?_ (by assumption) | apply KeepsP.fst)
    | dsimp only | split
    | with_reducible (first | apply KeepsP.mk | refine Keeps.upd ?_ rfl rfl rfl rfl rfl rfl rfl rfl rfl))

theorem giveUp_keeps {w0 : State} (s : State) (y : Nat) (t : Tx) (st : BitVec 16) (hK : Keeps w0 s) :
    Keeps w0 (giveUp s y t st) := by
  unfold giveUp
  repeat' (first
    | with_reducible (first
        | assumption | exact Keeps.refl _ | apply endWith_keeps)
    | dsimp only | split
    | with_reducible (first | refine Keeps.upd ?_ rfl rfl rfl rfl rfl rfl rfl rfl rfl))

theorem finish_keeps {w0 : State} (s : State) (y : Nat) (t : Tx) (k : Core) (v : Nat) (hK : Keeps w0 s) :
    Keeps w0 (finish s y t k v) := by
  unfold finish
  repeat' (first
    | with_reducible (first
        | assumption | exact Keeps.refl _ | apply finishTx_keeps | apply endWith_keeps | apply forgetAct_keeps
        | refine KeepsP.of ?_ (by assumption) | apply KeepsP.fst)
    | dsimp only | split
    | with_reducible (first | apply KeepsP.mk | refine Keeps.upd ?_ rfl rfl rfl rfl rfl rfl rfl rfl rfl))

theorem execDone_keeps {w0 : State} (c : CoreId) (i : Ins) (s : State) (hK : Keeps w0 s) :
    KeepsR w0 (execDone c i s) := by
  unfold execDone
  repeat' (first
    | with_reducible (first
        | assumption | exact Keeps.refl _ | apply KeepsA.ok | apply KeepsA.trap | apply KeepsA.stop | apply KeepsR.next
        | exact KeepsR.fault | exact KeepsR.refused | apply yokeFault_keeps | apply keyIns_keeps | apply agree_keeps
        | apply finVal_keeps | apply finish_keeps | apply KeepsA.bind | refine KeepsA.of_ok ?_ (by assumption)
        | refine KeepsA.of_trap ?_ (by assumption) | refine KeepsA.of_stop ?_ (by assumption))
    | dsimp only | split
    | with_reducible (first | intro _ | refine Keeps.upd ?_ rfl rfl rfl rfl rfl rfl rfl rfl rfl))

theorem execFail_keeps {w0 : State} (c : CoreId) (i : Ins) (s : State) (hK : Keeps w0 s) :
    KeepsR w0 (execFail c i s) := by
  unfold execFail
  repeat' (first
    | with_reducible (first
        | assumption | exact Keeps.refl _ | apply KeepsA.ok | apply KeepsA.trap | apply KeepsA.stop | apply KeepsR.next
        | exact KeepsR.fault | exact KeepsR.refused | apply keyIns_keeps | apply agree_keeps | apply finVal_keeps
        | apply giveUp_keeps | apply KeepsA.bind | refine KeepsA.of_ok ?_ (by assumption)
        | refine KeepsA.of_trap ?_ (by assumption) | refine KeepsA.of_stop ?_ (by assumption))
    | dsimp only | split
    | with_reducible (first | intro _ | refine Keeps.upd ?_ rfl rfl rfl rfl rfl rfl rfl rfl rfl))

/-! `Machine.KeyBlocks` -/

theorem rejectBlock_keeps {w0 : State} (s : State) (cause : Nat) (st : BitVec 16) (hK : Keeps w0 s) :
    KeepsC w0 (rejectBlock s cause st) := by
  unfold rejectBlock
  repeat' (first
    | with_reducible (first
        | assumption | exact Keeps.refl _ | apply KeepsC.fin | apply KeepsC.derived | apply KeepsC.exported
        | apply KeepsC.learn | exact KeepsC.wait | apply KeepsC.conflict | refine KeepsC.of_fin ?_ (by assumption)
        | refine KeepsC.of_derived ?_ (by assumption) | refine KeepsC.of_exported ?_ (by assumption)
        | refine KeepsC.of_learn ?_ (by assumption) | refine KeepsC.of_conflict ?_ (by assumption))
    | dsimp only | split
    | with_reducible (first | refine Keeps.upd ?_ rfl rfl rfl rfl rfl rfl rfl rfl rfl))

theorem importKey_keeps {w0 : State} (s : State) (x : LJ) (b : Bytes) (mask : Nat) (o : Import) (clear : Bytes) (hK : Keeps w0 s) :
    KeepsC w0 (importKey s x b mask o clear) := by
  unfold importKey
  repeat' (first
    | with_reducible (first
        | assumption | exact Keeps.refl _ | apply KeepsC.fin | apply KeepsC.derived | apply KeepsC.exported
        | apply KeepsC.learn | exact KeepsC.wait | apply KeepsC.conflict | apply rejectBlock_keeps
        | refine KeepsC.of_fin ?_ (by assumption) | refine KeepsC.of_derived ?_ (by assumption)
        | refine KeepsC.of_exported ?_ (by assumption) | refine KeepsC.of_learn ?_ (by assumption)
        | refine KeepsC.of_conflict ?_ (by assumption))
    | dsimp only | split
    | with_reducible (first | refine Keeps.upd ?_ rfl rfl rfl rfl rfl rfl rfl rfl rfl))

theorem compUnwrap_keeps {w0 : State} (s : State) (x : LJ) (hK : Keeps w0 s) :
    KeepsC w0 (compUnwrap s x) := by
  unfold compUnwrap
  repeat' (first
    | with_reducible (first
        | assumption | exact Keeps.refl _ | apply KeepsC.fin | apply KeepsC.derived | apply KeepsC.exported
        | apply KeepsC.learn | exact KeepsC.wait | apply KeepsC.conflict | apply rejectBlock_keeps | apply importKey_keeps
        | refine KeepsC.of_fin ?_ (by assumption) | refine KeepsC.of_derived ?_ (by assumption)
        | refine KeepsC.of_exported ?_ (by assumption) | refine KeepsC.of_learn ?_ (by assumption)
        | refine KeepsC.of_conflict ?_ (by assumption))
    | dsimp only | split
    | with_reducible (first | refine Keeps.upd ?_ rfl rfl rfl rfl rfl rfl rfl rfl rfl))

theorem execKbUnwrap_keeps {w0 : State} (y : YokeId) (j : JobIx) (ev : LaneEv) (s : State) (hK : Keeps w0 s) :
    KeepsR w0 (execKbUnwrap y j ev s) := by
  unfold execKbUnwrap
  repeat' (first
    | with_reducible (first
        | assumption | exact Keeps.refl _ | apply KeepsR.next | exact KeepsR.fault | exact KeepsR.refused | apply KeepsC.fin
        | apply KeepsC.derived | apply KeepsC.exported | apply KeepsC.learn | exact KeepsC.wait | apply KeepsC.conflict
        | apply laneRow_keeps | apply compUnwrap_keeps | refine KeepsC.of_fin ?_ (by assumption)
        | refine KeepsC.of_derived ?_ (by assumption) | refine KeepsC.of_exported ?_ (by assumption)
        | refine KeepsC.of_learn ?_ (by assumption) | refine KeepsC.of_conflict ?_ (by assumption))
    | dsimp only | split
    | with_reducible (first | intro _ | refine Keeps.upd ?_ rfl rfl rfl rfl rfl rfl rfl rfl rfl))

theorem compWrap_keeps {w0 : State} (s : State) (x : LJ) (hK : Keeps w0 s) :
    KeepsC w0 (compWrap s x) := by
  unfold compWrap
  repeat' (first
    | with_reducible (first
        | assumption | exact Keeps.refl _ | apply KeepsC.fin | apply KeepsC.derived | apply KeepsC.exported
        | apply KeepsC.learn | exact KeepsC.wait | apply KeepsC.conflict | apply drawn_keeps
        | refine KeepsC.of_fin ?_ (by assumption) | refine KeepsC.of_derived ?_ (by assumption)
        | refine KeepsC.of_exported ?_ (by assumption) | refine KeepsC.of_learn ?_ (by assumption)
        | refine KeepsC.of_conflict ?_ (by assumption))
    | dsimp only | split
    | with_reducible (first | refine Keeps.upd ?_ rfl rfl rfl rfl rfl rfl rfl rfl rfl))

theorem execKbWrap_keeps {w0 : State} (y : YokeId) (j : JobIx) (ev : LaneEv) (s : State) (hK : Keeps w0 s) :
    KeepsR w0 (execKbWrap y j ev s) := by
  unfold execKbWrap
  repeat' (first
    | with_reducible (first
        | assumption | exact Keeps.refl _ | apply KeepsR.next | exact KeepsR.fault | exact KeepsR.refused | apply KeepsC.fin
        | apply KeepsC.derived | apply KeepsC.exported | apply KeepsC.learn | exact KeepsC.wait | apply KeepsC.conflict
        | apply laneRow_keeps | apply compWrap_keeps | refine KeepsC.of_fin ?_ (by assumption)
        | refine KeepsC.of_derived ?_ (by assumption) | refine KeepsC.of_exported ?_ (by assumption)
        | refine KeepsC.of_learn ?_ (by assumption) | refine KeepsC.of_conflict ?_ (by assumption))
    | dsimp only | split
    | with_reducible (first | intro _ | refine Keeps.upd ?_ rfl rfl rfl rfl rfl rfl rfl rfl rfl))

/-! `Machine.CustOps` -/

theorem setRegistry_keeps {w0 : State} (s : State) (scope : Nat) (r : Registry) (hK : Keeps w0 s) :
    Keeps w0 (State.setRegistry s scope r) := by
  unfold State.setRegistry
  repeat' (first
    | with_reducible (first
        | assumption | exact Keeps.refl _)
    | dsimp only | split
    | with_reducible (first | refine Keeps.upd ?_ rfl rfl rfl rfl rfl rfl rfl rfl rfl))

theorem setSession_keeps {w0 : State} (s : State) (k : Nat) (x : Option Session) (hK : Keeps w0 s) :
    Keeps w0 (State.setSession s k x) := by
  unfold State.setSession
  repeat' (first
    | with_reducible (first
        | assumption | exact Keeps.refl _)
    | dsimp only | split
    | with_reducible (first | refine Keeps.upd ?_ rfl rfl rfl rfl rfl rfl rfl rfl rfl))

theorem idleAfter_keeps {w0 : State} (s : State) (last : BitVec 4) (hK : Keeps w0 s) :
    Keeps w0 (idleAfter s last) := by
  unfold idleAfter
  repeat' (first
    | with_reducible (first
        | assumption | exact Keeps.refl _ | apply modEvent_keeps | apply modCtx_keeps)
    | dsimp only | split
    | with_reducible (first | intro _ | refine Keeps.upd ?_ rfl rfl rfl rfl rfl rfl rfl rfl rfl))

theorem endInteraction_keeps {w0 : State} (s : State) (last : BitVec 4) (hK : Keeps w0 s) :
    Keeps w0 (endInteraction s last) := by
  unfold endInteraction
  repeat' (first
    | with_reducible (first
        | assumption | exact Keeps.refl _ | apply unreserve_keeps | apply idleAfter_keeps)
    | dsimp only | split
    | with_reducible (first | refine Keeps.upd ?_ rfl rfl rfl rfl rfl rfl rfl rfl rfl))

theorem abandonCeremony_keeps {w0 : State} (s : State) (hK : Keeps w0 s) :
    Keeps w0 (abandonCeremony s) := by
  unfold abandonCeremony
  repeat' (first
    | with_reducible (first
        | assumption | exact Keeps.refl _ | apply endInteraction_keeps)
    | dsimp only | split
    | with_reducible (first | refine Keeps.upd ?_ rfl rfl rfl rfl rfl rfl rfl rfl rfl))

theorem endSession_keeps {w0 : State} (s : State) (k : Nat) (cause : Nat) (hK : Keeps w0 s) :
    Keeps w0 (endSession s k cause) := by
  unfold endSession
  repeat' (first
    | with_reducible (first
        | assumption | exact Keeps.refl _ | apply event_keeps | apply setSession_keeps | apply abandonCeremony_keeps)
    | dsimp only | split
    | with_reducible (first | refine Keeps.upd ?_ rfl rfl rfl rfl rfl rfl rfl rfl rfl))

theorem endScope_keeps {w0 : State} (s : State) (scope : Nat) (cause : Nat) (hK : Keeps w0 s) :
    Keeps w0 (endScope s scope cause) := by
  unfold endScope
  repeat' (first
    | with_reducible (first
        | assumption | exact Keeps.refl _ | apply endSession_keeps | apply Keeps.foldl | apply KeepsP.foldl)
    | dsimp only | split
    | with_reducible (first | intro _ | refine Keeps.upd ?_ rfl rfl rfl rfl rfl rfl rfl rfl rfl))

end Sys2Proof.Machine
end

