-- ==== Sys2Proof/Laws/KeepsHost.lean ====
section
/-! SUPPORT. What every effect keeps, function by function: hoppers, sessions, plots, curves, programs. -/

namespace Sys2Proof.Machine
set_option linter.unusedVariables false
set_option linter.unusedTactic false
set_option linter.unreachableTactic false
set_option linter.unusedSimpArgs false

/-! `Machine.Hoppers` -/

theorem doorbell_keeps {w0 : State} (s : State) (hK : Keeps w0 s) :
    Keeps w0 (doorbell s) := by
  unfold doorbell
  repeat' (first
    | with_reducible (first
        | assumption | exact Keeps.refl _)
    | dsimp only | split
    | with_reducible (first | refine Keeps.upd ?_ rfl rfl rfl rfl rfl rfl rfl rfl rfl))

theorem refuseDb_keeps {w0 : State} (s : State) (r : HopRef) (hK : Keeps w0 s) :
    Keeps w0 (refuseDb s r) := by
  unfold refuseDb
  repeat' (first
    | with_reducible (first
        | assumption | exact Keeps.refl _ | apply modHop_keeps)
    | dsimp only | split
    | with_reducible (first | intro _ | refine Keeps.upd ?_ rfl rfl rfl rfl rfl rfl rfl rfl rfl))

theorem fetchAdmin_keeps {w0 : State} (s : State) (hK : Keeps w0 s) :
    Keeps w0 (fetchAdmin s) := by
  unfold fetchAdmin
  repeat' (first
    | with_reducible (first
        | assumption | exact Keeps.refl _ | apply setHop_keeps | apply issueRead_keeps | apply admin_keeps)
    | dsimp only | split
    | with_reducible (first | intro _ | refine Keeps.upd ?_ rfl rfl rfl rfl rfl rfl rfl rfl rfl))

theorem fetchNext_keeps {w0 : State} (s : State) (r : HopRef) (hK : Keeps w0 s) :
    Keeps w0 (fetchNext s r) := by
  unfold fetchNext
  repeat' (first
    | with_reducible (first
        | assumption | exact Keeps.refl _ | apply admin_keeps | apply fetchAdmin_keeps)
    | dsimp only | split
    | with_reducible (first | intro _ | refine Keeps.upd ?_ rfl rfl rfl rfl rfl rfl rfl rfl rfl))

theorem tailDb_keeps {w0 : State} (s : State) (r : HopRef) (v : Nat) (aligned : Bool) (hK : Keeps w0 s) :
    Keeps w0 (tailDb s r v aligned) := by
  unfold tailDb
  repeat' (first
    | with_reducible (first
        | assumption | exact Keeps.refl _ | apply setHop_keeps | apply modHop_keeps | apply doorbell_keeps
        | apply refuseDb_keeps | apply fetchNext_keeps)
    | dsimp only | split
    | with_reducible (first | intro _ | refine Keeps.upd ?_ rfl rfl rfl rfl rfl rfl rfl rfl rfl))

theorem execHopTailDb_keeps {w0 : State} (r : HopRef) (value : W32) (aligned32 : Bool) (s : State) (hK : Keeps w0 s) :
    KeepsR w0 (execHopTailDb r value aligned32 s) := by
  unfold execHopTailDb
  repeat' (first
    | with_reducible (first
        | assumption | exact Keeps.refl _ | apply KeepsR.next | exact KeepsR.fault | exact KeepsR.refused | apply tailDb_keeps)
    | dsimp only | split
    | with_reducible (first | refine Keeps.upd ?_ rfl rfl rfl rfl rfl rfl rfl rfl rfl))

theorem headDb_keeps {w0 : State} (s : State) (r : HopRef) (v : Nat) (aligned : Bool) (hK : Keeps w0 s) :
    Keeps w0 (headDb s r v aligned) := by
  unfold headDb
  repeat' (first
    | with_reducible (first
        | assumption | exact Keeps.refl _ | apply setHop_keeps | apply modHop_keeps | apply doorbell_keeps
        | apply fetchNext_keeps)
    | dsimp only | split
    | with_reducible (first | intro _ | refine Keeps.upd ?_ rfl rfl rfl rfl rfl rfl rfl rfl rfl))

theorem execHopHeadDb_keeps {w0 : State} (r : HopRef) (value : W32) (aligned32 : Bool) (s : State) (hK : Keeps w0 s) :
    KeepsR w0 (execHopHeadDb r value aligned32 s) := by
  unfold execHopHeadDb
  repeat' (first
    | with_reducible (first
        | assumption | exact Keeps.refl _ | apply KeepsR.next | exact KeepsR.fault | exact KeepsR.refused | apply headDb_keeps)
    | dsimp only | split
    | with_reducible (first | refine Keeps.upd ?_ rfl rfl rfl rfl rfl rfl rfl rfl rfl))

theorem enableHop_keeps {w0 : State} (s : State) (r : HopRef) (cfg : W32) (hK : Keeps w0 s) :
    Keeps w0 (enableHop s r cfg) := by
  unfold enableHop
  repeat' (first
    | with_reducible (first
        | assumption | exact Keeps.refl _ | apply setHop_keeps)
    | dsimp only | split
    | with_reducible (first | refine Keeps.upd ?_ rfl rfl rfl rfl rfl rfl rfl rfl rfl))

theorem execHopperEnable_keeps {w0 : State} (r : HopRef) (cfg : W32) (s : State) (hK : Keeps w0 s) :
    KeepsR w0 (execHopperEnable r cfg s) := by
  unfold execHopperEnable
  repeat' (first
    | with_reducible (first
        | assumption | exact Keeps.refl _ | apply KeepsR.next | exact KeepsR.fault | exact KeepsR.refused
        | apply enableHop_keeps)
    | dsimp only | split
    | with_reducible (first | refine Keeps.upd ?_ rfl rfl rfl rfl rfl rfl rfl rfl rfl))

theorem abandonRead_keeps {w0 : State} (s : State) (y : Nat) (hK : Keeps w0 s) :
    Keeps w0 (abandonRead s y) := by
  unfold abandonRead
  repeat' (first
    | with_reducible (first
        | assumption | exact Keeps.refl _ | apply endTx_keeps)
    | dsimp only | split
    | with_reducible (first | refine Keeps.upd ?_ rfl rfl rfl rfl rfl rfl rfl rfl rfl))

theorem abandonReads_keeps {w0 : State} (s : State) (r : HopRef) (hK : Keeps w0 s) :
    Keeps w0 (abandonReads s r) := by
  unfold abandonReads
  repeat' (first
    | with_reducible (first
        | assumption | exact Keeps.refl _ | apply modHop_keeps | apply admin_keeps | apply abandonRead_keeps
        | apply Keeps.foldl | apply KeepsP.foldl)
    | dsimp only | split
    | with_reducible (first | intro _ | refine Keeps.upd ?_ rfl rfl rfl rfl rfl rfl rfl rfl rfl))

theorem disableHop_keeps {w0 : State} (s : State) (r : HopRef) (cfg : W32) (hK : Keeps w0 s) :
    Keeps w0 (disableHop s r cfg) := by
  unfold disableHop
  repeat' (first
    | with_reducible (first
        | assumption | exact Keeps.refl _ | apply setHop_keeps | apply modHop_keeps | apply dropEnabled_keeps
        | apply checkStopped_keeps | apply admin_keeps | apply abandonReads_keeps)
    | dsimp only | split
    | with_reducible (first | intro _ | refine Keeps.upd ?_ rfl rfl rfl rfl rfl rfl rfl rfl rfl))

theorem execHopperDisable_keeps {w0 : State} (r : HopRef) (cfg : W32) (s : State) (hK : Keeps w0 s) :
    KeepsR w0 (execHopperDisable r cfg s) := by
  unfold execHopperDisable
  repeat' (first
    | with_reducible (first
        | assumption | exact Keeps.refl _ | apply KeepsR.next | exact KeepsR.fault | exact KeepsR.refused
        | apply disableHop_keeps)
    | dsimp only | split
    | with_reducible (first | refine Keeps.upd ?_ rfl rfl rfl rfl rfl rfl rfl rfl rfl))

theorem wdrr_keeps {w0 : State} (s : State) (l : List Nat) (hK : Keeps w0 s) : KeepsP w0 (wdrr s l) := by
  induction l generalizing s with
  | nil => exact hK
  | cons p rest ih =>
    unfold wdrr
    split
    · exact ih _ (modPlot_keeps _ _ hK)
    · have h1 : Keeps w0 (s.modPlot p fun pl =>
          { pl with deficit := (if (s.plot p).deficit = 0 then (s.plot p).acr.weight else (s.plot p).deficit) - 1 }) :=
        modPlot_keeps _ _ hK
      exact Keeps.upd h1 rfl rfl rfl rfl rfl rfl rfl rfl rfl

theorem choosePlot_keeps {w0 : State} (s : State) (hK : Keeps w0 s) :
    KeepsP w0 (choosePlot s) := by
  unfold choosePlot
  repeat' (first
    | with_reducible (first
        | assumption | exact Keeps.refl _ | apply wdrr_keeps | refine KeepsP.of ?_ (by assumption) | apply KeepsP.fst)
    | dsimp only | split
    | with_reducible (first | apply KeepsP.mk | intro _ | refine Keeps.upd ?_ rfl rfl rfl rfl rfl rfl rfl rfl rfl))

theorem charge_keeps {w0 : State} (s : State) (p h y : Nat) (hK : Keeps w0 s) :
    Keeps w0 (charge s p h y) := by
  unfold charge
  repeat' (first
    | with_reducible (first
        | assumption | exact Keeps.refl _ | apply modPlot_keeps | apply modYoke_keeps | apply setHop_keeps | apply drawn_keeps
        | apply issueRead_keeps | apply holdImages_keeps | apply modPlot_keeps | refine modYoke_keeps _ _ (fun _ k => k) ?_
        | apply modYoke_keeps | exact wf_nil | apply wf_mwrite | apply wf_mzero)
    | dsimp only | split
    | with_reducible (first | intro _ | refine Keeps.upd ?_ rfl rfl rfl rfl rfl rfl rfl rfl rfl))

theorem dispatchStep_keeps {w0 : State} (s : State) (hK : Keeps w0 s) :
    Keeps w0 (dispatchStep s) := by
  unfold dispatchStep
  repeat' (first
    | with_reducible (first
        | assumption | exact Keeps.refl _ | apply modPlot_keeps | apply choosePlot_keeps | apply charge_keeps
        | apply modPlot_keeps | refine KeepsP.of ?_ (by assumption) | apply KeepsP.fst)
    | dsimp only | split
    | with_reducible (first | apply KeepsP.mk | intro _ | refine Keeps.upd ?_ rfl rfl rfl rfl rfl rfl rfl rfl rfl))

theorem haltHop_keeps {w0 : State} (s : State) (r : HopRef) (hK : Keeps w0 s) :
    Keeps w0 (haltHop s r) := by
  unfold haltHop
  repeat' (first
    | with_reducible (first
        | assumption | exact Keeps.refl _ | apply modHop_keeps | apply modEvent_keeps | apply plotEvent_keeps
        | apply checkStopped_keeps | apply admin_keeps | apply abandonReads_keeps)
    | dsimp only | split
    | with_reducible (first | intro _ | refine Keeps.upd ?_ rfl rfl rfl rfl rfl rfl rfl rfl rfl))

theorem seedTx_keeps {w0 : State} (s : State) (y : Nat) (hK : Keeps w0 s) :
    Keeps w0 (seedTx s y) := by
  unfold seedTx
  repeat' (first
    | with_reducible (first
        | assumption | exact Keeps.refl _ | apply KeepsO.some | exact KeepsO.none | apply KeepsQ.some | exact KeepsQ.none
        | apply modTx_keeps | apply drawn_keeps | apply plotGen_keeps | apply modTx_keeps
        | refine KeepsO.of ?_ (by assumption))
    | dsimp only | split
    | with_reducible (first | intro _ | refine Keeps.upd ?_ rfl rfl rfl rfl rfl rfl rfl rfl rfl))

theorem number_keeps {w0 : State} (s : State) (y : Nat) (staged : Bytes) (hK : Keeps w0 s) :
    Keeps w0 (number s y staged) := by
  unfold number
  repeat' (first
    | with_reducible (first
        | assumption | exact Keeps.refl _ | apply modTx_keeps | apply forward_keeps | apply closeBatch_keeps
        | apply seedTx_keeps | apply staged_keeps | apply modTx_keeps)
    | dsimp only | split
    | with_reducible (first | intro _ | refine Keeps.upd ?_ rfl rfl rfl rfl rfl rfl rfl rfl rfl))

theorem endEarly_keeps {w0 : State} (s : State) (y : Nat) (st : BitVec 16) (hK : Keeps w0 s) :
    Keeps w0 (endEarly s y st) := by
  unfold endEarly
  repeat' (first
    | with_reducible (first
        | assumption | exact Keeps.refl _ | apply forward_keeps | apply endWith_keeps | apply number_keeps)
    | dsimp only | split
    | with_reducible (first | refine Keeps.upd ?_ rfl rfl rfl rfl rfl rfl rfl rfl rfl))

theorem takeDesc_keeps {w0 : State} (s : State) (y : Nat) (hK : Keeps w0 s) :
    Keeps w0 (takeDesc s y) := by
  unfold takeDesc
  repeat' (first
    | with_reducible (first
        | assumption | exact Keeps.refl _ | apply modTx_keeps | apply issueRead_keeps | apply dropImages_keeps
        | apply holdImages_keeps | apply startProgram_keeps | apply number_keeps | apply endEarly_keeps | apply modTx_keeps)
    | dsimp only | split
    | with_reducible (first | intro _ | refine Keeps.upd ?_ rfl rfl rfl rfl rfl rfl rfl rfl rfl))

theorem takeNext_keeps {w0 : State} (s : State) (p h : Nat) (hK : Keeps w0 s) :
    KeepsO w0 (takeNext s p h) := by
  unfold takeNext
  repeat' (first
    | with_reducible (first
        | assumption | exact Keeps.refl _ | apply KeepsO.some | exact KeepsO.none | apply KeepsQ.some | exact KeepsQ.none
        | apply modTx_keeps | apply setHop_keeps | apply modHop_keeps | apply abandonReads_keeps | apply takeDesc_keeps
        | apply modTx_keeps | refine KeepsO.of ?_ (by assumption))
    | dsimp only | split
    | with_reducible (first | intro _ | refine Keeps.upd ?_ rfl rfl rfl rfl rfl rfl rfl rfl rfl))

theorem takeAll_keeps {w0 : State} (n : Nat) (s : State) (p h : Nat) (hK : Keeps w0 s) : Keeps w0 (takeAll n s p h) := by
  induction n generalizing s with
  | zero => exact hK
  | succ n ih =>
    unfold takeAll
    split
    · exact hK
    · rename_i s' e
      exact ih _ (KeepsO.of (takeNext_keeps _ _ _ hK) e)

theorem arriveYoke_keeps {w0 : State} (s : State) (y : Nat) (b : Bytes) (hK : Keeps w0 s) :
    Keeps w0 (arriveYoke s y b) := by
  unfold arriveYoke
  repeat' (first
    | with_reducible (first
        | assumption | exact Keeps.refl _ | apply modTx_keeps | apply takeAll_keeps | apply modTx_keeps)
    | dsimp only | split
    | with_reducible (first | intro _ | refine Keeps.upd ?_ rfl rfl rfl rfl rfl rfl rfl rfl rfl))

theorem arriveFail_keeps {w0 : State} (s : State) (y : Nat) (hK : Keeps w0 s) :
    Keeps w0 (arriveFail s y) := by
  unfold arriveFail
  repeat' (first
    | with_reducible (first
        | assumption | exact Keeps.refl _ | apply haltHop_keeps)
    | dsimp only | split
    | with_reducible (first | refine Keeps.upd ?_ rfl rfl rfl rfl rfl rfl rfl rfl rfl))

theorem takeAdmin_keeps {w0 : State} (s : State) (d : Adm) (hK : Keeps w0 s) :
    Keeps w0 (takeAdmin s d) := by
  unfold takeAdmin
  repeat' (first
    | with_reducible (first
        | assumption | exact Keeps.refl _ | apply setHop_keeps | apply endFront_keeps | apply admin_keeps
        | apply fetchAdmin_keeps)
    | dsimp only | split
    | with_reducible (first | intro _ | refine Keeps.upd ?_ rfl rfl rfl rfl rfl rfl rfl rfl rfl))

theorem arriveAdmin_keeps {w0 : State} (s : State) (r : HostRead) (hK : Keeps w0 s) :
    Keeps w0 (arriveAdmin s r) := by
  unfold arriveAdmin
  repeat' (first
    | with_reducible (first
        | assumption | exact Keeps.refl _ | apply admin_keeps | apply haltHop_keeps | apply takeAdmin_keeps)
    | dsimp only | split
    | with_reducible (first | intro _ | refine Keeps.upd ?_ rfl rfl rfl rfl rfl rfl rfl rfl rfl))

theorem execDescriptorArrival_keeps {w0 : State} (t : ReadFor) (r : HostRead) (s : State) (hK : Keeps w0 s) :
    KeepsR w0 (execDescriptorArrival t r s) := by
  unfold execDescriptorArrival
  repeat' (first
    | with_reducible (first
        | assumption | exact Keeps.refl _ | apply KeepsR.next | exact KeepsR.fault | exact KeepsR.refused | apply admin_keeps
        | apply arriveYoke_keeps | apply arriveFail_keeps | apply arriveAdmin_keeps)
    | dsimp only | split
    | with_reducible (first | intro _ | refine Keeps.upd ?_ rfl rfl rfl rfl rfl rfl rfl rfl rfl))

theorem staged_keeps {w0 : State} (s : State) (y : Nat) (r : HostRead) (hK : Keeps w0 s) :
    Keeps w0 (staged s y r) := by
  unfold staged
  repeat' (first
    | with_reducible (first
        | assumption | exact Keeps.refl _ | apply startProgram_keeps | apply number_keeps | apply endEarly_keeps)
    | dsimp only | split
    | with_reducible (first | refine Keeps.upd ?_ rfl rfl rfl rfl rfl rfl rfl rfl rfl))

theorem dispatchFwd_keeps {w0 : State} (s : State) (d : PairDispatch) (y : Nat) (hK : Keeps w0 s) :
    Keeps w0 (dispatchFwd s d y) := by
  unfold dispatchFwd
  repeat' (first
    | with_reducible (first
        | assumption | exact Keeps.refl _ | apply modPlot_keeps | apply modYoke_keeps | apply drawn_keeps
        | apply holdImages_keeps | apply endWith_keeps | apply startProgram_keeps | apply seedTx_keeps | apply takeDesc_keeps
        | apply modPlot_keeps | refine modYoke_keeps _ _ (fun _ k => k) ?_ | apply modYoke_keeps | exact wf_nil
        | apply wf_mwrite | apply wf_mzero)
    | dsimp only | split
    | with_reducible (first | intro _ | refine Keeps.upd ?_ rfl rfl rfl rfl rfl rfl rfl rfl rfl))

theorem execStagingReadComplete_keeps {w0 : State} (y : YokeId) (r : HostRead) (s : State) (hK : Keeps w0 s) :
    KeepsR w0 (execStagingReadComplete y r s) := by
  unfold execStagingReadComplete
  repeat' (first
    | with_reducible (first
        | assumption | exact Keeps.refl _ | apply KeepsR.next | exact KeepsR.fault | exact KeepsR.refused | apply staged_keeps)
    | dsimp only | split
    | with_reducible (first | refine Keeps.upd ?_ rfl rfl rfl rfl rfl rfl rfl rfl rfl))

theorem expireYoke_keeps {w0 : State} (s : State) (y : Nat) (hK : Keeps w0 s) :
    Keeps w0 (expireYoke s y) := by
  unfold expireYoke
  repeat' (first
    | with_reducible (first
        | assumption | exact Keeps.refl _ | apply advanceTo_keeps | apply forwardAbort_keeps | apply endWith_keeps
        | apply endEarly_keeps)
    | dsimp only | split
    | with_reducible (first | refine Keeps.upd ?_ rfl rfl rfl rfl rfl rfl rfl rfl rfl))

theorem expireQueued_keeps {w0 : State} (s : State) (p h : Nat) (d : Bytes) (hK : Keeps w0 s) :
    Keeps w0 (expireQueued s p h d) := by
  unfold expireQueued
  repeat' (first
    | with_reducible (first
        | assumption | exact Keeps.refl _ | apply setHop_keeps | apply advanceTo_keeps | apply issueRead_keeps
        | apply complete_keeps | apply ledAct_keeps | apply checkStopped_keeps)
    | dsimp only | split
    | with_reducible (first | refine Keeps.upd ?_ rfl rfl rfl rfl rfl rfl rfl rfl rfl))

theorem execDeadlineExpired_keeps {w0 : State} (t : DlTarget) (s : State) (hK : Keeps w0 s) :
    KeepsR w0 (execDeadlineExpired t s) := by
  unfold execDeadlineExpired
  repeat' (first
    | with_reducible (first
        | assumption | exact Keeps.refl _ | apply KeepsR.next | exact KeepsR.fault | exact KeepsR.refused
        | apply expireYoke_keeps | apply expireQueued_keeps)
    | dsimp only | split
    | with_reducible (first | refine Keeps.upd ?_ rfl rfl rfl rfl rfl rfl rfl rfl rfl))

theorem execTMarginReached_keeps {w0 : State} (y : YokeId) (s : State) (hK : Keeps w0 s) :
    KeepsR w0 (execTMarginReached y s) := by
  unfold execTMarginReached
  repeat' (first
    | with_reducible (first
        | assumption | exact Keeps.refl _ | apply KeepsR.next | exact KeepsR.fault | exact KeepsR.refused
        | apply modYoke_keeps | apply advanceTo_keeps | refine modYoke_keeps _ _ (fun _ k => k) ?_ | apply modYoke_keeps
        | exact wf_nil | apply wf_mwrite | apply wf_mzero)
    | dsimp only | split
    | with_reducible (first | intro _ | refine Keeps.upd ?_ rfl rfl rfl rfl rfl rfl rfl rfl rfl))

theorem execCoalescingTimer_keeps {w0 : State} (r : HopRef) (s : State) (hK : Keeps w0 s) :
    KeepsR w0 (execCoalescingTimer r s) := by
  unfold execCoalescingTimer
  repeat' (first
    | with_reducible (first
        | assumption | exact Keeps.refl _ | apply KeepsR.next | exact KeepsR.fault | exact KeepsR.refused
        | apply advanceTo_keeps | apply hopInterrupt_keeps)
    | dsimp only | split
    | with_reducible (first | refine Keeps.upd ?_ rfl rfl rfl rfl rfl rfl rfl rfl rfl))

theorem msixGate_keeps {w0 : State} (s : State) (f : Fn) (g : MsixField) (openIt : Bool) (hK : Keeps w0 s) :
    Keeps w0 (msixGate s f g openIt) := by
  unfold msixGate
  repeat' (first
    | with_reducible (first
        | assumption | exact Keeps.refl _ | apply setMsix_keeps | apply sendPending_keeps)
    | dsimp only | split
    | with_reducible (first | refine Keeps.upd ?_ rfl rfl rfl rfl rfl rfl rfl rfl rfl))

theorem writeMsix_keeps {w0 : State} (s : State) (f : Fn) (v k : Nat) (w : W32) (hK : Keeps w0 s) :
    Keeps w0 (writeMsix s f v k w) := by
  unfold writeMsix
  repeat' (first
    | with_reducible (first
        | assumption | exact Keeps.refl _ | apply setMsix_keeps | apply msixGate_keeps)
    | dsimp only | split
    | with_reducible (first | intro _ | refine Keeps.upd ?_ rfl rfl rfl rfl rfl rfl rfl rfl rfl))

theorem execMsixUnmask_keeps {w0 : State} (f : Fn) (m : MsixField) (s : State) (hK : Keeps w0 s) :
    KeepsR w0 (execMsixUnmask f m s) := by
  unfold execMsixUnmask
  repeat' (first
    | with_reducible (first
        | assumption | exact Keeps.refl _ | apply KeepsR.next | exact KeepsR.fault | exact KeepsR.refused
        | apply msixGate_keeps)
    | dsimp only | split
    | with_reducible (first | refine Keeps.upd ?_ rfl rfl rfl rfl rfl rfl rfl rfl rfl))

theorem execMsixMask_keeps {w0 : State} (f : Fn) (m : MsixField) (s : State) (hK : Keeps w0 s) :
    KeepsR w0 (execMsixMask f m s) := by
  unfold execMsixMask
  repeat' (first
    | with_reducible (first
        | assumption | exact Keeps.refl _ | apply KeepsR.next | exact KeepsR.fault | exact KeepsR.refused
        | apply msixGate_keeps)
    | dsimp only | split
    | with_reducible (first | refine Keeps.upd ?_ rfl rfl rfl rfl rfl rfl rfl rfl rfl))

theorem setIde_keeps {w0 : State} (s : State) (k : Nat) (i : Ide) (hK : Keeps w0 s) :
    Keeps w0 (State.setIde s k i) := by
  unfold State.setIde
  repeat' (first
    | with_reducible (first
        | assumption | exact Keeps.refl _)
    | dsimp only | split
    | with_reducible (first | refine Keeps.upd ?_ rfl rfl rfl rfl rfl rfl rfl rfl rfl))

theorem execIdeIntegrityFailure_keeps {w0 : State} (k : Fin 2) (s : State) (hK : Keeps w0 s) :
    KeepsR w0 (execIdeIntegrityFailure k s) := by
  unfold execIdeIntegrityFailure
  repeat' (first
    | with_reducible (first
        | assumption | exact Keeps.refl _ | apply KeepsR.next | exact KeepsR.fault | exact KeepsR.refused
        | apply modEvent_keeps | apply setIde_keeps)
    | dsimp only | split
    | with_reducible (first | refine Keeps.upd ?_ rfl rfl rfl rfl rfl rfl rfl rfl rfl))

theorem secured_keeps {w0 : State} (s : State) (body : Bytes) (hK : Keeps w0 s) :
    Keeps w0 (secured s body) := by
  unfold secured
  repeat' (first
    | with_reducible (first
        | assumption | exact Keeps.refl _ | apply emit_keeps | apply spdm_keeps)
    | dsimp only | split
    | with_reducible (first | intro _ | refine Keeps.upd ?_ rfl rfl rfl rfl rfl rfl rfl rfl rfl))

theorem ideKm_keeps {w0 : State} (s : State) (f : State → State) (hK : Keeps w0 s) (h_f : ∀ (a0 : State), Keeps w0 a0 → Keeps w0 (f a0)) :
    Keeps w0 (ideKm s f) := by
  unfold ideKm
  repeat' (first
    | with_reducible (first
        | assumption | exact Keeps.refl _ | apply h_f | apply emit_keeps)
    | dsimp only | split
    | with_reducible (first | intro _ | refine Keeps.upd ?_ rfl rfl rfl rfl rfl rfl rfl rfl rfl))

theorem execIdeKmQuery_keeps {w0 : State} (k : Fin 2) (s : State) (hK : Keeps w0 s) :
    KeepsR w0 (execIdeKmQuery k s) := by
  unfold execIdeKmQuery
  repeat' (first
    | with_reducible (first
        | assumption | exact Keeps.refl _ | apply KeepsR.next | exact KeepsR.fault | exact KeepsR.refused
        | apply secured_keeps | apply ideKm_keeps)
    | dsimp only | split
    | with_reducible (first | intro _ | refine Keeps.upd ?_ rfl rfl rfl rfl rfl rfl rfl rfl rfl))

theorem execIdeKmKeyProg_keeps {w0 : State} (k set : Fin 2) (rids : IdeRids) (addrs : IdeAddrs) (s : State) (hK : Keeps w0 s) :
    KeepsR w0 (execIdeKmKeyProg k set rids addrs s) := by
  unfold execIdeKmKeyProg
  repeat' (first
    | with_reducible (first
        | assumption | exact Keeps.refl _ | apply KeepsR.next | exact KeepsR.fault | exact KeepsR.refused | apply setIde_keeps
        | apply secured_keeps | apply ideKm_keeps)
    | dsimp only | split
    | with_reducible (first | intro _ | refine Keeps.upd ?_ rfl rfl rfl rfl rfl rfl rfl rfl rfl))

theorem execIdeKmKSetGo_keeps {w0 : State} (k set : Fin 2) (s : State) (hK : Keeps w0 s) :
    KeepsR w0 (execIdeKmKSetGo k set s) := by
  unfold execIdeKmKSetGo
  repeat' (first
    | with_reducible (first
        | assumption | exact Keeps.refl _ | apply KeepsR.next | exact KeepsR.fault | exact KeepsR.refused | apply emit_keeps
        | apply releaseHeld_keeps | apply setIde_keeps | apply secured_keeps | apply ideKm_keeps)
    | dsimp only | split
    | with_reducible (first | intro _ | refine Keeps.upd ?_ rfl rfl rfl rfl rfl rfl rfl rfl rfl))

theorem execIdeKmKSetStop_keeps {w0 : State} (k set : Fin 2) (s : State) (hK : Keeps w0 s) :
    KeepsR w0 (execIdeKmKSetStop k set s) := by
  unfold execIdeKmKSetStop
  repeat' (first
    | with_reducible (first
        | assumption | exact Keeps.refl _ | apply KeepsR.next | exact KeepsR.fault | exact KeepsR.refused | apply setIde_keeps
        | apply secured_keeps | apply ideKm_keeps)
    | dsimp only | split
    | with_reducible (first | intro _ | refine Keeps.upd ?_ rfl rfl rfl rfl rfl rfl rfl rfl rfl))

theorem spdm_keeps {w0 : State} (s : State) (f : State → State) (hK : Keeps w0 s) (h_f : ∀ (a0 : State), Keeps w0 a0 → Keeps w0 (f a0)) :
    Keeps w0 (spdm s f) := by
  unfold spdm
  repeat' (first
    | with_reducible (first
        | assumption | exact Keeps.refl _ | apply h_f | apply emit_keeps)
    | dsimp only | split
    | with_reducible (first | intro _ | refine Keeps.upd ?_ rfl rfl rfl rfl rfl rfl rfl rfl rfl))

theorem p1Draw_keeps {w0 : State} (s : State) (f : State → State) (hK : Keeps w0 s) (h_f : ∀ (a0 : State), Keeps w0 a0 → Keeps w0 (f a0)) :
    Keeps w0 (p1Draw s f) := by
  unfold p1Draw
  repeat' (first
    | with_reducible (first
        | assumption | exact Keeps.refl _ | apply h_f | apply privGen_keeps)
    | dsimp only | split
    | with_reducible (first | intro _ | refine Keeps.upd ?_ rfl rfl rfl rfl rfl rfl rfl rfl rfl))

theorem execSpdmGetCertificate_keeps {w0 : State} (slot : Fin 8) (s : State) (hK : Keeps w0 s) :
    KeepsR w0 (execSpdmGetCertificate slot s) := by
  unfold execSpdmGetCertificate
  repeat' (first
    | with_reducible (first
        | assumption | exact Keeps.refl _ | apply KeepsR.next | exact KeepsR.fault | exact KeepsR.refused | apply emit_keeps
        | apply spdm_keeps)
    | dsimp only | split
    | with_reducible (first | intro _ | refine Keeps.upd ?_ rfl rfl rfl rfl rfl rfl rfl rfl rfl))

theorem execSpdmChallenge_keeps {w0 : State} (nonce : Bytes) (s : State) (hK : Keeps w0 s) :
    KeepsR w0 (execSpdmChallenge nonce s) := by
  unfold execSpdmChallenge
  repeat' (first
    | with_reducible (first
        | assumption | exact Keeps.refl _ | apply KeepsR.next | exact KeepsR.fault | exact KeepsR.refused | apply emit_keeps
        | apply drawn_keeps | apply spdm_keeps | apply p1Draw_keeps)
    | dsimp only | split
    | with_reducible (first | intro _ | refine Keeps.upd ?_ rfl rfl rfl rfl rfl rfl rfl rfl rfl))

theorem execSpdmGetMeasurements_keeps {w0 : State} (index : Byte) (nonce : Bytes) (s : State) (hK : Keeps w0 s) :
    KeepsR w0 (execSpdmGetMeasurements index nonce s) := by
  unfold execSpdmGetMeasurements
  repeat' (first
    | with_reducible (first
        | assumption | exact Keeps.refl _ | apply KeepsR.next | exact KeepsR.fault | exact KeepsR.refused | apply emit_keeps
        | apply drawn_keeps | apply spdm_keeps | apply p1Draw_keeps)
    | dsimp only | split
    | with_reducible (first | intro _ | refine Keeps.upd ?_ rfl rfl rfl rfl rfl rfl rfl rfl rfl))

theorem execSpdmKeyExchange_keeps {w0 : State} (exchange : Bytes) (s : State) (hK : Keeps w0 s) :
    KeepsR w0 (execSpdmKeyExchange exchange s) := by
  unfold execSpdmKeyExchange
  repeat' (first
    | with_reducible (first
        | assumption | exact Keeps.refl _ | apply KeepsR.next | exact KeepsR.fault | exact KeepsR.refused | apply emit_keeps
        | apply drawn_keeps | apply spdm_keeps | apply p1Draw_keeps)
    | dsimp only | split
    | with_reducible (first | intro _ | refine Keeps.upd ?_ rfl rfl rfl rfl rfl rfl rfl rfl rfl))

/-! `Machine.SessOps` -/

theorem sendHs_keeps {w0 : State} (s : State) (peer : Nat) (ty : Byte) (body : Bytes) (hK : Keeps w0 s) :
    Keeps w0 (sendHs s peer ty body) := by
  unfold sendHs
  repeat' (first
    | with_reducible (first
        | assumption | exact Keeps.refl _ | apply emit_keeps | apply setSess_keeps)
    | dsimp only | split
    | with_reducible (first | refine Keeps.upd ?_ rfl rfl rfl rfl rfl rfl rfl rfl rfl))

theorem startHs_keeps {w0 : State} (s : State) (peer : Nat) (hK : Keeps w0 s) :
    Keeps w0 (startHs s peer) := by
  unfold startHs
  repeat' (first
    | with_reducible (first
        | assumption | exact Keeps.refl _ | apply setSess_keeps | apply sendHs_keeps | apply KeepsA.bind)
    | dsimp only | split
    | with_reducible (first | refine Keeps.upd ?_ rfl rfl rfl rfl rfl rfl rfl rfl rfl))

theorem startAll_keeps {w0 : State} (s : State) (hK : Keeps w0 s) :
    Keeps w0 (startAll s) := by
  unfold startAll
  repeat' (first
    | with_reducible (first
        | assumption | exact Keeps.refl _ | apply startHs_keeps | apply Keeps.foldl | apply KeepsP.foldl)
    | dsimp only | split
    | with_reducible (first | refine Keeps.upd ?_ rfl rfl rfl rfl rfl rfl rfl rfl rfl))

theorem signScript_keeps {w0 : State} (s : State) (script : Bytes) (hK : Keeps w0 s) :
    KeepsP w0 (signScript s script) := by
  unfold signScript
  repeat' (first
    | with_reducible (first
        | assumption | exact Keeps.refl _ | apply drawn_keeps | refine KeepsP.of ?_ (by assumption) | apply KeepsP.fst)
    | dsimp only | split
    | with_reducible (first | apply KeepsP.mk | refine Keeps.upd ?_ rfl rfl rfl rfl rfl rfl rfl rfl rfl))

theorem sendKex_keeps {w0 : State} (s : State) (peer : Nat) (ty : Byte) (f : Sess → Sess) (hK : Keeps w0 s) :
    Keeps w0 (sendKex s peer ty f) := by
  unfold sendKex
  repeat' (first
    | with_reducible (first
        | assumption | exact Keeps.refl _ | apply newSecret_keeps | apply setSess_keeps | apply sendHs_keeps
        | refine KeepsP.of ?_ (by assumption) | apply KeepsP.fst)
    | dsimp only | split
    | with_reducible (first | apply KeepsP.mk | refine Keeps.upd ?_ rfl rfl rfl rfl rfl rfl rfl rfl rfl))

theorem sendReply_keeps {w0 : State} (s : State) (peer : Nat) (ty : Byte) (f : Sess → Sess) (hK : Keeps w0 s) :
    Keeps w0 (sendReply s peer ty f) := by
  unfold sendReply
  repeat' (first
    | with_reducible (first
        | assumption | exact Keeps.refl _ | apply newSecret_keeps | apply setSess_keeps | apply sendHs_keeps
        | apply signScript_keeps | refine KeepsP.of ?_ (by assumption) | apply KeepsP.fst)
    | dsimp only | split
    | with_reducible (first | apply KeepsP.mk | refine Keeps.upd ?_ rfl rfl rfl rfl rfl rfl rfl rfl rfl))

theorem hsStep_keeps {w0 : State} (s : State) (peer : Nat) (hK : Keeps w0 s) :
    Keeps w0 (hsStep s peer) := by
  unfold hsStep
  repeat' (first
    | with_reducible (first
        | assumption | exact Keeps.refl _ | apply sendKex_keeps | apply sendReply_keeps)
    | dsimp only | split
    | with_reducible (first | intro _ | refine Keeps.upd ?_ rfl rfl rfl rfl rfl rfl rfl rfl rfl))

theorem hsPump_keeps {w0 : State} (s : State) (hK : Keeps w0 s) :
    Keeps w0 (hsPump s) := by
  unfold hsPump
  repeat' (first
    | with_reducible (first
        | assumption | exact Keeps.refl _ | apply keyGens_keeps | apply setSess_keeps | apply hsStep_keeps | apply Keeps.foldl
        | apply KeepsP.foldl | refine KeepsP.of ?_ (by assumption) | apply KeepsP.fst)
    | dsimp only | split
    | with_reducible (first | apply KeepsP.mk | intro _ | refine Keeps.upd ?_ rfl rfl rfl rfl rfl rfl rfl rfl rfl))

theorem wantKey_keeps {w0 : State} (s : State) (peer : Nat) (hK : Keeps w0 s) :
    Keeps w0 (wantKey s peer) := by
  unfold wantKey
  repeat' (first
    | with_reducible (first
        | assumption | exact Keeps.refl _ | apply hsPump_keeps)
    | dsimp only | split
    | with_reducible (first | refine Keeps.upd ?_ rfl rfl rfl rfl rfl rfl rfl rfl rfl))

theorem hsFail_keeps {w0 : State} (s : State) (peer : Nat) (hK : Keeps w0 s) :
    Keeps w0 (hsFail s peer) := by
  unfold hsFail
  repeat' (first
    | with_reducible (first
        | assumption | exact Keeps.refl _ | apply settleWaits_keeps | apply setSess_keeps | apply KeepsA.bind)
    | dsimp only | split
    | with_reducible (first | refine Keeps.upd ?_ rfl rfl rfl rfl rfl rfl rfl rfl rfl))

theorem wakeClaim_keeps {w0 : State} (s : State) (p : Nat) (fp : BitVec 96) (st : BitVec 16) (hK : Keeps w0 s) :
    Keeps w0 (wakeClaim s p fp st) := by
  unfold wakeClaim
  repeat' (first
    | with_reducible (first
        | assumption | exact Keeps.refl _ | apply modTx_keeps | apply modTx_keeps | apply Keeps.foldl | apply KeepsP.foldl)
    | dsimp only | split
    | with_reducible (first | intro _ | refine Keeps.upd ?_ rfl rfl rfl rfl rfl rfl rfl rfl rfl))

theorem claimAnswered_keeps {w0 : State} (s : State) (dtid : W32) (fp : BitVec 96) (a : ClaimAnswer) (hK : Keeps w0 s) :
    Keeps w0 (claimAnswered s dtid fp a) := by
  unfold claimAnswered
  repeat' (first
    | with_reducible (first
        | assumption | exact Keeps.refl _ | apply rplSettle_keeps | apply wakeClaim_keeps)
    | dsimp only | split
    | with_reducible (first | intro _ | refine Keeps.upd ?_ rfl rfl rfl rfl rfl rfl rfl rfl rfl))

theorem homeAnswer_keeps {w0 : State} (s : State) (dtid : W32) (fp : BitVec 96) (hK : Keeps w0 s) :
    KeepsP w0 (homeAnswer s dtid fp) := by
  unfold homeAnswer
  repeat' (first
    | with_reducible (first
        | assumption | exact Keeps.refl _ | apply rplRecord_keeps | refine KeepsP.of ?_ (by assumption) | apply KeepsP.fst)
    | dsimp only | split
    | with_reducible (first | apply KeepsP.mk | refine Keeps.upd ?_ rfl rfl rfl rfl rfl rfl rfl rfl rfl))

theorem serveClaim_keeps {w0 : State} (s : State) (src : Nat) (dtid : W32) (fp : BitVec 96) (hK : Keeps w0 s) :
    Keeps w0 (serveClaim s src dtid fp) := by
  unfold serveClaim
  repeat' (first
    | with_reducible (first
        | assumption | exact Keeps.refl _ | apply sendMsg_keeps | apply claimAnswered_keeps | apply homeAnswer_keeps
        | refine KeepsP.of ?_ (by assumption) | apply KeepsP.fst)
    | dsimp only | split
    | with_reducible (first | apply KeepsP.mk | refine Keeps.upd ?_ rfl rfl rfl rfl rfl rfl rfl rfl rfl))

theorem serveHeld_keeps {w0 : State} (s : State) (hK : Keeps w0 s) :
    Keeps w0 (serveHeld s) := by
  unfold serveHeld
  repeat' (first
    | with_reducible (first
        | assumption | exact Keeps.refl _ | apply serveClaim_keeps | apply Keeps.foldl | apply KeepsP.foldl)
    | dsimp only | split
    | with_reducible (first | intro _ | refine Keeps.upd ?_ rfl rfl rfl rfl rfl rfl rfl rfl rfl))

theorem resendClaims_keeps {w0 : State} (s : State) (p : ClaimW → Bool) (hK : Keeps w0 s) :
    Keeps w0 (resendClaims s p) := by
  unfold resendClaims
  repeat' (first
    | with_reducible (first
        | assumption | exact Keeps.refl _ | apply sendMsg_keeps | apply serveClaim_keeps | apply Keeps.foldl
        | apply KeepsP.foldl)
    | dsimp only | split
    | with_reducible (first | intro _ | refine Keeps.upd ?_ rfl rfl rfl rfl rfl rfl rfl rfl rfl))

theorem rehomeFrom_keeps {w0 : State} (s : State) (dtid : W32) (old : List Nat) (hK : Keeps w0 s) :
    Keeps w0 (rehomeFrom s dtid old) := by
  unfold rehomeFrom
  repeat' (first
    | with_reducible (first
        | assumption | exact Keeps.refl _ | apply sendMsg_keeps | apply serveHeld_keeps | apply resendClaims_keeps
        | apply Keeps.foldl | apply KeepsP.foldl)
    | dsimp only | split
    | with_reducible (first | intro _ | refine Keeps.upd ?_ rfl rfl rfl rfl rfl rfl rfl rfl rfl))

theorem rehomeAll_keeps {w0 : State} (before s : State) (hK : Keeps w0 s) :
    Keeps w0 (rehomeAll before s) := by
  unfold rehomeAll
  repeat' (first
    | with_reducible (first
        | assumption | exact Keeps.refl _ | apply rehomeFrom_keeps | apply Keeps.foldl | apply KeepsP.foldl)
    | dsimp only | split
    | with_reducible (first | intro _ | refine Keeps.upd ?_ rfl rfl rfl rfl rfl rfl rfl rfl rfl))

theorem announce_keeps {w0 : State} (before s : State) (hK : Keeps w0 s) :
    Keeps w0 (announce before s) := by
  unfold announce
  repeat' (first
    | with_reducible (first
        | assumption | exact Keeps.refl _ | apply sendMsg_keeps | apply rehomeAll_keeps | apply Keeps.foldl
        | apply KeepsP.foldl | apply KeepsA.bind)
    | dsimp only | split
    | with_reducible (first | intro _ | refine Keeps.upd ?_ rfl rfl rfl rfl rfl rfl rfl rfl rfl))

theorem rehomeDone_keeps {w0 : State} (s : State) (dtid : W32) (node : Nat) (hK : Keeps w0 s) :
    Keeps w0 (rehomeDone s dtid node) := by
  unfold rehomeDone
  repeat' (first
    | with_reducible (first
        | assumption | exact Keeps.refl _ | apply serveHeld_keeps | apply resendClaims_keeps)
    | dsimp only | split
    | with_reducible (first | intro _ | refine Keeps.upd ?_ rfl rfl rfl rfl rfl rfl rfl rfl rfl))

theorem sendShared_keeps {w0 : State} (s : State) (peer : Nat) (dtid : W32) (hK : Keeps w0 s) :
    Keeps w0 (sendShared s peer dtid) := by
  unfold sendShared
  repeat' (first
    | with_reducible (first
        | assumption | exact Keeps.refl _ | apply sendMsg_keeps | apply Keeps.foldl | apply KeepsP.foldl)
    | dsimp only | split
    | with_reducible (first | intro _ | refine Keeps.upd ?_ rfl rfl rfl rfl rfl rfl rfl rfl rfl))

theorem sessUp_keeps {w0 : State} (s : State) (peer : Nat) (hK : Keeps w0 s) :
    Keeps w0 (sessUp s peer) := by
  unfold sessUp
  repeat' (first
    | with_reducible (first
        | assumption | exact Keeps.refl _ | apply drawn_keeps | apply setCab_keeps | apply newSecret_keeps
        | apply setSess_keeps | apply sendMsg_keeps | apply serveHeld_keeps | apply resendClaims_keeps | apply KeepsA.bind
        | refine KeepsP.of ?_ (by assumption) | apply KeepsP.fst)
    | dsimp only | split
    | with_reducible (first | apply KeepsP.mk | intro _ | refine Keeps.upd ?_ rfl rfl rfl rfl rfl rfl rfl rfl rfl))

theorem sessDown_keeps {w0 : State} (s : State) (peer : Nat) (hK : Keeps w0 s) :
    Keeps w0 (sessDown s peer) := by
  unfold sessDown
  repeat' (first
    | with_reducible (first
        | assumption | exact Keeps.refl _ | apply settleWaits_keeps | apply setSess_keeps | apply cluFlag_keeps
        | apply rplSettle_keeps | apply startHs_keeps | apply Keeps.foldl | apply KeepsP.foldl | apply KeepsA.bind)
    | dsimp only | split
    | with_reducible (first | intro _ | refine Keeps.upd ?_ rfl rfl rfl rfl rfl rfl rfl rfl rfl))

theorem dropSessions_keeps {w0 : State} (s : State) (hK : Keeps w0 s) :
    Keeps w0 (dropSessions s) := by
  unfold dropSessions
  repeat' (first
    | with_reducible (first
        | assumption | exact Keeps.refl _ | apply setSess_keeps | apply sessDown_keeps | apply Keeps.foldl
        | apply KeepsP.foldl | apply KeepsA.bind)
    | dsimp only | split
    | with_reducible (first | intro _ | refine Keeps.upd ?_ rfl rfl rfl rfl rfl rfl rfl rfl rfl))

theorem fecNote_keeps {w0 : State} (s : State) (h : Hdr) (hK : Keeps w0 s) :
    Keeps w0 (fecNote s h) := by
  unfold fecNote
  repeat' (first
    | with_reducible (first
        | assumption | exact Keeps.refl _)
    | dsimp only | split
    | with_reducible (first | refine Keeps.upd ?_ rfl rfl rfl rfl rfl rfl rfl rfl rfl))

theorem receive_keeps {w0 : State} (s : State) (h : Hdr) (run : State → Nat → State) (hK : Keeps w0 s) (h_run : ∀ (a0 : State) (a1 : Nat), Keeps w0 a0 → Keeps w0 (run a0 a1)) :
    Keeps w0 (receive s h run) := by
  unfold receive
  repeat' (first
    | with_reducible (first
        | assumption | exact Keeps.refl _ | apply h_run | apply setSess_keeps | apply sendMsg_keeps | apply fecNote_keeps
        | apply authFail_keeps)
    | dsimp only | split
    | with_reducible (first | intro _ | refine Keeps.upd ?_ rfl rfl rfl rfl rfl rfl rfl rfl rfl))

theorem inV2_keeps {w0 : State} (run : State → Nat → State) (s : State) (p : Nat) (hK : Keeps w0 s) (h_run : ∀ (a0 : State) (a1 : Nat), Keeps w0 a0 → Keeps w0 (run a0 a1)) :
    Keeps w0 (inV2 run s p) := by
  unfold inV2
  repeat' (first
    | with_reducible (first
        | assumption | exact Keeps.refl _ | apply h_run)
    | dsimp only | split
    | with_reducible (first | intro _ | refine Keeps.upd ?_ rfl rfl rfl rfl rfl rfl rfl rfl rfl))

/-! `Machine.Plots` -/

theorem tryOpen_keeps {w0 : State} (s : State) (p : Nat) (hK : Keeps w0 s) :
    Keeps w0 (tryOpen s p) := by
  unfold tryOpen
  repeat' (first
    | with_reducible (first
        | assumption | exact Keeps.refl _ | apply setPlot_keeps | apply plotEvent_keeps | apply enterState_keeps
        | apply setPlot_keeps)
    | dsimp only | split
    | with_reducible (first | refine Keeps.upd ?_ rfl rfl rfl rfl rfl rfl rfl rfl rfl))

theorem openRequest_keeps {w0 : State} (s : State) (p : Nat) (v : W32) (hK : Keeps w0 s) :
    Keeps w0 (openRequest s p v) := by
  unfold openRequest
  repeat' (first
    | with_reducible (first
        | assumption | exact Keeps.refl _ | apply setPlot_keeps | apply plotEvent_keeps | apply tryOpen_keeps
        | apply setPlot_keeps)
    | dsimp only | split
    | with_reducible (first | refine Keeps.upd ?_ rfl rfl rfl rfl rfl rfl rfl rfl rfl))

theorem execPltVopenGo_keeps {w0 : State} (p : PlotId) (value : W32) (s : State) (hK : Keeps w0 s) :
    KeepsR w0 (execPltVopenGo p value s) := by
  unfold execPltVopenGo
  repeat' (first
    | with_reducible (first
        | assumption | exact Keeps.refl _ | apply KeepsR.next | exact KeepsR.fault | exact KeepsR.refused
        | apply openRequest_keeps)
    | dsimp only | split
    | with_reducible (first | refine Keeps.upd ?_ rfl rfl rfl rfl rfl rfl rfl rfl rfl))

theorem startReset_keeps {w0 : State} (s : State) (p : Nat) (st : PlotSt) (hK : Keeps w0 s) :
    Keeps w0 (startReset s p st) := by
  unfold startReset
  repeat' (first
    | with_reducible (first
        | assumption | exact Keeps.refl _ | apply modPlot_keeps | apply squashTx_keeps | apply endScope_keeps
        | apply modPlot_keeps | apply Keeps.foldl | apply KeepsP.foldl)
    | dsimp only | split
    | with_reducible (first | intro _ | refine Keeps.upd ?_ rfl rfl rfl rfl rfl rfl rfl rfl rfl))

theorem resetPlot_keeps {w0 : State} (s : State) (p : Nat) (hK : Keeps w0 s) :
    Keeps w0 (resetPlot s p) := by
  unfold resetPlot
  repeat' (first
    | with_reducible (first
        | assumption | exact Keeps.refl _ | apply startReset_keeps)
    | dsimp only | split
    | with_reducible (first | refine Keeps.upd ?_ rfl rfl rfl rfl rfl rfl rfl rfl rfl))

theorem clearWindow_keeps {w0 : State} (s : State) (p : Nat) (hK : Keeps w0 s) :
    Keeps w0 (clearWindow s p) := by
  unfold clearWindow
  repeat' (first
    | with_reducible (first
        | assumption | exact Keeps.refl _ | apply modPlot_keeps | apply markReseed_keeps | apply modPlot_keeps)
    | dsimp only | split
    | with_reducible (first | intro _ | refine Keeps.upd ?_ rfl rfl rfl rfl rfl rfl rfl rfl rfl))

theorem resetComplete_keeps {w0 : State} (s : State) (p : Nat) (hK : Keeps w0 s) :
    Keeps w0 (resetComplete s p) := by
  unfold resetComplete
  repeat' (first
    | with_reducible (first
        | assumption | exact Keeps.refl _ | apply modPlot_keeps | apply enterState_keeps | apply admOk_keeps
        | apply forwardAdmin_keeps | apply clearWindow_keeps | apply modPlot_keeps | apply Keeps.foldl | apply KeepsP.foldl)
    | dsimp only | split
    | with_reducible (first | intro _ | refine Keeps.upd ?_ rfl rfl rfl rfl rfl rfl rfl rfl rfl))

theorem execResetSequenceComplete_keeps {w0 : State} (p : PlotId) (s : State) (hK : Keeps w0 s) :
    KeepsR w0 (execResetSequenceComplete p s) := by
  unfold execResetSequenceComplete
  repeat' (first
    | with_reducible (first
        | assumption | exact Keeps.refl _ | apply KeepsR.next | exact KeepsR.fault | exact KeepsR.refused
        | apply resetComplete_keeps)
    | dsimp only | split
    | with_reducible (first | refine Keeps.upd ?_ rfl rfl rfl rfl rfl rfl rfl rfl rfl))

theorem dropPlotKeys_keeps {w0 : State} (s : State) (p : Nat) (hK : Keeps w0 s) :
    Keeps w0 (dropPlotKeys s p) := by
  unfold dropPlotKeys
  repeat' (first
    | with_reducible (first
        | assumption | exact Keeps.refl _)
    | dsimp only | split
    | with_reducible (first | intro _ | refine Keeps.upd ?_ rfl rfl rfl rfl rfl rfl rfl rfl rfl))

theorem dropPrograms_keeps {w0 : State} (s : State) (p : Nat) (hK : Keeps w0 s) :
    Keeps w0 (dropPrograms s p) := by
  unfold dropPrograms
  repeat' (first
    | with_reducible (first
        | assumption | exact Keeps.refl _ | apply Keeps.foldl | apply KeepsP.foldl)
    | dsimp only | split
    | with_reducible (first | intro _ | refine Keeps.upd ?_ rfl rfl rfl rfl rfl rfl rfl rfl rfl))

theorem removalComplete_keeps {w0 : State} (s : State) (p : Nat) (hK : Keeps w0 s) :
    Keeps w0 (removalComplete s p) := by
  unfold removalComplete
  repeat' (first
    | with_reducible (first
        | assumption | exact Keeps.refl _ | apply setPlot_keeps | apply writeReserved_keeps | apply setSeed_keeps
        | apply saveRecord_keeps | apply admOk_keeps | apply forwardAdmin_keeps | apply setRegistry_keeps
        | apply announce_keeps | apply dropPlotKeys_keeps | apply dropPrograms_keeps | apply setPlot_keeps)
    | dsimp only | split
    | with_reducible (first | refine Keeps.upd ?_ rfl rfl rfl rfl rfl rfl rfl rfl rfl))

theorem execRemovalSequenceComplete_keeps {w0 : State} (p : PlotId) (s : State) (hK : Keeps w0 s) :
    KeepsR w0 (execRemovalSequenceComplete p s) := by
  unfold execRemovalSequenceComplete
  repeat' (first
    | with_reducible (first
        | assumption | exact Keeps.refl _ | apply KeepsR.next | exact KeepsR.fault | exact KeepsR.refused
        | apply removalComplete_keeps)
    | dsimp only | split
    | with_reducible (first | refine Keeps.upd ?_ rfl rfl rfl rfl rfl rfl rfl rfl rfl))

theorem plotCmd_keeps {w0 : State} (code : BitVec 16) (args : State → Adm → Bool) (sts : List PlotSt) (quorum : State → Adm → Bool) (run : State → Adm → State) (s : State) (hK : Keeps w0 s) (h_run : ∀ (a0 : State) (a1 : Adm), Keeps w0 a0 → Keeps w0 (run a0 a1)) :
    KeepsR w0 (plotCmd code args sts quorum run s) := by
  unfold plotCmd
  repeat' (first
    | with_reducible (first
        | assumption | exact Keeps.refl _ | apply KeepsR.next | exact KeepsR.fault | exact KeepsR.refused | apply h_run
        | apply admin_keeps | apply notStandby_keeps)
    | dsimp only | split
    | with_reducible (first | intro _ | refine Keeps.upd ?_ rfl rfl rfl rfl rfl rfl rfl rfl rfl))

theorem createPlot_keeps {w0 : State} (s : State) (d : Adm) (hK : Keeps w0 s) :
    Keeps w0 (createPlot s d) := by
  unfold createPlot
  repeat' (first
    | with_reducible (first
        | assumption | exact Keeps.refl _ | apply setPlot_keeps | apply enterState_keeps | apply writeReserved_keeps
        | apply setSeed_keeps | apply saveRecord_keeps | apply modDrill_keeps | apply wantSeed_keeps | apply newSecret_keeps
        | apply admOk_keeps | apply forwardAdmin_keeps | apply setPlot_keeps | refine KeepsP.of ?_ (by assumption)
        | apply KeepsP.fst)
    | dsimp only | split
    | with_reducible (first | apply KeepsP.mk | intro _ | refine Keeps.upd ?_ rfl rfl rfl rfl rfl rfl rfl rfl rfl))

theorem runCreate_keeps {w0 : State} (s : State) (d : Adm) (hK : Keeps w0 s) :
    Keeps w0 (runCreate s d) := by
  unfold runCreate
  repeat' (first
    | with_reducible (first
        | assumption | exact Keeps.refl _ | apply reserve_keeps | apply keyGen_keeps | apply keyServed_keeps
        | apply keyHeld_keeps | apply admFail_keeps | apply createPlot_keeps | refine KeepsP.of ?_ (by assumption)
        | apply KeepsP.fst)
    | dsimp only | split
    | with_reducible (first | apply KeepsP.mk | refine Keeps.upd ?_ rfl rfl rfl rfl rfl rfl rfl rfl rfl))

theorem execPlotCreate_keeps {w0 : State} (s : State) (hK : Keeps w0 s) :
    KeepsR w0 (execPlotCreate s) := by
  unfold execPlotCreate
  repeat' (first
    | with_reducible (first
        | assumption | exact Keeps.refl _ | apply KeepsR.next | exact KeepsR.fault | exact KeepsR.refused
        | apply plotCmd_keeps | apply runCreate_keeps)
    | dsimp only | split
    | with_reducible (first | intro _ | refine Keeps.upd ?_ rfl rfl rfl rfl rfl rfl rfl rfl rfl))

theorem runOpen_keeps {w0 : State} (s : State) (d : Adm) (hK : Keeps w0 s) :
    Keeps w0 (runOpen s d) := by
  unfold runOpen
  repeat' (first
    | with_reducible (first
        | assumption | exact Keeps.refl _ | apply modPlot_keeps | apply saveRecord_keeps | apply admOk_keeps
        | apply forwardAdmin_keeps | apply tryOpen_keeps | apply modPlot_keeps)
    | dsimp only | split
    | with_reducible (first | intro _ | refine Keeps.upd ?_ rfl rfl rfl rfl rfl rfl rfl rfl rfl))

theorem execPlotOpen_keeps {w0 : State} (s : State) (hK : Keeps w0 s) :
    KeepsR w0 (execPlotOpen s) := by
  unfold execPlotOpen
  repeat' (first
    | with_reducible (first
        | assumption | exact Keeps.refl _ | apply KeepsR.next | exact KeepsR.fault | exact KeepsR.refused
        | apply plotCmd_keeps | apply runOpen_keeps)
    | dsimp only | split
    | with_reducible (first | intro _ | refine Keeps.upd ?_ rfl rfl rfl rfl rfl rfl rfl rfl rfl))

theorem stopPlot_keeps {w0 : State} (s : State) (p : Nat) (hK : Keeps w0 s) :
    Keeps w0 (stopPlot s p) := by
  unfold stopPlot
  repeat' (first
    | with_reducible (first
        | assumption | exact Keeps.refl _ | apply enterState_keeps | apply checkStopped_keeps)
    | dsimp only | split
    | with_reducible (first | refine Keeps.upd ?_ rfl rfl rfl rfl rfl rfl rfl rfl rfl))

theorem runStop_keeps {w0 : State} (s : State) (d : Adm) (hK : Keeps w0 s) :
    Keeps w0 (runStop s d) := by
  unfold runStop
  repeat' (first
    | with_reducible (first
        | assumption | exact Keeps.refl _ | apply modPlot_keeps | apply saveRecord_keeps | apply admOk_keeps
        | apply forwardAdmin_keeps | apply stopPlot_keeps | apply modPlot_keeps)
    | dsimp only | split
    | with_reducible (first | intro _ | refine Keeps.upd ?_ rfl rfl rfl rfl rfl rfl rfl rfl rfl))

theorem execPlotStop_keeps {w0 : State} (s : State) (hK : Keeps w0 s) :
    KeepsR w0 (execPlotStop s) := by
  unfold execPlotStop
  repeat' (first
    | with_reducible (first
        | assumption | exact Keeps.refl _ | apply KeepsR.next | exact KeepsR.fault | exact KeepsR.refused
        | apply plotCmd_keeps | apply runStop_keeps)
    | dsimp only | split
    | with_reducible (first | intro _ | refine Keeps.upd ?_ rfl rfl rfl rfl rfl rfl rfl rfl rfl))

theorem startPlot_keeps {w0 : State} (s : State) (p : Nat) (hK : Keeps w0 s) :
    Keeps w0 (startPlot s p) := by
  unfold startPlot
  repeat' (first
    | with_reducible (first
        | assumption | exact Keeps.refl _ | apply modPlot_keeps | apply enterState_keeps | apply modPlot_keeps)
    | dsimp only | split
    | with_reducible (first | intro _ | refine Keeps.upd ?_ rfl rfl rfl rfl rfl rfl rfl rfl rfl))

theorem runStart_keeps {w0 : State} (s : State) (d : Adm) (hK : Keeps w0 s) :
    Keeps w0 (runStart s d) := by
  unfold runStart
  repeat' (first
    | with_reducible (first
        | assumption | exact Keeps.refl _ | apply saveRecord_keeps | apply admOk_keeps | apply forwardAdmin_keeps
        | apply startPlot_keeps)
    | dsimp only | split
    | with_reducible (first | refine Keeps.upd ?_ rfl rfl rfl rfl rfl rfl rfl rfl rfl))

theorem execPlotStart_keeps {w0 : State} (s : State) (hK : Keeps w0 s) :
    KeepsR w0 (execPlotStart s) := by
  unfold execPlotStart
  repeat' (first
    | with_reducible (first
        | assumption | exact Keeps.refl _ | apply KeepsR.next | exact KeepsR.fault | exact KeepsR.refused
        | apply plotCmd_keeps | apply runStart_keeps)
    | dsimp only | split
    | with_reducible (first | intro _ | refine Keeps.upd ?_ rfl rfl rfl rfl rfl rfl rfl rfl rfl))

theorem runResize_keeps {w0 : State} (s : State) (d : Adm) (hK : Keeps w0 s) :
    Keeps w0 (runResize s d) := by
  unfold runResize
  repeat' (first
    | with_reducible (first
        | assumption | exact Keeps.refl _ | apply modPlot_keeps | apply saveRecord_keeps | apply admOk_keeps
        | apply admFail_keeps | apply forwardAdmin_keeps | apply modPlot_keeps)
    | dsimp only | split
    | with_reducible (first | intro _ | refine Keeps.upd ?_ rfl rfl rfl rfl rfl rfl rfl rfl rfl))

theorem execPlotResize_keeps {w0 : State} (s : State) (hK : Keeps w0 s) :
    KeepsR w0 (execPlotResize s) := by
  unfold execPlotResize
  repeat' (first
    | with_reducible (first
        | assumption | exact Keeps.refl _ | apply KeepsR.next | exact KeepsR.fault | exact KeepsR.refused
        | apply plotCmd_keeps | apply runResize_keeps)
    | dsimp only | split
    | with_reducible (first | intro _ | refine Keeps.upd ?_ rfl rfl rfl rfl rfl rfl rfl rfl rfl))

theorem runReset_keeps {w0 : State} (s : State) (d : Adm) (hK : Keeps w0 s) :
    Keeps w0 (runReset s d) := by
  unfold runReset
  repeat' (first
    | with_reducible (first
        | assumption | exact Keeps.refl _ | apply modPlot_keeps | apply saveRecord_keeps | apply startReset_keeps
        | apply modPlot_keeps)
    | dsimp only | split
    | with_reducible (first | intro _ | refine Keeps.upd ?_ rfl rfl rfl rfl rfl rfl rfl rfl rfl))

theorem execPlotReset_keeps {w0 : State} (s : State) (hK : Keeps w0 s) :
    KeepsR w0 (execPlotReset s) := by
  unfold execPlotReset
  repeat' (first
    | with_reducible (first
        | assumption | exact Keeps.refl _ | apply KeepsR.next | exact KeepsR.fault | exact KeepsR.refused
        | apply plotCmd_keeps | apply runReset_keeps)
    | dsimp only | split
    | with_reducible (first | intro _ | refine Keeps.upd ?_ rfl rfl rfl rfl rfl rfl rfl rfl rfl))

theorem runRemove_keeps {w0 : State} (s : State) (d : Adm) (hK : Keeps w0 s) :
    Keeps w0 (runRemove s d) := by
  unfold runRemove
  repeat' (first
    | with_reducible (first
        | assumption | exact Keeps.refl _ | apply modPlot_keeps | apply reserve_keeps | apply admFail_keeps
        | apply startReset_keeps | apply modPlot_keeps)
    | dsimp only | split
    | with_reducible (first | intro _ | refine Keeps.upd ?_ rfl rfl rfl rfl rfl rfl rfl rfl rfl))

theorem execPlotRemove_keeps {w0 : State} (s : State) (hK : Keeps w0 s) :
    KeepsR w0 (execPlotRemove s) := by
  unfold execPlotRemove
  repeat' (first
    | with_reducible (first
        | assumption | exact Keeps.refl _ | apply KeepsR.next | exact KeepsR.fault | exact KeepsR.refused | apply admin_keeps
        | apply notStandby_keeps | apply runRemove_keeps)
    | dsimp only | split
    | with_reducible (first | intro _ | refine Keeps.upd ?_ rfl rfl rfl rfl rfl rfl rfl rfl rfl))

theorem runStage_keeps {w0 : State} (r : HostRead) (s : State) (d : Adm) (hK : Keeps w0 s) :
    Keeps w0 (runStage r s d) := by
  unfold runStage
  repeat' (first
    | with_reducible (first
        | assumption | exact Keeps.refl _ | apply modPlot_keeps | apply saveRecord_keeps | apply admOk_keeps
        | apply admFail_keeps | apply admRead_keeps | apply forwardData_keeps | apply modPlot_keeps)
    | dsimp only | split
    | with_reducible (first | intro _ | refine Keeps.upd ?_ rfl rfl rfl rfl rfl rfl rfl rfl rfl))

theorem execPlotPolicyStage_keeps {w0 : State} (r : HostRead) (s : State) (hK : Keeps w0 s) :
    KeepsR w0 (execPlotPolicyStage r s) := by
  unfold execPlotPolicyStage
  repeat' (first
    | with_reducible (first
        | assumption | exact Keeps.refl _ | apply KeepsR.next | exact KeepsR.fault | exact KeepsR.refused
        | apply plotCmd_keeps | apply runStage_keeps)
    | dsimp only | split
    | with_reducible (first | intro _ | refine Keeps.upd ?_ rfl rfl rfl rfl rfl rfl rfl rfl rfl))

theorem runCommit_keeps {w0 : State} (s : State) (d : Adm) (hK : Keeps w0 s) :
    Keeps w0 (runCommit s d) := by
  unfold runCommit
  repeat' (first
    | with_reducible (first
        | assumption | exact Keeps.refl _ | apply setPlot_keeps | apply plotEvent_keeps | apply reserve_keeps
        | apply writeReserved_keeps | apply saveRecord_keeps | apply drillCheck_keeps | apply admOk_keeps
        | apply admFail_keeps | apply forwardAdmin_keeps | apply setPlot_keeps)
    | dsimp only | split
    | with_reducible (first | refine Keeps.upd ?_ rfl rfl rfl rfl rfl rfl rfl rfl rfl))

theorem execPlotPolicyCommit_keeps {w0 : State} (s : State) (hK : Keeps w0 s) :
    KeepsR w0 (execPlotPolicyCommit s) := by
  unfold execPlotPolicyCommit
  repeat' (first
    | with_reducible (first
        | assumption | exact Keeps.refl _ | apply KeepsR.next | exact KeepsR.fault | exact KeepsR.refused
        | apply plotCmd_keeps | apply runCommit_keeps)
    | dsimp only | split
    | with_reducible (first | intro _ | refine Keeps.upd ?_ rfl rfl rfl rfl rfl rfl rfl rfl rfl))

theorem runQuery_keeps {w0 : State} (s : State) (d : Adm) (hK : Keeps w0 s) :
    Keeps w0 (runQuery s d) := by
  unfold runQuery
  repeat' (first
    | with_reducible (first
        | assumption | exact Keeps.refl _ | apply admResult_keeps)
    | dsimp only | split
    | with_reducible (first | refine Keeps.upd ?_ rfl rfl rfl rfl rfl rfl rfl rfl rfl))

theorem execPlotQuery_keeps {w0 : State} (s : State) (hK : Keeps w0 s) :
    KeepsR w0 (execPlotQuery s) := by
  unfold execPlotQuery
  repeat' (first
    | with_reducible (first
        | assumption | exact Keeps.refl _ | apply KeepsR.next | exact KeepsR.fault | exact KeepsR.refused | apply admin_keeps
        | apply notStandby_keeps | apply runQuery_keeps)
    | dsimp only | split
    | with_reducible (first | intro _ | refine Keeps.upd ?_ rfl rfl rfl rfl rfl rfl rfl rfl rfl))

theorem drawerVec_keeps {w0 : State} (s : State) (hK : Keeps w0 s) :
    Keeps w0 (drawerVec s) := by
  unfold drawerVec
  repeat' (first
    | with_reducible (first
        | assumption | exact Keeps.refl _ | apply raiseVec_keeps)
    | dsimp only | split
    | with_reducible (first | refine Keeps.upd ?_ rfl rfl rfl rfl rfl rfl rfl rfl rfl))

theorem runSend_keeps {w0 : State} (s : State) (d : Adm) (hK : Keeps w0 s) :
    Keeps w0 (runSend s d) := by
  unfold runSend
  repeat' (first
    | with_reducible (first
        | assumption | exact Keeps.refl _ | apply modPlot_keeps | apply plotEvent_keeps | apply admOk_keeps
        | apply admFail_keeps | apply modPlot_keeps)
    | dsimp only | split
    | with_reducible (first | intro _ | refine Keeps.upd ?_ rfl rfl rfl rfl rfl rfl rfl rfl rfl))

theorem execDrawerSend_keeps {w0 : State} (s : State) (hK : Keeps w0 s) :
    KeepsR w0 (execDrawerSend s) := by
  unfold execDrawerSend
  repeat' (first
    | with_reducible (first
        | assumption | exact Keeps.refl _ | apply KeepsR.next | exact KeepsR.fault | exact KeepsR.refused | apply admin_keeps
        | apply notStandby_keeps | apply runSend_keeps)
    | dsimp only | split
    | with_reducible (first | intro _ | refine Keeps.upd ?_ rfl rfl rfl rfl rfl rfl rfl rfl rfl))

theorem runRecv_keeps {w0 : State} (s : State) (d : Adm) (hK : Keeps w0 s) :
    Keeps w0 (runRecv s d) := by
  unfold runRecv
  repeat' (first
    | with_reducible (first
        | assumption | exact Keeps.refl _ | apply setPlot_keeps | apply plotEvent_keeps | apply admResult_keeps
        | apply setPlot_keeps)
    | dsimp only | split
    | with_reducible (first | refine Keeps.upd ?_ rfl rfl rfl rfl rfl rfl rfl rfl rfl))

theorem execDrawerRecv_keeps {w0 : State} (s : State) (hK : Keeps w0 s) :
    KeepsR w0 (execDrawerRecv s) := by
  unfold execDrawerRecv
  repeat' (first
    | with_reducible (first
        | assumption | exact Keeps.refl _ | apply KeepsR.next | exact KeepsR.fault | exact KeepsR.refused | apply admin_keeps
        | apply notStandby_keeps | apply runRecv_keeps)
    | dsimp only | split
    | with_reducible (first | intro _ | refine Keeps.upd ?_ rfl rfl rfl rfl rfl rfl rfl rfl rfl))

theorem execInValid_keeps {w0 : State} (p : PlotId) (s : State) (hK : Keeps w0 s) :
    KeepsR w0 (execInValid p s) := by
  unfold execInValid
  repeat' (first
    | with_reducible (first
        | assumption | exact Keeps.refl _ | apply KeepsR.next | exact KeepsR.fault | exact KeepsR.refused
        | apply setPlot_keeps | apply drawerVec_keeps | apply setPlot_keeps)
    | dsimp only | split
    | with_reducible (first | refine Keeps.upd ?_ rfl rfl rfl rfl rfl rfl rfl rfl rfl))

theorem execOutAck_keeps {w0 : State} (p : PlotId) (s : State) (hK : Keeps w0 s) :
    KeepsR w0 (execOutAck p s) := by
  unfold execOutAck
  repeat' (first
    | with_reducible (first
        | assumption | exact Keeps.refl _ | apply KeepsR.next | exact KeepsR.fault | exact KeepsR.refused
        | apply setPlot_keeps | apply drawerVec_keeps | apply setPlot_keeps)
    | dsimp only | split
    | with_reducible (first | refine Keeps.upd ?_ rfl rfl rfl rfl rfl rfl rfl rfl rfl))

theorem execPlotTick_keeps {w0 : State} (p : PlotId) (s : State) (hK : Keeps w0 s) :
    KeepsR w0 (execPlotTick p s) := by
  unfold execPlotTick
  repeat' (first
    | with_reducible (first
        | assumption | exact Keeps.refl _ | apply KeepsR.next | exact KeepsR.fault | exact KeepsR.refused
        | apply modPlot_keeps | apply advanceTo_keeps | apply modPlot_keeps)
    | dsimp only | split
    | with_reducible (first | intro _ | refine Keeps.upd ?_ rfl rfl rfl rfl rfl rfl rfl rfl rfl))

theorem clearMsix_keeps {w0 : State} (s : State) (f : Fn) (hK : Keeps w0 s) :
    Keeps w0 (clearMsix s f) := by
  unfold clearMsix
  repeat' (first
    | with_reducible (first
        | assumption | exact Keeps.refl _ | apply setMsix_keeps)
    | dsimp only | split
    | with_reducible (first | refine Keeps.upd ?_ rfl rfl rfl rfl rfl rfl rfl rfl rfl))

theorem flr_keeps {w0 : State} (s : State) (p : Nat) (hK : Keeps w0 s) :
    Keeps w0 (flr s p) := by
  unfold flr
  repeat' (first
    | with_reducible (first
        | assumption | exact Keeps.refl _ | apply resetPlot_keeps | apply clearMsix_keeps)
    | dsimp only | split
    | with_reducible (first | refine Keeps.upd ?_ rfl rfl rfl rfl rfl rfl rfl rfl rfl))

theorem flrAll_keeps {w0 : State} (s : State) (hK : Keeps w0 s) :
    Keeps w0 (flrAll s) := by
  unfold flrAll
  repeat' (first
    | with_reducible (first
        | assumption | exact Keeps.refl _ | apply resetPlot_keeps | apply Keeps.foldl | apply KeepsP.foldl)
    | dsimp only | split
    | with_reducible (first | intro _ | refine Keeps.upd ?_ rfl rfl rfl rfl rfl rfl rfl rfl rfl))

theorem execVfFlr_keeps {w0 : State} (p : PlotId) (s : State) (hK : Keeps w0 s) :
    KeepsR w0 (execVfFlr p s) := by
  unfold execVfFlr
  repeat' (first
    | with_reducible (first
        | assumption | exact Keeps.refl _ | apply KeepsR.next | exact KeepsR.fault | exact KeepsR.refused | apply flr_keeps)
    | dsimp only | split
    | with_reducible (first | refine Keeps.upd ?_ rfl rfl rfl rfl rfl rfl rfl rfl rfl))

theorem execVfEnableClear_keeps {w0 : State} (s : State) (hK : Keeps w0 s) :
    KeepsR w0 (execVfEnableClear s) := by
  unfold execVfEnableClear
  repeat' (first
    | with_reducible (first
        | assumption | exact Keeps.refl _ | apply KeepsR.next | exact KeepsR.fault | exact KeepsR.refused | apply flrAll_keeps)
    | dsimp only | split
    | with_reducible (first | refine Keeps.upd ?_ rfl rfl rfl rfl rfl rfl rfl rfl rfl))

theorem execVfEnableSet_keeps {w0 : State} (numVfs : Nat) (s : State) (hK : Keeps w0 s) :
    KeepsR w0 (execVfEnableSet numVfs s) := by
  unfold execVfEnableSet
  repeat' (first
    | with_reducible (first
        | assumption | exact Keeps.refl _ | apply KeepsR.next | exact KeepsR.fault | exact KeepsR.refused)
    | dsimp only | split
    | with_reducible (first | refine Keeps.upd ?_ rfl rfl rfl rfl rfl rfl rfl rfl rfl))

theorem silenceAll_keeps {w0 : State} (s : State) (hK : Keeps w0 s) : Keeps w0 (silenceAll s) := by
  unfold silenceAll
  exact Keeps.updG hK rfl (fun h => twf_tmap h _) (fun h k => ⟨h, k⟩) id (fun _ => Nat.le_refl _) id (Nat.le_refl _) (Nat.le_refl _) (List.prefix_refl _)

theorem clearManager_keeps {w0 : State} (s : State) (hK : Keeps w0 s) : Keeps w0 (clearManager s) := by
  unfold clearManager
  exact Keeps.updG hK rfl (fun h => twf_tmap h _) (fun h k => ⟨h, k⟩) id (fun _ => Nat.le_refl _) id (Nat.le_refl _) (Nat.le_refl _) (List.prefix_refl _)

theorem clearAdminHopper_keeps {w0 : State} (s : State) (hK : Keeps w0 s) :
    Keeps w0 (clearAdminHopper s) := by
  unfold clearAdminHopper
  repeat' (first
    | with_reducible (first
        | assumption | exact Keeps.refl _ | apply admin_keeps)
    | dsimp only | split
    | with_reducible (first | intro _ | refine Keeps.upd ?_ rfl rfl rfl rfl rfl rfl rfl rfl rfl))

theorem pf0Reset_keeps {w0 : State} (s : State) (hK : Keeps w0 s) :
    Keeps w0 (pf0Reset s) := by
  unfold pf0Reset
  repeat' (first
    | with_reducible (first
        | assumption | exact Keeps.refl _ | apply clearMsix_keeps | apply flrAll_keeps | apply silenceAll_keeps
        | apply clearManager_keeps | apply clearAdminHopper_keeps)
    | dsimp only | split
    | with_reducible (first | refine Keeps.upd ?_ rfl rfl rfl rfl rfl rfl rfl rfl rfl))

theorem execPf0Flr_keeps {w0 : State} (s : State) (hK : Keeps w0 s) :
    KeepsR w0 (execPf0Flr s) := by
  unfold execPf0Flr
  repeat' (first
    | with_reducible (first
        | assumption | exact Keeps.refl _ | apply KeepsR.next | exact KeepsR.fault | exact KeepsR.refused
        | apply pf0Reset_keeps)
    | dsimp only | split
    | with_reducible (first | refine Keeps.upd ?_ rfl rfl rfl rfl rfl rfl rfl rfl rfl))

theorem endpointReset_keeps {w0 : State} (s : State) (hK : Keeps w0 s) :
    Keeps w0 (endpointReset s) := by
  unfold endpointReset
  repeat' (first
    | with_reducible (first
        | assumption | exact Keeps.refl _ | apply pf0Reset_keeps)
    | dsimp only | split
    | with_reducible (first | refine Keeps.upd ?_ rfl rfl rfl rfl rfl rfl rfl rfl rfl))

theorem execPerstN_keeps {w0 : State} (s : State) (hK : Keeps w0 s) :
    KeepsR w0 (execPerstN s) := by
  unfold execPerstN
  repeat' (first
    | with_reducible (first
        | assumption | exact Keeps.refl _ | apply KeepsR.next | exact KeepsR.fault | exact KeepsR.refused
        | apply endpointReset_keeps)
    | dsimp only | split
    | with_reducible (first | refine Keeps.upd ?_ rfl rfl rfl rfl rfl rfl rfl rfl rfl))

theorem execPerstNRelease_keeps {w0 : State} (s : State) (hK : Keeps w0 s) :
    KeepsR w0 (execPerstNRelease s) := by
  unfold execPerstNRelease
  repeat' (first
    | with_reducible (first
        | assumption | exact Keeps.refl _ | apply KeepsR.next | exact KeepsR.fault | exact KeepsR.refused | apply inert_keeps)
    | dsimp only | split
    | with_reducible (first | refine Keeps.upd ?_ rfl rfl rfl rfl rfl rfl rfl rfl rfl))

/-! `Machine.Curves` -/

theorem keepCurve_keeps {w0 : State} (s : State) (d : Adm) (b : Bytes) (hK : Keeps w0 s) :
    Keeps w0 (keepCurve s d b) := by
  unfold keepCurve
  repeat' (first
    | with_reducible (first
        | assumption | exact Keeps.refl _ | apply modPlot_keeps | apply reserve_keeps | apply writeReserved_keeps
        | apply saveRecord_keeps | apply admOk_keeps | apply forwardData_keeps | apply modPlot_keeps)
    | dsimp only | split
    | with_reducible (first | intro _ | refine Keeps.upd ?_ rfl rfl rfl rfl rfl rfl rfl rfl rfl))

theorem loadCurve_keeps {w0 : State} (s : State) (d : Adm) (b : Bytes) (hK : Keeps w0 s) :
    Keeps w0 (loadCurve s d b) := by
  unfold loadCurve
  repeat' (first
    | with_reducible (first
        | assumption | exact Keeps.refl _ | apply drawn_keeps | apply privDraws_keeps | apply keyServed_keeps
        | apply keyHeld_keeps | apply admFail_keeps | apply keepCurve_keeps | refine KeepsP.of ?_ (by assumption)
        | apply KeepsP.fst)
    | dsimp only | split
    | with_reducible (first | apply KeepsP.mk | refine Keeps.upd ?_ rfl rfl rfl rfl rfl rfl rfl rfl rfl))

theorem runCurveLoad_keeps {w0 : State} (r : HostRead) (s : State) (d : Adm) (hK : Keeps w0 s) :
    Keeps w0 (runCurveLoad r s d) := by
  unfold runCurveLoad
  repeat' (first
    | with_reducible (first
        | assumption | exact Keeps.refl _ | apply admRead_keeps | apply loadCurve_keeps)
    | dsimp only | split
    | with_reducible (first | intro _ | refine Keeps.upd ?_ rfl rfl rfl rfl rfl rfl rfl rfl rfl))

theorem execPkeCurveLoad_keeps {w0 : State} (r : HostRead) (s : State) (hK : Keeps w0 s) :
    KeepsR w0 (execPkeCurveLoad r s) := by
  unfold execPkeCurveLoad
  repeat' (first
    | with_reducible (first
        | assumption | exact Keeps.refl _ | apply KeepsR.next | exact KeepsR.fault | exact KeepsR.refused
        | apply plotCmd_keeps | apply runCurveLoad_keeps)
    | dsimp only | split
    | with_reducible (first | intro _ | refine Keeps.upd ?_ rfl rfl rfl rfl rfl rfl rfl rfl rfl))

theorem runCurveClear_keeps {w0 : State} (s : State) (d : Adm) (hK : Keeps w0 s) :
    Keeps w0 (runCurveClear s d) := by
  unfold runCurveClear
  repeat' (first
    | with_reducible (first
        | assumption | exact Keeps.refl _ | apply modPlot_keeps | apply reserve_keeps | apply writeReserved_keeps
        | apply saveRecord_keeps | apply admOk_keeps | apply admFail_keeps | apply forwardAdmin_keeps | apply modPlot_keeps)
    | dsimp only | split
    | with_reducible (first | intro _ | refine Keeps.upd ?_ rfl rfl rfl rfl rfl rfl rfl rfl rfl))

theorem execPkeCurveClear_keeps {w0 : State} (s : State) (hK : Keeps w0 s) :
    KeepsR w0 (execPkeCurveClear s) := by
  unfold execPkeCurveClear
  repeat' (first
    | with_reducible (first
        | assumption | exact Keeps.refl _ | apply KeepsR.next | exact KeepsR.fault | exact KeepsR.refused
        | apply plotCmd_keeps | apply runCurveClear_keeps)
    | dsimp only | split
    | with_reducible (first | intro _ | refine Keeps.upd ?_ rfl rfl rfl rfl rfl rfl rfl rfl rfl))

theorem pubkeyDone_keeps {w0 : State} (s : State) (d : Adm) (l : Learn) (st : BitVec 16) (hK : Keeps w0 s) :
    Keeps w0 (pubkeyDone s d l st) := by
  unfold pubkeyDone
  repeat' (first
    | with_reducible (first
        | assumption | exact Keeps.refl _ | apply unreserve_keeps | apply writeReserved_keeps | apply admEnd_keeps
        | apply admFail_keeps | apply forwardData_keeps)
    | dsimp only | split
    | with_reducible (first | refine Keeps.upd ?_ rfl rfl rfl rfl rfl rfl rfl rfl rfl))

theorem loadPubkey_keeps {w0 : State} (s : State) (d : Adm) (b : Bytes) (hK : Keeps w0 s) :
    Keeps w0 (loadPubkey s d b) := by
  unfold loadPubkey
  repeat' (first
    | with_reducible (first
        | assumption | exact Keeps.refl _ | apply reserve_keeps | apply learnFor_keeps | apply admFail_keeps
        | apply admin_keeps | apply pubkeyDone_keeps | refine KeepsP.of ?_ (by assumption) | apply KeepsP.fst)
    | dsimp only | split
    | with_reducible (first | apply KeepsP.mk | intro _ | refine Keeps.upd ?_ rfl rfl rfl rfl rfl rfl rfl rfl rfl))

theorem runPubkeyLoad_keeps {w0 : State} (r : HostRead) (s : State) (d : Adm) (hK : Keeps w0 s) :
    Keeps w0 (runPubkeyLoad r s d) := by
  unfold runPubkeyLoad
  repeat' (first
    | with_reducible (first
        | assumption | exact Keeps.refl _ | apply admRead_keeps | apply loadPubkey_keeps)
    | dsimp only | split
    | with_reducible (first | intro _ | refine Keeps.upd ?_ rfl rfl rfl rfl rfl rfl rfl rfl rfl))

theorem execPkePubkeyLoad_keeps {w0 : State} (r : HostRead) (s : State) (hK : Keeps w0 s) :
    KeepsR w0 (execPkePubkeyLoad r s) := by
  unfold execPkePubkeyLoad
  repeat' (first
    | with_reducible (first
        | assumption | exact Keeps.refl _ | apply KeepsR.next | exact KeepsR.fault | exact KeepsR.refused
        | apply plotCmd_keeps | apply runPubkeyLoad_keeps)
    | dsimp only | split
    | with_reducible (first | intro _ | refine Keeps.upd ?_ rfl rfl rfl rfl rfl rfl rfl rfl rfl))

/-! `Machine.Programs` -/

theorem progCmd_keeps {w0 : State} (code : BitVec 16) (args : State → Adm → Bool) (run : State → Adm → State) (s : State) (hK : Keeps w0 s) (h_run : ∀ (a0 : State) (a1 : Adm), Keeps w0 a0 → Keeps w0 (run a0 a1)) :
    KeepsR w0 (progCmd code args run s) := by
  unfold progCmd
  repeat' (first
    | with_reducible (first
        | assumption | exact Keeps.refl _ | apply KeepsR.next | exact KeepsR.fault | exact KeepsR.refused | apply h_run
        | apply plotCmd_keeps)
    | dsimp only | split
    | with_reducible (first | intro _ | refine Keeps.upd ?_ rfl rfl rfl rfl rfl rfl rfl rfl rfl))

theorem recorded_keeps {w0 : State} (s : State) (d : Adm) (code : BitVec 16) (payload data : Bytes) (act : State → State) (hK : Keeps w0 s) (h_act : ∀ (a0 : State), Keeps w0 a0 → Keeps w0 (act a0)) :
    Keeps w0 (recorded s d code payload data act) := by
  unfold recorded
  repeat' (first
    | with_reducible (first
        | assumption | exact Keeps.refl _ | apply h_act | apply reserve_keeps | apply writeReserved_keeps
        | apply saveRecord_keeps | apply admOk_keeps | apply admFail_keeps | apply forwardData_keeps)
    | dsimp only | split
    | with_reducible (first | intro _ | refine Keeps.upd ?_ rfl rfl rfl rfl rfl rfl rfl rfl rfl))

theorem addSigner_keeps {w0 : State} (s : State) (d : Adm) (key : Bytes) (hK : Keeps w0 s) :
    Keeps w0 (addSigner s d key) := by
  unfold addSigner
  repeat' (first
    | with_reducible (first
        | assumption | exact Keeps.refl _ | apply modPlot_keeps | apply recorded_keeps | apply modPlot_keeps)
    | dsimp only | split
    | with_reducible (first | intro _ | refine Keeps.upd ?_ rfl rfl rfl rfl rfl rfl rfl rfl rfl))

theorem runSignerAdd_keeps {w0 : State} (r : HostRead) (s : State) (d : Adm) (hK : Keeps w0 s) :
    Keeps w0 (runSignerAdd r s d) := by
  unfold runSignerAdd
  repeat' (first
    | with_reducible (first
        | assumption | exact Keeps.refl _ | apply admFail_keeps | apply admRead_keeps | apply addSigner_keeps)
    | dsimp only | split
    | with_reducible (first | intro _ | refine Keeps.upd ?_ rfl rfl rfl rfl rfl rfl rfl rfl rfl))

theorem execProgSignerAdd_keeps {w0 : State} (r : HostRead) (s : State) (hK : Keeps w0 s) :
    KeepsR w0 (execProgSignerAdd r s) := by
  unfold execProgSignerAdd
  repeat' (first
    | with_reducible (first
        | assumption | exact Keeps.refl _ | apply KeepsR.next | exact KeepsR.fault | exact KeepsR.refused
        | apply progCmd_keeps | apply runSignerAdd_keeps)
    | dsimp only | split
    | with_reducible (first | intro _ | refine Keeps.upd ?_ rfl rfl rfl rfl rfl rfl rfl rfl rfl))

theorem runSignerRemove_keeps {w0 : State} (s : State) (d : Adm) (hK : Keeps w0 s) :
    Keeps w0 (runSignerRemove s d) := by
  unfold runSignerRemove
  repeat' (first
    | with_reducible (first
        | assumption | exact Keeps.refl _ | apply modPlot_keeps | apply admFail_keeps | apply recorded_keeps
        | apply modPlot_keeps)
    | dsimp only | split
    | with_reducible (first | intro _ | refine Keeps.upd ?_ rfl rfl rfl rfl rfl rfl rfl rfl rfl))

theorem execProgSignerRemove_keeps {w0 : State} (s : State) (hK : Keeps w0 s) :
    KeepsR w0 (execProgSignerRemove s) := by
  unfold execProgSignerRemove
  repeat' (first
    | with_reducible (first
        | assumption | exact Keeps.refl _ | apply KeepsR.next | exact KeepsR.fault | exact KeepsR.refused
        | apply progCmd_keeps | apply runSignerRemove_keeps)
    | dsimp only | split
    | with_reducible (first | intro _ | refine Keeps.upd ?_ rfl rfl rfl rfl rfl rfl rfl rfl rfl))

theorem placeImage_keeps {w0 : State} (s : State) (p : Nat) (b : Bytes) (g : Nat) (hK : Keeps w0 s) :
    Keeps w0 (placeImage s p b g) := by
  unfold placeImage
  repeat' (first
    | with_reducible (first
        | assumption | exact Keeps.refl _ | apply modPlot_keeps | apply modPlot_keeps | apply Keeps.foldl | apply KeepsP.foldl)
    | dsimp only | split
    | with_reducible (first | intro _ | refine Keeps.upd ?_ rfl rfl rfl rfl rfl rfl rfl rfl rfl))

theorem install_keeps {w0 : State} (s : State) (d : Adm) (b : Bytes) (hK : Keeps w0 s) :
    Keeps w0 (install s d b) := by
  unfold install
  repeat' (first
    | with_reducible (first
        | assumption | exact Keeps.refl _ | apply admFail_keeps | apply recorded_keeps | apply placeImage_keeps)
    | dsimp only | split
    | with_reducible (first | intro _ | refine Keeps.upd ?_ rfl rfl rfl rfl rfl rfl rfl rfl rfl))

theorem runInstall_keeps {w0 : State} (r : HostRead) (s : State) (d : Adm) (hK : Keeps w0 s) :
    Keeps w0 (runInstall r s d) := by
  unfold runInstall
  repeat' (first
    | with_reducible (first
        | assumption | exact Keeps.refl _ | apply admFail_keeps | apply admRead_keeps | apply install_keeps)
    | dsimp only | split
    | with_reducible (first | intro _ | refine Keeps.upd ?_ rfl rfl rfl rfl rfl rfl rfl rfl rfl))

theorem execProgInstall_keeps {w0 : State} (r : HostRead) (s : State) (hK : Keeps w0 s) :
    KeepsR w0 (execProgInstall r s) := by
  unfold execProgInstall
  repeat' (first
    | with_reducible (first
        | assumption | exact Keeps.refl _ | apply KeepsR.next | exact KeepsR.fault | exact KeepsR.refused
        | apply progCmd_keeps | apply runInstall_keeps)
    | dsimp only | split
    | with_reducible (first | intro _ | refine Keeps.upd ?_ rfl rfl rfl rfl rfl rfl rfl rfl rfl))

theorem runProgRemove_keeps {w0 : State} (s : State) (d : Adm) (hK : Keeps w0 s) :
    Keeps w0 (runProgRemove s d) := by
  unfold runProgRemove
  repeat' (first
    | with_reducible (first
        | assumption | exact Keeps.refl _ | apply modPlot_keeps | apply admFail_keeps | apply recorded_keeps
        | apply modPlot_keeps)
    | dsimp only | split
    | with_reducible (first | intro _ | refine Keeps.upd ?_ rfl rfl rfl rfl rfl rfl rfl rfl rfl))

theorem execProgRemove_keeps {w0 : State} (s : State) (hK : Keeps w0 s) :
    KeepsR w0 (execProgRemove s) := by
  unfold execProgRemove
  repeat' (first
    | with_reducible (first
        | assumption | exact Keeps.refl _ | apply KeepsR.next | exact KeepsR.fault | exact KeepsR.refused
        | apply progCmd_keeps | apply runProgRemove_keeps)
    | dsimp only | split
    | with_reducible (first | intro _ | refine Keeps.upd ?_ rfl rfl rfl rfl rfl rfl rfl rfl rfl))

theorem runProgList_keeps {w0 : State} (s : State) (d : Adm) (hK : Keeps w0 s) :
    Keeps w0 (runProgList s d) := by
  unfold runProgList
  repeat' (first
    | with_reducible (first
        | assumption | exact Keeps.refl _ | apply admResult_keeps)
    | dsimp only | split
    | with_reducible (first | refine Keeps.upd ?_ rfl rfl rfl rfl rfl rfl rfl rfl rfl))

theorem execProgList_keeps {w0 : State} (s : State) (hK : Keeps w0 s) :
    KeepsR w0 (execProgList s) := by
  unfold execProgList
  repeat' (first
    | with_reducible (first
        | assumption | exact Keeps.refl _ | apply KeepsR.next | exact KeepsR.fault | exact KeepsR.refused | apply admin_keeps
        | apply notStandby_keeps | apply runProgList_keeps)
    | dsimp only | split
    | with_reducible (first | intro _ | refine Keeps.upd ?_ rfl rfl rfl rfl rfl rfl rfl rfl rfl))

end Sys2Proof.Machine
end

