-- ==== Sys2Proof/Laws/KeepsLife.lean ====
section
/-! SUPPORT. What every effect keeps, function by function: the start, the keeper, the cluster, the custodians, the debug port. -/

namespace Sys2Proof.Machine
set_option linter.unusedVariables false
set_option linter.unusedTactic false
set_option linter.unreachableTactic false
set_option linter.unusedSimpArgs false

/-! `Machine.StartOps` -/

theorem setBank_keeps {w0 : State} (s : State) (b : Bool) (x : Bank) (hK : Keeps w0 s) :
    Keeps w0 (State.setBank s b x) := by
  unfold State.setBank
  repeat' (first
    | with_reducible (first
        | assumption | exact Keeps.refl _)
    | dsimp only | split
    | with_reducible (first | refine Keeps.upd ?_ rfl rfl rfl rfl rfl rfl rfl rfl rfl))

theorem zeroCabinet_keeps {w0 : State} (s : State) (hK : Keeps w0 s) :
    Keeps w0 (zeroCabinet s) := by
  unfold zeroCabinet
  repeat' (first
    | with_reducible (first
        | assumption | exact Keeps.refl _)
    | dsimp only | split
    | with_reducible (first | refine Keeps.upd ?_ rfl rfl rfl rfl rfl rfl rfl rfl rfl))

theorem bootRng_keeps {w0 : State} (s : State) (hK : Keeps w0 s) :
    Keeps w0 (bootRng s) := by
  unfold bootRng
  repeat' (first
    | with_reducible (first
        | assumption | exact Keeps.refl _ | apply modPriv_keeps | apply wantSeed_keeps | apply Keeps.foldl
        | apply KeepsP.foldl)
    | dsimp only | split
    | with_reducible (first | intro _ | refine Keeps.upd ?_ rfl rfl rfl rfl rfl rfl rfl rfl rfl))

theorem zeroKeyPlane_keeps {w0 : State} (s : State) (hK : Keeps w0 s) : Keeps w0 (zeroKeyPlane s) := by
  unfold zeroKeyPlane
  exact bootRng_keeps _ (Keeps.updG hK rfl id (fun _ _ => ⟨rfl, fun _ => rfl⟩) (fun _ => rfl) (fun _ => Nat.le_refl _) id (Nat.le_refl _) (Nat.le_refl _) (List.prefix_refl _))

theorem wipe_keeps {w0 : State} (s : State) (link power : Bool) (ph : Phase) (hK : Keeps w0 s) : Keeps w0 (wipe s link power ph) := by
  unfold wipe
  exact Keeps.updG hK rfl (fun _ => rfl) (fun _ _ => ⟨rfl, fun _ => rfl⟩) (fun _ => rfl) (fun _ => Nat.le_refl _) id (Nat.le_refl _) (Nat.le_refl _) (List.prefix_refl _)

theorem restart_keeps {w0 : State} (s : State) (cause : BitVec 4) (link : Bool) (ends : Nat) (hK : Keeps w0 s) :
    Keeps w0 (restart s cause link ends) := by
  unfold restart
  repeat' (first
    | with_reducible (first
        | assumption | exact Keeps.refl _ | apply endSession_keeps | apply bootRng_keeps | apply wipe_keeps)
    | dsimp only | split
    | with_reducible (first | refine Keeps.upd ?_ rfl rfl rfl rfl rfl rfl rfl rfl rfl))

theorem newEpoch_keeps {w0 : State} (s : State) (hK : Keeps w0 s) : Keeps w0 (newEpoch s) := by
  unfold newEpoch
  split
  · exact hK
  · have h := newSecret_keeps _ 16 (privGen_keeps s 0 hK)
    exact Keeps.foldl (fun _ _ k => keepEvent_keeps _ _ _ k) _
      (event_keeps _ _ _ _ _ (Keeps.upd h.fst rfl rfl rfl rfl rfl rfl rfl rfl rfl))

theorem countStart_keeps {w0 : State} (s : State) (hK : Keeps w0 s) :
    Keeps w0 (countStart s) := by
  unfold countStart
  repeat' (first
    | with_reducible (first
        | assumption | exact Keeps.refl _ | apply event_keeps)
    | dsimp only | split
    | with_reducible (first | refine Keeps.upd ?_ rfl rfl rfl rfl rfl rfl rfl rfl rfl))

theorem startFail_keeps {w0 : State} (s : State) (reason test : Byte) (ran : Bool) (hK : Keeps w0 s) :
    Keeps w0 (startFail s reason test ran) := by
  unfold startFail
  repeat' (first
    | with_reducible (first
        | assumption | exact Keeps.refl _ | apply event_keeps | apply restart_keeps)
    | dsimp only | split
    | with_reducible (first | refine Keeps.upd ?_ rfl rfl rfl rfl rfl rfl rfl rfl rfl))

/-! `Machine.Keeper` -/

theorem kprEvent_keeps {w0 : State} (s : State) (b : Nat) (hK : Keeps w0 s) :
    Keeps w0 (kprEvent s b) := by
  unfold kprEvent
  repeat' (first
    | with_reducible (first
        | assumption | exact Keeps.refl _ | apply event_keeps)
    | dsimp only | split
    | with_reducible (first | refine Keeps.upd ?_ rfl rfl rfl rfl rfl rfl rfl rfl rfl))

theorem logTrip_keeps_pre1 {w0 : State} (cause : BitVec 16) (temp : BitVec 8) (test : Bool) (s : State) (k : Keeper)
    (hK : Keeps w0 s) : Keeps w0 (logTrip.put cause temp test s k) := by
  unfold logTrip.put
  dsimp only
  split
  · exact kprEvent_keeps _ _ (Keeps.upd hK rfl rfl rfl rfl rfl rfl rfl rfl rfl)
  · exact Keeps.upd hK rfl rfl rfl rfl rfl rfl rfl rfl rfl

theorem logTrip_keeps {w0 : State} (s : State) (cause : BitVec 16) (temp : BitVec 8) (test : Bool) (hK : Keeps w0 s) :
    Keeps w0 (logTrip s cause temp test) := by
  unfold logTrip
  dsimp only
  split
  · split
    · exact Keeps.upd hK rfl rfl rfl rfl rfl rfl rfl rfl rfl
    · split
      · exact Keeps.upd hK rfl rfl rfl rfl rfl rfl rfl rfl rfl
      · exact logTrip_keeps_pre1 _ _ _ _ _ hK
  · exact logTrip_keeps_pre1 _ _ _ _ _ hK

theorem execLogWindowClose_keeps {w0 : State} (s : State) (hK : Keeps w0 s) :
    KeepsR w0 (execLogWindowClose s) := by
  unfold execLogWindowClose
  repeat' (first
    | with_reducible (first
        | assumption | exact Keeps.refl _ | apply KeepsR.next | exact KeepsR.fault | exact KeepsR.refused)
    | dsimp only | split
    | with_reducible (first | refine Keeps.upd ?_ rfl rfl rfl rfl rfl rfl rfl rfl rfl))

theorem tamperResponse_keeps {w0 : State} (s : State) (bit : BitVec 16) (temp : BitVec 8) (hK : Keeps w0 s) :
    Keeps w0 (tamperResponse s bit temp) := by
  unfold tamperResponse
  repeat' (first
    | with_reducible (first
        | assumption | exact Keeps.refl _ | apply modEvent_keeps | apply zeroCabinet_keeps | apply restart_keeps
        | apply kprEvent_keeps | apply logTrip_keeps | apply inert_keeps)
    | dsimp only | split
    | with_reducible (first | refine Keeps.upd ?_ rfl rfl rfl rfl rfl rfl rfl rfl rfl))

theorem trip_keeps {w0 : State} (s : State) (c : Nat) (temp : BitVec 8) (hK : Keeps w0 s) :
    Keeps w0 (trip s c temp) := by
  unfold trip
  repeat' (first
    | with_reducible (first
        | assumption | exact Keeps.refl _ | apply logTrip_keeps | apply tamperResponse_keeps)
    | dsimp only | split
    | with_reducible (first | refine Keeps.upd ?_ rfl rfl rfl rfl rfl rfl rfl rfl rfl))

theorem execTamper_keeps {w0 : State} (cause : Fin 15) (temp : BitVec 8) (s : State) (hK : Keeps w0 s) :
    KeepsR w0 (execTamper cause temp s) := by
  unfold execTamper
  repeat' (first
    | with_reducible (first
        | assumption | exact Keeps.refl _ | apply KeepsR.next | exact KeepsR.fault | exact KeepsR.refused | apply trip_keeps)
    | dsimp only | split
    | with_reducible (first | refine Keeps.upd ?_ rfl rfl rfl rfl rfl rfl rfl rfl rfl))

theorem execTamperConditionClear_keeps {w0 : State} (cause : Fin 15) (s : State) (hK : Keeps w0 s) :
    KeepsR w0 (execTamperConditionClear cause s) := by
  unfold execTamperConditionClear
  repeat' (first
    | with_reducible (first
        | assumption | exact Keeps.refl _ | apply KeepsR.next | exact KeepsR.fault | exact KeepsR.refused)
    | dsimp only | split
    | with_reducible (first | refine Keeps.upd ?_ rfl rfl rfl rfl rfl rfl rfl rfl rfl))

theorem execKeeperPowerOn_keeps {w0 : State} (s : State) (hK : Keeps w0 s) :
    KeepsR w0 (execKeeperPowerOn s) := by
  unfold execKeeperPowerOn
  repeat' (first
    | with_reducible (first
        | assumption | exact Keeps.refl _ | apply KeepsR.next | exact KeepsR.fault | exact KeepsR.refused)
    | dsimp only | split
    | with_reducible (first | refine Keeps.upd ?_ rfl rfl rfl rfl rfl rfl rfl rfl rfl))

theorem execKeeperSupplyLoss_keeps {w0 : State} (s : State) (hK : Keeps w0 s) :
    KeepsR w0 (execKeeperSupplyLoss s) := by
  unfold execKeeperSupplyLoss
  repeat' (first
    | with_reducible (first
        | assumption | exact Keeps.refl _ | apply KeepsR.next | exact KeepsR.fault | exact KeepsR.refused
        | apply zeroCabinet_keeps)
    | dsimp only | split
    | with_reducible (first | refine Keeps.upd ?_ rfl rfl rfl rfl rfl rfl rfl rfl rfl))

theorem execKeeperSourceSwitch_keeps {w0 : State} (toBattery : Bool) (s : State) (hK : Keeps w0 s) :
    KeepsR w0 (execKeeperSourceSwitch toBattery s) := by
  unfold execKeeperSourceSwitch
  repeat' (first
    | with_reducible (first
        | assumption | exact Keeps.refl _ | apply KeepsR.next | exact KeepsR.fault | exact KeepsR.refused)
    | dsimp only | split
    | with_reducible (first | refine Keeps.upd ?_ rfl rfl rfl rfl rfl rfl rfl rfl rfl))

theorem execBatLow_keeps {w0 : State} (s : State) (hK : Keeps w0 s) :
    KeepsR w0 (execBatLow s) := by
  unfold execBatLow
  repeat' (first
    | with_reducible (first
        | assumption | exact Keeps.refl _ | apply KeepsR.next | exact KeepsR.fault | exact KeepsR.refused
        | apply kprEvent_keeps)
    | dsimp only | split
    | with_reducible (first | refine Keeps.upd ?_ rfl rfl rfl rfl rfl rfl rfl rfl rfl))

theorem execBatLowClear_keeps {w0 : State} (s : State) (hK : Keeps w0 s) :
    KeepsR w0 (execBatLowClear s) := by
  unfold execBatLowClear
  repeat' (first
    | with_reducible (first
        | assumption | exact Keeps.refl _ | apply KeepsR.next | exact KeepsR.fault | exact KeepsR.refused)
    | dsimp only | split
    | with_reducible (first | refine Keeps.upd ?_ rfl rfl rfl rfl rfl rfl rfl rfl rfl))

theorem execOperatingMinute_keeps {w0 : State} (s : State) (hK : Keeps w0 s) :
    KeepsR w0 (execOperatingMinute s) := by
  unfold execOperatingMinute
  repeat' (first
    | with_reducible (first
        | assumption | exact Keeps.refl _ | apply KeepsR.next | exact KeepsR.fault | exact KeepsR.refused)
    | dsimp only | split
    | with_reducible (first | refine Keeps.upd ?_ rfl rfl rfl rfl rfl rfl rfl rfl rfl))

theorem execKprVoltUpdate_keeps {w0 : State} (kvbatMv : BitVec 16) (temp : BitVec 16) (s : State) (hK : Keeps w0 s) :
    KeepsR w0 (execKprVoltUpdate kvbatMv temp s) := by
  unfold execKprVoltUpdate
  repeat' (first
    | with_reducible (first
        | assumption | exact Keeps.refl _ | apply KeepsR.next | exact KeepsR.fault | exact KeepsR.refused)
    | dsimp only | split
    | with_reducible (first | refine Keeps.upd ?_ rfl rfl rfl rfl rfl rfl rfl rfl rfl))

theorem runLoopSet_keeps {w0 : State} (s : State) (d : Adm) (hK : Keeps w0 s) :
    Keeps w0 (runLoopSet s d) := by
  unfold runLoopSet
  repeat' (first
    | with_reducible (first
        | assumption | exact Keeps.refl _ | apply event_keeps | apply admOk_keeps)
    | dsimp only | split
    | with_reducible (first | refine Keeps.upd ?_ rfl rfl rfl rfl rfl rfl rfl rfl rfl))

theorem execTmpLoopSet_keeps {w0 : State} (s : State) (hK : Keeps w0 s) :
    KeepsR w0 (execTmpLoopSet s) := by
  unfold execTmpLoopSet
  repeat' (first
    | with_reducible (first
        | assumption | exact Keeps.refl _ | apply KeepsR.next | exact KeepsR.fault | exact KeepsR.refused | apply admin_keeps
        | apply runLoopSet_keeps)
    | dsimp only | split
    | with_reducible (first | intro _ | refine Keeps.upd ?_ rfl rfl rfl rfl rfl rfl rfl rfl rfl))

theorem rearm_keeps {w0 : State} (s : State) (d : Adm) (hK : Keeps w0 s) :
    Keeps w0 (rearm s d) := by
  unfold rearm
  repeat' (first
    | with_reducible (first
        | assumption | exact Keeps.refl _ | apply drawn_keeps | apply event_keeps | apply setCab_keeps
        | apply resealRegistries_keeps | apply admOk_keeps)
    | dsimp only | split
    | with_reducible (first | intro _ | refine Keeps.upd ?_ rfl rfl rfl rfl rfl rfl rfl rfl rfl))

theorem runRearm_keeps {w0 : State} (s : State) (d : Adm) (hK : Keeps w0 s) :
    Keeps w0 (runRearm s d) := by
  unfold runRearm
  repeat' (first
    | with_reducible (first
        | assumption | exact Keeps.refl _ | apply keyGens_keeps | apply keyServed_keeps | apply keyHeld_keeps
        | apply admFail_keeps | apply rearm_keeps | apply Res.state_keeps | refine KeepsP.of ?_ (by assumption)
        | apply KeepsP.fst)
    | dsimp only | split
    | with_reducible (first | apply KeepsP.mk | intro _ | refine Keeps.upd ?_ rfl rfl rfl rfl rfl rfl rfl rfl rfl))

theorem execTmpRearm_keeps {w0 : State} (s : State) (hK : Keeps w0 s) :
    KeepsR w0 (execTmpRearm s) := by
  unfold execTmpRearm
  repeat' (first
    | with_reducible (first
        | assumption | exact Keeps.refl _ | apply KeepsR.next | exact KeepsR.fault | exact KeepsR.refused | apply admin_keeps
        | apply runRearm_keeps | apply Res.state_keeps)
    | dsimp only | split
    | with_reducible (first | intro _ | refine Keeps.upd ?_ rfl rfl rfl rfl rfl rfl rfl rfl rfl))

theorem smbRead_keeps {w0 : State} (code : Nat) (b : Bytes) (s : State) (hK : Keeps w0 s) :
    KeepsR w0 (smbRead code b s) := by
  unfold smbRead
  repeat' (first
    | with_reducible (first
        | assumption | exact Keeps.refl _ | apply KeepsR.next | exact KeepsR.fault | exact KeepsR.refused | apply emit_keeps
        | apply smbus_keeps)
    | dsimp only | split
    | with_reducible (first | refine Keeps.upd ?_ rfl rfl rfl rfl rfl rfl rfl rfl rfl))

theorem smbus_keeps {w0 : State} (code n v : Nat) (s : State) (hK : Keeps w0 s) :
    KeepsR w0 (smbus code n v s) := by
  unfold smbus
  repeat' (first
    | with_reducible (first
        | assumption | exact Keeps.refl _ | apply KeepsR.next | exact KeepsR.fault | exact KeepsR.refused
        | apply smbRead_keeps)
    | dsimp only | split
    | with_reducible (first | refine Keeps.upd ?_ rfl rfl rfl rfl rfl rfl rfl rfl rfl))

theorem execSmbusDeviceId_keeps {w0 : State} (s : State) (hK : Keeps w0 s) :
    KeepsR w0 (execSmbusDeviceId s) := by
  unfold execSmbusDeviceId
  repeat' (first
    | with_reducible (first
        | assumption | exact Keeps.refl _ | apply KeepsR.next | exact KeepsR.fault | exact KeepsR.refused | apply smbus_keeps)
    | dsimp only | split
    | with_reducible (first | refine Keeps.upd ?_ rfl rfl rfl rfl rfl rfl rfl rfl rfl))

theorem execSmbusKprStat_keeps {w0 : State} (s : State) (hK : Keeps w0 s) :
    KeepsR w0 (execSmbusKprStat s) := by
  unfold execSmbusKprStat
  repeat' (first
    | with_reducible (first
        | assumption | exact Keeps.refl _ | apply KeepsR.next | exact KeepsR.fault | exact KeepsR.refused | apply smbus_keeps)
    | dsimp only | split
    | with_reducible (first | refine Keeps.upd ?_ rfl rfl rfl rfl rfl rfl rfl rfl rfl))

theorem execSmbusTmpCause_keeps {w0 : State} (s : State) (hK : Keeps w0 s) :
    KeepsR w0 (execSmbusTmpCause s) := by
  unfold execSmbusTmpCause
  repeat' (first
    | with_reducible (first
        | assumption | exact Keeps.refl _ | apply KeepsR.next | exact KeepsR.fault | exact KeepsR.refused | apply smbus_keeps)
    | dsimp only | split
    | with_reducible (first | refine Keeps.upd ?_ rfl rfl rfl rfl rfl rfl rfl rfl rfl))

theorem execSmbusTmpLive_keeps {w0 : State} (s : State) (hK : Keeps w0 s) :
    KeepsR w0 (execSmbusTmpLive s) := by
  unfold execSmbusTmpLive
  repeat' (first
    | with_reducible (first
        | assumption | exact Keeps.refl _ | apply KeepsR.next | exact KeepsR.fault | exact KeepsR.refused | apply smbus_keeps)
    | dsimp only | split
    | with_reducible (first | refine Keeps.upd ?_ rfl rfl rfl rfl rfl rfl rfl rfl rfl))

theorem execSmbusKprOpmin_keeps {w0 : State} (s : State) (hK : Keeps w0 s) :
    KeepsR w0 (execSmbusKprOpmin s) := by
  unfold execSmbusKprOpmin
  repeat' (first
    | with_reducible (first
        | assumption | exact Keeps.refl _ | apply KeepsR.next | exact KeepsR.fault | exact KeepsR.refused | apply smbus_keeps)
    | dsimp only | split
    | with_reducible (first | refine Keeps.upd ?_ rfl rfl rfl rfl rfl rfl rfl rfl rfl))

theorem execSmbusKprPwrcyc_keeps {w0 : State} (s : State) (hK : Keeps w0 s) :
    KeepsR w0 (execSmbusKprPwrcyc s) := by
  unfold execSmbusKprPwrcyc
  repeat' (first
    | with_reducible (first
        | assumption | exact Keeps.refl _ | apply KeepsR.next | exact KeepsR.fault | exact KeepsR.refused | apply smbus_keeps)
    | dsimp only | split
    | with_reducible (first | refine Keeps.upd ?_ rfl rfl rfl rfl rfl rfl rfl rfl rfl))

theorem execSmbusKprStartfail_keeps {w0 : State} (s : State) (hK : Keeps w0 s) :
    KeepsR w0 (execSmbusKprStartfail s) := by
  unfold execSmbusKprStartfail
  repeat' (first
    | with_reducible (first
        | assumption | exact Keeps.refl _ | apply KeepsR.next | exact KeepsR.fault | exact KeepsR.refused | apply smbus_keeps)
    | dsimp only | split
    | with_reducible (first | refine Keeps.upd ?_ rfl rfl rfl rfl rfl rfl rfl rfl rfl))

theorem execSmbusKprVolt_keeps {w0 : State} (s : State) (hK : Keeps w0 s) :
    KeepsR w0 (execSmbusKprVolt s) := by
  unfold execSmbusKprVolt
  repeat' (first
    | with_reducible (first
        | assumption | exact Keeps.refl _ | apply KeepsR.next | exact KeepsR.fault | exact KeepsR.refused | apply smbus_keeps)
    | dsimp only | split
    | with_reducible (first | refine Keeps.upd ?_ rfl rfl rfl rfl rfl rfl rfl rfl rfl))

theorem execSmbusTmpLoopCfg_keeps {w0 : State} (s : State) (hK : Keeps w0 s) :
    KeepsR w0 (execSmbusTmpLoopCfg s) := by
  unfold execSmbusTmpLoopCfg
  repeat' (first
    | with_reducible (first
        | assumption | exact Keeps.refl _ | apply KeepsR.next | exact KeepsR.fault | exact KeepsR.refused | apply smbus_keeps)
    | dsimp only | split
    | with_reducible (first | refine Keeps.upd ?_ rfl rfl rfl rfl rfl rfl rfl rfl rfl))

theorem execSmbusKprStarts_keeps {w0 : State} (s : State) (hK : Keeps w0 s) :
    KeepsR w0 (execSmbusKprStarts s) := by
  unfold execSmbusKprStarts
  repeat' (first
    | with_reducible (first
        | assumption | exact Keeps.refl _ | apply KeepsR.next | exact KeepsR.fault | exact KeepsR.refused | apply smbus_keeps)
    | dsimp only | split
    | with_reducible (first | refine Keeps.upd ?_ rfl rfl rfl rfl rfl rfl rfl rfl rfl))

theorem execSmbusTmpLog_keeps {w0 : State} (i : Fin 16) (s : State) (hK : Keeps w0 s) :
    KeepsR w0 (execSmbusTmpLog i s) := by
  unfold execSmbusTmpLog
  repeat' (first
    | with_reducible (first
        | assumption | exact Keeps.refl _ | apply KeepsR.next | exact KeepsR.fault | exact KeepsR.refused
        | apply smbRead_keeps)
    | dsimp only | split
    | with_reducible (first | refine Keeps.upd ?_ rfl rfl rfl rfl rfl rfl rfl rfl rfl))

theorem execSmbusWrite_keeps {w0 : State} (s : State) (hK : Keeps w0 s) :
    KeepsR w0 (execSmbusWrite s) := by
  unfold execSmbusWrite
  repeat' (first
    | with_reducible (first
        | assumption | exact Keeps.refl _ | apply KeepsR.next | exact KeepsR.fault | exact KeepsR.refused | apply emit_keeps
        | apply smbus_keeps)
    | dsimp only | split
    | with_reducible (first | refine Keeps.upd ?_ rfl rfl rfl rfl rfl rfl rfl rfl rfl))

/-! `Machine.Start` -/

theorem inert_keeps {w0 : State} (s : State) (st : BitVec 4) (hK : Keeps w0 s) :
    Keeps w0 (inert s st) := by
  unfold inert
  repeat' (first
    | with_reducible (first
        | assumption | exact Keeps.refl _ | apply wipe_keeps)
    | dsimp only | split
    | with_reducible (first | refine Keeps.upd ?_ rfl rfl rfl rfl rfl rfl rfl rfl rfl))

theorem scrap_keeps {w0 : State} (s : State) (hK : Keeps w0 s) : Keeps w0 (scrap s) := by
  unfold scrap
  exact Keeps.updG (inert_keeps s 5 hK) rfl id (fun h k => ⟨h, k⟩) id (fun _ => Nat.le_refl _) (fun _ => rfl) (Nat.le_refl _)
    (Nat.le_refl _) (List.prefix_refl _)

theorem tornRecord_keeps {w0 : State} (s : State) (hK : Keeps w0 s) :
    Keeps w0 (tornRecord s) := by
  unfold tornRecord
  repeat' (first
    | with_reducible (first
        | assumption | exact Keeps.refl _ | apply event_keeps)
    | dsimp only | split
    | with_reducible (first | refine Keeps.upd ?_ rfl rfl rfl rfl rfl rfl rfl rfl rfl))

theorem fallowEnter_keeps {w0 : State} (s : State) (hK : Keeps w0 s) :
    Keeps w0 (fallowEnter s) := by
  unfold fallowEnter
  repeat' (first
    | with_reducible (first
        | assumption | exact Keeps.refl _ | apply event_keeps | apply newEpoch_keeps | apply tornRecord_keeps)
    | dsimp only | split
    | with_reducible (first | refine Keeps.upd ?_ rfl rfl rfl rfl rfl rfl rfl rfl rfl))

theorem enterLcs_keeps {w0 : State} (s : State) (st : Nat) (hK : Keeps w0 s) :
    Keeps w0 (enterLcs s st) := by
  unfold enterLcs
  repeat' (first
    | with_reducible (first
        | assumption | exact Keeps.refl _ | apply event_keeps | apply setRegistry_keeps | apply zeroCabinet_keeps
        | apply zeroKeyPlane_keeps)
    | dsimp only | split
    | with_reducible (first | refine Keeps.upd ?_ rfl rfl rfl rfl rfl rfl rfl rfl rfl))

theorem handOne_keeps {w0 : State} (s : State) (hK : Keeps w0 s) :
    Keeps w0 (handOne s) := by
  unfold handOne
  repeat' (first
    | with_reducible (first
        | assumption | exact Keeps.refl _ | apply event_keeps)
    | dsimp only | split
    | with_reducible (first | refine Keeps.upd ?_ rfl rfl rfl rfl rfl rfl rfl rfl rfl))

theorem handOver_keeps {w0 : State} (s : State) (hK : Keeps w0 s) :
    Keeps w0 (handOver s) := by
  unfold handOver
  repeat' (first
    | with_reducible (first
        | assumption | exact Keeps.refl _ | apply handOne_keeps | apply Keeps.foldl | apply KeepsP.foldl)
    | dsimp only | split
    | with_reducible (first | intro _ | refine Keeps.upd ?_ rfl rfl rfl rfl rfl rfl rfl rfl rfl))

theorem seedPlots_keeps {w0 : State} (s : State) (hK : Keeps w0 s) :
    Keeps w0 (seedPlots s) := by
  unfold seedPlots
  repeat' (first
    | with_reducible (first
        | assumption | exact Keeps.refl _ | apply modDrill_keeps | apply wantSeed_keeps | apply Keeps.foldl
        | apply KeepsP.foldl)
    | dsimp only | split
    | with_reducible (first | intro _ | refine Keeps.upd ?_ rfl rfl rfl rfl rfl rfl rfl rfl rfl))

theorem restorePlots_keeps {w0 : State} (s : State) (hK : Keeps w0 s) :
    Keeps w0 (restorePlots s) := by
  unfold restorePlots
  repeat' (first
    | with_reducible (first
        | assumption | exact Keeps.refl _ | apply setPlot_keeps | apply setPlot_keeps | apply Keeps.foldl | apply KeepsP.foldl)
    | dsimp only | split
    | with_reducible (first | intro _ | refine Keeps.upd ?_ rfl rfl rfl rfl rfl rfl rfl rfl rfl))

theorem goLive_keeps {w0 : State} (s : State) (hK : Keeps w0 s) :
    Keeps w0 (goLive s) := by
  unfold goLive
  repeat' (first
    | with_reducible (first
        | assumption | exact Keeps.refl _)
    | dsimp only | split
    | with_reducible (first | refine Keeps.upd ?_ rfl rfl rfl rfl rfl rfl rfl rfl rfl))

theorem startSecrets_keeps {w0 : State} (s : State) (hK : Keeps w0 s) :
    Keeps w0 (startSecrets s) := by
  unfold startSecrets
  repeat' (first
    | with_reducible (first
        | assumption | exact Keeps.refl _ | apply privGen_keeps | apply newSecret_keeps | refine KeepsP.of ?_ (by assumption)
        | apply KeepsP.fst)
    | dsimp only | split
    | with_reducible (first | apply KeepsP.mk | refine Keeps.upd ?_ rfl rfl rfl rfl rfl rfl rfl rfl rfl))

theorem firmware_keeps {w0 : State} (s : State) (st : Nat) (hK : Keeps w0 s) :
    Keeps w0 (firmware s st) := by
  unfold firmware
  repeat' (first
    | with_reducible (first
        | assumption | exact Keeps.refl _ | apply newEpoch_keeps | apply tornRecord_keeps | apply enterLcs_keeps
        | apply handOver_keeps | apply restorePlots_keeps | apply goLive_keeps | apply startSecrets_keeps)
    | dsimp only | split
    | with_reducible (first | refine Keeps.upd ?_ rfl rfl rfl rfl rfl rfl rfl rfl rfl))

theorem finishRestore_keeps {w0 : State} (s : State) (hK : Keeps w0 s) :
    Keeps w0 (finishRestore s) := by
  unfold finishRestore
  repeat' (first
    | with_reducible (first
        | assumption | exact Keeps.refl _ | apply firmware_keeps | apply Res.state_keeps)
    | dsimp only | split
    | with_reducible (first | refine Keeps.upd ?_ rfl rfl rfl rfl rfl rfl rfl rfl rfl))

theorem moduleStart_keeps {w0 : State} (s : State) (env : StartEnv) (hK : Keeps w0 s) :
    Keeps w0 (moduleStart s env) := by
  unfold moduleStart
  repeat' (first
    | with_reducible (first
        | assumption | exact Keeps.refl _ | apply countStart_keeps | apply startFail_keeps | apply inert_keeps
        | apply scrap_keeps | apply fallowEnter_keeps | apply seedPlots_keeps | apply finishRestore_keeps)
    | dsimp only | split
    | with_reducible (first | refine Keeps.upd ?_ rfl rfl rfl rfl rfl rfl rfl rfl rfl))

theorem execModuleStart_keeps {w0 : State} (env : StartEnv) (s : State) (hK : Keeps w0 s) :
    KeepsR w0 (execModuleStart env s) := by
  unfold execModuleStart
  repeat' (first
    | with_reducible (first
        | assumption | exact Keeps.refl _ | apply KeepsR.next | exact KeepsR.fault | exact KeepsR.refused
        | apply moduleStart_keeps)
    | dsimp only | split
    | with_reducible (first | refine Keeps.upd ?_ rfl rfl rfl rfl rfl rfl rfl rfl rfl))

theorem serve_keeps {w0 : State} (s : State) (tests : InstanceTests) (hK : Keeps w0 s) :
    Keeps w0 (serve s tests) := by
  unfold serve
  repeat' (first
    | with_reducible (first
        | assumption | exact Keeps.refl _ | apply event_keeps)
    | dsimp only | split
    | with_reducible (first | refine Keeps.upd ?_ rfl rfl rfl rfl rfl rfl rfl rfl rfl))

theorem execFullService_keeps {w0 : State} (tests : InstanceTests) (s : State) (hK : Keeps w0 s) :
    KeepsR w0 (execFullService tests s) := by
  unfold execFullService
  repeat' (first
    | with_reducible (first
        | assumption | exact Keeps.refl _ | apply KeepsR.next | exact KeepsR.fault | exact KeepsR.refused
        | apply startFail_keeps | apply serve_keeps)
    | dsimp only | split
    | with_reducible (first | refine Keeps.upd ?_ rfl rfl rfl rfl rfl rfl rfl rfl rfl))

theorem stewardDog_keeps {w0 : State} (s : State) (hK : Keeps w0 s) :
    Keeps w0 (stewardDog s) := by
  unfold stewardDog
  repeat' (first
    | with_reducible (first
        | assumption | exact Keeps.refl _ | apply restart_keeps | apply countStart_keeps | apply startFail_keeps
        | apply inert_keeps)
    | dsimp only | split
    | with_reducible (first | refine Keeps.upd ?_ rfl rfl rfl rfl rfl rfl rfl rfl rfl))

theorem execStewardWatchdog_keeps {w0 : State} (s : State) (hK : Keeps w0 s) :
    KeepsR w0 (execStewardWatchdog s) := by
  unfold execStewardWatchdog
  repeat' (first
    | with_reducible (first
        | assumption | exact Keeps.refl _ | apply KeepsR.next | exact KeepsR.fault | exact KeepsR.refused
        | apply stewardDog_keeps)
    | dsimp only | split
    | with_reducible (first | refine Keeps.upd ?_ rfl rfl rfl rfl rfl rfl rfl rfl rfl))

theorem runAdvance_keeps_pre1 (l : List Nat) (g k : Nat) : l.getD k 0 ≤ (blow l g).getD k 0 := by
  unfold blow
  simp only [List.getD_eq_getElem?_getD, List.getElem?_modify]
  cases l[k]? with
  | none => exact Nat.zero_le _
  | some n =>
    simp only [Option.map_some, Option.getD_some]
    split
    · exact Nat.le_max_right _ _
    · exact Nat.le_refl _

theorem runAdvance_keeps {w0 : State} (s : State) (d : Adm) (hK : Keeps w0 s) : Keeps w0 (runAdvance s d) := by
  unfold runAdvance
  dsimp only
  split
  · exact admFail_keeps _ _ _ _ hK
  · split
    · exact admFail_keeps _ _ _ _ hK
    · split
      · exact admFail_keeps _ _ _ _ hK
      · exact admOk_keeps _ _ (event_keeps _ _ _ _ _ (Keeps.updG hK rfl id (fun h k => ⟨h, k⟩) id
          (fun g => runAdvance_keeps_pre1 _ _ g) id (Nat.le_refl _) (Nat.le_refl _) (List.prefix_refl _)))

theorem execLcsAdvance_keeps {w0 : State} (s : State) (hK : Keeps w0 s) :
    KeepsR w0 (execLcsAdvance s) := by
  unfold execLcsAdvance
  repeat' (first
    | with_reducible (first
        | assumption | exact Keeps.refl _ | apply KeepsR.next | exact KeepsR.fault | exact KeepsR.refused | apply admin_keeps
        | apply runAdvance_keeps | apply Res.state_keeps)
    | dsimp only | split
    | with_reducible (first | intro _ | refine Keeps.upd ?_ rfl rfl rfl rfl rfl rfl rfl rfl rfl))

theorem execLcsStatus_keeps {w0 : State} (s : State) (hK : Keeps w0 s) :
    KeepsR w0 (execLcsStatus s) := by
  unfold execLcsStatus
  repeat' (first
    | with_reducible (first
        | assumption | exact Keeps.refl _ | apply KeepsR.next | exact KeepsR.fault | exact KeepsR.refused
        | apply admResult_keeps | apply admin_keeps)
    | dsimp only | split
    | with_reducible (first | intro _ | refine Keeps.upd ?_ rfl rfl rfl rfl rfl rfl rfl rfl rfl))

theorem fwVerify_keeps {w0 : State} (s : State) (d : Adm) (b : Bool) (data : Bytes) (hK : Keeps w0 s) :
    Keeps w0 (fwVerify s d b data) := by
  unfold fwVerify
  repeat' (first
    | with_reducible (first
        | assumption | exact Keeps.refl _ | apply event_keeps | apply admOk_keeps | apply admFail_keeps | apply setBank_keeps)
    | dsimp only | split
    | with_reducible (first | refine Keeps.upd ?_ rfl rfl rfl rfl rfl rfl rfl rfl rfl))

theorem runFwLoad_keeps {w0 : State} (r : HostRead) (s : State) (d : Adm) (hK : Keeps w0 s) :
    Keeps w0 (runFwLoad r s d) := by
  unfold runFwLoad
  repeat' (first
    | with_reducible (first
        | assumption | exact Keeps.refl _ | apply admOk_keeps | apply admFail_keeps | apply admRead_keeps
        | apply setBank_keeps | apply fwVerify_keeps)
    | dsimp only | split
    | with_reducible (first | intro _ | refine Keeps.upd ?_ rfl rfl rfl rfl rfl rfl rfl rfl rfl))

theorem execFwLoad_keeps {w0 : State} (r : HostRead) (s : State) (hK : Keeps w0 s) :
    KeepsR w0 (execFwLoad r s) := by
  unfold execFwLoad
  repeat' (first
    | with_reducible (first
        | assumption | exact Keeps.refl _ | apply KeepsR.next | exact KeepsR.fault | exact KeepsR.refused | apply admin_keeps
        | apply runFwLoad_keeps)
    | dsimp only | split
    | with_reducible (first | intro _ | refine Keeps.upd ?_ rfl rfl rfl rfl rfl rfl rfl rfl rfl))

theorem beginChange_keeps {w0 : State} (s : State) (c : Change) (hK : Keeps w0 s) :
    Keeps w0 (beginChange s c) := by
  unfold beginChange
  repeat' (first
    | with_reducible (first
        | assumption | exact Keeps.refl _ | apply modPlot_keeps | apply stopPlot_keeps | apply modPlot_keeps
        | apply Keeps.foldl | apply KeepsP.foldl)
    | dsimp only | split
    | with_reducible (first | intro _ | refine Keeps.upd ?_ rfl rfl rfl rfl rfl rfl rfl rfl rfl))

theorem runActivate_keeps {w0 : State} (s : State) (d : Adm) (hK : Keeps w0 s) :
    Keeps w0 (runActivate s d) := by
  unfold runActivate
  repeat' (first
    | with_reducible (first
        | assumption | exact Keeps.refl _ | apply event_keeps | apply admFail_keeps | apply beginChange_keeps)
    | dsimp only | split
    | with_reducible (first | refine Keeps.upd ?_ rfl rfl rfl rfl rfl rfl rfl rfl rfl))

theorem execFwActivate_keeps {w0 : State} (s : State) (hK : Keeps w0 s) :
    KeepsR w0 (execFwActivate s) := by
  unfold execFwActivate
  repeat' (first
    | with_reducible (first
        | assumption | exact Keeps.refl _ | apply KeepsR.next | exact KeepsR.fault | exact KeepsR.refused | apply admin_keeps
        | apply runActivate_keeps)
    | dsimp only | split
    | with_reducible (first | intro _ | refine Keeps.upd ?_ rfl rfl rfl rfl rfl rfl rfl rfl rfl))

theorem execStartCntReset_keeps {w0 : State} (s : State) (hK : Keeps w0 s) :
    KeepsR w0 (execStartCntReset s) := by
  unfold execStartCntReset
  repeat' (first
    | with_reducible (first
        | assumption | exact Keeps.refl _ | apply KeepsR.next | exact KeepsR.fault | exact KeepsR.refused | apply event_keeps
        | apply admin_keeps | apply restart_keeps)
    | dsimp only | split
    | with_reducible (first | intro _ | refine Keeps.upd ?_ rfl rfl rfl rfl rfl rfl rfl rfl rfl))

theorem execFallowRequest_keeps {w0 : State} (s : State) (hK : Keeps w0 s) :
    KeepsR w0 (execFallowRequest s) := by
  unfold execFallowRequest
  repeat' (first
    | with_reducible (first
        | assumption | exact Keeps.refl _ | apply KeepsR.next | exact KeepsR.fault | exact KeepsR.refused | apply event_keeps
        | apply admin_keeps | apply restart_keeps)
    | dsimp only | split
    | with_reducible (first | intro _ | refine Keeps.upd ?_ rfl rfl rfl rfl rfl rfl rfl rfl rfl))

theorem runReconfig_keeps {w0 : State} (s : State) (d : Adm) (hK : Keeps w0 s) :
    Keeps w0 (runReconfig s d) := by
  unfold runReconfig
  repeat' (first
    | with_reducible (first
        | assumption | exact Keeps.refl _ | apply event_keeps | apply beginChange_keeps)
    | dsimp only | split
    | with_reducible (first | refine Keeps.upd ?_ rfl rfl rfl rfl rfl rfl rfl rfl rfl))

theorem execModReconfig_keeps {w0 : State} (s : State) (hK : Keeps w0 s) :
    KeepsR w0 (execModReconfig s) := by
  unfold execModReconfig
  repeat' (first
    | with_reducible (first
        | assumption | exact Keeps.refl _ | apply KeepsR.next | exact KeepsR.fault | exact KeepsR.refused | apply admin_keeps
        | apply runReconfig_keeps)
    | dsimp only | split
    | with_reducible (first | intro _ | refine Keeps.upd ?_ rfl rfl rfl rfl rfl rfl rfl rfl rfl))

theorem applyPort_keeps {w0 : State} (s : State) (k : Nat) (hK : Keeps w0 s) :
    Keeps w0 (applyPort s k) := by
  unfold applyPort
  repeat' (first
    | with_reducible (first
        | assumption | exact Keeps.refl _ | apply cluFlag_keeps)
    | dsimp only | split
    | with_reducible (first | refine Keeps.upd ?_ rfl rfl rfl rfl rfl rfl rfl rfl rfl))

theorem applyPorts_keeps {w0 : State} (s : State) (hK : Keeps w0 s) :
    Keeps w0 (applyPorts s) := by
  unfold applyPorts
  repeat' (first
    | with_reducible (first
        | assumption | exact Keeps.refl _ | apply startAll_keeps | apply dropSessions_keeps | apply applyPort_keeps)
    | dsimp only | split
    | with_reducible (first | refine Keeps.upd ?_ rfl rfl rfl rfl rfl rfl rfl rfl rfl))

theorem applyEngines_keeps {w0 : State} (s : State) (hK : Keeps w0 s) :
    Keeps w0 (applyEngines s) := by
  unfold applyEngines
  repeat' (first
    | with_reducible (first
        | assumption | exact Keeps.refl _)
    | dsimp only | split
    | with_reducible (first | refine Keeps.upd ?_ rfl rfl rfl rfl rfl rfl rfl rfl rfl))

theorem reopenPlots_keeps {w0 : State} (s : State) (hK : Keeps w0 s) :
    Keeps w0 (reopenPlots s) := by
  unfold reopenPlots
  repeat' (first
    | with_reducible (first
        | assumption | exact Keeps.refl _ | apply modPlot_keeps | apply startPlot_keeps | apply modPlot_keeps
        | apply Keeps.foldl | apply KeepsP.foldl)
    | dsimp only | split
    | with_reducible (first | intro _ | refine Keeps.upd ?_ rfl rfl rfl rfl rfl rfl rfl rfl rfl))

theorem execStopChangeRestartApply_keeps {w0 : State} (s : State) (hK : Keeps w0 s) :
    KeepsR w0 (execStopChangeRestartApply s) := by
  unfold execStopChangeRestartApply
  repeat' (first
    | with_reducible (first
        | assumption | exact Keeps.refl _ | apply KeepsR.next | exact KeepsR.fault | exact KeepsR.refused | apply admOk_keeps
        | apply restart_keeps | apply beginChange_keeps | apply applyPorts_keeps | apply applyEngines_keeps
        | apply reopenPlots_keeps)
    | dsimp only | split
    | with_reducible (first | refine Keeps.upd ?_ rfl rfl rfl rfl rfl rfl rfl rfl rfl))

/-! `Machine.Cluster` -/

theorem cluCmd_keeps {w0 : State} (code : BitVec 16) (args quorum : State → Adm → Bool) (run : State → Adm → State) (s : State) (hK : Keeps w0 s) (h_run : ∀ (a0 : State) (a1 : Adm), Keeps w0 a0 → Keeps w0 (run a0 a1)) :
    KeepsR w0 (cluCmd code args quorum run s) := by
  unfold cluCmd
  repeat' (first
    | with_reducible (first
        | assumption | exact Keeps.refl _ | apply KeepsR.next | exact KeepsR.fault | exact KeepsR.refused | apply h_run
        | apply admin_keeps | apply Res.state_keeps)
    | dsimp only | split
    | with_reducible (first | intro _ | refine Keeps.upd ?_ rfl rfl rfl rfl rfl rfl rfl rfl rfl))

theorem leaveDomain_keeps {w0 : State} (s : State) (hK : Keeps w0 s) :
    Keeps w0 (leaveDomain s) := by
  unfold leaveDomain
  repeat' (first
    | with_reducible (first
        | assumption | exact Keeps.refl _ | apply settleWaits_keeps | apply dropSessions_keeps)
    | dsimp only | split
    | with_reducible (first | refine Keeps.upd ?_ rfl rfl rfl rfl rfl rfl rfl rfl rfl))

theorem joinWith_keeps {w0 : State} (s : State) (d : Adm) (b : Bytes) (hK : Keeps w0 s) :
    Keeps w0 (joinWith s d b) := by
  unfold joinWith
  repeat' (first
    | with_reducible (first
        | assumption | exact Keeps.refl _ | apply setCab_keeps | apply newSecret_keeps | apply admOk_keeps
        | apply admFail_keeps | apply leaveDomain_keeps | refine KeepsP.of ?_ (by assumption) | apply KeepsP.fst)
    | dsimp only | split
    | with_reducible (first | apply KeepsP.mk | refine Keeps.upd ?_ rfl rfl rfl rfl rfl rfl rfl rfl rfl))

theorem runJoin_keeps {w0 : State} (r : HostRead) (s : State) (d : Adm) (hK : Keeps w0 s) :
    Keeps w0 (runJoin r s d) := by
  unfold runJoin
  repeat' (first
    | with_reducible (first
        | assumption | exact Keeps.refl _ | apply keyGen_keeps | apply keyServed_keeps | apply keyHeld_keeps
        | apply admRead_keeps | apply joinWith_keeps | refine KeepsP.of ?_ (by assumption) | apply KeepsP.fst)
    | dsimp only | split
    | with_reducible (first | apply KeepsP.mk | intro _ | refine Keeps.upd ?_ rfl rfl rfl rfl rfl rfl rfl rfl rfl))

theorem execCluJoin_keeps {w0 : State} (r : HostRead) (s : State) (hK : Keeps w0 s) :
    KeepsR w0 (execCluJoin r s) := by
  unfold execCluJoin
  repeat' (first
    | with_reducible (first
        | assumption | exact Keeps.refl _ | apply KeepsR.next | exact KeepsR.fault | exact KeepsR.refused | apply cluCmd_keeps
        | apply runJoin_keeps)
    | dsimp only | split
    | with_reducible (first | intro _ | refine Keeps.upd ?_ rfl rfl rfl rfl rfl rfl rfl rfl rfl))

theorem takeMembers_keeps {w0 : State} (s : State) (l : List Member) (hK : Keeps w0 s) :
    Keeps w0 (takeMembers s l) := by
  unfold takeMembers
  repeat' (first
    | with_reducible (first
        | assumption | exact Keeps.refl _ | apply settleWaits_keeps | apply startAll_keeps | apply rehomeAll_keeps
        | apply sessDown_keeps | apply Keeps.foldl | apply KeepsP.foldl)
    | dsimp only | split
    | with_reducible (first | intro _ | refine Keeps.upd ?_ rfl rfl rfl rfl rfl rfl rfl rfl rfl))

theorem runMembers_keeps {w0 : State} (r : HostRead) (s : State) (d : Adm) (hK : Keeps w0 s) :
    Keeps w0 (runMembers r s d) := by
  unfold runMembers
  repeat' (first
    | with_reducible (first
        | assumption | exact Keeps.refl _ | apply admOk_keeps | apply admFail_keeps | apply admRead_keeps
        | apply takeMembers_keeps)
    | dsimp only | split
    | with_reducible (first | intro _ | refine Keeps.upd ?_ rfl rfl rfl rfl rfl rfl rfl rfl rfl))

theorem execCluMembers_keeps {w0 : State} (r : HostRead) (s : State) (hK : Keeps w0 s) :
    KeepsR w0 (execCluMembers r s) := by
  unfold execCluMembers
  repeat' (first
    | with_reducible (first
        | assumption | exact Keeps.refl _ | apply KeepsR.next | exact KeepsR.fault | exact KeepsR.refused | apply cluCmd_keeps
        | apply runMembers_keeps)
    | dsimp only | split
    | with_reducible (first | intro _ | refine Keeps.upd ?_ rfl rfl rfl rfl rfl rfl rfl rfl rfl))

theorem runLeave_keeps {w0 : State} (s : State) (d : Adm) (hK : Keeps w0 s) :
    Keeps w0 (runLeave s d) := by
  unfold runLeave
  repeat' (first
    | with_reducible (first
        | assumption | exact Keeps.refl _ | apply admOk_keeps | apply admFail_keeps | apply leaveDomain_keeps)
    | dsimp only | split
    | with_reducible (first | refine Keeps.upd ?_ rfl rfl rfl rfl rfl rfl rfl rfl rfl))

theorem execCluLeave_keeps {w0 : State} (s : State) (hK : Keeps w0 s) :
    KeepsR w0 (execCluLeave s) := by
  unfold execCluLeave
  repeat' (first
    | with_reducible (first
        | assumption | exact Keeps.refl _ | apply KeepsR.next | exact KeepsR.fault | exact KeepsR.refused | apply cluCmd_keeps
        | apply runLeave_keeps)
    | dsimp only | split
    | with_reducible (first | intro _ | refine Keeps.upd ?_ rfl rfl rfl rfl rfl rfl rfl rfl rfl))

theorem bindPlot_keeps {w0 : State} (s : State) (p : Nat) (dtid : W32) (hK : Keeps w0 s) :
    Keeps w0 (bindPlot s p dtid) := by
  unfold bindPlot
  repeat' (first
    | with_reducible (first
        | assumption | exact Keeps.refl _ | apply modPlot_keeps | apply saveRecord_keeps | apply announce_keeps
        | apply modPlot_keeps)
    | dsimp only | split
    | with_reducible (first | intro _ | refine Keeps.upd ?_ rfl rfl rfl rfl rfl rfl rfl rfl rfl))

theorem resync_keeps {w0 : State} (s : State) (dtid : W32) (hK : Keeps w0 s) :
    Keeps w0 (resync s dtid) := by
  unfold resync
  repeat' (first
    | with_reducible (first
        | assumption | exact Keeps.refl _ | apply sendMsg_keeps | apply sendShared_keeps | apply Keeps.foldl
        | apply KeepsP.foldl | apply KeepsA.bind)
    | dsimp only | split
    | with_reducible (first | intro _ | refine Keeps.upd ?_ rfl rfl rfl rfl rfl rfl rfl rfl rfl))

theorem runBind_keeps {w0 : State} (s : State) (d : Adm) (hK : Keeps w0 s) :
    Keeps w0 (runBind s d) := by
  unfold runBind
  repeat' (first
    | with_reducible (first
        | assumption | exact Keeps.refl _ | apply admOk_keeps | apply admFail_keeps | apply forwardAdmin_keeps
        | apply bindPlot_keeps | apply resync_keeps)
    | dsimp only | split
    | with_reducible (first | intro _ | refine Keeps.upd ?_ rfl rfl rfl rfl rfl rfl rfl rfl rfl))

theorem execCluPlotBind_keeps {w0 : State} (s : State) (hK : Keeps w0 s) :
    KeepsR w0 (execCluPlotBind s) := by
  unfold execCluPlotBind
  repeat' (first
    | with_reducible (first
        | assumption | exact Keeps.refl _ | apply KeepsR.next | exact KeepsR.fault | exact KeepsR.refused | apply admin_keeps
        | apply notStandby_keeps | apply runBind_keeps | apply Res.state_keeps)
    | dsimp only | split
    | with_reducible (first | intro _ | refine Keeps.upd ?_ rfl rfl rfl rfl rfl rfl rfl rfl rfl))

theorem runPair_keeps {w0 : State} (s : State) (d : Adm) (hK : Keeps w0 s) :
    Keeps w0 (runPair s d) := by
  unfold runPair
  repeat' (first
    | with_reducible (first
        | assumption | exact Keeps.refl _ | apply sendMsg_keeps | apply admOk_keeps | apply admFail_keeps)
    | dsimp only | split
    | with_reducible (first | intro _ | refine Keeps.upd ?_ rfl rfl rfl rfl rfl rfl rfl rfl rfl))

theorem execCluPair_keeps {w0 : State} (s : State) (hK : Keeps w0 s) :
    KeepsR w0 (execCluPair s) := by
  unfold execCluPair
  repeat' (first
    | with_reducible (first
        | assumption | exact Keeps.refl _ | apply KeepsR.next | exact KeepsR.fault | exact KeepsR.refused | apply cluCmd_keeps
        | apply runPair_keeps)
    | dsimp only | split
    | with_reducible (first | intro _ | refine Keeps.upd ?_ rfl rfl rfl rfl rfl rfl rfl rfl rfl))

theorem pairFail_keeps {w0 : State} (s : State) (hK : Keeps w0 s) :
    Keeps w0 (pairFail s) := by
  unfold pairFail
  repeat' (first
    | with_reducible (first
        | assumption | exact Keeps.refl _ | apply admFail_keeps)
    | dsimp only | split
    | with_reducible (first | refine Keeps.upd ?_ rfl rfl rfl rfl rfl rfl rfl rfl rfl))

theorem squashForwarded_keeps {w0 : State} (s : State) (hK : Keeps w0 s) :
    Keeps w0 (squashForwarded s) := by
  unfold squashForwarded
  repeat' (first
    | with_reducible (first
        | assumption | exact Keeps.refl _ | apply squashTx_keeps | apply Keeps.foldl | apply KeepsP.foldl)
    | dsimp only | split
    | with_reducible (first | intro _ | refine Keeps.upd ?_ rfl rfl rfl rfl rfl rfl rfl rfl rfl))

theorem openAll_keeps {w0 : State} (s : State) (hK : Keeps w0 s) :
    Keeps w0 (openAll s) := by
  unfold openAll
  repeat' (first
    | with_reducible (first
        | assumption | exact Keeps.refl _ | apply tryOpen_keeps | apply Keeps.foldl | apply KeepsP.foldl)
    | dsimp only | split
    | with_reducible (first | refine Keeps.upd ?_ rfl rfl rfl rfl rfl rfl rfl rfl rfl))

theorem leavePair_keeps {w0 : State} (s : State) (hK : Keeps w0 s) :
    Keeps w0 (leavePair s) := by
  unfold leavePair
  repeat' (first
    | with_reducible (first
        | assumption | exact Keeps.refl _ | apply unpair_keeps | apply squashForwarded_keeps | apply openAll_keeps)
    | dsimp only | split
    | with_reducible (first | refine Keeps.upd ?_ rfl rfl rfl rfl rfl rfl rfl rfl rfl))

theorem runUnpair_keeps {w0 : State} (s : State) (d : Adm) (hK : Keeps w0 s) :
    Keeps w0 (runUnpair s d) := by
  unfold runUnpair
  repeat' (first
    | with_reducible (first
        | assumption | exact Keeps.refl _ | apply sendMsg_keeps | apply admOk_keeps | apply admFail_keeps
        | apply leavePair_keeps)
    | dsimp only | split
    | with_reducible (first | refine Keeps.upd ?_ rfl rfl rfl rfl rfl rfl rfl rfl rfl))

theorem execCluUnpair_keeps {w0 : State} (s : State) (hK : Keeps w0 s) :
    KeepsR w0 (execCluUnpair s) := by
  unfold execCluUnpair
  repeat' (first
    | with_reducible (first
        | assumption | exact Keeps.refl _ | apply KeepsR.next | exact KeepsR.fault | exact KeepsR.refused | apply cluCmd_keeps
        | apply runUnpair_keeps)
    | dsimp only | split
    | with_reducible (first | intro _ | refine Keeps.upd ?_ rfl rfl rfl rfl rfl rfl rfl rfl rfl))

theorem runSwap_keeps {w0 : State} (s : State) (d : Adm) (hK : Keeps w0 s) :
    Keeps w0 (runSwap s d) := by
  unfold runSwap
  repeat' (first
    | with_reducible (first
        | assumption | exact Keeps.refl _ | apply admFail_keeps | apply beginChange_keeps)
    | dsimp only | split
    | with_reducible (first | refine Keeps.upd ?_ rfl rfl rfl rfl rfl rfl rfl rfl rfl))

theorem execCluSwap_keeps {w0 : State} (s : State) (hK : Keeps w0 s) :
    KeepsR w0 (execCluSwap s) := by
  unfold execCluSwap
  repeat' (first
    | with_reducible (first
        | assumption | exact Keeps.refl _ | apply KeepsR.next | exact KeepsR.fault | exact KeepsR.refused | apply cluCmd_keeps
        | apply runSwap_keeps)
    | dsimp only | split
    | with_reducible (first | intro _ | refine Keeps.upd ?_ rfl rfl rfl rfl rfl rfl rfl rfl rfl))

theorem runPromote_keeps {w0 : State} (s : State) (d : Adm) (hK : Keeps w0 s) :
    Keeps w0 (runPromote s d) := by
  unfold runPromote
  repeat' (first
    | with_reducible (first
        | assumption | exact Keeps.refl _ | apply admOk_keeps | apply admFail_keeps | apply leavePair_keeps)
    | dsimp only | split
    | with_reducible (first | refine Keeps.upd ?_ rfl rfl rfl rfl rfl rfl rfl rfl rfl))

theorem execCluPromote_keeps {w0 : State} (s : State) (hK : Keeps w0 s) :
    KeepsR w0 (execCluPromote s) := by
  unfold execCluPromote
  repeat' (first
    | with_reducible (first
        | assumption | exact Keeps.refl _ | apply KeepsR.next | exact KeepsR.fault | exact KeepsR.refused | apply cluCmd_keeps
        | apply runPromote_keeps)
    | dsimp only | split
    | with_reducible (first | intro _ | refine Keeps.upd ?_ rfl rfl rfl rfl rfl rfl rfl rfl rfl))

/-! `Machine.Custodians` -/

theorem authFail_keeps {w0 : State} (s : State) (last : BitVec 4) (hK : Keeps w0 s) :
    Keeps w0 (authFail s last) := by
  unfold authFail
  repeat' (first
    | with_reducible (first
        | assumption | exact Keeps.refl _ | apply event_keeps | apply endInteraction_keeps)
    | dsimp only | split
    | with_reducible (first | refine Keeps.upd ?_ rfl rfl rfl rfl rfl rfl rfl rfl rfl))

theorem challenge_keeps {w0 : State} (s : State) (slot role ix : Nat) (hK : Keeps w0 s) :
    Keeps w0 (challenge s slot role ix) := by
  unfold challenge
  repeat' (first
    | with_reducible (first
        | assumption | exact Keeps.refl _ | apply emit_keeps | apply drawn_keeps | apply privGen_keeps)
    | dsimp only | split
    | with_reducible (first | refine Keeps.upd ?_ rfl rfl rfl rfl rfl rfl rfl rfl rfl))

theorem beginAuth_keeps {w0 : State} (s : State) (slot : Nat) (key : Bytes) (hK : Keeps w0 s) :
    Keeps w0 (beginAuth s slot key) := by
  unfold beginAuth
  repeat' (first
    | with_reducible (first
        | assumption | exact Keeps.refl _ | apply authFail_keeps | apply challenge_keeps)
    | dsimp only | split
    | with_reducible (first | intro _ | refine Keeps.upd ?_ rfl rfl rfl rfl rfl rfl rfl rfl rfl))

theorem execCardInsert_keeps {w0 : State} (slot : Fin 2) (key : Bytes) (s : State) (hK : Keeps w0 s) :
    KeepsR w0 (execCardInsert slot key s) := by
  unfold execCardInsert
  repeat' (first
    | with_reducible (first
        | assumption | exact Keeps.refl _ | apply KeepsR.next | exact KeepsR.fault | exact KeepsR.refused
        | apply beginAuth_keeps)
    | dsimp only | split
    | with_reducible (first | refine Keeps.upd ?_ rfl rfl rfl rfl rfl rfl rfl rfl rfl))

theorem enrolled_keeps {w0 : State} (s : State) (h : Bytes) (hK : Keeps w0 s) :
    Keeps w0 (enrolled s h) := by
  unfold enrolled
  repeat' (first
    | with_reducible (first
        | assumption | exact Keeps.refl _ | apply writeReserved_keeps | apply setRegistry_keeps | apply idleAfter_keeps)
    | dsimp only | split
    | with_reducible (first | refine Keeps.upd ?_ rfl rfl rfl rfl rfl rfl rfl rfl rfl))

theorem sessionOpens_keeps {w0 : State} (s : State) (h : Bytes) (hK : Keeps w0 s) :
    Keeps w0 (sessionOpens s h) := by
  unfold sessionOpens
  repeat' (first
    | with_reducible (first
        | assumption | exact Keeps.refl _ | apply writeReserved_keeps | apply setSession_keeps | apply idleAfter_keeps)
    | dsimp only | split
    | with_reducible (first | refine Keeps.upd ?_ rfl rfl rfl rfl rfl rfl rfl rfl rfl))

theorem authenticated_keeps {w0 : State} (s : State) (hK : Keeps w0 s) :
    Keeps w0 (authenticated s) := by
  unfold authenticated
  repeat' (first
    | with_reducible (first
        | assumption | exact Keeps.refl _ | apply authFail_keeps | apply enrolled_keeps | apply sessionOpens_keeps)
    | dsimp only | split
    | with_reducible (first | refine Keeps.upd ?_ rfl rfl rfl rfl rfl rfl rfl rfl rfl))

theorem execCardResponse_keeps {w0 : State} (slot : Fin 2) (a : CardAnswer) (s : State) (hK : Keeps w0 s) :
    KeepsR w0 (execCardResponse slot a s) := by
  unfold execCardResponse
  repeat' (first
    | with_reducible (first
        | assumption | exact Keeps.refl _ | apply KeepsR.next | exact KeepsR.fault | exact KeepsR.refused | apply emit_keeps
        | apply authFail_keeps | apply authenticated_keeps)
    | dsimp only | split
    | with_reducible (first | refine Keeps.upd ?_ rfl rfl rfl rfl rfl rfl rfl rfl rfl))

theorem ceremonyDone_keeps {w0 : State} (s : State) (l : Learn) (st : BitVec 16) (hK : Keeps w0 s) :
    Keeps w0 (ceremonyDone s l st) := by
  unfold ceremonyDone
  repeat' (first
    | with_reducible (first
        | assumption | exact Keeps.refl _ | apply emit_keeps | apply writeReserved_keeps | apply shareOut_keeps
        | apply forwardData_keeps | apply idleAfter_keeps | apply endInteraction_keeps)
    | dsimp only | split
    | with_reducible (first | refine Keeps.upd ?_ rfl rfl rfl rfl rfl rfl rfl rfl rfl))

theorem ceremonyKey_keeps {w0 : State} (s : State) (hK : Keeps w0 s) :
    Keeps w0 (ceremonyKey s) := by
  unfold ceremonyKey
  repeat' (first
    | with_reducible (first
        | assumption | exact Keeps.refl _ | apply learnFor_keeps | apply sharedLearn_keeps | apply endInteraction_keeps
        | apply ceremonyDone_keeps | refine KeepsP.of ?_ (by assumption) | apply KeepsP.fst)
    | dsimp only | split
    | with_reducible (first | apply KeepsP.mk | refine Keeps.upd ?_ rfl rfl rfl rfl rfl rfl rfl rfl rfl))

theorem bindCeremony_keeps {w0 : State} (s : State) (hK : Keeps w0 s) :
    Keeps w0 (bindCeremony s) := by
  unfold bindCeremony
  repeat' (first
    | with_reducible (first
        | assumption | exact Keeps.refl _ | apply modCtx_keeps | apply ungateL_keeps)
    | dsimp only | split
    | with_reducible (first | intro _ | refine Keeps.upd ?_ rfl rfl rfl rfl rfl rfl rfl rfl rfl))

theorem component_keeps {w0 : State} (s : State) (hK : Keeps w0 s) :
    Keeps w0 (component s) := by
  unfold component
  repeat' (first
    | with_reducible (first
        | assumption | exact Keeps.refl _ | apply ceremonyKey_keeps | apply bindCeremony_keeps)
    | dsimp only | split
    | with_reducible (first | refine Keeps.upd ?_ rfl rfl rfl rfl rfl rfl rfl rfl rfl))

theorem consoleMsg_keeps {w0 : State} (s : State) (m : ConsoleMsg) (hK : Keeps w0 s) :
    Keeps w0 (consoleMsg s m) := by
  unfold consoleMsg
  repeat' (first
    | with_reducible (first
        | assumption | exact Keeps.refl _ | apply emit_keeps | apply component_keeps)
    | dsimp only | split
    | with_reducible (first | refine Keeps.upd ?_ rfl rfl rfl rfl rfl rfl rfl rfl rfl))

theorem execConsoleFrame_keeps {w0 : State} (seq : W32) (tagOk : Bool) (m : ConsoleMsg) (s : State) (hK : Keeps w0 s) :
    KeepsR w0 (execConsoleFrame seq tagOk m s) := by
  unfold execConsoleFrame
  repeat' (first
    | with_reducible (first
        | assumption | exact Keeps.refl _ | apply KeepsR.next | exact KeepsR.fault | exact KeepsR.refused
        | apply consoleMsg_keeps)
    | dsimp only | split
    | with_reducible (first | refine Keeps.upd ?_ rfl rfl rfl rfl rfl rfl rfl rfl rfl))

theorem cardGone_keeps {w0 : State} (s : State) (slot : Nat) (hK : Keeps w0 s) :
    Keeps w0 (cardGone s slot) := by
  unfold cardGone
  repeat' (first
    | with_reducible (first
        | assumption | exact Keeps.refl _ | apply endInteraction_keeps | apply authFail_keeps)
    | dsimp only | split
    | with_reducible (first | refine Keeps.upd ?_ rfl rfl rfl rfl rfl rfl rfl rfl rfl))

theorem execCardWithdraw_keeps {w0 : State} (slot : Fin 2) (s : State) (hK : Keeps w0 s) :
    KeepsR w0 (execCardWithdraw slot s) := by
  unfold execCardWithdraw
  repeat' (first
    | with_reducible (first
        | assumption | exact Keeps.refl _ | apply KeepsR.next | exact KeepsR.fault | exact KeepsR.refused
        | apply endSession_keeps | apply cardGone_keeps | apply Keeps.foldl | apply KeepsP.foldl)
    | dsimp only | split
    | with_reducible (first | intro _ | refine Keeps.upd ?_ rfl rfl rfl rfl rfl rfl rfl rfl rfl))

theorem execCardOvercurrent_keeps {w0 : State} (slot : Fin 2) (s : State) (hK : Keeps w0 s) :
    KeepsR w0 (execCardOvercurrent slot s) := by
  unfold execCardOvercurrent
  repeat' (first
    | with_reducible (first
        | assumption | exact Keeps.refl _ | apply KeepsR.next | exact KeepsR.fault | exact KeepsR.refused
        | apply cardGone_keeps)
    | dsimp only | split
    | with_reducible (first | refine Keeps.upd ?_ rfl rfl rfl rfl rfl rfl rfl rfl rfl))

theorem execAuthStepTimeout_keeps {w0 : State} (s : State) (hK : Keeps w0 s) :
    KeepsR w0 (execAuthStepTimeout s) := by
  unfold execAuthStepTimeout
  repeat' (first
    | with_reducible (first
        | assumption | exact Keeps.refl _ | apply KeepsR.next | exact KeepsR.fault | exact KeepsR.refused
        | apply authFail_keeps)
    | dsimp only | split
    | with_reducible (first | refine Keeps.upd ?_ rfl rfl rfl rfl rfl rfl rfl rfl rfl))

theorem execAssemblyTimeout_keeps {w0 : State} (s : State) (hK : Keeps w0 s) :
    KeepsR w0 (execAssemblyTimeout s) := by
  unfold execAssemblyTimeout
  repeat' (first
    | with_reducible (first
        | assumption | exact Keeps.refl _ | apply KeepsR.next | exact KeepsR.fault | exact KeepsR.refused
        | apply endInteraction_keeps)
    | dsimp only | split
    | with_reducible (first | refine Keeps.upd ?_ rfl rfl rfl rfl rfl rfl rfl rfl rfl))

theorem execSessionExpiry_keeps {w0 : State} (k : Fin 2) (s : State) (hK : Keeps w0 s) :
    KeepsR w0 (execSessionExpiry k s) := by
  unfold execSessionExpiry
  repeat' (first
    | with_reducible (first
        | assumption | exact Keeps.refl _ | apply KeepsR.next | exact KeepsR.fault | exact KeepsR.refused
        | apply advanceTo_keeps | apply endSession_keeps)
    | dsimp only | split
    | with_reducible (first | refine Keeps.upd ?_ rfl rfl rfl rfl rfl rfl rfl rfl rfl))

theorem custCmd_keeps {w0 : State} (code : BitVec 16) (args : State → Adm → Bool) (quorum : State → Adm → Bool) (run : State → Adm → State) (s : State) (hK : Keeps w0 s) (h_run : ∀ (a0 : State) (a1 : Adm), Keeps w0 a0 → Keeps w0 (run a0 a1)) :
    KeepsR w0 (custCmd code args quorum run s) := by
  unfold custCmd
  repeat' (first
    | with_reducible (first
        | assumption | exact Keeps.refl _ | apply KeepsR.next | exact KeepsR.fault | exact KeepsR.refused | apply h_run
        | apply admin_keeps)
    | dsimp only | split
    | with_reducible (first | intro _ | refine Keeps.upd ?_ rfl rfl rfl rfl rfl rfl rfl rfl rfl))

theorem beginOp_keeps {w0 : State} (s : State) (d : Adm) (op : CustOp) (need : Nat) (hK : Keeps w0 s) :
    Keeps w0 (beginOp s d op need) := by
  unfold beginOp
  repeat' (first
    | with_reducible (first
        | assumption | exact Keeps.refl _ | apply reserve_keeps)
    | dsimp only | split
    | with_reducible (first | refine Keeps.upd ?_ rfl rfl rfl rfl rfl rfl rfl rfl rfl))

theorem runEnrol_keeps {w0 : State} (s : State) (d : Adm) (hK : Keeps w0 s) :
    Keeps w0 (runEnrol s d) := by
  unfold runEnrol
  repeat' (first
    | with_reducible (first
        | assumption | exact Keeps.refl _ | apply admOk_keeps | apply admFail_keeps | apply beginOp_keeps)
    | dsimp only | split
    | with_reducible (first | refine Keeps.upd ?_ rfl rfl rfl rfl rfl rfl rfl rfl rfl))

theorem execCustEnrol_keeps {w0 : State} (s : State) (hK : Keeps w0 s) :
    KeepsR w0 (execCustEnrol s) := by
  unfold execCustEnrol
  repeat' (first
    | with_reducible (first
        | assumption | exact Keeps.refl _ | apply KeepsR.next | exact KeepsR.fault | exact KeepsR.refused
        | apply custCmd_keeps | apply runEnrol_keeps)
    | dsimp only | split
    | with_reducible (first | intro _ | refine Keeps.upd ?_ rfl rfl rfl rfl rfl rfl rfl rfl rfl))

theorem endAnchored_keeps {w0 : State} (s : State) (scope : Nat) (h : Bytes) (hK : Keeps w0 s) :
    Keeps w0 (endAnchored s scope h) := by
  unfold endAnchored
  repeat' (first
    | with_reducible (first
        | assumption | exact Keeps.refl _ | apply endSession_keeps | apply Keeps.foldl | apply KeepsP.foldl)
    | dsimp only | split
    | with_reducible (first | intro _ | refine Keeps.upd ?_ rfl rfl rfl rfl rfl rfl rfl rfl rfl))

theorem runRevoke_keeps {w0 : State} (s : State) (d : Adm) (hK : Keeps w0 s) :
    Keeps w0 (runRevoke s d) := by
  unfold runRevoke
  repeat' (first
    | with_reducible (first
        | assumption | exact Keeps.refl _ | apply reserve_keeps | apply writeReserved_keeps | apply admOk_keeps
        | apply admFail_keeps | apply setRegistry_keeps | apply endAnchored_keeps)
    | dsimp only | split
    | with_reducible (first | intro _ | refine Keeps.upd ?_ rfl rfl rfl rfl rfl rfl rfl rfl rfl))

theorem execCustRevoke_keeps {w0 : State} (s : State) (hK : Keeps w0 s) :
    KeepsR w0 (execCustRevoke s) := by
  unfold execCustRevoke
  repeat' (first
    | with_reducible (first
        | assumption | exact Keeps.refl _ | apply KeepsR.next | exact KeepsR.fault | exact KeepsR.refused
        | apply custCmd_keeps | apply runRevoke_keeps)
    | dsimp only | split
    | with_reducible (first | intro _ | refine Keeps.upd ?_ rfl rfl rfl rfl rfl rfl rfl rfl rfl))

theorem runSetM_keeps {w0 : State} (s : State) (d : Adm) (hK : Keeps w0 s) :
    Keeps w0 (runSetM s d) := by
  unfold runSetM
  repeat' (first
    | with_reducible (first
        | assumption | exact Keeps.refl _ | apply reserve_keeps | apply writeReserved_keeps | apply admOk_keeps
        | apply admFail_keeps | apply setRegistry_keeps)
    | dsimp only | split
    | with_reducible (first | refine Keeps.upd ?_ rfl rfl rfl rfl rfl rfl rfl rfl rfl))

theorem execCustSetM_keeps {w0 : State} (s : State) (hK : Keeps w0 s) :
    KeepsR w0 (execCustSetM s) := by
  unfold execCustSetM
  repeat' (first
    | with_reducible (first
        | assumption | exact Keeps.refl _ | apply KeepsR.next | exact KeepsR.fault | exact KeepsR.refused
        | apply custCmd_keeps | apply runSetM_keeps)
    | dsimp only | split
    | with_reducible (first | intro _ | refine Keeps.upd ?_ rfl rfl rfl rfl rfl rfl rfl rfl rfl))

theorem runSessionOpen_keeps {w0 : State} (s : State) (d : Adm) (hK : Keeps w0 s) :
    Keeps w0 (runSessionOpen s d) := by
  unfold runSessionOpen
  repeat' (first
    | with_reducible (first
        | assumption | exact Keeps.refl _ | apply admOk_keeps | apply admFail_keeps | apply beginOp_keeps)
    | dsimp only | split
    | with_reducible (first | refine Keeps.upd ?_ rfl rfl rfl rfl rfl rfl rfl rfl rfl))

theorem execCustSessionOpen_keeps {w0 : State} (s : State) (hK : Keeps w0 s) :
    KeepsR w0 (execCustSessionOpen s) := by
  unfold execCustSessionOpen
  repeat' (first
    | with_reducible (first
        | assumption | exact Keeps.refl _ | apply KeepsR.next | exact KeepsR.fault | exact KeepsR.refused
        | apply custCmd_keeps | apply runSessionOpen_keeps)
    | dsimp only | split
    | with_reducible (first | intro _ | refine Keeps.upd ?_ rfl rfl rfl rfl rfl rfl rfl rfl rfl))

theorem runSessionEnd_keeps {w0 : State} (s : State) (d : Adm) (hK : Keeps w0 s) :
    Keeps w0 (runSessionEnd s d) := by
  unfold runSessionEnd
  repeat' (first
    | with_reducible (first
        | assumption | exact Keeps.refl _ | apply admOk_keeps | apply admFail_keeps | apply endSession_keeps)
    | dsimp only | split
    | with_reducible (first | intro _ | refine Keeps.upd ?_ rfl rfl rfl rfl rfl rfl rfl rfl rfl))

theorem execCustSessionEnd_keeps {w0 : State} (s : State) (hK : Keeps w0 s) :
    KeepsR w0 (execCustSessionEnd s) := by
  unfold execCustSessionEnd
  repeat' (first
    | with_reducible (first
        | assumption | exact Keeps.refl _ | apply KeepsR.next | exact KeepsR.fault | exact KeepsR.refused
        | apply custCmd_keeps | apply runSessionEnd_keeps)
    | dsimp only | split
    | with_reducible (first | intro _ | refine Keeps.upd ?_ rfl rfl rfl rfl rfl rfl rfl rfl rfl))

theorem runCeremony_keeps {w0 : State} (s : State) (d : Adm) (hK : Keeps w0 s) :
    Keeps w0 (runCeremony s d) := by
  unfold runCeremony
  repeat' (first
    | with_reducible (first
        | assumption | exact Keeps.refl _ | apply admOk_keeps | apply admFail_keeps | apply bindCeremony_keeps
        | apply beginOp_keeps)
    | dsimp only | split
    | with_reducible (first | refine Keeps.upd ?_ rfl rfl rfl rfl rfl rfl rfl rfl rfl))

theorem execKeyCeremony_keeps {w0 : State} (s : State) (hK : Keeps w0 s) :
    KeepsR w0 (execKeyCeremony s) := by
  unfold execKeyCeremony
  repeat' (first
    | with_reducible (first
        | assumption | exact Keeps.refl _ | apply KeepsR.next | exact KeepsR.fault | exact KeepsR.refused | apply admin_keeps
        | apply notStandby_keeps | apply runCeremony_keeps)
    | dsimp only | split
    | with_reducible (first | intro _ | refine Keeps.upd ?_ rfl rfl rfl rfl rfl rfl rfl rfl rfl))

theorem runCancel_keeps {w0 : State} (s : State) (d : Adm) (hK : Keeps w0 s) :
    Keeps w0 (runCancel s d) := by
  unfold runCancel
  repeat' (first
    | with_reducible (first
        | assumption | exact Keeps.refl _ | apply admOk_keeps | apply admFail_keeps | apply endInteraction_keeps)
    | dsimp only | split
    | with_reducible (first | refine Keeps.upd ?_ rfl rfl rfl rfl rfl rfl rfl rfl rfl))

theorem execCustCancel_keeps {w0 : State} (s : State) (hK : Keeps w0 s) :
    KeepsR w0 (execCustCancel s) := by
  unfold execCustCancel
  repeat' (first
    | with_reducible (first
        | assumption | exact Keeps.refl _ | apply KeepsR.next | exact KeepsR.fault | exact KeepsR.refused
        | apply custCmd_keeps | apply runCancel_keeps)
    | dsimp only | split
    | with_reducible (first | intro _ | refine Keeps.upd ?_ rfl rfl rfl rfl rfl rfl rfl rfl rfl))

theorem runPedEnrol_keeps {w0 : State} (r : HostRead) (s : State) (d : Adm) (hK : Keeps w0 s) :
    Keeps w0 (runPedEnrol r s d) := by
  unfold runPedEnrol
  repeat' (first
    | with_reducible (first
        | assumption | exact Keeps.refl _ | apply reserve_keeps | apply writeReserved_keeps | apply admOk_keeps
        | apply admFail_keeps | apply admRead_keeps)
    | dsimp only | split
    | with_reducible (first | intro _ | refine Keeps.upd ?_ rfl rfl rfl rfl rfl rfl rfl rfl rfl))

theorem execPedEnrol_keeps {w0 : State} (r : HostRead) (s : State) (hK : Keeps w0 s) :
    KeepsR w0 (execPedEnrol r s) := by
  unfold execPedEnrol
  repeat' (first
    | with_reducible (first
        | assumption | exact Keeps.refl _ | apply KeepsR.next | exact KeepsR.fault | exact KeepsR.refused
        | apply custCmd_keeps | apply runPedEnrol_keeps)
    | dsimp only | split
    | with_reducible (first | intro _ | refine Keeps.upd ?_ rfl rfl rfl rfl rfl rfl rfl rfl rfl))

/-! `Machine.Debug` -/

theorem execHoldSet_keeps {w0 : State} (s : State) (hK : Keeps w0 s) :
    KeepsR w0 (execHoldSet s) := by
  unfold execHoldSet
  repeat' (first
    | with_reducible (first
        | assumption | exact Keeps.refl _ | apply KeepsR.next | exact KeepsR.fault | exact KeepsR.refused)
    | dsimp only | split
    | with_reducible (first | refine Keeps.upd ?_ rfl rfl rfl rfl rfl rfl rfl rfl rfl))

theorem execHeld_keeps {w0 : State} (s : State) (hK : Keeps w0 s) :
    KeepsR w0 (execHeld s) := by
  unfold execHeld
  repeat' (first
    | with_reducible (first
        | assumption | exact Keeps.refl _ | apply KeepsR.next | exact KeepsR.fault | exact KeepsR.refused)
    | dsimp only | split
    | with_reducible (first | refine Keeps.upd ?_ rfl rfl rfl rfl rfl rfl rfl rfl rfl))

theorem execHoldLong_keeps {w0 : State} (s : State) (hK : Keeps w0 s) :
    KeepsR w0 (execHoldLong s) := by
  unfold execHoldLong
  repeat' (first
    | with_reducible (first
        | assumption | exact Keeps.refl _ | apply KeepsR.next | exact KeepsR.fault | exact KeepsR.refused
        | apply advanceTo_keeps | apply hdgCount_keeps)
    | dsimp only | split
    | with_reducible (first | refine Keeps.upd ?_ rfl rfl rfl rfl rfl rfl rfl rfl rfl))

theorem debugAccess_keeps {w0 : State} (s : State) (addr : W32) (a : DbgAccess) (hK : Keeps w0 s) :
    Keeps w0 (debugAccess s addr a) := by
  unfold debugAccess
  dsimp only
  split
  · have h1 := hedgeCheck_keeps s 7 0 addr.toNat ‹Nat› hK
    split <;> rename_i e <;> rw [e] at h1 <;> exact emit_keeps _ _ h1
  · have h1 := hedgeCheck_keeps s 7 2 addr.toNat ‹Nat› hK
    split <;> rename_i e <;> rw [e] at h1 <;> exact emit_keeps _ _ h1
  · have h1 := hedgeCheck_keeps s 7 1 addr.toNat ‹Bytes›.length hK
    split <;> rename_i e <;> rw [e] at h1
    · exact Keeps.updG h1 rfl id (fun h k => ⟨h, k⟩) (fun h => wf_mwrite h _ _) (fun _ => Nat.le_refl _) id (Nat.le_refl _) (Nat.le_refl _) (List.prefix_refl _)
    · exact h1

theorem execHoldRelease_keeps {w0 : State} (s : State) (hK : Keeps w0 s) :
    KeepsR w0 (execHoldRelease s) := by
  unfold execHoldRelease
  repeat' (first
    | with_reducible (first
        | assumption | exact Keeps.refl _ | apply KeepsR.next | exact KeepsR.fault | exact KeepsR.refused
        | apply debugAccess_keeps | apply Keeps.foldl | apply KeepsP.foldl)
    | dsimp only | split
    | with_reducible (first | intro _ | refine Keeps.upd ?_ rfl rfl rfl rfl rfl rfl rfl rfl rfl))

theorem hdgCfgErr_keeps {w0 : State} (s : State) (hK : Keeps w0 s) :
    Keeps w0 (hdgCfgErr s) := by
  unfold hdgCfgErr
  repeat' (first
    | with_reducible (first
        | assumption | exact Keeps.refl _ | apply hdgCount_keeps)
    | dsimp only | split
    | with_reducible (first | refine Keeps.upd ?_ rfl rfl rfl rfl rfl rfl rfl rfl rfl))

theorem writeCfg_keeps {w0 : State} (s : State) (r : Nat) (v : W32) (hK : Keeps w0 s) :
    Keeps w0 (writeCfg s r v) := by
  unfold writeCfg
  repeat' (first
    | with_reducible (first
        | assumption | exact Keeps.refl _ | apply hdgCfgErr_keeps)
    | dsimp only | split
    | with_reducible (first | refine Keeps.upd ?_ rfl rfl rfl rfl rfl rfl rfl rfl rfl))

theorem execHdgRegionWrite_keeps {w0 : State} (r : Fin 256) (g : HdgReg) (value : W32) (s : State) (hK : Keeps w0 s) :
    KeepsR w0 (execHdgRegionWrite r g value s) := by
  unfold execHdgRegionWrite
  repeat' (first
    | with_reducible (first
        | assumption | exact Keeps.refl _ | apply KeepsR.next | exact KeepsR.fault | exact KeepsR.refused
        | apply hdgCfgErr_keeps | apply writeCfg_keeps)
    | dsimp only | split
    | with_reducible (first | refine Keeps.upd ?_ rfl rfl rfl rfl rfl rfl rfl rfl rfl))

theorem execDebugMemAccess_keeps {w0 : State} (addr : W32) (a : DbgAccess) (s : State) (hK : Keeps w0 s) :
    KeepsR w0 (execDebugMemAccess addr a s) := by
  unfold execDebugMemAccess
  repeat' (first
    | with_reducible (first
        | assumption | exact Keeps.refl _ | apply KeepsR.next | exact KeepsR.fault | exact KeepsR.refused
        | apply debugAccess_keeps)
    | dsimp only | split
    | with_reducible (first | refine Keeps.upd ?_ rfl rfl rfl rfl rfl rfl rfl rfl rfl))

theorem setHalted_keeps {w0 : State} (s : State) (c : CoreId) (h : Bool) (hK : Keeps w0 s) :
    Keeps w0 (setHalted s c h) := by
  unfold setHalted
  repeat' (first
    | with_reducible (first
        | assumption | exact Keeps.refl _ | apply modYoke_keeps | refine modYoke_keeps _ _ (fun _ k => k) ?_
        | apply modYoke_keeps | exact wf_nil | apply wf_mwrite | apply wf_mzero)
    | dsimp only | split
    | with_reducible (first | intro _ | refine Keeps.upd ?_ rfl rfl rfl rfl rfl rfl rfl rfl rfl))

theorem execDebugHalt_keeps {w0 : State} (c : CoreId) (s : State) (hK : Keeps w0 s) :
    KeepsR w0 (execDebugHalt c s) := by
  unfold execDebugHalt
  repeat' (first
    | with_reducible (first
        | assumption | exact Keeps.refl _ | apply KeepsR.next | exact KeepsR.fault | exact KeepsR.refused
        | apply setHalted_keeps)
    | dsimp only | split
    | with_reducible (first | refine Keeps.upd ?_ rfl rfl rfl rfl rfl rfl rfl rfl rfl))

theorem execDebugResume_keeps {w0 : State} (c : CoreId) (s : State) (hK : Keeps w0 s) :
    KeepsR w0 (execDebugResume c s) := by
  unfold execDebugResume
  repeat' (first
    | with_reducible (first
        | assumption | exact Keeps.refl _ | apply KeepsR.next | exact KeepsR.fault | exact KeepsR.refused
        | apply setHalted_keeps)
    | dsimp only | split
    | with_reducible (first | refine Keeps.upd ?_ rfl rfl rfl rfl rfl rfl rfl rfl rfl))

theorem execBypass_keeps {w0 : State} (s : State) (hK : Keeps w0 s) :
    KeepsR w0 (execBypass s) := by
  unfold execBypass
  repeat' (first
    | with_reducible (first
        | assumption | exact Keeps.refl _ | apply KeepsR.next | exact KeepsR.fault | exact KeepsR.refused | apply emit_keeps)
    | dsimp only | split
    | with_reducible (first | refine Keeps.upd ?_ rfl rfl rfl rfl rfl rfl rfl rfl rfl))

theorem execIdcode_keeps {w0 : State} (s : State) (hK : Keeps w0 s) :
    KeepsR w0 (execIdcode s) := by
  unfold execIdcode
  repeat' (first
    | with_reducible (first
        | assumption | exact Keeps.refl _ | apply KeepsR.next | exact KeepsR.fault | exact KeepsR.refused | apply emit_keeps)
    | dsimp only | split
    | with_reducible (first | refine Keeps.upd ?_ rfl rfl rfl rfl rfl rfl rfl rfl rfl))

theorem execSample_keeps {w0 : State} (s : State) (hK : Keeps w0 s) :
    KeepsR w0 (execSample s) := by
  unfold execSample
  repeat' (first
    | with_reducible (first
        | assumption | exact Keeps.refl _ | apply KeepsR.next | exact KeepsR.fault | exact KeepsR.refused | apply emit_keeps
        | apply drawn_keeps)
    | dsimp only | split
    | with_reducible (first | refine Keeps.upd ?_ rfl rfl rfl rfl rfl rfl rfl rfl rfl))

theorem execExtest_keeps {w0 : State} (s : State) (hK : Keeps w0 s) :
    KeepsR w0 (execExtest s) := by
  unfold execExtest
  repeat' (first
    | with_reducible (first
        | assumption | exact Keeps.refl _ | apply KeepsR.next | exact KeepsR.fault | exact KeepsR.refused | apply emit_keeps
        | apply drawn_keeps | apply Res.state_keeps)
    | dsimp only | split
    | with_reducible (first | refine Keeps.upd ?_ rfl rfl rfl rfl rfl rfl rfl rfl rfl))

theorem execDbgChallenge_keeps {w0 : State} (r : BitVec 4) (s : State) (hK : Keeps w0 s) :
    KeepsR w0 (execDbgChallenge r s) := by
  unfold execDbgChallenge
  repeat' (first
    | with_reducible (first
        | assumption | exact Keeps.refl _ | apply KeepsR.next | exact KeepsR.fault | exact KeepsR.refused | apply emit_keeps
        | apply drawn_keeps | apply privGen_keeps | apply challenge_keeps)
    | dsimp only | split
    | with_reducible (first | refine Keeps.upd ?_ rfl rfl rfl rfl rfl rfl rfl rfl rfl))

theorem execChallengeExpiry_keeps {w0 : State} (s : State) (hK : Keeps w0 s) :
    KeepsR w0 (execChallengeExpiry s) := by
  unfold execChallengeExpiry
  repeat' (first
    | with_reducible (first
        | assumption | exact Keeps.refl _ | apply KeepsR.next | exact KeepsR.fault | exact KeepsR.refused
        | apply challenge_keeps)
    | dsimp only | split
    | with_reducible (first | refine Keeps.upd ?_ rfl rfl rfl rfl rfl rfl rfl rfl rfl))

theorem resetAll_keeps {w0 : State} (s : State) (hK : Keeps w0 s) :
    Keeps w0 (resetAll s) := by
  unfold resetAll
  repeat' (first
    | with_reducible (first
        | assumption | exact Keeps.refl _ | apply modPlot_keeps | apply saveRecord_keeps | apply startReset_keeps
        | apply resetComplete_keeps | apply modPlot_keeps | apply Keeps.foldl | apply KeepsP.foldl)
    | dsimp only | split
    | with_reducible (first | intro _ | refine Keeps.upd ?_ rfl rfl rfl rfl rfl rfl rfl rfl rfl))

theorem zeroPlotKeys_keeps_pre1 {t : Tbl Yoke} (h : twf Yoke.zero t = true) (y : Nat) :
    Memory.wf (tget Yoke.zero (tmap Yoke.zero (fun _ k => { k with bench := [] }) t) y).bench = true := by
  clear h
  unfold tmap
  induction t with
  | nil => rfl
  | cons x t ih =>
    simp only [List.map_cons, List.filter_cons]
    split
    · simp only [tget]
      split
      · rfl
      · exact ih
    · exact ih

theorem zeroPlotKeys_keeps {w0 : State} (s : State) (hK : Keeps w0 s) : Keeps w0 (zeroPlotKeys s) := by
  unfold zeroPlotKeys
  dsimp only
  refine Keeps.foldl (fun _ _ k => wantSeed_keeps _ _ k) _ ?_
  refine Keeps.updG (resetAll_keeps _ hK) rfl (fun h => twf_tmap h _) (fun h k => ⟨twf_tmap h _, fun y => ?_⟩) id (fun _ => Nat.le_refl _) id (Nat.le_refl _) (Nat.le_refl _) (List.prefix_refl _)
  exact zeroPlotKeys_keeps_pre1 h y

theorem newSeeds_keeps {w0 : State} (s : State) (hK : Keeps w0 s) :
    Keeps w0 (newSeeds s) := by
  unfold newSeeds
  repeat' (first
    | with_reducible (first
        | assumption | exact Keeps.refl _ | apply setCab_keeps | apply newSecret_keeps | apply Keeps.foldl
        | apply KeepsP.foldl | refine KeepsP.of ?_ (by assumption) | apply KeepsP.fst)
    | dsimp only | split
    | with_reducible (first | apply KeepsP.mk | intro _ | refine Keeps.upd ?_ rfl rfl rfl rfl rfl rfl rfl rfl rfl))

theorem grantNow_keeps {w0 : State} (s : State) (r : BitVec 4) (hK : Keeps w0 s) :
    Keeps w0 (grantNow s r) := by
  unfold grantNow
  repeat' (first
    | with_reducible (first
        | assumption | exact Keeps.refl _ | apply event_keeps)
    | dsimp only | split
    | with_reducible (first | refine Keeps.upd ?_ rfl rfl rfl rfl rfl rfl rfl rfl rfl))

theorem grantOn_keeps {w0 : State} (s : State) (hK : Keeps w0 s) :
    Keeps w0 (grantOn s) := by
  unfold grantOn
  repeat' (first
    | with_reducible (first
        | assumption | exact Keeps.refl _ | apply keyGens_keeps | apply settleWaits_keeps | apply newSeeds_keeps
        | apply grantNow_keeps | refine KeepsP.of ?_ (by assumption) | apply KeepsP.fst)
    | dsimp only | split
    | with_reducible (first | apply KeepsP.mk | refine Keeps.upd ?_ rfl rfl rfl rfl rfl rfl rfl rfl rfl))

theorem grantRights_keeps {w0 : State} (s : State) (r : BitVec 4) (hK : Keeps w0 s) :
    Keeps w0 (grantRights s r) := by
  unfold grantRights
  repeat' (first
    | with_reducible (first
        | assumption | exact Keeps.refl _ | apply zeroCabinet_keeps | apply zeroKeyPlane_keeps | apply zeroPlotKeys_keeps
        | apply grantNow_keeps | apply grantOn_keeps | apply Res.state_keeps)
    | dsimp only | split
    | with_reducible (first | refine Keeps.upd ?_ rfl rfl rfl rfl rfl rfl rfl rfl rfl))

theorem takeToken_keeps {w0 : State} (s : State) (t : Bytes) (hK : Keeps w0 s) :
    Keeps w0 (takeToken s t) := by
  unfold takeToken
  repeat' (first
    | with_reducible (first
        | assumption | exact Keeps.refl _ | apply event_keeps | apply challenge_keeps | apply grantRights_keeps)
    | dsimp only | split
    | with_reducible (first | refine Keeps.upd ?_ rfl rfl rfl rfl rfl rfl rfl rfl rfl))

theorem execDbgToken_keeps {w0 : State} (token : Bytes) (s : State) (hK : Keeps w0 s) :
    KeepsR w0 (execDbgToken token s) := by
  unfold execDbgToken
  repeat' (first
    | with_reducible (first
        | assumption | exact Keeps.refl _ | apply KeepsR.next | exact KeepsR.fault | exact KeepsR.refused
        | apply takeToken_keeps)
    | dsimp only | split
    | with_reducible (first | refine Keeps.upd ?_ rfl rfl rfl rfl rfl rfl rfl rfl rfl))

theorem runConsent_keeps {w0 : State} (s : State) (d : Adm) (hK : Keeps w0 s) :
    Keeps w0 (runConsent s d) := by
  unfold runConsent
  repeat' (first
    | with_reducible (first
        | assumption | exact Keeps.refl _ | apply reserve_keeps | apply writeReserved_keeps | apply admOk_keeps
        | apply admFail_keeps)
    | dsimp only | split
    | with_reducible (first | refine Keeps.upd ?_ rfl rfl rfl rfl rfl rfl rfl rfl rfl))

theorem execDbgConsent_keeps {w0 : State} (s : State) (hK : Keeps w0 s) :
    KeepsR w0 (execDbgConsent s) := by
  unfold execDbgConsent
  repeat' (first
    | with_reducible (first
        | assumption | exact Keeps.refl _ | apply KeepsR.next | exact KeepsR.fault | exact KeepsR.refused | apply admin_keeps
        | apply runConsent_keeps | apply Res.state_keeps)
    | dsimp only | split
    | with_reducible (first | intro _ | refine Keeps.upd ?_ rfl rfl rfl rfl rfl rfl rfl rfl rfl))

end Sys2Proof.Machine
end

