-- ==== Sys2Proof/Laws/KeepsUnits.lean ====
section
/-! SUPPORT. What every effect keeps, function by function: engine and lane jobs, the key plane, the Reile link, pairs. -/

namespace Sys2Proof.Machine
set_option linter.unusedVariables false
set_option linter.unusedTactic false
set_option linter.unreachableTactic false
set_option linter.unusedSimpArgs false

/-! `Machine.Engines` -/

theorem placeOps_keeps {w0 : State} (s : State) (q : EJ) (inp inp2 : Bytes) (hK : Keeps w0 s) :
    Keeps w0 (placeOps s q inp inp2) := by
  unfold placeOps
  repeat' (first
    | with_reducible (first
        | assumption | exact Keeps.refl _ | apply modEslot_keeps | apply Keeps.foldl | apply KeepsP.foldl)
    | dsimp only | split
    | with_reducible (first | intro _ | refine Keeps.upd ?_ rfl rfl rfl rfl rfl rfl rfl rfl rfl))

theorem EJ.use_keeps {w0 : State} (q : EJ) (s : State) (hK : Keeps w0 s) :
    Keeps w0 (EJ.use q s) := by
  unfold EJ.use
  repeat' (first
    | with_reducible (first
        | assumption | exact Keeps.refl _ | apply useSlot_keeps)
    | dsimp only | split
    | with_reducible (first | refine Keeps.upd ?_ rfl rfl rfl rfl rfl rfl rfl rfl rfl))

theorem engLearn_keeps {w0 : State} (s : State) (q : EJ) (l : Learn) (out : Bytes) (hK : Keeps w0 s) :
    Keeps w0 (engLearn s q l out) := by
  unfold engLearn
  repeat' (first
    | with_reducible (first
        | assumption | exact Keeps.refl _ | apply KeepsO.some | exact KeepsO.none | apply KeepsQ.some | exact KeepsQ.none
        | apply plotGen_keeps | apply learnFor_keeps | apply modJob_keeps | apply engEnd_keeps
        | refine KeepsP.of ?_ (by assumption) | apply KeepsP.fst | refine KeepsO.of ?_ (by assumption))
    | dsimp only | split
    | with_reducible (first | apply KeepsP.mk | intro _ | refine Keeps.upd ?_ rfl rfl rfl rfl rfl rfl rfl rfl rfl))

theorem engLearned_keeps {w0 : State} (s : State) (y j : Nat) (st : BitVec 16) (hK : Keeps w0 s) :
    Keeps w0 (engLearned s y j st) := by
  unfold engLearned
  repeat' (first
    | with_reducible (first
        | assumption | exact Keeps.refl _ | apply engEnd_keeps)
    | dsimp only | split
    | with_reducible (first | refine Keeps.upd ?_ rfl rfl rfl rfl rfl rfl rfl rfl rfl))

theorem invGate_keeps {w0 : State} (s : State) (q : EJ) (ev : EngEv) (kinds : List Nat) (k : State → State) (hK : Keeps w0 s) (h_k : ∀ (a0 : State), Keeps w0 a0 → Keeps w0 (k a0)) :
    Keeps w0 (invGate s q ev kinds k) := by
  unfold invGate
  repeat' (first
    | with_reducible (first
        | assumption | exact Keeps.refl _ | apply h_k | apply invariantFault_keeps)
    | dsimp only | split
    | with_reducible (first | intro _ | refine Keeps.upd ?_ rfl rfl rfl rfl rfl rfl rfl rfl rfl))

theorem withDraw_keeps {w0 : State} (s : State) (q : EJ) (k : State → Bytes → State) (hK : Keeps w0 s) (h_k : ∀ (a0 : State) (a1 : Bytes), Keeps w0 a0 → Keeps w0 (k a0 a1)) :
    Keeps w0 (withDraw s q k) := by
  unfold withDraw
  repeat' (first
    | with_reducible (first
        | assumption | exact Keeps.refl _ | apply KeepsO.some | exact KeepsO.none | apply KeepsQ.some | exact KeepsQ.none
        | apply h_k | apply txRandom_keeps | apply modJob_keeps | refine KeepsQ.of ?_ (by assumption))
    | dsimp only | split
    | with_reducible (first | intro _ | refine Keeps.upd ?_ rfl rfl rfl rfl rfl rfl rfl rfl rfl))

theorem agreeKey_keeps {w0 : State} (s : State) (q : EJ) (ev : EngEv) (kinds : List Nat) (z : Bytes) (hK : Keeps w0 s) :
    Keeps w0 (agreeKey s q ev kinds z) := by
  unfold agreeKey
  repeat' (first
    | with_reducible (first
        | assumption | exact Keeps.refl _ | apply invariantFault_keeps | apply engLearn_keeps | apply invGate_keeps)
    | dsimp only | split
    | with_reducible (first | intro _ | refine Keeps.upd ?_ rfl rfl rfl rfl rfl rfl rfl rfl rfl))

theorem verifyEnd_keeps {w0 : State} (s : State) (q : EJ) (hK : Keeps w0 s) :
    Keeps w0 (verifyEnd s q) := by
  unfold verifyEnd
  repeat' (first
    | with_reducible (first
        | assumption | exact Keeps.refl _ | apply engEnd_keeps | apply reject_keeps)
    | dsimp only | split
    | with_reducible (first | refine Keeps.upd ?_ rfl rfl rfl rfl rfl rfl rfl rfl rfl))

theorem engStart_keeps {w0 : State} (s : State) (q : EJ) (ev : EngEv) (run : State → State) (hK : Keeps w0 s) (h_run : ∀ (a0 : State), Keeps w0 a0 → Keeps w0 (run a0)) :
    Keeps w0 (engStart s q ev run) := by
  unfold engStart
  repeat' (first
    | with_reducible (first
        | assumption | exact Keeps.refl _ | apply h_run | apply yokeFault_keeps | apply benchNote_keeps | apply placeOps_keeps)
    | dsimp only | split
    | with_reducible (first | intro _ | refine Keeps.upd ?_ rfl rfl rfl rfl rfl rfl rfl rfl rfl))

theorem openWindow_keeps {w0 : State} (ty : Nat) (y : YokeId) (j : JobIx) (ev : EngEv) (s : State) (hK : Keeps w0 s) :
    KeepsR w0 (openWindow ty y j ev s) := by
  unfold openWindow
  repeat' (first
    | with_reducible (first
        | assumption | exact Keeps.refl _ | apply KeepsR.next | exact KeepsR.fault | exact KeepsR.refused | apply modJob_keeps
        | apply EJ.use_keeps | apply engStart_keeps)
    | dsimp only | split
    | with_reducible (first | intro _ | refine Keeps.upd ?_ rfl rfl rfl rfl rfl rfl rfl rfl rfl))

theorem rsaOpen_keeps {w0 : State} (s : State) (q : EJ) (ev : EngEv) (hK : Keeps w0 s) :
    Keeps w0 (rsaOpen s q ev) := by
  unfold rsaOpen
  repeat' (first
    | with_reducible (first
        | assumption | exact Keeps.refl _ | apply reject_keeps | apply engLearn_keeps | apply invGate_keeps)
    | dsimp only | split
    | with_reducible (first | intro _ | refine Keeps.upd ?_ rfl rfl rfl rfl rfl rfl rfl rfl rfl))

theorem closeWindow_keeps {w0 : State} (s : State) (q : EJ) (ev : EngEv) (hK : Keeps w0 s) :
    Keeps w0 (closeWindow s q ev) := by
  unfold closeWindow
  repeat' (first
    | with_reducible (first
        | assumption | exact Keeps.refl _ | apply reject_keeps | apply agreeKey_keeps | apply verifyEnd_keeps
        | apply rsaOpen_keeps)
    | dsimp only | split
    | with_reducible (first | refine Keeps.upd ?_ rfl rfl rfl rfl rfl rfl rfl rfl rfl))

theorem execValidationWindowEnd_keeps {w0 : State} (y : YokeId) (j : JobIx) (s : State) (hK : Keeps w0 s) :
    KeepsR w0 (execValidationWindowEnd y j s) := by
  unfold execValidationWindowEnd
  repeat' (first
    | with_reducible (first
        | assumption | exact Keeps.refl _ | apply KeepsR.next | exact KeepsR.fault | exact KeepsR.refused
        | apply closeWindow_keeps)
    | dsimp only | split
    | with_reducible (first | refine Keeps.upd ?_ rfl rfl rfl rfl rfl rfl rfl rfl rfl))

theorem execRsaVerify_keeps {w0 : State} (y : YokeId) (j : JobIx) (ev : EngEv) (s : State) (hK : Keeps w0 s) :
    KeepsR w0 (execRsaVerify y j ev s) := by
  unfold execRsaVerify
  repeat' (first
    | with_reducible (first
        | assumption | exact Keeps.refl _ | apply KeepsR.next | exact KeepsR.fault | exact KeepsR.refused
        | apply openWindow_keeps)
    | dsimp only | split
    | with_reducible (first | refine Keeps.upd ?_ rfl rfl rfl rfl rfl rfl rfl rfl rfl))

theorem execRsaDecrypt_keeps {w0 : State} (y : YokeId) (j : JobIx) (ev : EngEv) (s : State) (hK : Keeps w0 s) :
    KeepsR w0 (execRsaDecrypt y j ev s) := by
  unfold execRsaDecrypt
  repeat' (first
    | with_reducible (first
        | assumption | exact Keeps.refl _ | apply KeepsR.next | exact KeepsR.fault | exact KeepsR.refused
        | apply openWindow_keeps)
    | dsimp only | split
    | with_reducible (first | refine Keeps.upd ?_ rfl rfl rfl rfl rfl rfl rfl rfl rfl))

theorem execEcdsaVerify_keeps {w0 : State} (y : YokeId) (j : JobIx) (ev : EngEv) (s : State) (hK : Keeps w0 s) :
    KeepsR w0 (execEcdsaVerify y j ev s) := by
  unfold execEcdsaVerify
  repeat' (first
    | with_reducible (first
        | assumption | exact Keeps.refl _ | apply KeepsR.next | exact KeepsR.fault | exact KeepsR.refused
        | apply openWindow_keeps)
    | dsimp only | split
    | with_reducible (first | refine Keeps.upd ?_ rfl rfl rfl rfl rfl rfl rfl rfl rfl))

theorem execEcdh_keeps {w0 : State} (y : YokeId) (j : JobIx) (ev : EngEv) (s : State) (hK : Keeps w0 s) :
    KeepsR w0 (execEcdh y j ev s) := by
  unfold execEcdh
  repeat' (first
    | with_reducible (first
        | assumption | exact Keeps.refl _ | apply KeepsR.next | exact KeepsR.fault | exact KeepsR.refused
        | apply openWindow_keeps)
    | dsimp only | split
    | with_reducible (first | refine Keeps.upd ?_ rfl rfl rfl rfl rfl rfl rfl rfl rfl))

theorem execEddsaVerify_keeps {w0 : State} (y : YokeId) (j : JobIx) (ev : EngEv) (s : State) (hK : Keeps w0 s) :
    KeepsR w0 (execEddsaVerify y j ev s) := by
  unfold execEddsaVerify
  repeat' (first
    | with_reducible (first
        | assumption | exact Keeps.refl _ | apply KeepsR.next | exact KeepsR.fault | exact KeepsR.refused
        | apply openWindow_keeps)
    | dsimp only | split
    | with_reducible (first | refine Keeps.upd ?_ rfl rfl rfl rfl rfl rfl rfl rfl rfl))

theorem execX25519X448_keeps {w0 : State} (y : YokeId) (j : JobIx) (ev : EngEv) (s : State) (hK : Keeps w0 s) :
    KeepsR w0 (execX25519X448 y j ev s) := by
  unfold execX25519X448
  repeat' (first
    | with_reducible (first
        | assumption | exact Keeps.refl _ | apply KeepsR.next | exact KeepsR.fault | exact KeepsR.refused
        | apply openWindow_keeps)
    | dsimp only | split
    | with_reducible (first | refine Keeps.upd ?_ rfl rfl rfl rfl rfl rfl rfl rfl rfl))

theorem execMldsaVerify_keeps {w0 : State} (y : YokeId) (j : JobIx) (ev : EngEv) (s : State) (hK : Keeps w0 s) :
    KeepsR w0 (execMldsaVerify y j ev s) := by
  unfold execMldsaVerify
  repeat' (first
    | with_reducible (first
        | assumption | exact Keeps.refl _ | apply KeepsR.next | exact KeepsR.fault | exact KeepsR.refused
        | apply openWindow_keeps)
    | dsimp only | split
    | with_reducible (first | refine Keeps.upd ?_ rfl rfl rfl rfl rfl rfl rfl rfl rfl))

theorem engRow_keeps {w0 : State} (ty : Nat) (y : YokeId) (j : JobIx) (ev : EngEv) (s : State) (run : State → EJ → State) (hK : Keeps w0 s) (h_run : ∀ (a0 : State) (a1 : EJ), Keeps w0 a0 → Keeps w0 (run a0 a1)) :
    KeepsR w0 (engRow ty y j ev s run) := by
  unfold engRow
  repeat' (first
    | with_reducible (first
        | assumption | exact Keeps.refl _ | apply KeepsR.next | exact KeepsR.fault | exact KeepsR.refused | apply h_run
        | apply engStart_keeps)
    | dsimp only | split
    | with_reducible (first | intro _ | refine Keeps.upd ?_ rfl rfl rfl rfl rfl rfl rfl rfl rfl))

theorem signEnd_keeps {w0 : State} (s : State) (q : EJ) (ev : EngEv) (kinds : List Nat) (n : Nat) (rnd : Bytes) (hK : Keeps w0 s) :
    Keeps w0 (signEnd s q ev kinds n rnd) := by
  unfold signEnd
  repeat' (first
    | with_reducible (first
        | assumption | exact Keeps.refl _ | apply engEnd_keeps | apply EJ.use_keeps | apply invGate_keeps)
    | dsimp only | split
    | with_reducible (first | intro _ | refine Keeps.upd ?_ rfl rfl rfl rfl rfl rfl rfl rfl rfl))

theorem execRsaSign_keeps {w0 : State} (y : YokeId) (j : JobIx) (ev : EngEv) (s : State) (hK : Keeps w0 s) :
    KeepsR w0 (execRsaSign y j ev s) := by
  unfold execRsaSign
  repeat' (first
    | with_reducible (first
        | assumption | exact Keeps.refl _ | apply KeepsR.next | exact KeepsR.fault | exact KeepsR.refused | apply engRow_keeps
        | apply signEnd_keeps)
    | dsimp only | split
    | with_reducible (first | intro _ | refine Keeps.upd ?_ rfl rfl rfl rfl rfl rfl rfl rfl rfl))

theorem execEcdsaSign_keeps {w0 : State} (y : YokeId) (j : JobIx) (ev : EngEv) (s : State) (hK : Keeps w0 s) :
    KeepsR w0 (execEcdsaSign y j ev s) := by
  unfold execEcdsaSign
  repeat' (first
    | with_reducible (first
        | assumption | exact Keeps.refl _ | apply KeepsR.next | exact KeepsR.fault | exact KeepsR.refused
        | apply withDraw_keeps | apply engRow_keeps | apply signEnd_keeps)
    | dsimp only | split
    | with_reducible (first | intro _ | refine Keeps.upd ?_ rfl rfl rfl rfl rfl rfl rfl rfl rfl))

theorem execEddsaSign_keeps {w0 : State} (y : YokeId) (j : JobIx) (ev : EngEv) (s : State) (hK : Keeps w0 s) :
    KeepsR w0 (execEddsaSign y j ev s) := by
  unfold execEddsaSign
  repeat' (first
    | with_reducible (first
        | assumption | exact Keeps.refl _ | apply KeepsR.next | exact KeepsR.fault | exact KeepsR.refused | apply engRow_keeps
        | apply signEnd_keeps)
    | dsimp only | split
    | with_reducible (first | intro _ | refine Keeps.upd ?_ rfl rfl rfl rfl rfl rfl rfl rfl rfl))

theorem execMldsaSign_keeps {w0 : State} (y : YokeId) (j : JobIx) (ev : EngEv) (s : State) (hK : Keeps w0 s) :
    KeepsR w0 (execMldsaSign y j ev s) := by
  unfold execMldsaSign
  repeat' (first
    | with_reducible (first
        | assumption | exact Keeps.refl _ | apply KeepsR.next | exact KeepsR.fault | exact KeepsR.refused
        | apply withDraw_keeps | apply engRow_keeps | apply signEnd_keeps)
    | dsimp only | split
    | with_reducible (first | intro _ | refine Keeps.upd ?_ rfl rfl rfl rfl rfl rfl rfl rfl rfl))

theorem keyPair_keeps {w0 : State} (s : State) (q : EJ) (rnd : Bytes) (hK : Keeps w0 s) :
    Keeps w0 (keyPair s q rnd) := by
  unfold keyPair
  repeat' (first
    | with_reducible (first
        | assumption | exact Keeps.refl _ | apply engEnd_keeps | apply engLearn_keeps)
    | dsimp only | split
    | with_reducible (first | refine Keeps.upd ?_ rfl rfl rfl rfl rfl rfl rfl rfl rfl))

theorem execEcKeyPairGeneration_keeps {w0 : State} (y : YokeId) (j : JobIx) (ev : EngEv) (s : State) (hK : Keeps w0 s) :
    KeepsR w0 (execEcKeyPairGeneration y j ev s) := by
  unfold execEcKeyPairGeneration
  repeat' (first
    | with_reducible (first
        | assumption | exact Keeps.refl _ | apply KeepsR.next | exact KeepsR.fault | exact KeepsR.refused
        | apply invGate_keeps | apply withDraw_keeps | apply engRow_keeps | apply keyPair_keeps)
    | dsimp only | split
    | with_reducible (first | intro _ | refine Keeps.upd ?_ rfl rfl rfl rfl rfl rfl rfl rfl rfl))

theorem execMlkemEncapsulate_keeps {w0 : State} (y : YokeId) (j : JobIx) (ev : EngEv) (s : State) (hK : Keeps w0 s) :
    KeepsR w0 (execMlkemEncapsulate y j ev s) := by
  unfold execMlkemEncapsulate
  repeat' (first
    | with_reducible (first
        | assumption | exact Keeps.refl _ | apply KeepsR.next | exact KeepsR.fault | exact KeepsR.refused | apply EJ.use_keeps
        | apply engLearn_keeps | apply invGate_keeps | apply withDraw_keeps | apply engRow_keeps)
    | dsimp only | split
    | with_reducible (first | intro _ | refine Keeps.upd ?_ rfl rfl rfl rfl rfl rfl rfl rfl rfl))

theorem execMlkemDecapsulate_keeps {w0 : State} (y : YokeId) (j : JobIx) (ev : EngEv) (s : State) (hK : Keeps w0 s) :
    KeepsR w0 (execMlkemDecapsulate y j ev s) := by
  unfold execMlkemDecapsulate
  repeat' (first
    | with_reducible (first
        | assumption | exact Keeps.refl _ | apply KeepsR.next | exact KeepsR.fault | exact KeepsR.refused | apply EJ.use_keeps
        | apply engLearn_keeps | apply invGate_keeps | apply engRow_keeps)
    | dsimp only | split
    | with_reducible (first | intro _ | refine Keeps.upd ?_ rfl rfl rfl rfl rfl rfl rfl rfl rfl))

theorem execAttach_keeps {w0 : State} (y : YokeId) (j : JobIx) (s : State) (hK : Keeps w0 s) :
    KeepsR w0 (execAttach y j s) := by
  unfold execAttach
  repeat' (first
    | with_reducible (first
        | assumption | exact Keeps.refl _ | apply KeepsR.next | exact KeepsR.fault | exact KeepsR.refused | apply modJob_keeps)
    | dsimp only | split
    | with_reducible (first | intro _ | refine Keeps.upd ?_ rfl rfl rfl rfl rfl rfl rfl rfl rfl))

theorem execEngineSquashComplete_keeps {w0 : State} (e : EngId) (slot : Fin 2) (s : State) (hK : Keeps w0 s) :
    KeepsR w0 (execEngineSquashComplete e slot s) := by
  unfold execEngineSquashComplete
  repeat' (first
    | with_reducible (first
        | assumption | exact Keeps.refl _ | apply KeepsR.next | exact KeepsR.fault | exact KeepsR.refused
        | apply modEslot_keeps | apply slotFreed_keeps | apply pumpEng_keeps)
    | dsimp only | split
    | with_reducible (first | intro _ | refine Keeps.upd ?_ rfl rfl rfl rfl rfl rfl rfl rfl rfl))

theorem execEngineDetachComplete_keeps {w0 : State} (e : EngId) (s : State) (hK : Keeps w0 s) :
    KeepsR w0 (execEngineDetachComplete e s) := by
  unfold execEngineDetachComplete
  repeat' (first
    | with_reducible (first
        | assumption | exact Keeps.refl _ | apply KeepsR.next | exact KeepsR.fault | exact KeepsR.refused | apply modMac_keeps
        | apply pumpEng_keeps)
    | dsimp only | split
    | with_reducible (first | intro _ | refine Keeps.upd ?_ rfl rfl rfl rfl rfl rfl rfl rfl rfl))

/-! `Machine.KeyPlane` -/

theorem beginRehash_keeps {w0 : State} (s : State) (hK : Keeps w0 s) :
    Keeps w0 (beginRehash s) := by
  unfold beginRehash
  repeat' (first
    | with_reducible (first
        | assumption | exact Keeps.refl _ | apply privGen_keeps | apply newSecret_keeps | refine KeepsP.of ?_ (by assumption)
        | apply KeepsP.fst)
    | dsimp only | split
    | with_reducible (first | apply KeepsP.mk | refine Keeps.upd ?_ rfl rfl rfl rfl rfl rfl rfl rfl rfl))

theorem startRehash_keeps {w0 : State} (s : State) (hK : Keeps w0 s) :
    Keeps w0 (startRehash s) := by
  unfold startRehash
  repeat' (first
    | with_reducible (first
        | assumption | exact Keeps.refl _ | apply beginRehash_keeps)
    | dsimp only | split
    | with_reducible (first | refine Keeps.upd ?_ rfl rfl rfl rfl rfl rfl rfl rfl rfl))

theorem execKitRehash_keeps {w0 : State} (s : State) (hK : Keeps w0 s) :
    KeepsR w0 (execKitRehash s) := by
  unfold execKitRehash
  repeat' (first
    | with_reducible (first
        | assumption | exact Keeps.refl _ | apply KeepsR.next | exact KeepsR.fault | exact KeepsR.refused
        | apply startRehash_keeps)
    | dsimp only | split
    | with_reducible (first | refine Keeps.upd ?_ rfl rfl rfl rfl rfl rfl rfl rfl rfl))

theorem moveEntry_keeps {w0 : State} (s : State) (e : KitEntry) (hK : Keeps w0 s) :
    Keeps w0 (moveEntry s e) := by
  unfold moveEntry
  repeat' (first
    | with_reducible (first
        | assumption | exact Keeps.refl _ | apply modPlot_keeps | apply modSlot_keeps | apply freeSlotIfDone_keeps
        | apply dropEntry_keeps | apply rehashReq_keeps | apply modPlot_keeps | apply KeepsA.bind)
    | dsimp only | split
    | with_reducible (first | intro _ | refine Keeps.upd ?_ rfl rfl rfl rfl rfl rfl rfl rfl rfl))

theorem drainOverflow_keeps {w0 : State} (s : State) (hK : Keeps w0 s) :
    Keeps w0 (drainOverflow s) := by
  unfold drainOverflow
  repeat' (first
    | with_reducible (first
        | assumption | exact Keeps.refl _ | apply dropEntry_keeps | apply Keeps.foldl | apply KeepsP.foldl)
    | dsimp only | split
    | with_reducible (first | intro _ | refine Keeps.upd ?_ rfl rfl rfl rfl rfl rfl rfl rfl rfl))

theorem sweepBucket_keeps {w0 : State} (s : State) (hK : Keeps w0 s) :
    Keeps w0 (sweepBucket s) := by
  unfold sweepBucket
  repeat' (first
    | with_reducible (first
        | assumption | exact Keeps.refl _ | apply beginRehash_keeps | apply moveEntry_keeps | apply drainOverflow_keeps
        | apply Keeps.foldl | apply KeepsP.foldl)
    | dsimp only | split
    | with_reducible (first | intro _ | refine Keeps.upd ?_ rfl rfl rfl rfl rfl rfl rfl rfl rfl))

theorem execRehashSweep_keeps {w0 : State} (s : State) (hK : Keeps w0 s) :
    KeepsR w0 (execRehashSweep s) := by
  unfold execRehashSweep
  repeat' (first
    | with_reducible (first
        | assumption | exact Keeps.refl _ | apply KeepsR.next | exact KeepsR.fault | exact KeepsR.refused
        | apply sweepBucket_keeps)
    | dsimp only | split
    | with_reducible (first | refine Keeps.upd ?_ rfl rfl rfl rfl rfl rfl rfl rfl rfl))

theorem sweepKit_keeps {w0 : State} (s : State) (l : List Nat) (hK : Keeps w0 s) :
    Keeps w0 (sweepKit s l) := by
  unfold sweepKit
  repeat' (first
    | with_reducible (first
        | assumption | exact Keeps.refl _ | apply dropEntry_keeps | apply Keeps.foldl | apply KeepsP.foldl)
    | dsimp only | split
    | with_reducible (first | intro _ | refine Keeps.upd ?_ rfl rfl rfl rfl rfl rfl rfl rfl rfl))

theorem sweepRpl_keeps {w0 : State} (s : State) (l : List Nat) (hK : Keeps w0 s) :
    Keeps w0 (sweepRpl s l) := by
  unfold sweepRpl
  repeat' (first
    | with_reducible (first
        | assumption | exact Keeps.refl _ | apply rplDrop_keeps | apply Keeps.foldl | apply KeepsP.foldl)
    | dsimp only | split
    | with_reducible (first | intro _ | refine Keeps.upd ?_ rfl rfl rfl rfl rfl rfl rfl rfl rfl))

theorem execSweeperVisit_keeps {w0 : State} (t : SweepTarget) (s : State) (hK : Keeps w0 s) :
    KeepsR w0 (execSweeperVisit t s) := by
  unfold execSweeperVisit
  repeat' (first
    | with_reducible (first
        | assumption | exact Keeps.refl _ | apply KeepsR.next | exact KeepsR.fault | exact KeepsR.refused
        | apply sweepKit_keeps | apply sweepRpl_keeps)
    | dsimp only | split
    | with_reducible (first | intro _ | refine Keeps.upd ?_ rfl rfl rfl rfl rfl rfl rfl rfl rfl))

theorem freeTombstones_keeps {w0 : State} (s : State) (p mark : Nat) (hK : Keeps w0 s) :
    Keeps w0 (freeTombstones s p mark) := by
  unfold freeTombstones
  repeat' (first
    | with_reducible (first
        | assumption | exact Keeps.refl _ | apply vltSet_keeps | apply Keeps.foldl | apply KeepsP.foldl)
    | dsimp only | split
    | with_reducible (first | intro _ | refine Keeps.upd ?_ rfl rfl rfl rfl rfl rfl rfl rfl rfl))

theorem saveFailures_keeps {w0 : State} (s : State) (p mark : Nat) (hK : Keeps w0 s) :
    Keeps w0 (saveFailures s p mark) := by
  unfold saveFailures
  repeat' (first
    | with_reducible (first
        | assumption | exact Keeps.refl _ | apply event_keeps | apply Keeps.foldl | apply KeepsP.foldl)
    | dsimp only | split
    | with_reducible (first | intro _ | refine Keeps.upd ?_ rfl rfl rfl rfl rfl rfl rfl rfl rfl))

theorem runSave_keeps {w0 : State} (s0 : State) (d : Adm) (hK : Keeps w0 s0) :
    Keeps w0 (runSave s0 d) := by
  unfold runSave
  repeat' (first
    | with_reducible (first
        | assumption | exact Keeps.refl _ | apply admResult_keeps | apply requeue_keeps | apply forwardAdmin_keeps
        | apply freeTombstones_keeps | apply saveFailures_keeps)
    | dsimp only | split
    | with_reducible (first | refine Keeps.upd ?_ rfl rfl rfl rfl rfl rfl rfl rfl rfl))

theorem execVaultSave_keeps {w0 : State} (s : State) (hK : Keeps w0 s) :
    KeepsR w0 (execVaultSave s) := by
  unfold execVaultSave
  repeat' (first
    | with_reducible (first
        | assumption | exact Keeps.refl _ | apply KeepsR.next | exact KeepsR.fault | exact KeepsR.refused
        | apply plotCmd_keeps | apply runSave_keeps)
    | dsimp only | split
    | with_reducible (first | intro _ | refine Keeps.upd ?_ rfl rfl rfl rfl rfl rfl rfl rfl rfl))

theorem keepRec_keeps {w0 : State} (s : State) (i : Nat) (r : VRec) (hK : Keeps w0 s) :
    Keeps w0 (keepRec s i r) := by
  unfold keepRec
  repeat' (first
    | with_reducible (first
        | assumption | exact Keeps.refl _ | apply drawn_keeps | apply vltSet_keeps)
    | dsimp only | split
    | with_reducible (first | refine Keeps.upd ?_ rfl rfl rfl rfl rfl rfl rfl rfl rfl))

theorem loadRec_keeps {w0 : State} (s : State) (p : Nat) (b body : Bytes) (hK : Keeps w0 s) :
    KeepsP w0 (loadRec s p b body) := by
  unfold loadRec
  repeat' (first
    | with_reducible (first
        | assumption | exact Keeps.refl _ | apply event_keeps | apply vltFull_keeps | apply keepRec_keeps
        | refine KeepsP.of ?_ (by assumption) | apply KeepsP.fst)
    | dsimp only | split
    | with_reducible (first | apply KeepsP.mk | refine Keeps.upd ?_ rfl rfl rfl rfl rfl rfl rfl rfl rfl))

theorem loadRecs_keeps {w0 : State} (p n : Nat) (b : Bytes) (s : State) (a r : Nat) (hK : Keeps w0 s) :
    KeepsP w0 (loadRecs p n b s a r) := by
  induction n generalizing b s a r with
  | zero => exact hK
  | succ n ih =>
    unfold loadRecs
    split
    · exact hK
    · exact ih _ _ _ _ (KeepsP.fst (loadRec_keeps _ _ _ _ hK))

theorem runLoad_keeps {w0 : State} (r : HostRead) (s : State) (d : Adm) (hK : Keeps w0 s) :
    Keeps w0 (runLoad r s d) := by
  unfold runLoad
  repeat' (first
    | with_reducible (first
        | assumption | exact Keeps.refl _ | apply admEnd_keeps | apply requeue_keeps | apply admRead_keeps
        | apply forwardData_keeps | apply loadRecs_keeps | refine KeepsP.of ?_ (by assumption) | apply KeepsP.fst)
    | dsimp only | split
    | with_reducible (first | apply KeepsP.mk | intro _ | refine Keeps.upd ?_ rfl rfl rfl rfl rfl rfl rfl rfl rfl))

theorem execVaultLoad_keeps {w0 : State} (r : HostRead) (s : State) (hK : Keeps w0 s) :
    KeepsR w0 (execVaultLoad r s) := by
  unfold execVaultLoad
  repeat' (first
    | with_reducible (first
        | assumption | exact Keeps.refl _ | apply KeepsR.next | exact KeepsR.fault | exact KeepsR.refused
        | apply plotCmd_keeps | apply runLoad_keeps)
    | dsimp only | split
    | with_reducible (first | intro _ | refine Keeps.upd ?_ rfl rfl rfl rfl rfl rfl rfl rfl rfl))

/-! `Machine.Lanes` -/

theorem compXlate_keeps {w0 : State} (s : State) (x : LJ) (hK : Keeps w0 s) :
    KeepsC w0 (compXlate s x) := by
  unfold compXlate
  repeat' (first
    | with_reducible (first
        | assumption | exact Keeps.refl _ | apply KeepsO.some | exact KeepsO.none | apply KeepsQ.some | exact KeepsQ.none
        | apply KeepsC.fin | apply KeepsC.derived | apply KeepsC.exported | apply KeepsC.learn | exact KeepsC.wait
        | apply KeepsC.conflict | apply sealPin_keeps | refine KeepsQ.of ?_ (by assumption)
        | refine KeepsC.of_fin ?_ (by assumption) | refine KeepsC.of_derived ?_ (by assumption)
        | refine KeepsC.of_exported ?_ (by assumption) | refine KeepsC.of_learn ?_ (by assumption)
        | refine KeepsC.of_conflict ?_ (by assumption))
    | dsimp only | split
    | with_reducible (first | refine Keeps.upd ?_ rfl rfl rfl rfl rfl rfl rfl rfl rfl))

theorem execPinXlate_keeps {w0 : State} (y : YokeId) (j : JobIx) (ev : LaneEv) (s : State) (hK : Keeps w0 s) :
    KeepsR w0 (execPinXlate y j ev s) := by
  unfold execPinXlate
  repeat' (first
    | with_reducible (first
        | assumption | exact Keeps.refl _ | apply KeepsR.next | exact KeepsR.fault | exact KeepsR.refused | apply KeepsC.fin
        | apply KeepsC.derived | apply KeepsC.exported | apply KeepsC.learn | exact KeepsC.wait | apply KeepsC.conflict
        | apply laneRow_keeps | apply compXlate_keeps | refine KeepsC.of_fin ?_ (by assumption)
        | refine KeepsC.of_derived ?_ (by assumption) | refine KeepsC.of_exported ?_ (by assumption)
        | refine KeepsC.of_learn ?_ (by assumption) | refine KeepsC.of_conflict ?_ (by assumption))
    | dsimp only | split
    | with_reducible (first | intro _ | refine Keeps.upd ?_ rfl rfl rfl rfl rfl rfl rfl rfl rfl))

theorem compOpen_keeps {w0 : State} (s : State) (x : LJ) (hK : Keeps w0 s) :
    KeepsC w0 (compOpen s x) := by
  unfold compOpen
  repeat' (first
    | with_reducible (first
        | assumption | exact Keeps.refl _ | apply KeepsC.fin | apply KeepsC.derived | apply KeepsC.exported
        | apply KeepsC.learn | exact KeepsC.wait | apply KeepsC.conflict | refine KeepsC.of_fin ?_ (by assumption)
        | refine KeepsC.of_derived ?_ (by assumption) | refine KeepsC.of_exported ?_ (by assumption)
        | refine KeepsC.of_learn ?_ (by assumption) | refine KeepsC.of_conflict ?_ (by assumption))
    | dsimp only | split
    | with_reducible (first | refine Keeps.upd ?_ rfl rfl rfl rfl rfl rfl rfl rfl rfl))

theorem execPinOpen_keeps {w0 : State} (y : YokeId) (j : JobIx) (ev : LaneEv) (s : State) (hK : Keeps w0 s) :
    KeepsR w0 (execPinOpen y j ev s) := by
  unfold execPinOpen
  repeat' (first
    | with_reducible (first
        | assumption | exact Keeps.refl _ | apply KeepsR.next | exact KeepsR.fault | exact KeepsR.refused | apply KeepsC.fin
        | apply KeepsC.derived | apply KeepsC.exported | apply KeepsC.learn | exact KeepsC.wait | apply KeepsC.conflict
        | apply laneRow_keeps | apply compOpen_keeps | refine KeepsC.of_fin ?_ (by assumption)
        | refine KeepsC.of_derived ?_ (by assumption) | refine KeepsC.of_exported ?_ (by assumption)
        | refine KeepsC.of_learn ?_ (by assumption) | refine KeepsC.of_conflict ?_ (by assumption))
    | dsimp only | split
    | with_reducible (first | intro _ | refine Keeps.upd ?_ rfl rfl rfl rfl rfl rfl rfl rfl rfl))

theorem compReseal_keeps {w0 : State} (s : State) (x : LJ) (hK : Keeps w0 s) :
    KeepsC w0 (compReseal s x) := by
  unfold compReseal
  repeat' (first
    | with_reducible (first
        | assumption | exact Keeps.refl _ | apply KeepsO.some | exact KeepsO.none | apply KeepsQ.some | exact KeepsQ.none
        | apply KeepsC.fin | apply KeepsC.derived | apply KeepsC.exported | apply KeepsC.learn | exact KeepsC.wait
        | apply KeepsC.conflict | apply sealPin_keeps | refine KeepsQ.of ?_ (by assumption)
        | refine KeepsC.of_fin ?_ (by assumption) | refine KeepsC.of_derived ?_ (by assumption)
        | refine KeepsC.of_exported ?_ (by assumption) | refine KeepsC.of_learn ?_ (by assumption)
        | refine KeepsC.of_conflict ?_ (by assumption))
    | dsimp only | split
    | with_reducible (first | refine Keeps.upd ?_ rfl rfl rfl rfl rfl rfl rfl rfl rfl))

theorem execPinReseal_keeps {w0 : State} (y : YokeId) (j : JobIx) (ev : LaneEv) (s : State) (hK : Keeps w0 s) :
    KeepsR w0 (execPinReseal y j ev s) := by
  unfold execPinReseal
  repeat' (first
    | with_reducible (first
        | assumption | exact Keeps.refl _ | apply KeepsR.next | exact KeepsR.fault | exact KeepsR.refused | apply KeepsC.fin
        | apply KeepsC.derived | apply KeepsC.exported | apply KeepsC.learn | exact KeepsC.wait | apply KeepsC.conflict
        | apply laneRow_keeps | apply compReseal_keeps | refine KeepsC.of_fin ?_ (by assumption)
        | refine KeepsC.of_derived ?_ (by assumption) | refine KeepsC.of_exported ?_ (by assumption)
        | refine KeepsC.of_learn ?_ (by assumption) | refine KeepsC.of_conflict ?_ (by assumption))
    | dsimp only | split
    | with_reducible (first | intro _ | refine Keeps.upd ?_ rfl rfl rfl rfl rfl rfl rfl rfl rfl))

theorem verdict_keeps {w0 : State} (s : State) (x : LJ) (ok : Bool) (bad : BitVec 16) (hK : Keeps w0 s) :
    KeepsC w0 (verdict s x ok bad) := by
  unfold verdict
  repeat' (first
    | with_reducible (first
        | assumption | exact Keeps.refl _ | apply KeepsC.fin | apply KeepsC.derived | apply KeepsC.exported
        | apply KeepsC.learn | exact KeepsC.wait | apply KeepsC.conflict | refine KeepsC.of_fin ?_ (by assumption)
        | refine KeepsC.of_derived ?_ (by assumption) | refine KeepsC.of_exported ?_ (by assumption)
        | refine KeepsC.of_learn ?_ (by assumption) | refine KeepsC.of_conflict ?_ (by assumption))
    | dsimp only | split
    | with_reducible (first | refine Keeps.upd ?_ rfl rfl rfl rfl rfl rfl rfl rfl rfl))

theorem comp3624_keeps {w0 : State} (s : State) (x : LJ) (hK : Keeps w0 s) :
    KeepsC w0 (comp3624 s x) := by
  unfold comp3624
  repeat' (first
    | with_reducible (first
        | assumption | exact Keeps.refl _ | apply KeepsC.fin | apply KeepsC.derived | apply KeepsC.exported
        | apply KeepsC.learn | exact KeepsC.wait | apply KeepsC.conflict | apply verdict_keeps
        | refine KeepsC.of_fin ?_ (by assumption) | refine KeepsC.of_derived ?_ (by assumption)
        | refine KeepsC.of_exported ?_ (by assumption) | refine KeepsC.of_learn ?_ (by assumption)
        | refine KeepsC.of_conflict ?_ (by assumption))
    | dsimp only | split
    | with_reducible (first | intro _ | refine Keeps.upd ?_ rfl rfl rfl rfl rfl rfl rfl rfl rfl))

theorem execPinVer3624_keeps {w0 : State} (y : YokeId) (j : JobIx) (ev : LaneEv) (s : State) (hK : Keeps w0 s) :
    KeepsR w0 (execPinVer3624 y j ev s) := by
  unfold execPinVer3624
  repeat' (first
    | with_reducible (first
        | assumption | exact Keeps.refl _ | apply KeepsR.next | exact KeepsR.fault | exact KeepsR.refused | apply KeepsC.fin
        | apply KeepsC.derived | apply KeepsC.exported | apply KeepsC.learn | exact KeepsC.wait | apply KeepsC.conflict
        | apply laneRow_keeps | apply comp3624_keeps | refine KeepsC.of_fin ?_ (by assumption)
        | refine KeepsC.of_derived ?_ (by assumption) | refine KeepsC.of_exported ?_ (by assumption)
        | refine KeepsC.of_learn ?_ (by assumption) | refine KeepsC.of_conflict ?_ (by assumption))
    | dsimp only | split
    | with_reducible (first | intro _ | refine Keeps.upd ?_ rfl rfl rfl rfl rfl rfl rfl rfl rfl))

theorem compPvv_keeps {w0 : State} (s : State) (x : LJ) (hK : Keeps w0 s) :
    KeepsC w0 (compPvv s x) := by
  unfold compPvv
  repeat' (first
    | with_reducible (first
        | assumption | exact Keeps.refl _ | apply KeepsC.fin | apply KeepsC.derived | apply KeepsC.exported
        | apply KeepsC.learn | exact KeepsC.wait | apply KeepsC.conflict | apply verdict_keeps
        | refine KeepsC.of_fin ?_ (by assumption) | refine KeepsC.of_derived ?_ (by assumption)
        | refine KeepsC.of_exported ?_ (by assumption) | refine KeepsC.of_learn ?_ (by assumption)
        | refine KeepsC.of_conflict ?_ (by assumption))
    | dsimp only | split
    | with_reducible (first | refine Keeps.upd ?_ rfl rfl rfl rfl rfl rfl rfl rfl rfl))

theorem execPinVerPvv_keeps {w0 : State} (y : YokeId) (j : JobIx) (ev : LaneEv) (s : State) (hK : Keeps w0 s) :
    KeepsR w0 (execPinVerPvv y j ev s) := by
  unfold execPinVerPvv
  repeat' (first
    | with_reducible (first
        | assumption | exact Keeps.refl _ | apply KeepsR.next | exact KeepsR.fault | exact KeepsR.refused | apply KeepsC.fin
        | apply KeepsC.derived | apply KeepsC.exported | apply KeepsC.learn | exact KeepsC.wait | apply KeepsC.conflict
        | apply laneRow_keeps | apply compPvv_keeps | refine KeepsC.of_fin ?_ (by assumption)
        | refine KeepsC.of_derived ?_ (by assumption) | refine KeepsC.of_exported ?_ (by assumption)
        | refine KeepsC.of_learn ?_ (by assumption) | refine KeepsC.of_conflict ?_ (by assumption))
    | dsimp only | split
    | with_reducible (first | intro _ | refine Keeps.upd ?_ rfl rfl rfl rfl rfl rfl rfl rfl rfl))

theorem compCvv_keeps {w0 : State} (s : State) (x : LJ) (hK : Keeps w0 s) :
    KeepsC w0 (compCvv s x) := by
  unfold compCvv
  repeat' (first
    | with_reducible (first
        | assumption | exact Keeps.refl _ | apply KeepsC.fin | apply KeepsC.derived | apply KeepsC.exported
        | apply KeepsC.learn | exact KeepsC.wait | apply KeepsC.conflict | refine KeepsC.of_fin ?_ (by assumption)
        | refine KeepsC.of_derived ?_ (by assumption) | refine KeepsC.of_exported ?_ (by assumption)
        | refine KeepsC.of_learn ?_ (by assumption) | refine KeepsC.of_conflict ?_ (by assumption))
    | dsimp only | split
    | with_reducible (first | refine Keeps.upd ?_ rfl rfl rfl rfl rfl rfl rfl rfl rfl))

theorem execCvv_keeps {w0 : State} (y : YokeId) (j : JobIx) (ev : LaneEv) (s : State) (hK : Keeps w0 s) :
    KeepsR w0 (execCvv y j ev s) := by
  unfold execCvv
  repeat' (first
    | with_reducible (first
        | assumption | exact Keeps.refl _ | apply KeepsR.next | exact KeepsR.fault | exact KeepsR.refused | apply KeepsC.fin
        | apply KeepsC.derived | apply KeepsC.exported | apply KeepsC.learn | exact KeepsC.wait | apply KeepsC.conflict
        | apply laneRow_keeps | apply compCvv_keeps | refine KeepsC.of_fin ?_ (by assumption)
        | refine KeepsC.of_derived ?_ (by assumption) | refine KeepsC.of_exported ?_ (by assumption)
        | refine KeepsC.of_learn ?_ (by assumption) | refine KeepsC.of_conflict ?_ (by assumption))
    | dsimp only | split
    | with_reducible (first | intro _ | refine Keeps.upd ?_ rfl rfl rfl rfl rfl rfl rfl rfl rfl))

theorem arpc_keeps {w0 : State} (s : State) (x : LJ) (aes : Bool) (sk : Bytes) (ls : List Learn) (hK : Keeps w0 s) :
    KeepsC w0 (arpc s x aes sk ls) := by
  unfold arpc
  repeat' (first
    | with_reducible (first
        | assumption | exact Keeps.refl _ | apply KeepsC.fin | apply KeepsC.derived | apply KeepsC.exported
        | apply KeepsC.learn | exact KeepsC.wait | apply KeepsC.conflict | refine KeepsC.of_fin ?_ (by assumption)
        | refine KeepsC.of_derived ?_ (by assumption) | refine KeepsC.of_exported ?_ (by assumption)
        | refine KeepsC.of_learn ?_ (by assumption) | refine KeepsC.of_conflict ?_ (by assumption))
    | dsimp only | split
    | with_reducible (first | refine Keeps.upd ?_ rfl rfl rfl rfl rfl rfl rfl rfl rfl))

theorem compArqc_keeps {w0 : State} (s : State) (x : LJ) (hK : Keeps w0 s) :
    KeepsC w0 (compArqc s x) := by
  unfold compArqc
  repeat' (first
    | with_reducible (first
        | assumption | exact Keeps.refl _ | apply KeepsC.fin | apply KeepsC.derived | apply KeepsC.exported
        | apply KeepsC.learn | exact KeepsC.wait | apply KeepsC.conflict | apply deriveKey_keeps | apply arpc_keeps
        | refine KeepsP.of ?_ (by assumption) | apply KeepsP.fst | refine KeepsC.of_fin ?_ (by assumption)
        | refine KeepsC.of_derived ?_ (by assumption) | refine KeepsC.of_exported ?_ (by assumption)
        | refine KeepsC.of_learn ?_ (by assumption) | refine KeepsC.of_conflict ?_ (by assumption))
    | dsimp only | split
    | with_reducible (first | apply KeepsP.mk | refine Keeps.upd ?_ rfl rfl rfl rfl rfl rfl rfl rfl rfl))

theorem execArqcArpc_keeps {w0 : State} (y : YokeId) (j : JobIx) (ev : LaneEv) (s : State) (hK : Keeps w0 s) :
    KeepsR w0 (execArqcArpc y j ev s) := by
  unfold execArqcArpc
  repeat' (first
    | with_reducible (first
        | assumption | exact Keeps.refl _ | apply KeepsR.next | exact KeepsR.fault | exact KeepsR.refused | apply KeepsC.fin
        | apply KeepsC.derived | apply KeepsC.exported | apply KeepsC.learn | exact KeepsC.wait | apply KeepsC.conflict
        | apply laneRow_keeps | apply compArqc_keeps | refine KeepsC.of_fin ?_ (by assumption)
        | refine KeepsC.of_derived ?_ (by assumption) | refine KeepsC.of_exported ?_ (by assumption)
        | refine KeepsC.of_learn ?_ (by assumption) | refine KeepsC.of_conflict ?_ (by assumption))
    | dsimp only | split
    | with_reducible (first | intro _ | refine Keeps.upd ?_ rfl rfl rfl rfl rfl rfl rfl rfl rfl))

theorem dukptFrom_keeps {w0 : State} (s : State) (x : LJ) (ik : Bytes) (name : W64) (ls : List Learn) (hK : Keeps w0 s) :
    KeepsC w0 (dukptFrom s x ik name ls) := by
  unfold dukptFrom
  repeat' (first
    | with_reducible (first
        | assumption | exact Keeps.refl _ | apply KeepsC.fin | apply KeepsC.derived | apply KeepsC.exported
        | apply KeepsC.learn | exact KeepsC.wait | apply KeepsC.conflict | refine KeepsC.of_fin ?_ (by assumption)
        | refine KeepsC.of_derived ?_ (by assumption) | refine KeepsC.of_exported ?_ (by assumption)
        | refine KeepsC.of_learn ?_ (by assumption) | refine KeepsC.of_conflict ?_ (by assumption))
    | dsimp only | split
    | with_reducible (first | refine Keeps.upd ?_ rfl rfl rfl rfl rfl rfl rfl rfl rfl))

theorem compDukpt_keeps {w0 : State} (s : State) (x : LJ) (hK : Keeps w0 s) :
    KeepsC w0 (compDukpt s x) := by
  unfold compDukpt
  repeat' (first
    | with_reducible (first
        | assumption | exact Keeps.refl _ | apply KeepsC.fin | apply KeepsC.derived | apply KeepsC.exported
        | apply KeepsC.learn | exact KeepsC.wait | apply KeepsC.conflict | apply derivedLook_keeps | apply deriveKey_keeps
        | apply dukptFrom_keeps | refine KeepsP.of ?_ (by assumption) | apply KeepsP.fst
        | refine KeepsC.of_fin ?_ (by assumption) | refine KeepsC.of_derived ?_ (by assumption)
        | refine KeepsC.of_exported ?_ (by assumption) | refine KeepsC.of_learn ?_ (by assumption)
        | refine KeepsC.of_conflict ?_ (by assumption))
    | dsimp only | split
    | with_reducible (first | apply KeepsP.mk | refine Keeps.upd ?_ rfl rfl rfl rfl rfl rfl rfl rfl rfl))

theorem execDukptDerive_keeps {w0 : State} (y : YokeId) (j : JobIx) (ev : LaneEv) (s : State) (hK : Keeps w0 s) :
    KeepsR w0 (execDukptDerive y j ev s) := by
  unfold execDukptDerive
  repeat' (first
    | with_reducible (first
        | assumption | exact Keeps.refl _ | apply KeepsR.next | exact KeepsR.fault | exact KeepsR.refused | apply KeepsC.fin
        | apply KeepsC.derived | apply KeepsC.exported | apply KeepsC.learn | exact KeepsC.wait | apply KeepsC.conflict
        | apply laneRow_keeps | apply compDukpt_keeps | refine KeepsC.of_fin ?_ (by assumption)
        | refine KeepsC.of_derived ?_ (by assumption) | refine KeepsC.of_exported ?_ (by assumption)
        | refine KeepsC.of_learn ?_ (by assumption) | refine KeepsC.of_conflict ?_ (by assumption))
    | dsimp only | split
    | with_reducible (first | intro _ | refine Keeps.upd ?_ rfl rfl rfl rfl rfl rfl rfl rfl rfl))

theorem compParts_keeps {w0 : State} (ty at' outLen : Nat) (f : LJ → Bytes → Bytes) (s : State) (x : LJ) (hK : Keeps w0 s) :
    KeepsC w0 (compParts ty at' outLen f s x) := by
  unfold compParts
  repeat' (first
    | with_reducible (first
        | assumption | exact Keeps.refl _ | apply KeepsC.fin | apply KeepsC.derived | apply KeepsC.exported
        | apply KeepsC.learn | exact KeepsC.wait | apply KeepsC.conflict | apply Res.state_keeps
        | refine KeepsC.of_fin ?_ (by assumption) | refine KeepsC.of_derived ?_ (by assumption)
        | refine KeepsC.of_exported ?_ (by assumption) | refine KeepsC.of_learn ?_ (by assumption)
        | refine KeepsC.of_conflict ?_ (by assumption))
    | dsimp only | split
    | with_reducible (first | refine Keeps.upd ?_ rfl rfl rfl rfl rfl rfl rfl rfl rfl))

theorem execCmac_keeps {w0 : State} (y : YokeId) (j : JobIx) (ev : LaneEv) (s : State) (hK : Keeps w0 s) :
    KeepsR w0 (execCmac y j ev s) := by
  unfold execCmac
  repeat' (first
    | with_reducible (first
        | assumption | exact Keeps.refl _ | apply KeepsR.next | exact KeepsR.fault | exact KeepsR.refused | apply KeepsC.fin
        | apply KeepsC.derived | apply KeepsC.exported | apply KeepsC.learn | exact KeepsC.wait | apply KeepsC.conflict
        | apply laneRow_keeps | apply compParts_keeps | refine KeepsC.of_fin ?_ (by assumption)
        | refine KeepsC.of_derived ?_ (by assumption) | refine KeepsC.of_exported ?_ (by assumption)
        | refine KeepsC.of_learn ?_ (by assumption) | refine KeepsC.of_conflict ?_ (by assumption))
    | dsimp only | split
    | with_reducible (first | intro _ | refine Keeps.upd ?_ rfl rfl rfl rfl rfl rfl rfl rfl rfl))

theorem execMac9797_keeps {w0 : State} (y : YokeId) (j : JobIx) (ev : LaneEv) (s : State) (hK : Keeps w0 s) :
    KeepsR w0 (execMac9797 y j ev s) := by
  unfold execMac9797
  repeat' (first
    | with_reducible (first
        | assumption | exact Keeps.refl _ | apply KeepsR.next | exact KeepsR.fault | exact KeepsR.refused | apply KeepsC.fin
        | apply KeepsC.derived | apply KeepsC.exported | apply KeepsC.learn | exact KeepsC.wait | apply KeepsC.conflict
        | apply laneRow_keeps | apply compParts_keeps | refine KeepsC.of_fin ?_ (by assumption)
        | refine KeepsC.of_derived ?_ (by assumption) | refine KeepsC.of_exported ?_ (by assumption)
        | refine KeepsC.of_learn ?_ (by assumption) | refine KeepsC.of_conflict ?_ (by assumption))
    | dsimp only | split
    | with_reducible (first | intro _ | refine Keeps.upd ?_ rfl rfl rfl rfl rfl rfl rfl rfl rfl))

theorem execHmac_keeps {w0 : State} (y : YokeId) (j : JobIx) (ev : LaneEv) (s : State) (hK : Keeps w0 s) :
    KeepsR w0 (execHmac y j ev s) := by
  unfold execHmac
  repeat' (first
    | with_reducible (first
        | assumption | exact Keeps.refl _ | apply KeepsR.next | exact KeepsR.fault | exact KeepsR.refused | apply KeepsC.fin
        | apply KeepsC.derived | apply KeepsC.exported | apply KeepsC.learn | exact KeepsC.wait | apply KeepsC.conflict
        | apply laneRow_keeps | apply compParts_keeps | refine KeepsC.of_fin ?_ (by assumption)
        | refine KeepsC.of_derived ?_ (by assumption) | refine KeepsC.of_exported ?_ (by assumption)
        | refine KeepsC.of_learn ?_ (by assumption) | refine KeepsC.of_conflict ?_ (by assumption))
    | dsimp only | split
    | with_reducible (first | intro _ | refine Keeps.upd ?_ rfl rfl rfl rfl rfl rfl rfl rfl rfl))

theorem execHash_keeps {w0 : State} (y : YokeId) (j : JobIx) (ev : LaneEv) (s : State) (hK : Keeps w0 s) :
    KeepsR w0 (execHash y j ev s) := by
  unfold execHash
  repeat' (first
    | with_reducible (first
        | assumption | exact Keeps.refl _ | apply KeepsR.next | exact KeepsR.fault | exact KeepsR.refused | apply KeepsC.fin
        | apply KeepsC.derived | apply KeepsC.exported | apply KeepsC.learn | exact KeepsC.wait | apply KeepsC.conflict
        | apply laneRow_keeps | apply compParts_keeps | refine KeepsC.of_fin ?_ (by assumption)
        | refine KeepsC.of_derived ?_ (by assumption) | refine KeepsC.of_exported ?_ (by assumption)
        | refine KeepsC.of_learn ?_ (by assumption) | refine KeepsC.of_conflict ?_ (by assumption))
    | dsimp only | split
    | with_reducible (first | intro _ | refine Keeps.upd ?_ rfl rfl rfl rfl rfl rfl rfl rfl rfl))

theorem compGcm_keeps {w0 : State} (s : State) (x : LJ) (hK : Keeps w0 s) :
    KeepsC w0 (compGcm s x) := by
  unfold compGcm
  repeat' (first
    | with_reducible (first
        | assumption | exact Keeps.refl _ | apply KeepsC.fin | apply KeepsC.derived | apply KeepsC.exported
        | apply KeepsC.learn | exact KeepsC.wait | apply KeepsC.conflict | refine KeepsC.of_fin ?_ (by assumption)
        | refine KeepsC.of_derived ?_ (by assumption) | refine KeepsC.of_exported ?_ (by assumption)
        | refine KeepsC.of_learn ?_ (by assumption) | refine KeepsC.of_conflict ?_ (by assumption))
    | dsimp only | split
    | with_reducible (first | refine Keeps.upd ?_ rfl rfl rfl rfl rfl rfl rfl rfl rfl))

theorem execGcmDec_keeps {w0 : State} (y : YokeId) (j : JobIx) (ev : LaneEv) (s : State) (hK : Keeps w0 s) :
    KeepsR w0 (execGcmDec y j ev s) := by
  unfold execGcmDec
  repeat' (first
    | with_reducible (first
        | assumption | exact Keeps.refl _ | apply KeepsR.next | exact KeepsR.fault | exact KeepsR.refused | apply KeepsC.fin
        | apply KeepsC.derived | apply KeepsC.exported | apply KeepsC.learn | exact KeepsC.wait | apply KeepsC.conflict
        | apply laneRow_keeps | apply compGcm_keeps | refine KeepsC.of_fin ?_ (by assumption)
        | refine KeepsC.of_derived ?_ (by assumption) | refine KeepsC.of_exported ?_ (by assumption)
        | refine KeepsC.of_learn ?_ (by assumption) | refine KeepsC.of_conflict ?_ (by assumption))
    | dsimp only | split
    | with_reducible (first | intro _ | refine Keeps.upd ?_ rfl rfl rfl rfl rfl rfl rfl rfl rfl))

theorem compFf1_keeps {w0 : State} (s : State) (x : LJ) (hK : Keeps w0 s) :
    KeepsC w0 (compFf1 s x) := by
  unfold compFf1
  repeat' (first
    | with_reducible (first
        | assumption | exact Keeps.refl _ | apply KeepsC.fin | apply KeepsC.derived | apply KeepsC.exported
        | apply KeepsC.learn | exact KeepsC.wait | apply KeepsC.conflict | refine KeepsC.of_fin ?_ (by assumption)
        | refine KeepsC.of_derived ?_ (by assumption) | refine KeepsC.of_exported ?_ (by assumption)
        | refine KeepsC.of_learn ?_ (by assumption) | refine KeepsC.of_conflict ?_ (by assumption))
    | dsimp only | split
    | with_reducible (first | refine Keeps.upd ?_ rfl rfl rfl rfl rfl rfl rfl rfl rfl))

theorem execFf1_keeps {w0 : State} (y : YokeId) (j : JobIx) (ev : LaneEv) (s : State) (hK : Keeps w0 s) :
    KeepsR w0 (execFf1 y j ev s) := by
  unfold execFf1
  repeat' (first
    | with_reducible (first
        | assumption | exact Keeps.refl _ | apply KeepsR.next | exact KeepsR.fault | exact KeepsR.refused | apply KeepsC.fin
        | apply KeepsC.derived | apply KeepsC.exported | apply KeepsC.learn | exact KeepsC.wait | apply KeepsC.conflict
        | apply laneRow_keeps | apply compFf1_keeps | refine KeepsC.of_fin ?_ (by assumption)
        | refine KeepsC.of_derived ?_ (by assumption) | refine KeepsC.of_exported ?_ (by assumption)
        | refine KeepsC.of_learn ?_ (by assumption) | refine KeepsC.of_conflict ?_ (by assumption))
    | dsimp only | split
    | with_reducible (first | intro _ | refine Keeps.upd ?_ rfl rfl rfl rfl rfl rfl rfl rfl rfl))

theorem compCipher_keeps {w0 : State} (s : State) (x : LJ) (hK : Keeps w0 s) :
    KeepsC w0 (compCipher s x) := by
  unfold compCipher
  repeat' (first
    | with_reducible (first
        | assumption | exact Keeps.refl _ | apply KeepsC.fin | apply KeepsC.derived | apply KeepsC.exported
        | apply KeepsC.learn | exact KeepsC.wait | apply KeepsC.conflict | refine KeepsC.of_fin ?_ (by assumption)
        | refine KeepsC.of_derived ?_ (by assumption) | refine KeepsC.of_exported ?_ (by assumption)
        | refine KeepsC.of_learn ?_ (by assumption) | refine KeepsC.of_conflict ?_ (by assumption))
    | dsimp only | split
    | with_reducible (first | refine Keeps.upd ?_ rfl rfl rfl rfl rfl rfl rfl rfl rfl))

theorem execCipher_keeps {w0 : State} (y : YokeId) (j : JobIx) (ev : LaneEv) (s : State) (hK : Keeps w0 s) :
    KeepsR w0 (execCipher y j ev s) := by
  unfold execCipher
  repeat' (first
    | with_reducible (first
        | assumption | exact Keeps.refl _ | apply KeepsR.next | exact KeepsR.fault | exact KeepsR.refused | apply KeepsC.fin
        | apply KeepsC.derived | apply KeepsC.exported | apply KeepsC.learn | exact KeepsC.wait | apply KeepsC.conflict
        | apply laneRow_keeps | apply compCipher_keeps | refine KeepsC.of_fin ?_ (by assumption)
        | refine KeepsC.of_derived ?_ (by assumption) | refine KeepsC.of_exported ?_ (by assumption)
        | refine KeepsC.of_learn ?_ (by assumption) | refine KeepsC.of_conflict ?_ (by assumption))
    | dsimp only | split
    | with_reducible (first | intro _ | refine Keeps.upd ?_ rfl rfl rfl rfl rfl rfl rfl rfl rfl))

/-! `Machine.Reile` -/

theorem execPortLinkChange_keeps {w0 : State} (k : PortId) (up : Bool) (s : State) (hK : Keeps w0 s) :
    KeepsR w0 (execPortLinkChange k up s) := by
  unfold execPortLinkChange
  repeat' (first
    | with_reducible (first
        | assumption | exact Keeps.refl _ | apply KeepsR.next | exact KeepsR.fault | exact KeepsR.refused
        | apply cluFlag_keeps | apply startAll_keeps)
    | dsimp only | split
    | with_reducible (first | refine Keeps.upd ?_ rfl rfl rfl rfl rfl rfl rfl rfl rfl))

theorem execForeignFrame_keeps {w0 : State} (k : PortId) (s : State) (hK : Keeps w0 s) :
    KeepsR w0 (execForeignFrame k s) := by
  unfold execForeignFrame
  repeat' (first
    | with_reducible (first
        | assumption | exact Keeps.refl _ | apply KeepsR.next | exact KeepsR.fault | exact KeepsR.refused)
    | dsimp only | split
    | with_reducible (first | refine Keeps.upd ?_ rfl rfl rfl rfl rfl rfl rfl rfl rfl))

theorem gotHello_keeps {w0 : State} (s : State) (h : Hdr) (domain : W32) (chain cert : Bytes) (hK : Keeps w0 s) :
    Keeps w0 (gotHello s h domain chain cert) := by
  unfold gotHello
  repeat' (first
    | with_reducible (first
        | assumption | exact Keeps.refl _ | apply setSess_keeps | apply startHs_keeps | apply wantKey_keeps
        | apply hsFail_keeps | apply sessDown_keeps | apply fecNote_keeps)
    | dsimp only | split
    | with_reducible (first | refine Keeps.upd ?_ rfl rfl rfl rfl rfl rfl rfl rfl rfl))

theorem execHello_keeps {w0 : State} (h : Hdr) (domain : W32) (chain nodeCert : Bytes) (s : State) (hK : Keeps w0 s) :
    KeepsR w0 (execHello h domain chain nodeCert s) := by
  unfold execHello
  repeat' (first
    | with_reducible (first
        | assumption | exact Keeps.refl _ | apply KeepsR.next | exact KeepsR.fault | exact KeepsR.refused
        | apply gotHello_keeps)
    | dsimp only | split
    | with_reducible (first | refine Keeps.upd ?_ rfl rfl rfl rfl rfl rfl rfl rfl rfl))

theorem hsFrame_keeps {w0 : State} (s : State) (h : Hdr) (st : Hs) (run : State → Nat → Sess → State) (hK : Keeps w0 s) (h_run : ∀ (a0 : State) (a1 : Nat) (a2 : Sess), Keeps w0 a0 → Keeps w0 (run a0 a1 a2)) :
    Keeps w0 (hsFrame s h st run) := by
  unfold hsFrame
  repeat' (first
    | with_reducible (first
        | assumption | exact Keeps.refl _ | apply h_run | apply fecNote_keeps)
    | dsimp only | split
    | with_reducible (first | intro _ | refine Keeps.upd ?_ rfl rfl rfl rfl rfl rfl rfl rfl rfl))

theorem execKex_keeps {w0 : State} (h : Hdr) (ek point : Bytes) (s : State) (hK : Keeps w0 s) :
    KeepsR w0 (execKex h ek point s) := by
  unfold execKex
  repeat' (first
    | with_reducible (first
        | assumption | exact Keeps.refl _ | apply KeepsR.next | exact KeepsR.fault | exact KeepsR.refused
        | apply setSess_keeps | apply wantKey_keeps | apply hsFrame_keeps)
    | dsimp only | split
    | with_reducible (first | intro _ | refine Keeps.upd ?_ rfl rfl rfl rfl rfl rfl rfl rfl rfl))

theorem sendFinish_keeps {w0 : State} (s : State) (p : Nat) (ct point sig : Bytes) (hK : Keeps w0 s) :
    Keeps w0 (sendFinish s p ct point sig) := by
  unfold sendFinish
  repeat' (first
    | with_reducible (first
        | assumption | exact Keeps.refl _ | apply setSess_keeps | apply sendHs_keeps | apply signScript_keeps
        | refine KeepsP.of ?_ (by assumption) | apply KeepsP.fst)
    | dsimp only | split
    | with_reducible (first | apply KeepsP.mk | refine Keeps.upd ?_ rfl rfl rfl rfl rfl rfl rfl rfl rfl))

theorem execKexReply_keeps {w0 : State} (h : Hdr) (ct point sig : Bytes) (s : State) (hK : Keeps w0 s) :
    KeepsR w0 (execKexReply h ct point sig s) := by
  unfold execKexReply
  repeat' (first
    | with_reducible (first
        | assumption | exact Keeps.refl _ | apply KeepsR.next | exact KeepsR.fault | exact KeepsR.refused | apply hsFail_keeps
        | apply sessUp_keeps | apply hsFrame_keeps | apply sendFinish_keeps)
    | dsimp only | split
    | with_reducible (first | intro _ | refine Keeps.upd ?_ rfl rfl rfl rfl rfl rfl rfl rfl rfl))

theorem toggle_keeps {w0 : State} (s : State) (p : Nat) (hK : Keeps w0 s) :
    Keeps w0 (toggle s p) := by
  unfold toggle
  repeat' (first
    | with_reducible (first
        | assumption | exact Keeps.refl _ | apply setSess_keeps)
    | dsimp only | split
    | with_reducible (first | refine Keeps.upd ?_ rfl rfl rfl rfl rfl rfl rfl rfl rfl))

theorem execFinish_keeps {w0 : State} (h : Hdr) (sig : Bytes) (s : State) (hK : Keeps w0 s) :
    KeepsR w0 (execFinish h sig s) := by
  unfold execFinish
  repeat' (first
    | with_reducible (first
        | assumption | exact Keeps.refl _ | apply KeepsR.next | exact KeepsR.fault | exact KeepsR.refused | apply hsFail_keeps
        | apply sessUp_keeps | apply receive_keeps | apply hsFrame_keeps | apply toggle_keeps)
    | dsimp only | split
    | with_reducible (first | intro _ | refine Keeps.upd ?_ rfl rfl rfl rfl rfl rfl rfl rfl rfl))

theorem execRekeyThreshold_keeps {w0 : State} (peer : BitVec 12) (s : State) (hK : Keeps w0 s) :
    KeepsR w0 (execRekeyThreshold peer s) := by
  unfold execRekeyThreshold
  repeat' (first
    | with_reducible (first
        | assumption | exact Keeps.refl _ | apply KeepsR.next | exact KeepsR.fault | exact KeepsR.refused
        | apply setSess_keeps | apply wantKey_keeps)
    | dsimp only | split
    | with_reducible (first | refine Keeps.upd ?_ rfl rfl rfl rfl rfl rfl rfl rfl rfl))

theorem execRekey_keeps {w0 : State} (h : Hdr) (ek point : Bytes) (s : State) (hK : Keeps w0 s) :
    KeepsR w0 (execRekey h ek point s) := by
  unfold execRekey
  repeat' (first
    | with_reducible (first
        | assumption | exact Keeps.refl _ | apply KeepsR.next | exact KeepsR.fault | exact KeepsR.refused
        | apply setSess_keeps | apply wantKey_keeps | apply receive_keeps)
    | dsimp only | split
    | with_reducible (first | intro _ | refine Keeps.upd ?_ rfl rfl rfl rfl rfl rfl rfl rfl rfl))

theorem execRekeyReply_keeps {w0 : State} (h : Hdr) (ct point sig : Bytes) (s : State) (hK : Keeps w0 s) :
    KeepsR w0 (execRekeyReply h ct point sig s) := by
  unfold execRekeyReply
  repeat' (first
    | with_reducible (first
        | assumption | exact Keeps.refl _ | apply KeepsR.next | exact KeepsR.fault | exact KeepsR.refused | apply hsFail_keeps
        | apply receive_keeps | apply sendFinish_keeps | apply toggle_keeps)
    | dsimp only | split
    | with_reducible (first | intro _ | refine Keeps.upd ?_ rfl rfl rfl rfl rfl rfl rfl rfl rfl))

theorem execPhaseOverlapEnd_keeps {w0 : State} (peer : BitVec 12) (s : State) (hK : Keeps w0 s) :
    KeepsR w0 (execPhaseOverlapEnd peer s) := by
  unfold execPhaseOverlapEnd
  repeat' (first
    | with_reducible (first
        | assumption | exact Keeps.refl _ | apply KeepsR.next | exact KeepsR.fault | exact KeepsR.refused
        | apply setSess_keeps)
    | dsimp only | split
    | with_reducible (first | refine Keeps.upd ?_ rfl rfl rfl rfl rfl rfl rfl rfl rfl))

theorem gotAck_keeps {w0 : State} (seqs : List W64) (s : State) (p : Nat) (hK : Keeps w0 s) :
    Keeps w0 (gotAck seqs s p) := by
  unfold gotAck
  repeat' (first
    | with_reducible (first
        | assumption | exact Keeps.refl _ | apply setSess_keeps)
    | dsimp only | split
    | with_reducible (first | intro _ | refine Keeps.upd ?_ rfl rfl rfl rfl rfl rfl rfl rfl rfl))

theorem execAck_keeps {w0 : State} (h : Hdr) (seqs : List W64) (s : State) (hK : Keeps w0 s) :
    KeepsR w0 (execAck h seqs s) := by
  unfold execAck
  repeat' (first
    | with_reducible (first
        | assumption | exact Keeps.refl _ | apply KeepsR.next | exact KeepsR.fault | exact KeepsR.refused
        | apply receive_keeps | apply gotAck_keeps)
    | dsimp only | split
    | with_reducible (first | intro _ | refine Keeps.upd ?_ rfl rfl rfl rfl rfl rfl rfl rfl rfl))

theorem execResendTimer_keeps {w0 : State} (peer : BitVec 12) (seq : W64) (s : State) (hK : Keeps w0 s) :
    KeepsR w0 (execResendTimer peer seq s) := by
  unfold execResendTimer
  repeat' (first
    | with_reducible (first
        | assumption | exact Keeps.refl _ | apply KeepsR.next | exact KeepsR.fault | exact KeepsR.refused | apply emit_keeps
        | apply setSess_keeps | apply sessDown_keeps)
    | dsimp only | split
    | with_reducible (first | intro _ | refine Keeps.upd ?_ rfl rfl rfl rfl rfl rfl rfl rfl rfl))

theorem gotBind_keeps {w0 : State} (dtids : List W32) (s : State) (p : Nat) (hK : Keeps w0 s) :
    Keeps w0 (gotBind dtids s p) := by
  unfold gotBind
  repeat' (first
    | with_reducible (first
        | assumption | exact Keeps.refl _ | apply setSess_keeps | apply rehomeAll_keeps | apply sendShared_keeps
        | apply Keeps.foldl | apply KeepsP.foldl)
    | dsimp only | split
    | with_reducible (first | intro _ | refine Keeps.upd ?_ rfl rfl rfl rfl rfl rfl rfl rfl rfl))

theorem execBind_keeps {w0 : State} (h : Hdr) (dtids : List W32) (s : State) (hK : Keeps w0 s) :
    KeepsR w0 (execBind h dtids s) := by
  unfold execBind
  repeat' (first
    | with_reducible (first
        | assumption | exact Keeps.refl _ | apply KeepsR.next | exact KeepsR.fault | exact KeepsR.refused
        | apply receive_keeps | apply gotBind_keeps)
    | dsimp only | split
    | with_reducible (first | intro _ | refine Keeps.upd ?_ rfl rfl rfl rfl rfl rfl rfl rfl rfl))

theorem shareDone_keeps {w0 : State} (s : State) (st : BitVec 16) (hK : Keeps w0 s) :
    Keeps w0 (shareDone s st) := by
  unfold shareDone
  repeat' (first
    | with_reducible (first
        | assumption | exact Keeps.refl _ | apply cluFlag_keeps)
    | dsimp only | split
    | with_reducible (first | refine Keeps.upd ?_ rfl rfl rfl rfl rfl rfl rfl rfl rfl))

theorem shareIn_keeps {w0 : State} (s : State) (peer : Nat) (l : Learn) (hK : Keeps w0 s) :
    Keeps w0 (shareIn s peer l) := by
  unfold shareIn
  repeat' (first
    | with_reducible (first
        | assumption | exact Keeps.refl _ | apply cluFlag_keeps | apply learnFor_keeps | apply shareDone_keeps
        | refine KeepsP.of ?_ (by assumption) | apply KeepsP.fst)
    | dsimp only | split
    | with_reducible (first | apply KeepsP.mk | refine Keeps.upd ?_ rfl rfl rfl rfl rfl rfl rfl rfl rfl))

theorem gotShare_keeps {w0 : State} (u : ShareUpd) (s : State) (peer : Nat) (hK : Keeps w0 s) :
    Keeps w0 (gotShare u s peer) := by
  unfold gotShare
  repeat' (first
    | with_reducible (first
        | assumption | exact Keeps.refl _ | apply dropEntry_keeps | apply cluFlag_keeps | apply shareIn_keeps)
    | dsimp only | split
    | with_reducible (first | refine Keeps.upd ?_ rfl rfl rfl rfl rfl rfl rfl rfl rfl))

theorem execShareLearn_keeps {w0 : State} (h : Hdr) (u : ShareUpd) (s : State) (hK : Keeps w0 s) :
    KeepsR w0 (execShareLearn h u s) := by
  unfold execShareLearn
  repeat' (first
    | with_reducible (first
        | assumption | exact Keeps.refl _ | apply KeepsR.next | exact KeepsR.fault | exact KeepsR.refused
        | apply receive_keeps | apply gotShare_keeps)
    | dsimp only | split
    | with_reducible (first | intro _ | refine Keeps.upd ?_ rfl rfl rfl rfl rfl rfl rfl rfl rfl))

theorem gotForget_keeps {w0 : State} (dtid : W32) (name : W64) (stamp : BitVec 48) (origin : BitVec 12) (s : State) (hK : Keeps w0 s) :
    Keeps w0 (gotForget dtid name stamp origin s) := by
  unfold gotForget
  repeat' (first
    | with_reducible (first
        | assumption | exact Keeps.refl _ | apply dropEntry_keeps)
    | dsimp only | split
    | with_reducible (first | refine Keeps.upd ?_ rfl rfl rfl rfl rfl rfl rfl rfl rfl))

theorem execShareForget_keeps {w0 : State} (h : Hdr) (dtid : W32) (name : W64) (stamp : BitVec 48) (origin : BitVec 12) (s : State) (hK : Keeps w0 s) :
    KeepsR w0 (execShareForget h dtid name stamp origin s) := by
  unfold execShareForget
  repeat' (first
    | with_reducible (first
        | assumption | exact Keeps.refl _ | apply KeepsR.next | exact KeepsR.fault | exact KeepsR.refused
        | apply receive_keeps | apply gotForget_keeps)
    | dsimp only | split
    | with_reducible (first | intro _ | refine Keeps.upd ?_ rfl rfl rfl rfl rfl rfl rfl rfl rfl))

theorem gotSync_keeps {w0 : State} (dtid : W32) (s : State) (p : Nat) (hK : Keeps w0 s) :
    Keeps w0 (gotSync dtid s p) := by
  unfold gotSync
  repeat' (first
    | with_reducible (first
        | assumption | exact Keeps.refl _ | apply sendShared_keeps)
    | dsimp only | split
    | with_reducible (first | refine Keeps.upd ?_ rfl rfl rfl rfl rfl rfl rfl rfl rfl))

theorem execSyncReq_keeps {w0 : State} (h : Hdr) (dtid : W32) (s : State) (hK : Keeps w0 s) :
    KeepsR w0 (execSyncReq h dtid s) := by
  unfold execSyncReq
  repeat' (first
    | with_reducible (first
        | assumption | exact Keeps.refl _ | apply KeepsR.next | exact KeepsR.fault | exact KeepsR.refused
        | apply receive_keeps | apply inV2_keeps | apply gotSync_keeps)
    | dsimp only | split
    | with_reducible (first | intro _ | refine Keeps.upd ?_ rfl rfl rfl rfl rfl rfl rfl rfl rfl))

theorem gotClaim_keeps {w0 : State} (dtid : W32) (fp : BitVec 96) (s : State) (p : Nat) (hK : Keeps w0 s) :
    Keeps w0 (gotClaim dtid fp s p) := by
  unfold gotClaim
  repeat' (first
    | with_reducible (first
        | assumption | exact Keeps.refl _ | apply serveClaim_keeps)
    | dsimp only | split
    | with_reducible (first | refine Keeps.upd ?_ rfl rfl rfl rfl rfl rfl rfl rfl rfl))

theorem execClaim_keeps {w0 : State} (h : Hdr) (dtid : W32) (fp : BitVec 96) (s : State) (hK : Keeps w0 s) :
    KeepsR w0 (execClaim h dtid fp s) := by
  unfold execClaim
  repeat' (first
    | with_reducible (first
        | assumption | exact Keeps.refl _ | apply KeepsR.next | exact KeepsR.fault | exact KeepsR.refused
        | apply receive_keeps | apply gotClaim_keeps)
    | dsimp only | split
    | with_reducible (first | intro _ | refine Keeps.upd ?_ rfl rfl rfl rfl rfl rfl rfl rfl rfl))

theorem execClaimReply_keeps {w0 : State} (h : Hdr) (dtid : W32) (fp : BitVec 96) (a : ClaimAnswer) (s : State) (hK : Keeps w0 s) :
    KeepsR w0 (execClaimReply h dtid fp a s) := by
  unfold execClaimReply
  repeat' (first
    | with_reducible (first
        | assumption | exact Keeps.refl _ | apply KeepsR.next | exact KeepsR.fault | exact KeepsR.refused
        | apply claimAnswered_keeps | apply receive_keeps)
    | dsimp only | split
    | with_reducible (first | intro _ | refine Keeps.upd ?_ rfl rfl rfl rfl rfl rfl rfl rfl rfl))

theorem gotRehome_keeps {w0 : State} (dtid : W32) (fps : List (BitVec 96)) (last : Bool) (s : State) (p : Nat) (hK : Keeps w0 s) :
    Keeps w0 (gotRehome dtid fps last s p) := by
  unfold gotRehome
  repeat' (first
    | with_reducible (first
        | assumption | exact Keeps.refl _ | apply rplRecord_keeps | apply rehomeDone_keeps | apply Keeps.foldl
        | apply KeepsP.foldl | refine KeepsP.of ?_ (by assumption) | apply KeepsP.fst)
    | dsimp only | split
    | with_reducible (first | apply KeepsP.mk | intro _ | refine Keeps.upd ?_ rfl rfl rfl rfl rfl rfl rfl rfl rfl))

theorem execRehome_keeps {w0 : State} (h : Hdr) (dtid : W32) (fps : List (BitVec 96)) (last : Bool) (s : State) (hK : Keeps w0 s) :
    KeepsR w0 (execRehome h dtid fps last s) := by
  unfold execRehome
  repeat' (first
    | with_reducible (first
        | assumption | exact Keeps.refl _ | apply KeepsR.next | exact KeepsR.fault | exact KeepsR.refused
        | apply receive_keeps | apply gotRehome_keeps)
    | dsimp only | split
    | with_reducible (first | intro _ | refine Keeps.upd ?_ rfl rfl rfl rfl rfl rfl rfl rfl rfl))

/-! `Machine.Pair` -/

theorem takeCabinet_keeps {w0 : State} (s : State) (ps : List Nat) (hK : Keeps w0 s) :
    Keeps w0 (takeCabinet s ps) := by
  unfold takeCabinet
  repeat' (first
    | with_reducible (first
        | assumption | exact Keeps.refl _ | apply setCab_keeps | apply setSeed_keeps | apply resealRegistries_keeps
        | apply newSecret_keeps | apply Keeps.foldl | apply KeepsP.foldl | refine KeepsP.of ?_ (by assumption)
        | apply KeepsP.fst)
    | dsimp only | split
    | with_reducible (first | apply KeepsP.mk | intro _ | refine Keeps.upd ?_ rfl rfl rfl rfl rfl rfl rfl rfl rfl))

theorem takePlot_keeps {w0 : State} (s : State) (c : PlotCopy) (hK : Keeps w0 s) :
    Keeps w0 (takePlot s c) := by
  unfold takePlot
  repeat' (first
    | with_reducible (first
        | assumption | exact Keeps.refl _ | apply setPlot_keeps | apply enterState_keeps | apply saveRecord_keeps
        | apply placeImage_keeps | apply setPlot_keeps | apply Keeps.foldl | apply KeepsP.foldl)
    | dsimp only | split
    | with_reducible (first | intro _ | refine Keeps.upd ?_ rfl rfl rfl rfl rfl rfl rfl rfl rfl))

theorem joinPair_keeps {w0 : State} (s : State) (p : Nat) (i : PairInfo) (hK : Keeps w0 s) :
    Keeps w0 (joinPair s p i) := by
  unfold joinPair
  repeat' (first
    | with_reducible (first
        | assumption | exact Keeps.refl _ | apply sendMsg_keeps | apply takeCabinet_keeps | apply takePlot_keeps
        | apply Keeps.foldl | apply KeepsP.foldl)
    | dsimp only | split
    | with_reducible (first | refine Keeps.upd ?_ rfl rfl rfl rfl rfl rfl rfl rfl rfl))

theorem gotPairState_keeps {w0 : State} (i : PairInfo) (s : State) (p : Nat) (hK : Keeps w0 s) :
    Keeps w0 (gotPairState i s p) := by
  unfold gotPairState
  repeat' (first
    | with_reducible (first
        | assumption | exact Keeps.refl _ | apply pairFail_keeps | apply leavePair_keeps | apply joinPair_keeps)
    | dsimp only | split
    | with_reducible (first | refine Keeps.upd ?_ rfl rfl rfl rfl rfl rfl rfl rfl rfl))

theorem execPairState_keeps {w0 : State} (h : Hdr) (i : PairInfo) (s : State) (hK : Keeps w0 s) :
    KeepsR w0 (execPairState h i s) := by
  unfold execPairState
  repeat' (first
    | with_reducible (first
        | assumption | exact Keeps.refl _ | apply KeepsR.next | exact KeepsR.fault | exact KeepsR.refused
        | apply receive_keeps | apply gotPairState_keeps)
    | dsimp only | split
    | with_reducible (first | intro _ | refine Keeps.upd ?_ rfl rfl rfl rfl rfl rfl rfl rfl rfl))

theorem takeCopy_keeps {w0 : State} (s : State) (c : PairCopy) (hK : Keeps w0 s) : Keeps w0 (takeCopy s c) := by
  unfold takeCopy
  dsimp only
  refine Keeps.updG (x := _) (Keeps.foldl (fun _ _ k => modPlot_keeps _ _ k) c.plots (Keeps.upd (KeepsP.fst (newSecret_keeps s 64 hK))
    rfl rfl rfl rfl rfl rfl rfl rfl rfl)) rfl (fun h => twf_tmap h _) (fun h k => ⟨h, k⟩) id (fun _ => Nat.le_refl _) id (Nat.le_refl _) (Nat.le_refl _) (List.prefix_refl _)

theorem beginPair_keeps {w0 : State} (s : State) (role : BitVec 2) (hK : Keeps w0 s) :
    Keeps w0 (beginPair s role) := by
  unfold beginPair
  repeat' (first
    | with_reducible (first
        | assumption | exact Keeps.refl _ | apply cluFlag_keeps | apply swapTest_keeps | refine KeepsP.of ?_ (by assumption)
        | apply KeepsP.fst)
    | dsimp only | split
    | with_reducible (first | apply KeepsP.mk | refine Keeps.upd ?_ rfl rfl rfl rfl rfl rfl rfl rfl rfl))

theorem coverAll_keeps {w0 : State} (s : State) (hK : Keeps w0 s) : Keeps w0 (coverAll s) := by
  unfold coverAll
  exact Keeps.updG hK rfl (fun h => twf_tmap h _) (fun h k => ⟨h, k⟩) id (fun _ => Nat.le_refl _) id (Nat.le_refl _) (Nat.le_refl _) (List.prefix_refl _)

theorem execPairCopyDone_keeps {w0 : State} (c : PairCopy) (s : State) (hK : Keeps w0 s) :
    KeepsR w0 (execPairCopyDone c s) := by
  unfold execPairCopyDone
  repeat' (first
    | with_reducible (first
        | assumption | exact Keeps.refl _ | apply KeepsR.next | exact KeepsR.fault | exact KeepsR.refused | apply admOk_keeps
        | apply takeCopy_keeps | apply beginPair_keeps | apply coverAll_keeps)
    | dsimp only | split
    | with_reducible (first | refine Keeps.upd ?_ rfl rfl rfl rfl rfl rfl rfl rfl rfl))

theorem removeMirror_keeps {w0 : State} (s : State) (d : Adm) (hK : Keeps w0 s) :
    Keeps w0 (removeMirror s d) := by
  unfold removeMirror
  repeat' (first
    | with_reducible (first
        | assumption | exact Keeps.refl _ | apply modPlot_keeps | apply reserve_keeps | apply startReset_keeps
        | apply removalComplete_keeps | apply modPlot_keeps)
    | dsimp only | split
    | with_reducible (first | intro _ | refine Keeps.upd ?_ rfl rfl rfl rfl rfl rfl rfl rfl rfl))

theorem learnMirror_keeps {w0 : State} (s : State) (d : Adm) (key : Bytes) (hK : Keeps w0 s) :
    Keeps w0 (learnMirror s d key) := by
  unfold learnMirror
  repeat' (first
    | with_reducible (first
        | assumption | exact Keeps.refl _ | apply event_keeps | apply learnKeyWalk_keeps | apply sharedLearn_keeps
        | refine KeepsP.of ?_ (by assumption) | apply KeepsP.fst)
    | dsimp only | split
    | with_reducible (first | apply KeepsP.mk | refine Keeps.upd ?_ rfl rfl rfl rfl rfl rfl rfl rfl rfl))

theorem mirror_keeps {w0 : State} (s : State) (d : Adm) (data : Bytes) (hK : Keeps w0 s) :
    Keeps w0 (mirror s d data) := by
  unfold mirror
  repeat' (first
    | with_reducible (first
        | assumption | exact Keeps.refl _ | apply modPlot_keeps | apply reserve_keeps | apply saveRecord_keeps
        | apply clearWindow_keeps | apply createPlot_keeps | apply runOpen_keeps | apply runStop_keeps | apply runCommit_keeps
        | apply keepCurve_keeps | apply runCurveClear_keeps | apply loadPubkey_keeps | apply addSigner_keeps
        | apply runSignerRemove_keeps | apply install_keeps | apply runProgRemove_keeps | apply bindPlot_keeps
        | apply freeTombstones_keeps | apply loadRecs_keeps | apply removeMirror_keeps | apply learnMirror_keeps
        | apply modPlot_keeps | refine KeepsP.of ?_ (by assumption) | apply KeepsP.fst)
    | dsimp only | split
    | with_reducible (first | apply KeepsP.mk | intro _ | refine Keeps.upd ?_ rfl rfl rfl rfl rfl rfl rfl rfl rfl))

theorem applyAdmin_keeps {w0 : State} (s : State) (o : PairOutcome) (hK : Keeps w0 s) :
    Keeps w0 (applyAdmin s o) := by
  unfold applyAdmin
  repeat' (first
    | with_reducible (first
        | assumption | exact Keeps.refl _ | apply mirror_keeps)
    | dsimp only | split
    | with_reducible (first | refine Keeps.upd ?_ rfl rfl rfl rfl rfl rfl rfl rfl rfl))

theorem settle_keeps {w0 : State} (l : List Msg) (s : State) (hK : Keeps w0 s) : Keeps w0 (settle l s) := by
  induction l generalizing s with
  | nil => exact Keeps.upd hK rfl rfl rfl rfl rfl rfl rfl rfl rfl
  | cons m rest ih =>
    unfold settle
    split
    · rename_i h; cases h; exact ih _ (applyAdmin_keeps _ _ hK)
    · exact Keeps.upd hK rfl rfl rfl rfl rfl rfl rfl rfl rfl

theorem streamStep_keeps {w0 : State} (s : State) (hK : Keeps w0 s) :
    Keeps w0 (streamStep s) := by
  unfold streamStep
  repeat' (first
    | with_reducible (first
        | assumption | exact Keeps.refl _ | apply modTx_keeps | apply drawn_keeps | apply dispatchFwd_keeps
        | apply applyAdmin_keeps | apply settle_keeps | apply modTx_keeps)
    | dsimp only | split
    | with_reducible (first | intro _ | refine Keeps.upd ?_ rfl rfl rfl rfl rfl rfl rfl rfl rfl))

theorem execDispatch_keeps {w0 : State} (s : State) (hK : Keeps w0 s) :
    KeepsR w0 (execDispatch s) := by
  unfold execDispatch
  repeat' (first
    | with_reducible (first
        | assumption | exact Keeps.refl _ | apply KeepsR.next | exact KeepsR.fault | exact KeepsR.refused
        | apply dispatchStep_keeps | apply streamStep_keeps)
    | dsimp only | split
    | with_reducible (first | refine Keeps.upd ?_ rfl rfl rfl rfl rfl rfl rfl rfl rfl))

theorem fromActive_keeps {w0 : State} (run : State → State) (s : State) (p : Nat) (hK : Keeps w0 s) (h_run : ∀ (a0 : State), Keeps w0 a0 → Keeps w0 (run a0)) :
    Keeps w0 (fromActive run s p) := by
  unfold fromActive
  repeat' (first
    | with_reducible (first
        | assumption | exact Keeps.refl _ | apply h_run)
    | dsimp only | split
    | with_reducible (first | intro _ | refine Keeps.upd ?_ rfl rfl rfl rfl rfl rfl rfl rfl rfl))

theorem feedXfer_keeps {w0 : State} (s : State) (y : Nat) (b : Bytes) (hK : Keeps w0 s) :
    Keeps w0 (feedXfer s y b) := by
  unfold feedXfer
  repeat' (first
    | with_reducible (first
        | assumption | exact Keeps.refl _ | apply modTx_keeps | apply xferRead_keeps | apply modTx_keeps)
    | dsimp only | split
    | with_reducible (first | intro _ | refine Keeps.upd ?_ rfl rfl rfl rfl rfl rfl rfl rfl rfl))

theorem gotStream_keeps {w0 : State} (d : PairDispatch) (z0 : State) (z1 : Nat) (hK : Keeps w0 z0) :
    Keeps w0 (gotStream d z0 z1) := by
  unfold gotStream
  repeat' (first
    | with_reducible (first
        | assumption | exact Keeps.refl _ | apply fromActive_keeps | apply feedXfer_keeps)
    | dsimp only | split
    | with_reducible (first | intro _ | refine Keeps.upd ?_ rfl rfl rfl rfl rfl rfl rfl rfl rfl))

theorem execPairStream_keeps {w0 : State} (h : Hdr) (d : PairDispatch) (s : State) (hK : Keeps w0 s) :
    KeepsR w0 (execPairStream h d s) := by
  unfold execPairStream
  repeat' (first
    | with_reducible (first
        | assumption | exact Keeps.refl _ | apply KeepsR.next | exact KeepsR.fault | exact KeepsR.refused
        | apply receive_keeps | apply gotStream_keeps)
    | dsimp only | split
    | with_reducible (first | intro _ | refine Keeps.upd ?_ rfl rfl rfl rfl rfl rfl rfl rfl rfl))

theorem gotAdmin_keeps {w0 : State} (o : PairOutcome) (z0 : State) (z1 : Nat) (hK : Keeps w0 z0) :
    Keeps w0 (gotAdmin o z0 z1) := by
  unfold gotAdmin
  repeat' (first
    | with_reducible (first
        | assumption | exact Keeps.refl _ | apply applyAdmin_keeps | apply fromActive_keeps)
    | dsimp only | split
    | with_reducible (first | intro _ | refine Keeps.upd ?_ rfl rfl rfl rfl rfl rfl rfl rfl rfl))

theorem execPairAdmin_keeps {w0 : State} (h : Hdr) (o : PairOutcome) (s : State) (hK : Keeps w0 s) :
    KeepsR w0 (execPairAdmin h o s) := by
  unfold execPairAdmin
  repeat' (first
    | with_reducible (first
        | assumption | exact Keeps.refl _ | apply KeepsR.next | exact KeepsR.fault | exact KeepsR.refused
        | apply receive_keeps | apply gotAdmin_keeps)
    | dsimp only | split
    | with_reducible (first | intro _ | refine Keeps.upd ?_ rfl rfl rfl rfl rfl rfl rfl rfl rfl))

theorem gotAbort_keeps {w0 : State} (q bounds : W64) (z0 : State) (z1 : Nat) (hK : Keeps w0 z0) :
    Keeps w0 (gotAbort q bounds z0 z1) := by
  unfold gotAbort
  repeat' (first
    | with_reducible (first
        | assumption | exact Keeps.refl _ | apply modTx_keeps | apply stopCopy_keeps | apply fromActive_keeps
        | apply modTx_keeps)
    | dsimp only | split
    | with_reducible (first | intro _ | refine Keeps.upd ?_ rfl rfl rfl rfl rfl rfl rfl rfl rfl))

theorem execPairAbort_keeps {w0 : State} (h : Hdr) (seq boundaries : W64) (s : State) (hK : Keeps w0 s) :
    KeepsR w0 (execPairAbort h seq boundaries s) := by
  unfold execPairAbort
  repeat' (first
    | with_reducible (first
        | assumption | exact Keeps.refl _ | apply KeepsR.next | exact KeepsR.fault | exact KeepsR.refused
        | apply receive_keeps | apply gotAbort_keeps)
    | dsimp only | split
    | with_reducible (first | intro _ | refine Keeps.upd ?_ rfl rfl rfl rfl rfl rfl rfl rfl rfl))

theorem gotDigest_keeps {w0 : State} (first : W64) (n : Nat) (dg : Bytes) (s : State) (p : Nat) (hK : Keeps w0 s) :
    Keeps w0 (gotDigest first n dg s p) := by
  unfold gotDigest
  repeat' (first
    | with_reducible (first
        | assumption | exact Keeps.refl _ | apply diverge_keeps | apply digestCheck_keeps)
    | dsimp only | split
    | with_reducible (first | refine Keeps.upd ?_ rfl rfl rfl rfl rfl rfl rfl rfl rfl))

theorem execPairDigest_keeps {w0 : State} (h : Hdr) (first : W64) (count : Nat) (digest : Bytes) (s : State) (hK : Keeps w0 s) :
    KeepsR w0 (execPairDigest h first count digest s) := by
  unfold execPairDigest
  repeat' (first
    | with_reducible (first
        | assumption | exact Keeps.refl _ | apply KeepsR.next | exact KeepsR.fault | exact KeepsR.refused
        | apply receive_keeps | apply gotDigest_keeps)
    | dsimp only | split
    | with_reducible (first | intro _ | refine Keeps.upd ?_ rfl rfl rfl rfl rfl rfl rfl rfl rfl))

theorem gotPairAck_keeps {w0 : State} (first : W64) (n : Nat) (s : State) (p : Nat) (hK : Keeps w0 s) :
    Keeps w0 (gotPairAck first n s p) := by
  unfold gotPairAck
  split
  · exact hK
  · exact Keeps.updG (forgetBatch_keeps _ _ _ (Keeps.upd hK rfl rfl rfl rfl rfl rfl rfl rfl rfl)) rfl (fun h => twf_tmap h _)
      (fun h k => ⟨h, k⟩) id (fun _ => Nat.le_refl _) id (Nat.le_refl _) (Nat.le_refl _) (List.prefix_refl _)

theorem execPairAck_keeps {w0 : State} (h : Hdr) (first : W64) (count : Nat) (s : State) (hK : Keeps w0 s) :
    KeepsR w0 (execPairAck h first count s) := by
  unfold execPairAck
  repeat' (first
    | with_reducible (first
        | assumption | exact Keeps.refl _ | apply KeepsR.next | exact KeepsR.fault | exact KeepsR.refused
        | apply receive_keeps | apply gotPairAck_keeps)
    | dsimp only | split
    | with_reducible (first | intro _ | refine Keeps.upd ?_ rfl rfl rfl rfl rfl rfl rfl rfl rfl))

theorem execBatchClose_keeps {w0 : State} (s : State) (hK : Keeps w0 s) :
    KeepsR w0 (execBatchClose s) := by
  unfold execBatchClose
  repeat' (first
    | with_reducible (first
        | assumption | exact Keeps.refl _ | apply KeepsR.next | exact KeepsR.fault | exact KeepsR.refused
        | apply closeBatch_keeps)
    | dsimp only | split
    | with_reducible (first | refine Keeps.upd ?_ rfl rfl rfl rfl rfl rfl rfl rfl rfl))

theorem gotHeartbeat_keeps {w0 : State} (s : State) (p : Nat) (hK : Keeps w0 s) :
    Keeps w0 (gotHeartbeat s p) := by
  unfold gotHeartbeat
  repeat' (first
    | with_reducible (first
        | assumption | exact Keeps.refl _)
    | dsimp only | split
    | with_reducible (first | refine Keeps.upd ?_ rfl rfl rfl rfl rfl rfl rfl rfl rfl))

theorem execHeartbeat_keeps {w0 : State} (h : Hdr) (u1 u2 : W64) (s : State) (hK : Keeps w0 s) :
    KeepsR w0 (execHeartbeat h u1 u2 s) := by
  unfold execHeartbeat
  repeat' (first
    | with_reducible (first
        | assumption | exact Keeps.refl _ | apply KeepsR.next | exact KeepsR.fault | exact KeepsR.refused
        | apply receive_keeps | apply gotHeartbeat_keeps)
    | dsimp only | split
    | with_reducible (first | intro _ | refine Keeps.upd ?_ rfl rfl rfl rfl rfl rfl rfl rfl rfl))

theorem execHeartbeatSend_keeps {w0 : State} (k : PortId) (s : State) (hK : Keeps w0 s) :
    KeepsR w0 (execHeartbeatSend k s) := by
  unfold execHeartbeatSend
  repeat' (first
    | with_reducible (first
        | assumption | exact Keeps.refl _ | apply KeepsR.next | exact KeepsR.fault | exact KeepsR.refused | apply emit_keeps
        | apply setSess_keeps)
    | dsimp only | split
    | with_reducible (first | refine Keeps.upd ?_ rfl rfl rfl rfl rfl rfl rfl rfl rfl))

theorem silence500_keeps {w0 : State} (s : State) (hK : Keeps w0 s) :
    Keeps w0 (silence500 s) := by
  unfold silence500
  repeat' (first
    | with_reducible (first
        | assumption | exact Keeps.refl _ | apply advanceTo_keeps)
    | dsimp only | split
    | with_reducible (first | refine Keeps.upd ?_ rfl rfl rfl rfl rfl rfl rfl rfl rfl))

theorem execStandbyTakeover_keeps {w0 : State} (s : State) (hK : Keeps w0 s) :
    KeepsR w0 (execStandbyTakeover s) := by
  unfold execStandbyTakeover
  repeat' (first
    | with_reducible (first
        | assumption | exact Keeps.refl _ | apply KeepsR.next | exact KeepsR.fault | exact KeepsR.refused
        | apply cluFlag_keeps | apply leavePair_keeps | apply silence500_keeps)
    | dsimp only | split
    | with_reducible (first | refine Keeps.upd ?_ rfl rfl rfl rfl rfl rfl rfl rfl rfl))

theorem execActiveUnpair_keeps {w0 : State} (s : State) (hK : Keeps w0 s) :
    KeepsR w0 (execActiveUnpair s) := by
  unfold execActiveUnpair
  repeat' (first
    | with_reducible (first
        | assumption | exact Keeps.refl _ | apply KeepsR.next | exact KeepsR.fault | exact KeepsR.refused
        | apply leavePair_keeps | apply silence500_keeps)
    | dsimp only | split
    | with_reducible (first | refine Keeps.upd ?_ rfl rfl rfl rfl rfl rfl rfl rfl rfl))

theorem swapTest_keeps {w0 : State} (s : State) (hK : Keeps w0 s) :
    KeepsP w0 (swapTest s) := by
  unfold swapTest
  repeat' (first
    | with_reducible (first
        | assumption | exact Keeps.refl _ | apply drawn_keeps | apply issueWrite_keeps | apply issueRead_keeps
        | refine KeepsP.of ?_ (by assumption) | apply KeepsP.fst)
    | dsimp only | split
    | with_reducible (first | apply KeepsP.mk | refine Keeps.upd ?_ rfl rfl rfl rfl rfl rfl rfl rfl rfl))

theorem gotSwap_keeps {w0 : State} (z0 : State) (z1 : Nat) (hK : Keeps w0 z0) :
    Keeps w0 (gotSwap z0 z1) := by
  unfold gotSwap
  repeat' (first
    | with_reducible (first
        | assumption | exact Keeps.refl _ | apply drawn_keeps | apply cluFlag_keeps | apply openAll_keeps
        | apply fromActive_keeps | apply swapTest_keeps | refine KeepsP.of ?_ (by assumption) | apply KeepsP.fst)
    | dsimp only | split
    | with_reducible (first | apply KeepsP.mk | intro _ | refine Keeps.upd ?_ rfl rfl rfl rfl rfl rfl rfl rfl rfl))

theorem execPairSwap_keeps {w0 : State} (h : Hdr) (s : State) (hK : Keeps w0 s) :
    KeepsR w0 (execPairSwap h s) := by
  unfold execPairSwap
  repeat' (first
    | with_reducible (first
        | assumption | exact Keeps.refl _ | apply KeepsR.next | exact KeepsR.fault | exact KeepsR.refused
        | apply receive_keeps | apply gotSwap_keeps)
    | dsimp only | split
    | with_reducible (first | intro _ | refine Keeps.upd ?_ rfl rfl rfl rfl rfl rfl rfl rfl rfl))

theorem becomeStandby_keeps {w0 : State} (s : State) (hK : Keeps w0 s) :
    Keeps w0 (becomeStandby s) := by
  unfold becomeStandby
  repeat' (first
    | with_reducible (first
        | assumption | exact Keeps.refl _ | apply modPlot_keeps | apply enterState_keeps | apply sendMsg_keeps
        | apply cluFlag_keeps | apply swapTest_keeps | apply modPlot_keeps | apply Keeps.foldl | apply KeepsP.foldl
        | refine KeepsP.of ?_ (by assumption) | apply KeepsP.fst)
    | dsimp only | split
    | with_reducible (first | apply KeepsP.mk | intro _ | refine Keeps.upd ?_ rfl rfl rfl rfl rfl rfl rfl rfl rfl))

theorem swapBack_keeps {w0 : State} (s : State) (d : Adm) (hK : Keeps w0 s) :
    Keeps w0 (swapBack s d) := by
  unfold swapBack
  repeat' (first
    | with_reducible (first
        | assumption | exact Keeps.refl _ | apply admFail_keeps | apply reopenPlots_keeps)
    | dsimp only | split
    | with_reducible (first | refine Keeps.upd ?_ rfl rfl rfl rfl rfl rfl rfl rfl rfl))

theorem execSwapPlotsStopped_keeps {w0 : State} (dmaOk : Bool) (s : State) (hK : Keeps w0 s) :
    KeepsR w0 (execSwapPlotsStopped dmaOk s) := by
  unfold execSwapPlotsStopped
  repeat' (first
    | with_reducible (first
        | assumption | exact Keeps.refl _ | apply KeepsR.next | exact KeepsR.fault | exact KeepsR.refused
        | apply sendMsg_keeps | apply closeBatch_keeps | apply admOk_keeps | apply beginChange_keeps | apply swapTest_keeps
        | apply becomeStandby_keeps | apply swapBack_keeps | refine KeepsP.of ?_ (by assumption) | apply KeepsP.fst)
    | dsimp only | split
    | with_reducible (first | apply KeepsP.mk | refine Keeps.upd ?_ rfl rfl rfl rfl rfl rfl rfl rfl rfl))

theorem gotMsg_keeps {w0 : State} (s : State) (p : Nat) (z0 : Msg) (hK : Keeps w0 s) :
    Keeps w0 (gotMsg s p z0) := by
  unfold gotMsg
  repeat' (first
    | with_reducible (first
        | assumption | exact Keeps.refl _ | apply claimAnswered_keeps | apply inV2_keeps | apply gotAck_keeps
        | apply gotBind_keeps | apply gotShare_keeps | apply gotForget_keeps | apply gotSync_keeps | apply gotClaim_keeps
        | apply gotRehome_keeps | apply gotPairState_keeps | apply gotStream_keeps | apply gotAdmin_keeps
        | apply gotAbort_keeps | apply gotDigest_keeps | apply gotPairAck_keeps | apply gotHeartbeat_keeps
        | apply gotSwap_keeps | apply KeepsA.bind)
    | dsimp only | split
    | with_reducible (first | intro _ | refine Keeps.upd ?_ rfl rfl rfl rfl rfl rfl rfl rfl rfl))

theorem execPacked_keeps {w0 : State} (h : Hdr) (ms : List Msg) (s : State) (hK : Keeps w0 s) :
    KeepsR w0 (execPacked h ms s) := by
  unfold execPacked
  repeat' (first
    | with_reducible (first
        | assumption | exact Keeps.refl _ | apply KeepsR.next | exact KeepsR.fault | exact KeepsR.refused
        | apply receive_keeps | apply inV2_keeps | apply gotMsg_keeps | apply Keeps.foldl | apply KeepsP.foldl)
    | dsimp only | split
    | with_reducible (first | intro _ | refine Keeps.upd ?_ rfl rfl rfl rfl rfl rfl rfl rfl rfl))

end Sys2Proof.Machine
end

