-- ==== Sys2Proof/Laws/KeepsRest.lean ====
section
/-! SUPPORT. What every effect keeps, function by function: power, the recorder, the noise sources, shelves, the instructions of the cores, the walk token, the windows. -/

namespace Sys2Proof.Machine
set_option linter.unusedVariables false
set_option linter.unusedTactic false
set_option linter.unreachableTactic false
set_option linter.unusedSimpArgs false

/-! `Machine.Power` -/

theorem execMainPowerGood_keeps {w0 : State} (p : PowerPins) (s : State) (hK : Keeps w0 s) :
    KeepsR w0 (execMainPowerGood p s) := by
  unfold execMainPowerGood
  repeat' (first
    | with_reducible (first
        | assumption | exact Keeps.refl _ | apply KeepsR.next | exact KeepsR.fault | exact KeepsR.refused
        | apply bootRng_keeps | apply inert_keeps)
    | dsimp only | split
    | with_reducible (first | refine Keeps.upd ?_ rfl rfl rfl rfl rfl rfl rfl rfl rfl))

theorem tearSlot_keeps {w0 : State} (s : State) (hK : Keeps w0 s) :
    Keeps w0 (tearSlot s) := by
  unfold tearSlot
  repeat' (first
    | with_reducible (first
        | assumption | exact Keeps.refl _ | apply drawn_keeps)
    | dsimp only | split
    | with_reducible (first | refine Keeps.upd ?_ rfl rfl rfl rfl rfl rfl rfl rfl rfl))

theorem powerOff_keeps {w0 : State} (s : State) (hK : Keeps w0 s) :
    Keeps w0 (powerOff s) := by
  unfold powerOff
  repeat' (first
    | with_reducible (first
        | assumption | exact Keeps.refl _ | apply wipe_keeps | apply inert_keeps | apply tearSlot_keeps)
    | dsimp only | split
    | with_reducible (first | refine Keeps.upd ?_ rfl rfl rfl rfl rfl rfl rfl rfl rfl))

theorem supplyTrip_keeps {w0 : State} (s : State) (hK : Keeps w0 s) :
    Keeps w0 (supplyTrip s) := by
  unfold supplyTrip
  repeat' (first
    | with_reducible (first
        | assumption | exact Keeps.refl _ | apply trip_keeps)
    | dsimp only | split
    | with_reducible (first | refine Keeps.upd ?_ rfl rfl rfl rfl rfl rfl rfl rfl rfl))

theorem execMainPowerLoss_keeps {w0 : State} (s : State) (hK : Keeps w0 s) :
    KeepsR w0 (execMainPowerLoss s) := by
  unfold execMainPowerLoss
  repeat' (first
    | with_reducible (first
        | assumption | exact Keeps.refl _ | apply KeepsR.next | exact KeepsR.fault | exact KeepsR.refused
        | apply powerOff_keeps | apply supplyTrip_keeps)
    | dsimp only | split
    | with_reducible (first | refine Keeps.upd ?_ rfl rfl rfl rfl rfl rfl rfl rfl rfl))

theorem execThermalShutdown_keeps {w0 : State} (s : State) (hK : Keeps w0 s) :
    KeepsR w0 (execThermalShutdown s) := by
  unfold execThermalShutdown
  repeat' (first
    | with_reducible (first
        | assumption | exact Keeps.refl _ | apply KeepsR.next | exact KeepsR.fault | exact KeepsR.refused
        | apply powerOff_keeps)
    | dsimp only | split
    | with_reducible (first | refine Keeps.upd ?_ rfl rfl rfl rfl rfl rfl rfl rfl rfl))

theorem mrstReset_keeps {w0 : State} (s : State) (hK : Keeps w0 s) :
    Keeps w0 (mrstReset s) := by
  unfold mrstReset
  repeat' (first
    | with_reducible (first
        | assumption | exact Keeps.refl _ | apply bootRng_keeps | apply restart_keeps | apply inert_keeps)
    | dsimp only | split
    | with_reducible (first | refine Keeps.upd ?_ rfl rfl rfl rfl rfl rfl rfl rfl rfl))

theorem execMrstN_keeps {w0 : State} (pulse : MrstPulse) (s : State) (hK : Keeps w0 s) :
    KeepsR w0 (execMrstN pulse s) := by
  unfold execMrstN
  repeat' (first
    | with_reducible (first
        | assumption | exact Keeps.refl _ | apply KeepsR.next | exact KeepsR.fault | exact KeepsR.refused | apply drawn_keeps
        | apply mrstReset_keeps)
    | dsimp only | split
    | with_reducible (first | refine Keeps.upd ?_ rfl rfl rfl rfl rfl rfl rfl rfl rfl))

theorem execVioLoss_keeps {w0 : State} (s : State) (hK : Keeps w0 s) :
    KeepsR w0 (execVioLoss s) := by
  unfold execVioLoss
  repeat' (first
    | with_reducible (first
        | assumption | exact Keeps.refl _ | apply KeepsR.next | exact KeepsR.fault | exact KeepsR.refused)
    | dsimp only | split
    | with_reducible (first | refine Keeps.upd ?_ rfl rfl rfl rfl rfl rfl rfl rfl rfl))

theorem execVioReturn_keeps {w0 : State} (p : VioPins) (s : State) (hK : Keeps w0 s) :
    KeepsR w0 (execVioReturn p s) := by
  unfold execVioReturn
  repeat' (first
    | with_reducible (first
        | assumption | exact Keeps.refl _ | apply KeepsR.next | exact KeepsR.fault | exact KeepsR.refused
        | apply execMainPowerLoss_keeps)
    | dsimp only | split
    | with_reducible (first | refine Keeps.upd ?_ rfl rfl rfl rfl rfl rfl rfl rfl rfl))

theorem execHoldupStoreCharged_keeps {w0 : State} (s : State) (hK : Keeps w0 s) :
    KeepsR w0 (execHoldupStoreCharged s) := by
  unfold execHoldupStoreCharged
  repeat' (first
    | with_reducible (first
        | assumption | exact Keeps.refl _ | apply KeepsR.next | exact KeepsR.fault | exact KeepsR.refused | apply goLive_keeps)
    | dsimp only | split
    | with_reducible (first | refine Keeps.upd ?_ rfl rfl rfl rfl rfl rfl rfl rfl rfl))

theorem execPllLock_keeps {w0 : State} (pll : Fin 6) (s : State) (hK : Keeps w0 s) :
    KeepsR w0 (execPllLock pll s) := by
  unfold execPllLock
  repeat' (first
    | with_reducible (first
        | assumption | exact Keeps.refl _ | apply KeepsR.next | exact KeepsR.fault | exact KeepsR.refused)
    | dsimp only | split
    | with_reducible (first | refine Keeps.upd ?_ rfl rfl rfl rfl rfl rfl rfl rfl rfl))

theorem execDozeEntry_keeps {w0 : State} (s : State) (hK : Keeps w0 s) :
    KeepsR w0 (execDozeEntry s) := by
  unfold execDozeEntry
  repeat' (first
    | with_reducible (first
        | assumption | exact Keeps.refl _ | apply KeepsR.next | exact KeepsR.fault | exact KeepsR.refused
        | apply advanceTo_keeps | apply Keeps.foldl | apply KeepsP.foldl)
    | dsimp only | split
    | with_reducible (first | intro _ | refine Keeps.upd ?_ rfl rfl rfl rfl rfl rfl rfl rfl rfl))

theorem execPwrPolicyWrite_keeps {w0 : State} (value : W32) (s : State) (hK : Keeps w0 s) :
    KeepsR w0 (execPwrPolicyWrite value s) := by
  unfold execPwrPolicyWrite
  repeat' (first
    | with_reducible (first
        | assumption | exact Keeps.refl _ | apply KeepsR.next | exact KeepsR.fault | exact KeepsR.refused)
    | dsimp only | split
    | with_reducible (first | refine Keeps.upd ?_ rfl rfl rfl rfl rfl rfl rfl rfl rfl))

theorem execUnitGate_keeps {w0 : State} (u : UnitId) (s : State) (hK : Keeps w0 s) : KeepsR w0 (execUnitGate u s) := by
  have g : Keeps w0 (execUnitGate.gate u s) := by
    unfold execUnitGate.gate
    cases u <;> exact Keeps.upd hK rfl rfl rfl rfl rfl rfl rfl rfl rfl
  unfold execUnitGate
  refine KeepsR.next ?_
  split
  · exact hK
  · dsimp only
    split
    · exact pumpEng_keeps _ g
    · exact g

theorem execLedActTimeout_keeps {w0 : State} (s : State) (hK : Keeps w0 s) :
    KeepsR w0 (execLedActTimeout s) := by
  unfold execLedActTimeout
  repeat' (first
    | with_reducible (first
        | assumption | exact Keeps.refl _ | apply KeepsR.next | exact KeepsR.fault | exact KeepsR.refused | apply ledAct_keeps)
    | dsimp only | split
    | with_reducible (first | refine Keeps.upd ?_ rfl rfl rfl rfl rfl rfl rfl rfl rfl))

/-! `Machine.Recorder` -/

theorem runExport_keeps {w0 : State} (s : State) (d : Adm) (hK : Keeps w0 s) :
    Keeps w0 (runExport s d) := by
  unfold runExport
  repeat' (first
    | with_reducible (first
        | assumption | exact Keeps.refl _ | apply drawn_keeps | apply admResult_keeps)
    | dsimp only | split
    | with_reducible (first | refine Keeps.upd ?_ rfl rfl rfl rfl rfl rfl rfl rfl rfl))

theorem execEvrExport_keeps {w0 : State} (s : State) (hK : Keeps w0 s) :
    KeepsR w0 (execEvrExport s) := by
  unfold execEvrExport
  repeat' (first
    | with_reducible (first
        | assumption | exact Keeps.refl _ | apply KeepsR.next | exact KeepsR.fault | exact KeepsR.refused | apply admin_keeps
        | apply runExport_keeps)
    | dsimp only | split
    | with_reducible (first | intro _ | refine Keeps.upd ?_ rfl rfl rfl rfl rfl rfl rfl rfl rfl))

theorem runAck_keeps {w0 : State} (s : State) (d : Adm) (hK : Keeps w0 s) :
    Keeps w0 (runAck s d) := by
  unfold runAck
  repeat' (first
    | with_reducible (first
        | assumption | exact Keeps.refl _ | apply event_keeps | apply admOk_keeps | apply admFail_keeps)
    | dsimp only | split
    | with_reducible (first | refine Keeps.upd ?_ rfl rfl rfl rfl rfl rfl rfl rfl rfl))

theorem execEvrAck_keeps {w0 : State} (s : State) (hK : Keeps w0 s) :
    KeepsR w0 (execEvrAck s) := by
  unfold execEvrAck
  repeat' (first
    | with_reducible (first
        | assumption | exact Keeps.refl _ | apply KeepsR.next | exact KeepsR.fault | exact KeepsR.refused | apply admin_keeps
        | apply runAck_keeps)
    | dsimp only | split
    | with_reducible (first | intro _ | refine Keeps.upd ?_ rfl rfl rfl rfl rfl rfl rfl rfl rfl))

/-! `Machine.Rng` -/

theorem stageRandom_keeps {w0 : State} (s : State) (hK : Keeps w0 s) :
    Keeps w0 (stageRandom s) := by
  unfold stageRandom
  repeat' (first
    | with_reducible (first
        | assumption | exact Keeps.refl _ | apply drawn_keeps | apply privGen_keeps | apply keyGen_keeps
        | refine KeepsP.of ?_ (by assumption) | apply KeepsP.fst)
    | dsimp only | split
    | with_reducible (first | apply KeepsP.mk | refine Keeps.upd ?_ rfl rfl rfl rfl rfl rfl rfl rfl rfl))

theorem execRngSctlPr_keeps {w0 : State} (s : State) (hK : Keeps w0 s) :
    KeepsR w0 (execRngSctlPr s) := by
  unfold execRngSctlPr
  repeat' (first
    | with_reducible (first
        | assumption | exact Keeps.refl _ | apply KeepsR.next | exact KeepsR.fault | exact KeepsR.refused
        | apply stageRandom_keeps)
    | dsimp only | split
    | with_reducible (first | refine Keeps.upd ?_ rfl rfl rfl rfl rfl rfl rfl rfl rfl))

theorem execRngSctlSel_keeps {w0 : State} (sel : BitVec 2) (s : State) (hK : Keeps w0 s) :
    KeepsR w0 (execRngSctlSel sel s) := by
  unfold execRngSctlSel
  repeat' (first
    | with_reducible (first
        | assumption | exact Keeps.refl _ | apply KeepsR.next | exact KeepsR.fault | exact KeepsR.refused
        | apply settleWaits_keeps | apply stageRandom_keeps)
    | dsimp only | split
    | with_reducible (first | refine Keeps.upd ?_ rfl rfl rfl rfl rfl rfl rfl rfl rfl))

theorem execRngDataRead_keeps {w0 : State} (s : State) (hK : Keeps w0 s) :
    KeepsR w0 (execRngDataRead s) := by
  unfold execRngDataRead
  repeat' (first
    | with_reducible (first
        | assumption | exact Keeps.refl _ | apply KeepsR.next | exact KeepsR.fault | exact KeepsR.refused
        | apply stageRandom_keeps)
    | dsimp only | split
    | with_reducible (first | refine Keeps.upd ?_ rfl rfl rfl rfl rfl rfl rfl rfl rfl))

theorem evalClaim_keeps {w0 : State} (s : State) (hK : Keeps w0 s) :
    Keeps w0 (evalClaim s) := by
  unfold evalClaim
  repeat' (first
    | with_reducible (first
        | assumption | exact Keeps.refl _ | apply event_keeps | apply rngEvent_keeps)
    | dsimp only | split
    | with_reducible (first | refine Keeps.upd ?_ rfl rfl rfl rfl rfl rfl rfl rfl rfl))

theorem fallowEpoch_keeps {w0 : State} (s : State) (hK : Keeps w0 s) :
    Keeps w0 (fallowEpoch s) := by
  unfold fallowEpoch
  repeat' (first
    | with_reducible (first
        | assumption | exact Keeps.refl _ | apply newEpoch_keeps)
    | dsimp only | split
    | with_reducible (first | refine Keeps.upd ?_ rfl rfl rfl rfl rfl rfl rfl rfl rfl))

theorem execConditionerBlock_keeps {w0 : State} (s : State) (hK : Keeps w0 s) :
    KeepsR w0 (execConditionerBlock s) := by
  unfold execConditionerBlock
  repeat' (first
    | with_reducible (first
        | assumption | exact Keeps.refl _ | apply KeepsR.next | exact KeepsR.fault | exact KeepsR.refused
        | apply condBlock_keeps | apply pump_keeps | apply hsPump_keeps | apply finishRestore_keeps | apply grantOn_keeps
        | apply stageRandom_keeps | apply fallowEpoch_keeps)
    | dsimp only | split
    | with_reducible (first | refine Keeps.upd ?_ rfl rfl rfl rfl rfl rfl rfl rfl rfl))

theorem execHealthTestFailure_keeps {w0 : State} (i : Fin 20) (samples : List Bool) (s : State) (hK : Keeps w0 s) :
    KeepsR w0 (execHealthTestFailure i samples s) := by
  unfold execHealthTestFailure
  repeat' (first
    | with_reducible (first
        | assumption | exact Keeps.refl _ | apply KeepsR.next | exact KeepsR.fault | exact KeepsR.refused | apply event_keeps
        | apply setSrc_keeps | apply rngEvent_keeps | apply evalClaim_keeps)
    | dsimp only | split
    | with_reducible (first | refine Keeps.upd ?_ rfl rfl rfl rfl rfl rfl rfl rfl rfl))

theorem execSourceRetestStart_keeps {w0 : State} (i : Fin 20) (s : State) (hK : Keeps w0 s) :
    KeepsR w0 (execSourceRetestStart i s) := by
  unfold execSourceRetestStart
  repeat' (first
    | with_reducible (first
        | assumption | exact Keeps.refl _ | apply KeepsR.next | exact KeepsR.fault | exact KeepsR.refused | apply setSrc_keeps)
    | dsimp only | split
    | with_reducible (first | refine Keeps.upd ?_ rfl rfl rfl rfl rfl rfl rfl rfl rfl))

theorem execStartupTestEnd_keeps {w0 : State} (i : Fin 20) (samples : List Bool) (s : State) (hK : Keeps w0 s) :
    KeepsR w0 (execStartupTestEnd i samples s) := by
  unfold execStartupTestEnd
  repeat' (first
    | with_reducible (first
        | assumption | exact Keeps.refl _ | apply KeepsR.next | exact KeepsR.fault | exact KeepsR.refused | apply setSrc_keeps
        | apply evalClaim_keeps)
    | dsimp only | split
    | with_reducible (first | refine Keeps.upd ?_ rfl rfl rfl rfl rfl rfl rfl rfl rfl))

theorem execClaimStartTimeout_keeps {w0 : State} (s : State) (hK : Keeps w0 s) :
    KeepsR w0 (execClaimStartTimeout s) := by
  unfold execClaimStartTimeout
  repeat' (first
    | with_reducible (first
        | assumption | exact Keeps.refl _ | apply KeepsR.next | exact KeepsR.fault | exact KeepsR.refused
        | apply countStart_keeps | apply startFail_keeps)
    | dsimp only | split
    | with_reducible (first | refine Keeps.upd ?_ rfl rfl rfl rfl rfl rfl rfl rfl rfl))

theorem execMaskKeyRefresh_keeps {w0 : State} (u : UnitId) (s : State) (hK : Keeps w0 s) :
    KeepsR w0 (execMaskKeyRefresh u s) := by
  unfold execMaskKeyRefresh
  repeat' (first
    | with_reducible (first
        | assumption | exact Keeps.refl _ | apply KeepsR.next | exact KeepsR.fault | exact KeepsR.refused
        | apply rngEvent_keeps | apply privGen_keeps | apply newSecret_keeps | refine KeepsP.of ?_ (by assumption)
        | apply KeepsP.fst)
    | dsimp only | split
    | with_reducible (first | apply KeepsP.mk | intro _ | refine Keeps.upd ?_ rfl rfl rfl rfl rfl rfl rfl rfl rfl))

theorem runRaw_keeps {w0 : State} (s : State) (d : Adm) (hK : Keeps w0 s) :
    Keeps w0 (runRaw s d) := by
  unfold runRaw
  repeat' (first
    | with_reducible (first
        | assumption | exact Keeps.refl _ | apply event_keeps | apply rngEvent_keeps)
    | dsimp only | split
    | with_reducible (first | refine Keeps.upd ?_ rfl rfl rfl rfl rfl rfl rfl rfl rfl))

theorem execRngRawCapture_keeps {w0 : State} (s : State) (hK : Keeps w0 s) :
    KeepsR w0 (execRngRawCapture s) := by
  unfold execRngRawCapture
  repeat' (first
    | with_reducible (first
        | assumption | exact Keeps.refl _ | apply KeepsR.next | exact KeepsR.fault | exact KeepsR.refused | apply admin_keeps
        | apply runRaw_keeps)
    | dsimp only | split
    | with_reducible (first | intro _ | refine Keeps.upd ?_ rfl rfl rfl rfl rfl rfl rfl rfl rfl))

theorem markAll_keeps {w0 : State} (s : State) (hK : Keeps w0 s) :
    Keeps w0 (markAll s) := by
  unfold markAll
  repeat' (first
    | with_reducible (first
        | assumption | exact Keeps.refl _ | apply modPriv_keeps | apply wantSeed_keeps | apply markReseed_keeps
        | apply Keeps.foldl | apply KeepsP.foldl)
    | dsimp only | split
    | with_reducible (first | intro _ | refine Keeps.upd ?_ rfl rfl rfl rfl rfl rfl rfl rfl rfl))

theorem execRawCaptureEnd_keeps {w0 : State} (samples : List Bool) (s : State) (hK : Keeps w0 s) :
    KeepsR w0 (execRawCaptureEnd samples s) := by
  unfold execRawCaptureEnd
  repeat' (first
    | with_reducible (first
        | assumption | exact Keeps.refl _ | apply KeepsR.next | exact KeepsR.fault | exact KeepsR.refused
        | apply admResult_keeps | apply markAll_keeps)
    | dsimp only | split
    | with_reducible (first | refine Keeps.upd ?_ rfl rfl rfl rfl rfl rfl rfl rfl rfl))

theorem execAdminBoundExpired_keeps {w0 : State} (s : State) (hK : Keeps w0 s) :
    KeepsR w0 (execAdminBoundExpired s) := by
  unfold execAdminBoundExpired
  repeat' (first
    | with_reducible (first
        | assumption | exact Keeps.refl _ | apply KeepsR.next | exact KeepsR.fault | exact KeepsR.refused
        | apply keyServed_keeps | apply admFail_keeps)
    | dsimp only | split
    | with_reducible (first | refine Keeps.upd ?_ rfl rfl rfl rfl rfl rfl rfl rfl rfl))

/-! `Machine.Shelves` -/

theorem macCmd_keeps {w0 : State} (op : Nat) (run : State → Nat → Mac → W64 → State × Mac) (e : EngId) (s : State) (hK : Keeps w0 s) (h_run : ∀ (a0 : State) (a1 : Nat) (a2 : Mac) (a3 : W64), Keeps w0 a0 → KeepsP w0 (run a0 a1 a2 a3)) :
    KeepsR w0 (macCmd op run e s) := by
  unfold macCmd
  repeat' (first
    | with_reducible (first
        | assumption | exact Keeps.refl _ | apply KeepsR.next | exact KeepsR.fault | exact KeepsR.refused | apply h_run
        | apply modMac_keeps | refine KeepsP.of ?_ (by assumption) | apply KeepsP.fst)
    | dsimp only | split
    | with_reducible (first | apply KeepsP.mk | intro _ | refine Keeps.upd ?_ rfl rfl rfl rfl rfl rfl rfl rfl rfl))

theorem macPut_keeps {w0 : State} (op : Nat) (f : Nat → Mac → W64 → Nat) (e : EngId) (s : State) (hK : Keeps w0 s) :
    KeepsR w0 (macPut op f e s) := by
  unfold macPut
  repeat' (first
    | with_reducible (first
        | assumption | exact Keeps.refl _ | apply KeepsR.next | exact KeepsR.fault | exact KeepsR.refused | apply macCmd_keeps
        | refine KeepsP.of ?_ (by assumption) | apply KeepsP.fst)
    | dsimp only | split
    | with_reducible (first | apply KeepsP.mk | intro _ | refine Keeps.upd ?_ rfl rfl rfl rfl rfl rfl rfl rfl rfl))

theorem execZero_keeps {w0 : State} (e : EngId) (s : State) (hK : Keeps w0 s) :
    KeepsR w0 (execZero e s) := by
  unfold execZero
  repeat' (first
    | with_reducible (first
        | assumption | exact Keeps.refl _ | apply KeepsR.next | exact KeepsR.fault | exact KeepsR.refused | apply macPut_keeps)
    | dsimp only | split
    | with_reducible (first | intro _ | refine Keeps.upd ?_ rfl rfl rfl rfl rfl rfl rfl rfl rfl))

theorem execCopy_keeps {w0 : State} (e : EngId) (s : State) (hK : Keeps w0 s) :
    KeepsR w0 (execCopy e s) := by
  unfold execCopy
  repeat' (first
    | with_reducible (first
        | assumption | exact Keeps.refl _ | apply KeepsR.next | exact KeepsR.fault | exact KeepsR.refused | apply macPut_keeps)
    | dsimp only | split
    | with_reducible (first | intro _ | refine Keeps.upd ?_ rfl rfl rfl rfl rfl rfl rfl rfl rfl))

theorem execMprep_keeps {w0 : State} (e : EngId) (s : State) (hK : Keeps w0 s) :
    KeepsR w0 (execMprep e s) := by
  unfold execMprep
  repeat' (first
    | with_reducible (first
        | assumption | exact Keeps.refl _ | apply KeepsR.next | exact KeepsR.fault | exact KeepsR.refused | apply drawn_keeps
        | apply macCmd_keeps | refine KeepsP.of ?_ (by assumption) | apply KeepsP.fst)
    | dsimp only | split
    | with_reducible (first | apply KeepsP.mk | intro _ | refine Keeps.upd ?_ rfl rfl rfl rfl rfl rfl rfl rfl rfl))

theorem modCmd_keeps {w0 : State} (op : Nat) (f : Nat → Nat → Nat → Nat → Nat) (e : EngId) (s : State) (hK : Keeps w0 s) :
    KeepsR w0 (modCmd op f e s) := by
  unfold modCmd
  repeat' (first
    | with_reducible (first
        | assumption | exact Keeps.refl _ | apply KeepsR.next | exact KeepsR.fault | exact KeepsR.refused | apply macPut_keeps)
    | dsimp only | split
    | with_reducible (first | intro _ | refine Keeps.upd ?_ rfl rfl rfl rfl rfl rfl rfl rfl rfl))

theorem execMmul_keeps {w0 : State} (e : EngId) (s : State) (hK : Keeps w0 s) :
    KeepsR w0 (execMmul e s) := by
  unfold execMmul
  repeat' (first
    | with_reducible (first
        | assumption | exact Keeps.refl _ | apply KeepsR.next | exact KeepsR.fault | exact KeepsR.refused | apply modCmd_keeps)
    | dsimp only | split
    | with_reducible (first | intro _ | refine Keeps.upd ?_ rfl rfl rfl rfl rfl rfl rfl rfl rfl))

theorem execMadd_keeps {w0 : State} (e : EngId) (s : State) (hK : Keeps w0 s) :
    KeepsR w0 (execMadd e s) := by
  unfold execMadd
  repeat' (first
    | with_reducible (first
        | assumption | exact Keeps.refl _ | apply KeepsR.next | exact KeepsR.fault | exact KeepsR.refused | apply modCmd_keeps)
    | dsimp only | split
    | with_reducible (first | intro _ | refine Keeps.upd ?_ rfl rfl rfl rfl rfl rfl rfl rfl rfl))

theorem execMsub_keeps {w0 : State} (e : EngId) (s : State) (hK : Keeps w0 s) :
    KeepsR w0 (execMsub e s) := by
  unfold execMsub
  repeat' (first
    | with_reducible (first
        | assumption | exact Keeps.refl _ | apply KeepsR.next | exact KeepsR.fault | exact KeepsR.refused | apply modCmd_keeps)
    | dsimp only | split
    | with_reducible (first | intro _ | refine Keeps.upd ?_ rfl rfl rfl rfl rfl rfl rfl rfl rfl))

theorem execMac_keeps {w0 : State} (e : EngId) (s : State) (hK : Keeps w0 s) :
    KeepsR w0 (execMac e s) := by
  unfold execMac
  repeat' (first
    | with_reducible (first
        | assumption | exact Keeps.refl _ | apply KeepsR.next | exact KeepsR.fault | exact KeepsR.refused | apply macCmd_keeps
        | refine KeepsP.of ?_ (by assumption) | apply KeepsP.fst)
    | dsimp only | split
    | with_reducible (first | apply KeepsP.mk | intro _ | refine Keeps.upd ?_ rfl rfl rfl rfl rfl rfl rfl rfl rfl))

theorem execNtt_keeps {w0 : State} (e : EngId) (s : State) (hK : Keeps w0 s) :
    KeepsR w0 (execNtt e s) := by
  unfold execNtt
  repeat' (first
    | with_reducible (first
        | assumption | exact Keeps.refl _ | apply KeepsR.next | exact KeepsR.fault | exact KeepsR.refused | apply macPut_keeps)
    | dsimp only | split
    | with_reducible (first | intro _ | refine Keeps.upd ?_ rfl rfl rfl rfl rfl rfl rfl rfl rfl))

theorem execIntt_keeps {w0 : State} (e : EngId) (s : State) (hK : Keeps w0 s) :
    KeepsR w0 (execIntt e s) := by
  unfold execIntt
  repeat' (first
    | with_reducible (first
        | assumption | exact Keeps.refl _ | apply KeepsR.next | exact KeepsR.fault | exact KeepsR.refused | apply macPut_keeps)
    | dsimp only | split
    | with_reducible (first | intro _ | refine Keeps.upd ?_ rfl rfl rfl rfl rfl rfl rfl rfl rfl))

theorem execPwmul_keeps {w0 : State} (e : EngId) (s : State) (hK : Keeps w0 s) :
    KeepsR w0 (execPwmul e s) := by
  unfold execPwmul
  repeat' (first
    | with_reducible (first
        | assumption | exact Keeps.refl _ | apply KeepsR.next | exact KeepsR.fault | exact KeepsR.refused | apply macPut_keeps)
    | dsimp only | split
    | with_reducible (first | intro _ | refine Keeps.upd ?_ rfl rfl rfl rfl rfl rfl rfl rfl rfl))

theorem execPadd_keeps {w0 : State} (e : EngId) (s : State) (hK : Keeps w0 s) :
    KeepsR w0 (execPadd e s) := by
  unfold execPadd
  repeat' (first
    | with_reducible (first
        | assumption | exact Keeps.refl _ | apply KeepsR.next | exact KeepsR.fault | exact KeepsR.refused | apply macPut_keeps)
    | dsimp only | split
    | with_reducible (first | intro _ | refine Keeps.upd ?_ rfl rfl rfl rfl rfl rfl rfl rfl rfl))

/-! `Machine.Tiller` -/

theorem operandIns_keeps {w0 : State} (c : CoreId) (i : Ins) (signed : Bool) (modes : List Nat) (sz3 reads : Bool) (cost : Nat) (f : Core → W64 → Core) (s : State) (hK : Keeps w0 s) :
    KeepsR w0 (operandIns c i signed modes sz3 reads cost f s) := by
  unfold operandIns
  repeat' (first
    | with_reducible (first
        | assumption | exact Keeps.refl _ | apply KeepsA.ok | apply KeepsA.trap | apply KeepsA.stop | apply KeepsR.next
        | exact KeepsR.fault | exact KeepsR.refused | apply opval_keeps | apply runIns_keeps | apply KeepsA.bind
        | refine KeepsA.of_ok ?_ (by assumption) | refine KeepsA.of_trap ?_ (by assumption)
        | refine KeepsA.of_stop ?_ (by assumption))
    | dsimp only | split
    | with_reducible (first | intro _ | refine Keeps.upd ?_ rfl rfl rfl rfl rfl rfl rfl rfl rfl))

theorem plainIns_keeps {w0 : State} (c : CoreId) (i : Ins) (fmt rep reads : Bool) (cost : Nat) (f : Core → Core) (s : State) (hK : Keeps w0 s) :
    KeepsR w0 (plainIns c i fmt rep reads cost f s) := by
  unfold plainIns
  repeat' (first
    | with_reducible (first
        | assumption | exact Keeps.refl _ | apply KeepsA.ok | apply KeepsA.trap | apply KeepsA.stop | apply KeepsR.next
        | exact KeepsR.fault | exact KeepsR.refused | apply runIns_keeps | refine KeepsA.of_ok ?_ (by assumption)
        | refine KeepsA.of_trap ?_ (by assumption) | refine KeepsA.of_stop ?_ (by assumption))
    | dsimp only | split
    | with_reducible (first | intro _ | refine Keeps.upd ?_ rfl rfl rfl rfl rfl rfl rfl rfl rfl))

theorem execAdd_keeps {w0 : State} (c : CoreId) (i : Ins) (s : State) (hK : Keeps w0 s) :
    KeepsR w0 (execAdd c i s) := by
  unfold execAdd
  repeat' (first
    | with_reducible (first
        | assumption | exact Keeps.refl _ | apply KeepsR.next | exact KeepsR.fault | exact KeepsR.refused
        | apply operandIns_keeps)
    | dsimp only | split
    | with_reducible (first | intro _ | refine Keeps.upd ?_ rfl rfl rfl rfl rfl rfl rfl rfl rfl))

theorem execAdc_keeps {w0 : State} (c : CoreId) (i : Ins) (s : State) (hK : Keeps w0 s) :
    KeepsR w0 (execAdc c i s) := by
  unfold execAdc
  repeat' (first
    | with_reducible (first
        | assumption | exact Keeps.refl _ | apply KeepsR.next | exact KeepsR.fault | exact KeepsR.refused
        | apply operandIns_keeps)
    | dsimp only | split
    | with_reducible (first | intro _ | refine Keeps.upd ?_ rfl rfl rfl rfl rfl rfl rfl rfl rfl))

theorem execSub_keeps {w0 : State} (c : CoreId) (i : Ins) (s : State) (hK : Keeps w0 s) :
    KeepsR w0 (execSub c i s) := by
  unfold execSub
  repeat' (first
    | with_reducible (first
        | assumption | exact Keeps.refl _ | apply KeepsR.next | exact KeepsR.fault | exact KeepsR.refused
        | apply operandIns_keeps)
    | dsimp only | split
    | with_reducible (first | intro _ | refine Keeps.upd ?_ rfl rfl rfl rfl rfl rfl rfl rfl rfl))

theorem execSbc_keeps {w0 : State} (c : CoreId) (i : Ins) (s : State) (hK : Keeps w0 s) :
    KeepsR w0 (execSbc c i s) := by
  unfold execSbc
  repeat' (first
    | with_reducible (first
        | assumption | exact Keeps.refl _ | apply KeepsR.next | exact KeepsR.fault | exact KeepsR.refused
        | apply operandIns_keeps)
    | dsimp only | split
    | with_reducible (first | intro _ | refine Keeps.upd ?_ rfl rfl rfl rfl rfl rfl rfl rfl rfl))

theorem execCmp_keeps {w0 : State} (c : CoreId) (i : Ins) (s : State) (hK : Keeps w0 s) :
    KeepsR w0 (execCmp c i s) := by
  unfold execCmp
  repeat' (first
    | with_reducible (first
        | assumption | exact Keeps.refl _ | apply KeepsR.next | exact KeepsR.fault | exact KeepsR.refused
        | apply operandIns_keeps)
    | dsimp only | split
    | with_reducible (first | intro _ | refine Keeps.upd ?_ rfl rfl rfl rfl rfl rfl rfl rfl rfl))

theorem execAnd_keeps {w0 : State} (c : CoreId) (i : Ins) (s : State) (hK : Keeps w0 s) :
    KeepsR w0 (execAnd c i s) := by
  unfold execAnd
  repeat' (first
    | with_reducible (first
        | assumption | exact Keeps.refl _ | apply KeepsR.next | exact KeepsR.fault | exact KeepsR.refused
        | apply operandIns_keeps)
    | dsimp only | split
    | with_reducible (first | intro _ | refine Keeps.upd ?_ rfl rfl rfl rfl rfl rfl rfl rfl rfl))

theorem execOr_keeps {w0 : State} (c : CoreId) (i : Ins) (s : State) (hK : Keeps w0 s) :
    KeepsR w0 (execOr c i s) := by
  unfold execOr
  repeat' (first
    | with_reducible (first
        | assumption | exact Keeps.refl _ | apply KeepsR.next | exact KeepsR.fault | exact KeepsR.refused
        | apply operandIns_keeps)
    | dsimp only | split
    | with_reducible (first | intro _ | refine Keeps.upd ?_ rfl rfl rfl rfl rfl rfl rfl rfl rfl))

theorem execXor_keeps {w0 : State} (c : CoreId) (i : Ins) (s : State) (hK : Keeps w0 s) :
    KeepsR w0 (execXor c i s) := by
  unfold execXor
  repeat' (first
    | with_reducible (first
        | assumption | exact Keeps.refl _ | apply KeepsR.next | exact KeepsR.fault | exact KeepsR.refused
        | apply operandIns_keeps)
    | dsimp only | split
    | with_reducible (first | intro _ | refine Keeps.upd ?_ rfl rfl rfl rfl rfl rfl rfl rfl rfl))

theorem execTst_keeps {w0 : State} (c : CoreId) (i : Ins) (s : State) (hK : Keeps w0 s) :
    KeepsR w0 (execTst c i s) := by
  unfold execTst
  repeat' (first
    | with_reducible (first
        | assumption | exact Keeps.refl _ | apply KeepsR.next | exact KeepsR.fault | exact KeepsR.refused
        | apply operandIns_keeps)
    | dsimp only | split
    | with_reducible (first | intro _ | refine Keeps.upd ?_ rfl rfl rfl rfl rfl rfl rfl rfl rfl))

theorem execNeg_keeps {w0 : State} (c : CoreId) (i : Ins) (s : State) (hK : Keeps w0 s) :
    KeepsR w0 (execNeg c i s) := by
  unfold execNeg
  repeat' (first
    | with_reducible (first
        | assumption | exact Keeps.refl _ | apply KeepsR.next | exact KeepsR.fault | exact KeepsR.refused
        | apply plainIns_keeps)
    | dsimp only | split
    | with_reducible (first | intro _ | refine Keeps.upd ?_ rfl rfl rfl rfl rfl rfl rfl rfl rfl))

theorem execNot_keeps {w0 : State} (c : CoreId) (i : Ins) (s : State) (hK : Keeps w0 s) :
    KeepsR w0 (execNot c i s) := by
  unfold execNot
  repeat' (first
    | with_reducible (first
        | assumption | exact Keeps.refl _ | apply KeepsR.next | exact KeepsR.fault | exact KeepsR.refused
        | apply plainIns_keeps)
    | dsimp only | split
    | with_reducible (first | intro _ | refine Keeps.upd ?_ rfl rfl rfl rfl rfl rfl rfl rfl rfl))

theorem execLda_keeps {w0 : State} (c : CoreId) (i : Ins) (s : State) (hK : Keeps w0 s) :
    KeepsR w0 (execLda c i s) := by
  unfold execLda
  repeat' (first
    | with_reducible (first
        | assumption | exact Keeps.refl _ | apply KeepsR.next | exact KeepsR.fault | exact KeepsR.refused
        | apply operandIns_keeps)
    | dsimp only | split
    | with_reducible (first | intro _ | refine Keeps.upd ?_ rfl rfl rfl rfl rfl rfl rfl rfl rfl))

theorem loadIndex_keeps {w0 : State} (c : CoreId) (i : Ins) (own : Nat) (f : Core → W64 → Core) (s : State) (hK : Keeps w0 s) :
    KeepsR w0 (loadIndex c i own f s) := by
  unfold loadIndex
  repeat' (first
    | with_reducible (first
        | assumption | exact Keeps.refl _ | apply KeepsA.ok | apply KeepsA.trap | apply KeepsA.stop | apply KeepsR.next
        | exact KeepsR.fault | exact KeepsR.refused | apply opval_keeps | apply runIns_keeps | apply KeepsA.bind
        | refine KeepsA.of_ok ?_ (by assumption) | refine KeepsA.of_trap ?_ (by assumption)
        | refine KeepsA.of_stop ?_ (by assumption))
    | dsimp only | split
    | with_reducible (first | intro _ | refine Keeps.upd ?_ rfl rfl rfl rfl rfl rfl rfl rfl rfl))

theorem execLdx_keeps {w0 : State} (c : CoreId) (i : Ins) (s : State) (hK : Keeps w0 s) :
    KeepsR w0 (execLdx c i s) := by
  unfold execLdx
  repeat' (first
    | with_reducible (first
        | assumption | exact Keeps.refl _ | apply KeepsR.next | exact KeepsR.fault | exact KeepsR.refused
        | apply loadIndex_keeps)
    | dsimp only | split
    | with_reducible (first | intro _ | refine Keeps.upd ?_ rfl rfl rfl rfl rfl rfl rfl rfl rfl))

theorem execLdy_keeps {w0 : State} (c : CoreId) (i : Ins) (s : State) (hK : Keeps w0 s) :
    KeepsR w0 (execLdy c i s) := by
  unfold execLdy
  repeat' (first
    | with_reducible (first
        | assumption | exact Keeps.refl _ | apply KeepsR.next | exact KeepsR.fault | exact KeepsR.refused
        | apply loadIndex_keeps)
    | dsimp only | split
    | with_reducible (first | intro _ | refine Keeps.upd ?_ rfl rfl rfl rfl rfl rfl rfl rfl rfl))

theorem execLdsp_keeps {w0 : State} (c : CoreId) (i : Ins) (s : State) (hK : Keeps w0 s) :
    KeepsR w0 (execLdsp c i s) := by
  unfold execLdsp
  repeat' (first
    | with_reducible (first
        | assumption | exact Keeps.refl _ | apply KeepsR.next | exact KeepsR.fault | exact KeepsR.refused
        | apply operandIns_keeps)
    | dsimp only | split
    | with_reducible (first | intro _ | refine Keeps.upd ?_ rfl rfl rfl rfl rfl rfl rfl rfl rfl))

theorem storeIns_keeps {w0 : State} (c : CoreId) (i : Ins) (reads : Bool) (get : Core → W64) (s : State) (hK : Keeps w0 s) :
    KeepsR w0 (storeIns c i reads get s) := by
  unfold storeIns
  repeat' (first
    | with_reducible (first
        | assumption | exact Keeps.refl _ | apply KeepsA.ok | apply KeepsA.trap | apply KeepsA.stop | apply KeepsR.next
        | exact KeepsR.fault | exact KeepsR.refused | apply store_keeps | apply runIns_keeps | apply KeepsA.bind
        | refine KeepsA.of_ok ?_ (by assumption) | refine KeepsA.of_trap ?_ (by assumption)
        | refine KeepsA.of_stop ?_ (by assumption))
    | dsimp only | split
    | with_reducible (first | intro _ | refine Keeps.upd ?_ rfl rfl rfl rfl rfl rfl rfl rfl rfl))

theorem execSta_keeps {w0 : State} (c : CoreId) (i : Ins) (s : State) (hK : Keeps w0 s) :
    KeepsR w0 (execSta c i s) := by
  unfold execSta
  repeat' (first
    | with_reducible (first
        | assumption | exact Keeps.refl _ | apply KeepsR.next | exact KeepsR.fault | exact KeepsR.refused
        | apply storeIns_keeps)
    | dsimp only | split
    | with_reducible (first | refine Keeps.upd ?_ rfl rfl rfl rfl rfl rfl rfl rfl rfl))

theorem execStx_keeps {w0 : State} (c : CoreId) (i : Ins) (s : State) (hK : Keeps w0 s) :
    KeepsR w0 (execStx c i s) := by
  unfold execStx
  repeat' (first
    | with_reducible (first
        | assumption | exact Keeps.refl _ | apply KeepsR.next | exact KeepsR.fault | exact KeepsR.refused
        | apply storeIns_keeps)
    | dsimp only | split
    | with_reducible (first | refine Keeps.upd ?_ rfl rfl rfl rfl rfl rfl rfl rfl rfl))

theorem execSty_keeps {w0 : State} (c : CoreId) (i : Ins) (s : State) (hK : Keeps w0 s) :
    KeepsR w0 (execSty c i s) := by
  unfold execSty
  repeat' (first
    | with_reducible (first
        | assumption | exact Keeps.refl _ | apply KeepsR.next | exact KeepsR.fault | exact KeepsR.refused
        | apply storeIns_keeps)
    | dsimp only | split
    | with_reducible (first | refine Keeps.upd ?_ rfl rfl rfl rfl rfl rfl rfl rfl rfl))

theorem pushWord_keeps {w0 : State} (s : State) (c : CoreId) (hw : Hw) (k : Core) (v : W64) (hK : Keeps w0 s) :
    KeepsA w0 (pushWord s c hw k v) := by
  unfold pushWord
  repeat' (first
    | with_reducible (first
        | assumption | exact Keeps.refl _ | apply KeepsA.ok | apply KeepsA.trap | apply KeepsA.stop | apply store_keeps
        | apply KeepsA.bind | refine KeepsA.of_ok ?_ (by assumption) | refine KeepsA.of_trap ?_ (by assumption)
        | refine KeepsA.of_stop ?_ (by assumption))
    | dsimp only | split
    | with_reducible (first | intro _ | refine Keeps.upd ?_ rfl rfl rfl rfl rfl rfl rfl rfl rfl))

theorem execPush_keeps {w0 : State} (c : CoreId) (i : Ins) (s : State) (hK : Keeps w0 s) :
    KeepsR w0 (execPush c i s) := by
  unfold execPush
  repeat' (first
    | with_reducible (first
        | assumption | exact Keeps.refl _ | apply KeepsA.ok | apply KeepsA.trap | apply KeepsA.stop | apply KeepsR.next
        | exact KeepsR.fault | exact KeepsR.refused | apply opval_keeps | apply runIns_keeps | apply pushWord_keeps
        | apply KeepsA.bind | refine KeepsA.of_ok ?_ (by assumption) | refine KeepsA.of_trap ?_ (by assumption)
        | refine KeepsA.of_stop ?_ (by assumption))
    | dsimp only | split
    | with_reducible (first | intro _ | refine Keeps.upd ?_ rfl rfl rfl rfl rfl rfl rfl rfl rfl))

theorem execPop_keeps {w0 : State} (c : CoreId) (i : Ins) (s : State) (hK : Keeps w0 s) :
    KeepsR w0 (execPop c i s) := by
  unfold execPop
  repeat' (first
    | with_reducible (first
        | assumption | exact Keeps.refl _ | apply KeepsA.ok | apply KeepsA.trap | apply KeepsA.stop | apply KeepsR.next
        | exact KeepsR.fault | exact KeepsR.refused | apply load_keeps | apply runIns_keeps | apply KeepsA.bind
        | refine KeepsA.of_ok ?_ (by assumption) | refine KeepsA.of_trap ?_ (by assumption)
        | refine KeepsA.of_stop ?_ (by assumption))
    | dsimp only | split
    | with_reducible (first | intro _ | refine Keeps.upd ?_ rfl rfl rfl rfl rfl rfl rfl rfl rfl))

theorem leaIns_keeps {w0 : State} (c : CoreId) (i : Ins) (f : Core → W64 → Core) (s : State) (hK : Keeps w0 s) :
    KeepsR w0 (leaIns c i f s) := by
  unfold leaIns
  repeat' (first
    | with_reducible (first
        | assumption | exact Keeps.refl _ | apply KeepsA.ok | apply KeepsA.trap | apply KeepsA.stop | apply KeepsR.next
        | exact KeepsR.fault | exact KeepsR.refused | apply runIns_keeps | refine KeepsA.of_ok ?_ (by assumption)
        | refine KeepsA.of_trap ?_ (by assumption) | refine KeepsA.of_stop ?_ (by assumption))
    | dsimp only | split
    | with_reducible (first | intro _ | refine Keeps.upd ?_ rfl rfl rfl rfl rfl rfl rfl rfl rfl))

theorem execLeax_keeps {w0 : State} (c : CoreId) (i : Ins) (s : State) (hK : Keeps w0 s) :
    KeepsR w0 (execLeax c i s) := by
  unfold execLeax
  repeat' (first
    | with_reducible (first
        | assumption | exact Keeps.refl _ | apply KeepsR.next | exact KeepsR.fault | exact KeepsR.refused | apply leaIns_keeps)
    | dsimp only | split
    | with_reducible (first | intro _ | refine Keeps.upd ?_ rfl rfl rfl rfl rfl rfl rfl rfl rfl))

theorem execLeay_keeps {w0 : State} (c : CoreId) (i : Ins) (s : State) (hK : Keeps w0 s) :
    KeepsR w0 (execLeay c i s) := by
  unfold execLeay
  repeat' (first
    | with_reducible (first
        | assumption | exact Keeps.refl _ | apply KeepsR.next | exact KeepsR.fault | exact KeepsR.refused | apply leaIns_keeps)
    | dsimp only | split
    | with_reducible (first | intro _ | refine Keeps.upd ?_ rfl rfl rfl rfl rfl rfl rfl rfl rfl))

theorem execMul_keeps {w0 : State} (c : CoreId) (i : Ins) (s : State) (hK : Keeps w0 s) :
    KeepsR w0 (execMul c i s) := by
  unfold execMul
  repeat' (first
    | with_reducible (first
        | assumption | exact Keeps.refl _ | apply KeepsR.next | exact KeepsR.fault | exact KeepsR.refused
        | apply operandIns_keeps)
    | dsimp only | split
    | with_reducible (first | intro _ | refine Keeps.upd ?_ rfl rfl rfl rfl rfl rfl rfl rfl rfl))

theorem execMuls_keeps {w0 : State} (c : CoreId) (i : Ins) (s : State) (hK : Keeps w0 s) :
    KeepsR w0 (execMuls c i s) := by
  unfold execMuls
  repeat' (first
    | with_reducible (first
        | assumption | exact Keeps.refl _ | apply KeepsR.next | exact KeepsR.fault | exact KeepsR.refused
        | apply operandIns_keeps)
    | dsimp only | split
    | with_reducible (first | intro _ | refine Keeps.upd ?_ rfl rfl rfl rfl rfl rfl rfl rfl rfl))

theorem execClrm_keeps {w0 : State} (c : CoreId) (i : Ins) (s : State) (hK : Keeps w0 s) :
    KeepsR w0 (execClrm c i s) := by
  unfold execClrm
  repeat' (first
    | with_reducible (first
        | assumption | exact Keeps.refl _ | apply KeepsR.next | exact KeepsR.fault | exact KeepsR.refused
        | apply plainIns_keeps)
    | dsimp only | split
    | with_reducible (first | intro _ | refine Keeps.upd ?_ rfl rfl rfl rfl rfl rfl rfl rfl rfl))

theorem macIns_keeps {w0 : State} (c : CoreId) (i : Ins) (stores : Bool) (f : Core → Nat → Nat → Core × W64) (s : State) (hK : Keeps w0 s) :
    KeepsR w0 (macIns c i stores f s) := by
  unfold macIns
  repeat' (first
    | with_reducible (first
        | assumption | exact Keeps.refl _ | apply KeepsA.ok | apply KeepsA.trap | apply KeepsA.stop | apply KeepsR.next
        | exact KeepsR.fault | exact KeepsR.refused | apply load_keeps | apply store_keeps | apply runIns_keeps
        | apply KeepsA.bind | refine KeepsA.of_ok ?_ (by assumption) | refine KeepsA.of_trap ?_ (by assumption)
        | refine KeepsA.of_stop ?_ (by assumption))
    | dsimp only | split
    | with_reducible (first | intro _ | refine Keeps.upd ?_ rfl rfl rfl rfl rfl rfl rfl rfl rfl))

theorem execMacd_keeps {w0 : State} (c : CoreId) (i : Ins) (s : State) (hK : Keeps w0 s) :
    KeepsR w0 (execMacd c i s) := by
  unfold execMacd
  repeat' (first
    | with_reducible (first
        | assumption | exact Keeps.refl _ | apply KeepsR.next | exact KeepsR.fault | exact KeepsR.refused | apply macIns_keeps)
    | dsimp only | split
    | with_reducible (first | intro _ | refine Keeps.upd ?_ rfl rfl rfl rfl rfl rfl rfl rfl rfl))

theorem execMacs_keeps {w0 : State} (c : CoreId) (i : Ins) (s : State) (hK : Keeps w0 s) :
    KeepsR w0 (execMacs c i s) := by
  unfold execMacs
  repeat' (first
    | with_reducible (first
        | assumption | exact Keeps.refl _ | apply KeepsR.next | exact KeepsR.fault | exact KeepsR.refused | apply macIns_keeps)
    | dsimp only | split
    | with_reducible (first | intro _ | refine Keeps.upd ?_ rfl rfl rfl rfl rfl rfl rfl rfl rfl))

theorem execMacc_keeps {w0 : State} (c : CoreId) (i : Ins) (s : State) (hK : Keeps w0 s) :
    KeepsR w0 (execMacc c i s) := by
  unfold execMacc
  repeat' (first
    | with_reducible (first
        | assumption | exact Keeps.refl _ | apply KeepsR.next | exact KeepsR.fault | exact KeepsR.refused | apply macIns_keeps)
    | dsimp only | split
    | with_reducible (first | intro _ | refine Keeps.upd ?_ rfl rfl rfl rfl rfl rfl rfl rfl rfl))

theorem divIns_keeps {w0 : State} (c : CoreId) (i : Ins) (signed : Bool) (s : State) (hK : Keeps w0 s) :
    KeepsR w0 (divIns c i signed s) := by
  unfold divIns
  repeat' (first
    | with_reducible (first
        | assumption | exact Keeps.refl _ | apply KeepsA.ok | apply KeepsA.trap | apply KeepsA.stop | apply KeepsR.next
        | exact KeepsR.fault | exact KeepsR.refused | apply opval_keeps | apply runIns_keeps | apply KeepsA.bind
        | refine KeepsA.of_ok ?_ (by assumption) | refine KeepsA.of_trap ?_ (by assumption)
        | refine KeepsA.of_stop ?_ (by assumption))
    | dsimp only | split
    | with_reducible (first | intro _ | refine Keeps.upd ?_ rfl rfl rfl rfl rfl rfl rfl rfl rfl))

theorem execDivu_keeps {w0 : State} (c : CoreId) (i : Ins) (s : State) (hK : Keeps w0 s) :
    KeepsR w0 (execDivu c i s) := by
  unfold execDivu
  repeat' (first
    | with_reducible (first
        | assumption | exact Keeps.refl _ | apply KeepsR.next | exact KeepsR.fault | exact KeepsR.refused | apply divIns_keeps)
    | dsimp only | split
    | with_reducible (first | refine Keeps.upd ?_ rfl rfl rfl rfl rfl rfl rfl rfl rfl))

theorem execDivs_keeps {w0 : State} (c : CoreId) (i : Ins) (s : State) (hK : Keeps w0 s) :
    KeepsR w0 (execDivs c i s) := by
  unfold execDivs
  repeat' (first
    | with_reducible (first
        | assumption | exact Keeps.refl _ | apply KeepsR.next | exact KeepsR.fault | exact KeepsR.refused | apply divIns_keeps)
    | dsimp only | split
    | with_reducible (first | refine Keeps.upd ?_ rfl rfl rfl rfl rfl rfl rfl rfl rfl))

theorem execShl_keeps {w0 : State} (c : CoreId) (i : Ins) (s : State) (hK : Keeps w0 s) :
    KeepsR w0 (execShl c i s) := by
  unfold execShl
  repeat' (first
    | with_reducible (first
        | assumption | exact Keeps.refl _ | apply KeepsR.next | exact KeepsR.fault | exact KeepsR.refused
        | apply operandIns_keeps)
    | dsimp only | split
    | with_reducible (first | intro _ | refine Keeps.upd ?_ rfl rfl rfl rfl rfl rfl rfl rfl rfl))

theorem execShr_keeps {w0 : State} (c : CoreId) (i : Ins) (s : State) (hK : Keeps w0 s) :
    KeepsR w0 (execShr c i s) := by
  unfold execShr
  repeat' (first
    | with_reducible (first
        | assumption | exact Keeps.refl _ | apply KeepsR.next | exact KeepsR.fault | exact KeepsR.refused
        | apply operandIns_keeps)
    | dsimp only | split
    | with_reducible (first | intro _ | refine Keeps.upd ?_ rfl rfl rfl rfl rfl rfl rfl rfl rfl))

theorem execSar_keeps {w0 : State} (c : CoreId) (i : Ins) (s : State) (hK : Keeps w0 s) :
    KeepsR w0 (execSar c i s) := by
  unfold execSar
  repeat' (first
    | with_reducible (first
        | assumption | exact Keeps.refl _ | apply KeepsR.next | exact KeepsR.fault | exact KeepsR.refused
        | apply operandIns_keeps)
    | dsimp only | split
    | with_reducible (first | intro _ | refine Keeps.upd ?_ rfl rfl rfl rfl rfl rfl rfl rfl rfl))

theorem execRol_keeps {w0 : State} (c : CoreId) (i : Ins) (s : State) (hK : Keeps w0 s) :
    KeepsR w0 (execRol c i s) := by
  unfold execRol
  repeat' (first
    | with_reducible (first
        | assumption | exact Keeps.refl _ | apply KeepsR.next | exact KeepsR.fault | exact KeepsR.refused
        | apply operandIns_keeps)
    | dsimp only | split
    | with_reducible (first | intro _ | refine Keeps.upd ?_ rfl rfl rfl rfl rfl rfl rfl rfl rfl))

theorem execRor_keeps {w0 : State} (c : CoreId) (i : Ins) (s : State) (hK : Keeps w0 s) :
    KeepsR w0 (execRor c i s) := by
  unfold execRor
  repeat' (first
    | with_reducible (first
        | assumption | exact Keeps.refl _ | apply KeepsR.next | exact KeepsR.fault | exact KeepsR.refused
        | apply operandIns_keeps)
    | dsimp only | split
    | with_reducible (first | intro _ | refine Keeps.upd ?_ rfl rfl rfl rfl rfl rfl rfl rfl rfl))

theorem execBset_keeps {w0 : State} (c : CoreId) (i : Ins) (s : State) (hK : Keeps w0 s) :
    KeepsR w0 (execBset c i s) := by
  unfold execBset
  repeat' (first
    | with_reducible (first
        | assumption | exact Keeps.refl _ | apply KeepsR.next | exact KeepsR.fault | exact KeepsR.refused
        | apply operandIns_keeps)
    | dsimp only | split
    | with_reducible (first | intro _ | refine Keeps.upd ?_ rfl rfl rfl rfl rfl rfl rfl rfl rfl))

theorem execBclr_keeps {w0 : State} (c : CoreId) (i : Ins) (s : State) (hK : Keeps w0 s) :
    KeepsR w0 (execBclr c i s) := by
  unfold execBclr
  repeat' (first
    | with_reducible (first
        | assumption | exact Keeps.refl _ | apply KeepsR.next | exact KeepsR.fault | exact KeepsR.refused
        | apply operandIns_keeps)
    | dsimp only | split
    | with_reducible (first | intro _ | refine Keeps.upd ?_ rfl rfl rfl rfl rfl rfl rfl rfl rfl))

theorem execBtst_keeps {w0 : State} (c : CoreId) (i : Ins) (s : State) (hK : Keeps w0 s) :
    KeepsR w0 (execBtst c i s) := by
  unfold execBtst
  repeat' (first
    | with_reducible (first
        | assumption | exact Keeps.refl _ | apply KeepsR.next | exact KeepsR.fault | exact KeepsR.refused
        | apply operandIns_keeps)
    | dsimp only | split
    | with_reducible (first | intro _ | refine Keeps.upd ?_ rfl rfl rfl rfl rfl rfl rfl rfl rfl))

theorem execClz_keeps {w0 : State} (c : CoreId) (i : Ins) (s : State) (hK : Keeps w0 s) :
    KeepsR w0 (execClz c i s) := by
  unfold execClz
  repeat' (first
    | with_reducible (first
        | assumption | exact Keeps.refl _ | apply KeepsR.next | exact KeepsR.fault | exact KeepsR.refused
        | apply plainIns_keeps)
    | dsimp only | split
    | with_reducible (first | intro _ | refine Keeps.upd ?_ rfl rfl rfl rfl rfl rfl rfl rfl rfl))

theorem execPopc_keeps {w0 : State} (c : CoreId) (i : Ins) (s : State) (hK : Keeps w0 s) :
    KeepsR w0 (execPopc c i s) := by
  unfold execPopc
  repeat' (first
    | with_reducible (first
        | assumption | exact Keeps.refl _ | apply KeepsR.next | exact KeepsR.fault | exact KeepsR.refused
        | apply plainIns_keeps)
    | dsimp only | split
    | with_reducible (first | intro _ | refine Keeps.upd ?_ rfl rfl rfl rfl rfl rfl rfl rfl rfl))

theorem execBswp_keeps {w0 : State} (c : CoreId) (i : Ins) (s : State) (hK : Keeps w0 s) :
    KeepsR w0 (execBswp c i s) := by
  unfold execBswp
  repeat' (first
    | with_reducible (first
        | assumption | exact Keeps.refl _ | apply KeepsR.next | exact KeepsR.fault | exact KeepsR.refused
        | apply plainIns_keeps)
    | dsimp only | split
    | with_reducible (first | intro _ | refine Keeps.upd ?_ rfl rfl rfl rfl rfl rfl rfl rfl rfl))

theorem execBcond_keeps {w0 : State} (c : CoreId) (i : InsB) (s : State) (hK : Keeps w0 s) :
    KeepsR w0 (execBcond c i s) := by
  unfold execBcond
  repeat' (first
    | with_reducible (first
        | assumption | exact Keeps.refl _ | apply KeepsA.ok | apply KeepsA.trap | apply KeepsA.stop | apply KeepsR.next
        | exact KeepsR.fault | exact KeepsR.refused | apply runIns_keeps | refine KeepsA.of_ok ?_ (by assumption)
        | refine KeepsA.of_trap ?_ (by assumption) | refine KeepsA.of_stop ?_ (by assumption))
    | dsimp only | split
    | with_reducible (first | intro _ | refine Keeps.upd ?_ rfl rfl rfl rfl rfl rfl rfl rfl rfl))

theorem execCall_keeps {w0 : State} (c : CoreId) (i : InsB) (s : State) (hK : Keeps w0 s) :
    KeepsR w0 (execCall c i s) := by
  unfold execCall
  repeat' (first
    | with_reducible (first
        | assumption | exact Keeps.refl _ | apply KeepsA.ok | apply KeepsA.trap | apply KeepsA.stop | apply KeepsR.next
        | exact KeepsR.fault | exact KeepsR.refused | apply runIns_keeps | apply pushWord_keeps | apply KeepsA.bind
        | refine KeepsA.of_ok ?_ (by assumption) | refine KeepsA.of_trap ?_ (by assumption)
        | refine KeepsA.of_stop ?_ (by assumption))
    | dsimp only | split
    | with_reducible (first | intro _ | refine Keeps.upd ?_ rfl rfl rfl rfl rfl rfl rfl rfl rfl))

theorem execRet_keeps {w0 : State} (c : CoreId) (i : Ins) (s : State) (hK : Keeps w0 s) :
    KeepsR w0 (execRet c i s) := by
  unfold execRet
  repeat' (first
    | with_reducible (first
        | assumption | exact Keeps.refl _ | apply KeepsA.ok | apply KeepsA.trap | apply KeepsA.stop | apply KeepsR.next
        | exact KeepsR.fault | exact KeepsR.refused | apply load_keeps | apply runIns_keeps | apply KeepsA.bind
        | refine KeepsA.of_ok ?_ (by assumption) | refine KeepsA.of_trap ?_ (by assumption)
        | refine KeepsA.of_stop ?_ (by assumption))
    | dsimp only | split
    | with_reducible (first | intro _ | refine Keeps.upd ?_ rfl rfl rfl rfl rfl rfl rfl rfl rfl))

theorem execJmp_keeps {w0 : State} (c : CoreId) (i : Ins) (s : State) (hK : Keeps w0 s) :
    KeepsR w0 (execJmp c i s) := by
  unfold execJmp
  repeat' (first
    | with_reducible (first
        | assumption | exact Keeps.refl _ | apply KeepsA.ok | apply KeepsA.trap | apply KeepsA.stop | apply KeepsR.next
        | exact KeepsR.fault | exact KeepsR.refused | apply opval_keeps | apply runIns_keeps | apply KeepsA.bind
        | refine KeepsA.of_ok ?_ (by assumption) | refine KeepsA.of_trap ?_ (by assumption)
        | refine KeepsA.of_stop ?_ (by assumption))
    | dsimp only | split
    | with_reducible (first | intro _ | refine Keeps.upd ?_ rfl rfl rfl rfl rfl rfl rfl rfl rfl))

theorem execCallr_keeps {w0 : State} (c : CoreId) (i : Ins) (s : State) (hK : Keeps w0 s) :
    KeepsR w0 (execCallr c i s) := by
  unfold execCallr
  repeat' (first
    | with_reducible (first
        | assumption | exact Keeps.refl _ | apply KeepsA.ok | apply KeepsA.trap | apply KeepsA.stop | apply KeepsR.next
        | exact KeepsR.fault | exact KeepsR.refused | apply opval_keeps | apply runIns_keeps | apply pushWord_keeps
        | apply KeepsA.bind | refine KeepsA.of_ok ?_ (by assumption) | refine KeepsA.of_trap ?_ (by assumption)
        | refine KeepsA.of_stop ?_ (by assumption))
    | dsimp only | split
    | with_reducible (first | intro _ | refine Keeps.upd ?_ rfl rfl rfl rfl rfl rfl rfl rfl rfl))

theorem execRte_keeps {w0 : State} (c : CoreId) (i : Ins) (s : State) (hK : Keeps w0 s) :
    KeepsR w0 (execRte c i s) := by
  unfold execRte
  repeat' (first
    | with_reducible (first
        | assumption | exact Keeps.refl _ | apply KeepsA.ok | apply KeepsA.trap | apply KeepsA.stop | apply KeepsR.next
        | exact KeepsR.fault | exact KeepsR.refused | apply runIns_keeps | refine KeepsA.of_ok ?_ (by assumption)
        | refine KeepsA.of_trap ?_ (by assumption) | refine KeepsA.of_stop ?_ (by assumption))
    | dsimp only | split
    | with_reducible (first | intro _ | refine Keeps.upd ?_ rfl rfl rfl rfl rfl rfl rfl rfl rfl))

theorem execLoop_keeps {w0 : State} (c : CoreId) (i : InsL) (s : State) (hK : Keeps w0 s) :
    KeepsR w0 (execLoop c i s) := by
  unfold execLoop
  repeat' (first
    | with_reducible (first
        | assumption | exact Keeps.refl _ | apply KeepsA.ok | apply KeepsA.trap | apply KeepsA.stop | apply KeepsR.next
        | exact KeepsR.fault | exact KeepsR.refused | apply runIns_keeps | refine KeepsA.of_ok ?_ (by assumption)
        | refine KeepsA.of_trap ?_ (by assumption) | refine KeepsA.of_stop ?_ (by assumption))
    | dsimp only | split
    | with_reducible (first | intro _ | refine Keeps.upd ?_ rfl rfl rfl rfl rfl rfl rfl rfl rfl))

theorem execLpop_keeps {w0 : State} (c : CoreId) (i : Ins) (s : State) (hK : Keeps w0 s) :
    KeepsR w0 (execLpop c i s) := by
  unfold execLpop
  repeat' (first
    | with_reducible (first
        | assumption | exact Keeps.refl _ | apply KeepsA.ok | apply KeepsA.trap | apply KeepsA.stop | apply KeepsR.next
        | exact KeepsR.fault | exact KeepsR.refused | apply runIns_keeps | refine KeepsA.of_ok ?_ (by assumption)
        | refine KeepsA.of_trap ?_ (by assumption) | refine KeepsA.of_stop ?_ (by assumption))
    | dsimp only | split
    | with_reducible (first | intro _ | refine Keeps.upd ?_ rfl rfl rfl rfl rfl rfl rfl rfl rfl))

theorem execRpt_keeps {w0 : State} (c : CoreId) (i : InsP) (s : State) (hK : Keeps w0 s) :
    KeepsR w0 (execRpt c i s) := by
  unfold execRpt
  repeat' (first
    | with_reducible (first
        | assumption | exact Keeps.refl _ | apply KeepsA.ok | apply KeepsA.trap | apply KeepsA.stop | apply KeepsR.next
        | exact KeepsR.fault | exact KeepsR.refused | apply runIns_keeps | refine KeepsA.of_ok ?_ (by assumption)
        | refine KeepsA.of_trap ?_ (by assumption) | refine KeepsA.of_stop ?_ (by assumption))
    | dsimp only | split
    | with_reducible (first | intro _ | refine Keeps.upd ?_ rfl rfl rfl rfl rfl rfl rfl rfl rfl))

theorem execWait_keeps {w0 : State} (c : CoreId) (i : Ins) (s : State) (hK : Keeps w0 s) :
    KeepsR w0 (execWait c i s) := by
  unfold execWait
  repeat' (first
    | with_reducible (first
        | assumption | exact Keeps.refl _ | apply KeepsA.ok | apply KeepsA.trap | apply KeepsA.stop | apply KeepsR.next
        | exact KeepsR.fault | exact KeepsR.refused | apply runIns_keeps | refine KeepsA.of_ok ?_ (by assumption)
        | refine KeepsA.of_trap ?_ (by assumption) | refine KeepsA.of_stop ?_ (by assumption))
    | dsimp only | split
    | with_reducible (first | intro _ | refine Keeps.upd ?_ rfl rfl rfl rfl rfl rfl rfl rfl rfl))

theorem execFence_keeps {w0 : State} (c : CoreId) (i : Ins) (s : State) (hK : Keeps w0 s) :
    KeepsR w0 (execFence c i s) := by
  unfold execFence
  repeat' (first
    | with_reducible (first
        | assumption | exact Keeps.refl _ | apply KeepsA.ok | apply KeepsA.trap | apply KeepsA.stop | apply KeepsR.next
        | exact KeepsR.fault | exact KeepsR.refused | apply runIns_keeps | refine KeepsA.of_ok ?_ (by assumption)
        | refine KeepsA.of_trap ?_ (by assumption) | refine KeepsA.of_stop ?_ (by assumption))
    | dsimp only | split
    | with_reducible (first | intro _ | refine Keeps.upd ?_ rfl rfl rfl rfl rfl rfl rfl rfl rfl))

theorem execEvack_keeps {w0 : State} (c : CoreId) (i : Ins) (s : State) (hK : Keeps w0 s) :
    KeepsR w0 (execEvack c i s) := by
  unfold execEvack
  repeat' (first
    | with_reducible (first
        | assumption | exact Keeps.refl _ | apply KeepsA.ok | apply KeepsA.trap | apply KeepsA.stop | apply KeepsR.next
        | exact KeepsR.fault | exact KeepsR.refused | apply runIns_keeps | refine KeepsA.of_ok ?_ (by assumption)
        | refine KeepsA.of_trap ?_ (by assumption) | refine KeepsA.of_stop ?_ (by assumption))
    | dsimp only | split
    | with_reducible (first | intro _ | refine Keeps.upd ?_ rfl rfl rfl rfl rfl rfl rfl rfl rfl))

theorem execStewardEvent_keeps {w0 : State} (k : Fin 16) (s : State) (hK : Keeps w0 s) :
    KeepsR w0 (execStewardEvent k s) := by
  unfold execStewardEvent
  repeat' (first
    | with_reducible (first
        | assumption | exact Keeps.refl _ | apply KeepsR.next | exact KeepsR.fault | exact KeepsR.refused
        | apply pumpEvents_keeps | apply inert_keeps)
    | dsimp only | split
    | with_reducible (first | refine Keeps.upd ?_ rfl rfl rfl rfl rfl rfl rfl rfl rfl))

theorem execYokeResetComplete_keeps {w0 : State} (y : YokeId) (s : State) (hK : Keeps w0 s) :
    KeepsR w0 (execYokeResetComplete y s) := by
  unfold execYokeResetComplete
  repeat' (first
    | with_reducible (first
        | assumption | exact Keeps.refl _ | apply KeepsR.next | exact KeepsR.fault | exact KeepsR.refused
        | apply modYoke_keeps | refine modYoke_keeps _ _ (fun _ k => k) ?_ | apply modYoke_keeps | exact wf_nil
        | apply wf_mwrite | apply wf_mzero)
    | dsimp only | split
    | with_reducible (first | intro _ | refine Keeps.upd ?_ rfl rfl rfl rfl rfl rfl rfl rfl rfl))

/-! `Machine.WalkToken` -/

theorem learned_keeps {w0 : State} (s : State) (l : Learn) (w : Learner) (st : BitVec 16) (hK : Keeps w0 s) :
    Keeps w0 (learned s l w st) := by
  unfold learned
  repeat' (first
    | with_reducible (first
        | assumption | exact Keeps.refl _ | apply derivedDone_keeps | apply noteLaneFault_keeps | apply importDone_keeps
        | apply admin_keeps | apply reloadDone_keeps | apply reload_keeps | apply pubkeyDone_keeps | apply ceremonyDone_keeps
        | apply engLearned_keeps | apply shareDone_keeps | refine KeepsP.of ?_ (by assumption) | apply KeepsP.fst)
    | dsimp only | split
    | with_reducible (first | apply KeepsP.mk | intro _ | refine Keeps.upd ?_ rfl rfl rfl rfl rfl rfl rfl rfl rfl))

theorem walked_keeps {w0 : State} (s : State) (l : Learn) (w : Learner) (hK : Keeps w0 s) :
    Keeps w0 (walked s l w) := by
  unfold walked
  repeat' (first
    | with_reducible (first
        | assumption | exact Keeps.refl _ | apply learnWalk_keeps | apply learnKeyWalk_keeps | apply learnFor_keeps
        | apply learned_keeps | refine KeepsP.of ?_ (by assumption) | apply KeepsP.fst)
    | dsimp only | split
    | with_reducible (first | apply KeepsP.mk | refine Keeps.upd ?_ rfl rfl rfl rfl rfl rfl rfl rfl rfl))

theorem execWalkTokenTaken_keeps {w0 : State} (s : State) (hK : Keeps w0 s) :
    KeepsR w0 (execWalkTokenTaken s) := by
  unfold execWalkTokenTaken
  repeat' (first
    | with_reducible (first
        | assumption | exact Keeps.refl _ | apply KeepsR.next | exact KeepsR.fault | exact KeepsR.refused | apply walked_keeps)
    | dsimp only | split
    | with_reducible (first | refine Keeps.upd ?_ rfl rfl rfl rfl rfl rfl rfl rfl rfl))

/-! `Machine.Windows` -/

theorem Res.state_keeps {w0 : State} (r : Res) (s : State) (hK : Keeps w0 s) (hr : KeepsR w0 r) : Keeps w0 (Res.state r s) := by
  unfold Res.state
  split
  · exact hr
  · exact hK
  · exact hK

theorem writeHop_keeps {w0 : State} (s : State) (r : HopRef) (reg : Nat) (v : W32) (hK : Keeps w0 s) :
    Keeps w0 (writeHop s r reg v) := by
  unfold writeHop
  repeat' (first
    | with_reducible (first
        | assumption | exact Keeps.refl _ | apply setHop_keeps | apply enableHop_keeps | apply disableHop_keeps)
    | dsimp only | split
    | with_reducible (first | refine Keeps.upd ?_ rfl rfl rfl rfl rfl rfl rfl rfl rfl))

theorem writeV_keeps {w0 : State} (s : State) (p : PlotId) (off : Nat) (v : W32) (hK : Keeps w0 s) :
    Keeps w0 (writeV s p off v) := by
  unfold writeV
  repeat' (first
    | with_reducible (first
        | assumption | exact Keeps.refl _ | apply KeepsR.next | exact KeepsR.fault | exact KeepsR.refused
        | apply setPlot_keeps | apply writeMsix_keeps | apply openRequest_keeps | apply execInValid_keeps
        | apply execOutAck_keeps | apply Res.state_keeps | apply writeHop_keeps | apply setPlot_keeps)
    | dsimp only | split
    | with_reducible (first | refine Keeps.upd ?_ rfl rfl rfl rfl rfl rfl rfl rfl rfl))

theorem writeD_keeps {w0 : State} (s : State) (off : Nat) (v : W32) (hK : Keeps w0 s) :
    Keeps w0 (writeD s off v) := by
  unfold writeD
  repeat' (first
    | with_reducible (first
        | assumption | exact Keeps.refl _ | apply admin_keeps | apply writeMsix_keeps | apply writeHop_keeps)
    | dsimp only | split
    | with_reducible (first | intro _ | refine Keeps.upd ?_ rfl rfl rfl rfl rfl rfl rfl rfl rfl))

theorem writeM_keeps {w0 : State} (s : State) (off : Nat) (v : W32) (hK : Keeps w0 s) : Keeps w0 (writeM s off v) := by
  unfold writeM
  refine Keeps.ite hK (Keeps.ite (Res.state_keeps _ _ hK (execPwrPolicyWrite_keeps _ _ hK)) (Keeps.ite (modPlot_keeps _ _ hK) ?_))
  repeat' (first
    | with_reducible apply Keeps.ite
    | with_reducible exact hK
    | exact Keeps.upd hK rfl rfl rfl rfl rfl rfl rfl rfl rfl)

theorem writeS_keeps {w0 : State} (s : State) (off : Nat) (v : W32) (hK : Keeps w0 s) :
    Keeps w0 (writeS s off v) := by
  unfold writeS
  repeat' (first
    | with_reducible (first
        | assumption | exact Keeps.refl _ | apply KeepsR.next | exact KeepsR.fault | exact KeepsR.refused
        | apply execHoldSet_keeps | apply execHoldRelease_keeps | apply execHdgRegionWrite_keeps | apply startRehash_keeps
        | apply Res.state_keeps)
    | dsimp only | split
    | with_reducible (first | refine Keeps.upd ?_ rfl rfl rfl rfl rfl rfl rfl rfl rfl))

theorem writeRngPort_keeps {w0 : State} (s : State) (off : Nat) (v : W32) (hK : Keeps w0 s) :
    Keeps w0 (writeRngPort s off v) := by
  unfold writeRngPort
  repeat' (first
    | with_reducible (first
        | assumption | exact Keeps.refl _ | apply KeepsR.next | exact KeepsR.fault | exact KeepsR.refused
        | apply execRngSctlPr_keeps | apply execRngSctlSel_keeps | apply Res.state_keeps)
    | dsimp only | split
    | with_reducible (first | refine Keeps.upd ?_ rfl rfl rfl rfl rfl rfl rfl rfl rfl))

theorem writeConfig_keeps {w0 : State} (s : State) (f : Fn) (off : Nat) (v : W32) (hK : Keeps w0 s) :
    Keeps w0 (writeConfig s f off v) := by
  unfold writeConfig
  repeat' (first
    | with_reducible (first
        | assumption | exact Keeps.refl _ | apply setFnCfg_keeps)
    | dsimp only | split
    | with_reducible (first | refine Keeps.upd ?_ rfl rfl rfl rfl rfl rfl rfl rfl rfl))

theorem write32_keeps {w0 : State} (w : Writer) (off : Nat) (v : W32) (s : State) (hK : Keeps w0 s) :
    Keeps w0 (write32 w off v s) := by
  unfold write32
  repeat' (first
    | with_reducible (first
        | assumption | exact Keeps.refl _ | apply writeV_keeps | apply writeD_keeps | apply writeM_keeps | apply writeS_keeps
        | apply writeRngPort_keeps | apply writeConfig_keeps)
    | dsimp only | split
    | with_reducible (first | refine Keeps.upd ?_ rfl rfl rfl rfl rfl rfl rfl rfl rfl))

theorem execRegisterWrite_keeps {w0 : State} (w : Writer) (offset size : Nat) (value : W64) (s : State) (hK : Keeps w0 s) :
    KeepsR w0 (execRegisterWrite w offset size value s) := by
  unfold execRegisterWrite
  repeat' (first
    | with_reducible (first
        | assumption | exact Keeps.refl _ | apply KeepsR.next | exact KeepsR.fault | exact KeepsR.refused | apply tailDb_keeps
        | apply headDb_keeps | apply write32_keeps)
    | dsimp only | split
    | with_reducible (first | refine Keeps.upd ?_ rfl rfl rfl rfl rfl rfl rfl rfl rfl))

end Sys2Proof.Machine
end

