-- ==== Sys2Proof/Laws/KeepsExec.lean ====
section
/-! SUPPORT. What every command keeps: the one lemma over `exec`, a case for each command. -/

namespace Sys2Proof.Machine

/-- Whatever command runs, the queue is left alone, canonical memories stay canonical, fuses stay blown and the clock, the
free numbers and the output only go on. -/
theorem exec_keeps (c : Instr) (s : State) : KeepsR s (exec c s) := by
  have k := Keeps.refl s
  cases c
  · rw [exec_hopTailDb]; exact execHopTailDb_keeps _ _ _ _ k
  · rw [exec_hopHeadDb]; exact execHopHeadDb_keeps _ _ _ _ k
  · rw [exec_hopperEnable]; exact execHopperEnable_keeps _ _ _ k
  · rw [exec_hopperDisable]; exact execHopperDisable_keeps _ _ _ k
  · rw [exec_registerWrite]; exact execRegisterWrite_keeps _ _ _ _ _ k
  · rw [exec_dispatch]; exact execDispatch_keeps _ k
  · rw [exec_descriptorArrival]; exact execDescriptorArrival_keeps _ _ _ k
  · rw [exec_stagingReadComplete]; exact execStagingReadComplete_keeps _ _ _ k
  · rw [exec_deadlineExpired]; exact execDeadlineExpired_keeps _ _ k
  · rw [exec_tMarginReached]; exact execTMarginReached_keeps _ _ k
  · rw [exec_coalescingTimer]; exact execCoalescingTimer_keeps _ _ k
  · rw [exec_msixUnmask]; exact execMsixUnmask_keeps _ _ _ k
  · rw [exec_ideIntegrityFailure]; exact execIdeIntegrityFailure_keeps _ _ k
  · rw [exec_ideKmQuery]; exact execIdeKmQuery_keeps _ _ k
  · rw [exec_ideKmKeyProg]; exact execIdeKmKeyProg_keeps _ _ _ _ _ k
  · rw [exec_ideKmKSetGo]; exact execIdeKmKSetGo_keeps _ _ _ k
  · rw [exec_ideKmKSetStop]; exact execIdeKmKSetStop_keeps _ _ _ k
  · rw [exec_spdmGetCertificate]; exact execSpdmGetCertificate_keeps _ _ k
  · rw [exec_spdmChallenge]; exact execSpdmChallenge_keeps _ _ k
  · rw [exec_spdmGetMeasurements]; exact execSpdmGetMeasurements_keeps _ _ _ k
  · rw [exec_spdmKeyExchange]; exact execSpdmKeyExchange_keeps _ _ k
  · rw [exec_vfFlr]; exact execVfFlr_keeps _ _ k
  · rw [exec_vfEnableClear]; exact execVfEnableClear_keeps _ k
  · rw [exec_pf0Flr]; exact execPf0Flr_keeps _ k
  · rw [exec_perstN]; exact execPerstN_keeps _ k
  · rw [exec_plotCreate]; exact execPlotCreate_keeps _ k
  · rw [exec_plotOpen]; exact execPlotOpen_keeps _ k
  · rw [exec_plotStop]; exact execPlotStop_keeps _ k
  · rw [exec_plotStart]; exact execPlotStart_keeps _ k
  · rw [exec_plotResize]; exact execPlotResize_keeps _ k
  · rw [exec_plotReset]; exact execPlotReset_keeps _ k
  · rw [exec_resetSequenceComplete]; exact execResetSequenceComplete_keeps _ _ k
  · rw [exec_plotRemove]; exact execPlotRemove_keeps _ k
  · rw [exec_removalSequenceComplete]; exact execRemovalSequenceComplete_keeps _ _ k
  · rw [exec_plotPolicyStage]; exact execPlotPolicyStage_keeps _ _ k
  · rw [exec_plotPolicyCommit]; exact execPlotPolicyCommit_keeps _ k
  · rw [exec_plotQuery]; exact execPlotQuery_keeps _ k
  · rw [exec_drawerSend]; exact execDrawerSend_keeps _ k
  · rw [exec_drawerRecv]; exact execDrawerRecv_keeps _ k
  · rw [exec_pltVopenGo]; exact execPltVopenGo_keeps _ _ _ k
  · rw [exec_inValid]; exact execInValid_keeps _ _ k
  · rw [exec_outAck]; exact execOutAck_keeps _ _ k
  · rw [exec_plotTick]; exact execPlotTick_keeps _ _ k
  · rw [exec_add]; exact execAdd_keeps _ _ _ k
  · rw [exec_adc]; exact execAdc_keeps _ _ _ k
  · rw [exec_sub]; exact execSub_keeps _ _ _ k
  · rw [exec_sbc]; exact execSbc_keeps _ _ _ k
  · rw [exec_cmp]; exact execCmp_keeps _ _ _ k
  · rw [exec_and]; exact execAnd_keeps _ _ _ k
  · rw [exec_or]; exact execOr_keeps _ _ _ k
  · rw [exec_xor]; exact execXor_keeps _ _ _ k
  · rw [exec_tst]; exact execTst_keeps _ _ _ k
  · rw [exec_neg]; exact execNeg_keeps _ _ _ k
  · rw [exec_not]; exact execNot_keeps _ _ _ k
  · rw [exec_lda]; exact execLda_keeps _ _ _ k
  · rw [exec_ldx]; exact execLdx_keeps _ _ _ k
  · rw [exec_ldy]; exact execLdy_keeps _ _ _ k
  · rw [exec_ldsp]; exact execLdsp_keeps _ _ _ k
  · rw [exec_sta]; exact execSta_keeps _ _ _ k
  · rw [exec_stx]; exact execStx_keeps _ _ _ k
  · rw [exec_sty]; exact execSty_keeps _ _ _ k
  · rw [exec_push]; exact execPush_keeps _ _ _ k
  · rw [exec_pop]; exact execPop_keeps _ _ _ k
  · rw [exec_leax]; exact execLeax_keeps _ _ _ k
  · rw [exec_leay]; exact execLeay_keeps _ _ _ k
  · rw [exec_mul]; exact execMul_keeps _ _ _ k
  · rw [exec_muls]; exact execMuls_keeps _ _ _ k
  · rw [exec_clrm]; exact execClrm_keeps _ _ _ k
  · rw [exec_macd]; exact execMacd_keeps _ _ _ k
  · rw [exec_macs]; exact execMacs_keeps _ _ _ k
  · rw [exec_macc]; exact execMacc_keeps _ _ _ k
  · rw [exec_divu]; exact execDivu_keeps _ _ _ k
  · rw [exec_divs]; exact execDivs_keeps _ _ _ k
  · rw [exec_shl]; exact execShl_keeps _ _ _ k
  · rw [exec_shr]; exact execShr_keeps _ _ _ k
  · rw [exec_sar]; exact execSar_keeps _ _ _ k
  · rw [exec_rol]; exact execRol_keeps _ _ _ k
  · rw [exec_ror]; exact execRor_keeps _ _ _ k
  · rw [exec_bset]; exact execBset_keeps _ _ _ k
  · rw [exec_bclr]; exact execBclr_keeps _ _ _ k
  · rw [exec_btst]; exact execBtst_keeps _ _ _ k
  · rw [exec_clz]; exact execClz_keeps _ _ _ k
  · rw [exec_popc]; exact execPopc_keeps _ _ _ k
  · rw [exec_bswp]; exact execBswp_keeps _ _ _ k
  · rw [exec_bcond]; exact execBcond_keeps _ _ _ k
  · rw [exec_call]; exact execCall_keeps _ _ _ k
  · rw [exec_ret]; exact execRet_keeps _ _ _ k
  · rw [exec_jmp]; exact execJmp_keeps _ _ _ k
  · rw [exec_callr]; exact execCallr_keeps _ _ _ k
  · rw [exec_rte]; exact execRte_keeps _ _ _ k
  · rw [exec_loop]; exact execLoop_keeps _ _ _ k
  · rw [exec_lpop]; exact execLpop_keeps _ _ _ k
  · rw [exec_rpt]; exact execRpt_keeps _ _ _ k
  · rw [exec_kfnd]; exact execKfnd_keeps _ _ _ k
  · rw [exec_vaultReloadComplete]; exact execVaultReloadComplete_keeps _ _ _ k
  · rw [exec_ljob]; exact execLjob_keeps _ _ _ k
  · rw [exec_pjob]; exact execPjob_keeps _ _ _ k
  · rw [exec_wjob]; exact execWjob_keeps _ _ _ k
  · rw [exec_rand]; exact execRand_keeps _ _ _ k
  · rw [exec_rply]; exact execRply_keeps _ _ _ k
  · rw [exec_xfer]; exact execXfer_keeps _ _ _ k
  · rw [exec_xferReadComplete]; exact execXferReadComplete_keeps _ _ _ k
  · rw [exec_done]; exact execDone_keeps _ _ _ k
  · rw [exec_fail]; exact execFail_keeps _ _ _ k
  · rw [exec_wait]; exact execWait_keeps _ _ _ k
  · rw [exec_fence]; exact execFence_keeps _ _ _ k
  · rw [exec_evack]; exact execEvack_keeps _ _ _ k
  · rw [exec_stewardEvent]; exact execStewardEvent_keeps _ _ k
  · rw [exec_stewardWatchdog]; exact execStewardWatchdog_keeps _ k
  · rw [exec_yokeResetComplete]; exact execYokeResetComplete_keeps _ _ k
  · rw [exec_progSignerAdd]; exact execProgSignerAdd_keeps _ _ k
  · rw [exec_progSignerRemove]; exact execProgSignerRemove_keeps _ k
  · rw [exec_progInstall]; exact execProgInstall_keeps _ _ k
  · rw [exec_progRemove]; exact execProgRemove_keeps _ k
  · rw [exec_progList]; exact execProgList_keeps _ k
  · rw [exec_pinXlate]; exact execPinXlate_keeps _ _ _ _ k
  · rw [exec_pinOpen]; exact execPinOpen_keeps _ _ _ _ k
  · rw [exec_pinReseal]; exact execPinReseal_keeps _ _ _ _ k
  · rw [exec_pinVer3624]; exact execPinVer3624_keeps _ _ _ _ k
  · rw [exec_pinVerPvv]; exact execPinVerPvv_keeps _ _ _ _ k
  · rw [exec_cvv]; exact execCvv_keeps _ _ _ _ k
  · rw [exec_arqcArpc]; exact execArqcArpc_keeps _ _ _ _ k
  · rw [exec_dukptDerive]; exact execDukptDerive_keeps _ _ _ _ k
  · rw [exec_kbUnwrap]; exact execKbUnwrap_keeps _ _ _ _ k
  · rw [exec_kbWrap]; exact execKbWrap_keeps _ _ _ _ k
  · rw [exec_cmac]; exact execCmac_keeps _ _ _ _ k
  · rw [exec_mac9797]; exact execMac9797_keeps _ _ _ _ k
  · rw [exec_hmac]; exact execHmac_keeps _ _ _ _ k
  · rw [exec_gcmDec]; exact execGcmDec_keeps _ _ _ _ k
  · rw [exec_ff1]; exact execFf1_keeps _ _ _ _ k
  · rw [exec_cipher]; exact execCipher_keeps _ _ _ _ k
  · rw [exec_hash]; exact execHash_keeps _ _ _ _ k
  · rw [exec_rsaSign]; exact execRsaSign_keeps _ _ _ _ k
  · rw [exec_rsaVerify]; exact execRsaVerify_keeps _ _ _ _ k
  · rw [exec_rsaDecrypt]; exact execRsaDecrypt_keeps _ _ _ _ k
  · rw [exec_ecdsaSign]; exact execEcdsaSign_keeps _ _ _ _ k
  · rw [exec_ecdsaVerify]; exact execEcdsaVerify_keeps _ _ _ _ k
  · rw [exec_ecdh]; exact execEcdh_keeps _ _ _ _ k
  · rw [exec_ecKeyPairGeneration]; exact execEcKeyPairGeneration_keeps _ _ _ _ k
  · rw [exec_eddsaSign]; exact execEddsaSign_keeps _ _ _ _ k
  · rw [exec_eddsaVerify]; exact execEddsaVerify_keeps _ _ _ _ k
  · rw [exec_x25519X448]; exact execX25519X448_keeps _ _ _ _ k
  · rw [exec_mlkemEncapsulate]; exact execMlkemEncapsulate_keeps _ _ _ _ k
  · rw [exec_mlkemDecapsulate]; exact execMlkemDecapsulate_keeps _ _ _ _ k
  · rw [exec_mldsaSign]; exact execMldsaSign_keeps _ _ _ _ k
  · rw [exec_mldsaVerify]; exact execMldsaVerify_keeps _ _ _ _ k
  · rw [exec_attach]; exact execAttach_keeps _ _ _ k
  · rw [exec_validationWindowEnd]; exact execValidationWindowEnd_keeps _ _ _ k
  · rw [exec_engineSquashComplete]; exact execEngineSquashComplete_keeps _ _ _ k
  · rw [exec_engineDetachComplete]; exact execEngineDetachComplete_keeps _ _ k
  · rw [exec_zero]; exact execZero_keeps _ _ k
  · rw [exec_copy]; exact execCopy_keeps _ _ k
  · rw [exec_mprep]; exact execMprep_keeps _ _ k
  · rw [exec_mmul]; exact execMmul_keeps _ _ k
  · rw [exec_madd]; exact execMadd_keeps _ _ k
  · rw [exec_msub]; exact execMsub_keeps _ _ k
  · rw [exec_mac]; exact execMac_keeps _ _ k
  · rw [exec_ntt]; exact execNtt_keeps _ _ k
  · rw [exec_intt]; exact execIntt_keeps _ _ k
  · rw [exec_pwmul]; exact execPwmul_keeps _ _ k
  · rw [exec_padd]; exact execPadd_keeps _ _ k
  · rw [exec_pkeCurveLoad]; exact execPkeCurveLoad_keeps _ _ k
  · rw [exec_pkeCurveClear]; exact execPkeCurveClear_keeps _ k
  · rw [exec_pkePubkeyLoad]; exact execPkePubkeyLoad_keeps _ _ k
  · rw [exec_kitRehash]; exact execKitRehash_keeps _ k
  · rw [exec_rehashSweep]; exact execRehashSweep_keeps _ k
  · rw [exec_walkTokenTaken]; exact execWalkTokenTaken_keeps _ k
  · rw [exec_sweeperVisit]; exact execSweeperVisit_keeps _ _ k
  · rw [exec_vaultSave]; exact execVaultSave_keeps _ k
  · rw [exec_vaultLoad]; exact execVaultLoad_keeps _ _ k
  · rw [exec_healthTestFailure]; exact execHealthTestFailure_keeps _ _ _ k
  · rw [exec_sourceRetestStart]; exact execSourceRetestStart_keeps _ _ k
  · rw [exec_startupTestEnd]; exact execStartupTestEnd_keeps _ _ _ k
  · rw [exec_conditionerBlock]; exact execConditionerBlock_keeps _ k
  · rw [exec_maskKeyRefresh]; exact execMaskKeyRefresh_keeps _ _ k
  · rw [exec_rngSctlPr]; exact execRngSctlPr_keeps _ k
  · rw [exec_rngSctlSel]; exact execRngSctlSel_keeps _ _ k
  · rw [exec_rngDataRead]; exact execRngDataRead_keeps _ k
  · rw [exec_claimStartTimeout]; exact execClaimStartTimeout_keeps _ k
  · rw [exec_rngRawCapture]; exact execRngRawCapture_keeps _ k
  · rw [exec_rawCaptureEnd]; exact execRawCaptureEnd_keeps _ _ k
  · rw [exec_tamper]; exact execTamper_keeps _ _ _ k
  · rw [exec_logWindowClose]; exact execLogWindowClose_keeps _ k
  · rw [exec_keeperPowerOn]; exact execKeeperPowerOn_keeps _ k
  · rw [exec_keeperSourceSwitch]; exact execKeeperSourceSwitch_keeps _ _ k
  · rw [exec_batLow]; exact execBatLow_keeps _ k
  · rw [exec_batLowClear]; exact execBatLowClear_keeps _ k
  · rw [exec_operatingMinute]; exact execOperatingMinute_keeps _ k
  · rw [exec_kprVoltUpdate]; exact execKprVoltUpdate_keeps _ _ _ k
  · rw [exec_tmpLoopSet]; exact execTmpLoopSet_keeps _ k
  · rw [exec_tmpRearm]; exact execTmpRearm_keeps _ k
  · rw [exec_smbusDeviceId]; exact execSmbusDeviceId_keeps _ k
  · rw [exec_smbusKprStat]; exact execSmbusKprStat_keeps _ k
  · rw [exec_smbusTmpCause]; exact execSmbusTmpCause_keeps _ k
  · rw [exec_smbusTmpLive]; exact execSmbusTmpLive_keeps _ k
  · rw [exec_smbusKprOpmin]; exact execSmbusKprOpmin_keeps _ k
  · rw [exec_smbusKprPwrcyc]; exact execSmbusKprPwrcyc_keeps _ k
  · rw [exec_smbusKprStartfail]; exact execSmbusKprStartfail_keeps _ k
  · rw [exec_smbusKprVolt]; exact execSmbusKprVolt_keeps _ k
  · rw [exec_smbusTmpLoopCfg]; exact execSmbusTmpLoopCfg_keeps _ k
  · rw [exec_smbusKprStarts]; exact execSmbusKprStarts_keeps _ k
  · rw [exec_smbusTmpLog]; exact execSmbusTmpLog_keeps _ _ k
  · rw [exec_smbusWrite]; exact execSmbusWrite_keeps _ k
  · rw [exec_holdSet]; exact execHoldSet_keeps _ k
  · rw [exec_held]; exact execHeld_keeps _ k
  · rw [exec_holdRelease]; exact execHoldRelease_keeps _ k
  · rw [exec_holdLong]; exact execHoldLong_keeps _ k
  · rw [exec_hdgRegionWrite]; exact execHdgRegionWrite_keeps _ _ _ _ k
  · rw [exec_debugMemAccess]; exact execDebugMemAccess_keeps _ _ _ k
  · rw [exec_debugHalt]; exact execDebugHalt_keeps _ _ k
  · rw [exec_bypass]; exact execBypass_keeps _ k
  · rw [exec_idcode]; exact execIdcode_keeps _ k
  · rw [exec_sample]; exact execSample_keeps _ k
  · rw [exec_extest]; exact execExtest_keeps _ k
  · rw [exec_dbgChallenge]; exact execDbgChallenge_keeps _ _ k
  · rw [exec_dbgToken]; exact execDbgToken_keeps _ _ k
  · rw [exec_challengeExpiry]; exact execChallengeExpiry_keeps _ k
  · rw [exec_dbgConsent]; exact execDbgConsent_keeps _ k
  · rw [exec_custEnrol]; exact execCustEnrol_keeps _ k
  · rw [exec_custRevoke]; exact execCustRevoke_keeps _ k
  · rw [exec_custSetM]; exact execCustSetM_keeps _ k
  · rw [exec_custSessionOpen]; exact execCustSessionOpen_keeps _ k
  · rw [exec_custSessionEnd]; exact execCustSessionEnd_keeps _ k
  · rw [exec_keyCeremony]; exact execKeyCeremony_keeps _ k
  · rw [exec_custCancel]; exact execCustCancel_keeps _ k
  · rw [exec_pedEnrol]; exact execPedEnrol_keeps _ _ k
  · rw [exec_cardInsert]; exact execCardInsert_keeps _ _ _ k
  · rw [exec_cardWithdraw]; exact execCardWithdraw_keeps _ _ k
  · rw [exec_cardOvercurrent]; exact execCardOvercurrent_keeps _ _ k
  · rw [exec_cardResponse]; exact execCardResponse_keeps _ _ _ k
  · rw [exec_consoleFrame]; exact execConsoleFrame_keeps _ _ _ _ k
  · rw [exec_authStepTimeout]; exact execAuthStepTimeout_keeps _ k
  · rw [exec_assemblyTimeout]; exact execAssemblyTimeout_keeps _ k
  · rw [exec_sessionExpiry]; exact execSessionExpiry_keeps _ _ k
  · rw [exec_lcsAdvance]; exact execLcsAdvance_keeps _ k
  · rw [exec_lcsStatus]; exact execLcsStatus_keeps _ k
  · rw [exec_fwLoad]; exact execFwLoad_keeps _ _ k
  · rw [exec_fwActivate]; exact execFwActivate_keeps _ k
  · rw [exec_startCntReset]; exact execStartCntReset_keeps _ k
  · rw [exec_fallowRequest]; exact execFallowRequest_keeps _ k
  · rw [exec_modReconfig]; exact execModReconfig_keeps _ k
  · rw [exec_stopChangeRestartApply]; exact execStopChangeRestartApply_keeps _ k
  · rw [exec_moduleStart]; exact execModuleStart_keeps _ _ k
  · rw [exec_fullService]; exact execFullService_keeps _ _ k
  · rw [exec_mainPowerGood]; exact execMainPowerGood_keeps _ _ k
  · rw [exec_mainPowerLoss]; exact execMainPowerLoss_keeps _ k
  · rw [exec_mrstN]; exact execMrstN_keeps _ _ k
  · rw [exec_vioLoss]; exact execVioLoss_keeps _ k
  · rw [exec_vioReturn]; exact execVioReturn_keeps _ _ k
  · rw [exec_thermalShutdown]; exact execThermalShutdown_keeps _ k
  · rw [exec_holdupStoreCharged]; exact execHoldupStoreCharged_keeps _ k
  · rw [exec_pllLock]; exact execPllLock_keeps _ _ k
  · rw [exec_dozeEntry]; exact execDozeEntry_keeps _ k
  · rw [exec_pwrPolicyWrite]; exact execPwrPolicyWrite_keeps _ _ k
  · rw [exec_unitGate]; exact execUnitGate_keeps _ _ k
  · rw [exec_evrExport]; exact execEvrExport_keeps _ k
  · rw [exec_evrAck]; exact execEvrAck_keeps _ k
  · rw [exec_cluJoin]; exact execCluJoin_keeps _ _ k
  · rw [exec_cluMembers]; exact execCluMembers_keeps _ _ k
  · rw [exec_cluLeave]; exact execCluLeave_keeps _ k
  · rw [exec_cluPlotBind]; exact execCluPlotBind_keeps _ k
  · rw [exec_cluPair]; exact execCluPair_keeps _ k
  · rw [exec_pairCopyDone]; exact execPairCopyDone_keeps _ _ k
  · rw [exec_cluUnpair]; exact execCluUnpair_keeps _ k
  · rw [exec_cluSwap]; exact execCluSwap_keeps _ k
  · rw [exec_swapPlotsStopped]; exact execSwapPlotsStopped_keeps _ _ k
  · rw [exec_cluPromote]; exact execCluPromote_keeps _ k
  · rw [exec_portLinkChange]; exact execPortLinkChange_keeps _ _ _ k
  · rw [exec_foreignFrame]; exact execForeignFrame_keeps _ _ k
  · rw [exec_hello]; exact execHello_keeps _ _ _ _ _ k
  · rw [exec_kex]; exact execKex_keeps _ _ _ _ k
  · rw [exec_kexReply]; exact execKexReply_keeps _ _ _ _ _ k
  · rw [exec_finish]; exact execFinish_keeps _ _ _ k
  · rw [exec_rekey]; exact execRekey_keeps _ _ _ _ k
  · rw [exec_rekeyReply]; exact execRekeyReply_keeps _ _ _ _ _ k
  · rw [exec_rekeyThreshold]; exact execRekeyThreshold_keeps _ _ k
  · rw [exec_phaseOverlapEnd]; exact execPhaseOverlapEnd_keeps _ _ k
  · rw [exec_heartbeat]; exact execHeartbeat_keeps _ _ _ _ k
  · rw [exec_heartbeatSend]; exact execHeartbeatSend_keeps _ _ k
  · rw [exec_ack]; exact execAck_keeps _ _ _ k
  · rw [exec_resendTimer]; exact execResendTimer_keeps _ _ _ k
  · rw [exec_bind]; exact execBind_keeps _ _ _ k
  · rw [exec_shareLearn]; exact execShareLearn_keeps _ _ _ k
  · rw [exec_shareForget]; exact execShareForget_keeps _ _ _ _ _ _ k
  · rw [exec_syncReq]; exact execSyncReq_keeps _ _ _ k
  · rw [exec_claim]; exact execClaim_keeps _ _ _ _ k
  · rw [exec_claimReply]; exact execClaimReply_keeps _ _ _ _ _ k
  · rw [exec_rehome]; exact execRehome_keeps _ _ _ _ _ k
  · rw [exec_pairState]; exact execPairState_keeps _ _ _ k
  · rw [exec_pairStream]; exact execPairStream_keeps _ _ _ k
  · rw [exec_pairAdmin]; exact execPairAdmin_keeps _ _ _ k
  · rw [exec_pairAbort]; exact execPairAbort_keeps _ _ _ _ k
  · rw [exec_pairDigest]; exact execPairDigest_keeps _ _ _ _ _ k
  · rw [exec_pairAck]; exact execPairAck_keeps _ _ _ _ k
  · rw [exec_pairSwap]; exact execPairSwap_keeps _ _ k
  · rw [exec_packed]; exact execPacked_keeps _ _ _ k
  · rw [exec_batchClose]; exact execBatchClose_keeps _ k
  · rw [exec_standbyTakeover]; exact execStandbyTakeover_keeps _ k
  · rw [exec_activeUnpair]; exact execActiveUnpair_keeps _ k
  · rw [exec_keeperSupplyLoss]; exact execKeeperSupplyLoss_keeps _ k
  · rw [exec_tamperConditionClear]; exact execTamperConditionClear_keeps _ _ k
  · rw [exec_debugResume]; exact execDebugResume_keeps _ _ k
  · rw [exec_vfEnableSet]; exact execVfEnableSet_keeps _ _ k
  · rw [exec_msixMask]; exact execMsixMask_keeps _ _ _ k
  · rw [exec_perstNRelease]; exact execPerstNRelease_keeps _ k
  · rw [exec_ledActTimeout]; exact execLedActTimeout_keeps _ k
  · rw [exec_adminBoundExpired]; exact execAdminBoundExpired_keeps _ k

end Sys2Proof.Machine
end

