-- ==== Sys2Proof/Laws/Link.lean ====
section
/-! SUPPORT. What `receive` answers for a frame of a session: accepted, dropped and counted, or dropped silently (R532,
R534). -/

namespace Sys2Proof.Machine

/-- Counting FEC's codewords leaves the sessions alone. -/
@[simp] theorem fecNote_sess (s : State) (h : Hdr) (p : Nat) : (fecNote s h).sess p = s.sess p := by
  unfold fecNote; split <;> rfl

/-- Counting FEC's codewords leaves the membership alone. -/
@[simp] theorem fecNote_addressed (s : State) (h g : Hdr) : addressed (fecNote s h) g = addressed s g := by
  unfold fecNote; split <;> rfl

/-- An accepted frame's message has its effect on `frameTaken`. -/
theorem receive_in {s : State} {h : Hdr} (f : FrameIn s h) (run : State → Nat → State) :
    receive s h run = run (frameTaken s h h.ackReq) h.src.toNat := by
  obtain ⟨h1, h2, h3, h4, h5, h6⟩ := f
  unfold receive
  have c1 : ¬ (!addressed (fecNote s h) h || ((fecNote s h).sess h.src.toNat).hs != .up) = true := by
    rw [fecNote_addressed, fecNote_sess, h1, h2]; decide
  have c2 : ¬ (!h.tagOk || (h.kph != ((fecNote s h).sess h.src.toNat).kph && !((fecNote s h).sess h.src.toNat).overlap)) = true := by
    rw [fecNote_sess, h3]; rcases h4 with h4 | h4 <;> simp [h4]
  have c3 : ¬ (((fecNote s h).sess h.src.toNat).rxSeen.contains h.seq ||
      decide (h.seq.toNat + 1024 ≤ ((fecNote s h).sess h.src.toNat).rxHigh.toNat)) = true := by
    simp only [fecNote_sess, Bool.or_eq_true, decide_eq_true_eq, not_or]
    exact ⟨by simpa using h5, by omega⟩
  exact (if_neg c1).trans ((if_neg c2).trans ((if_neg c3).trans rfl))

/-- A frame that is not for this node, not from a member or of no session that is up changes nothing but FEC's counts. -/
theorem receive_out {s : State} {h : Hdr} (n : addressed s h = false ∨ (s.sess h.src.toNat).hs ≠ .up)
    (run : State → Nat → State) : receive s h run = fecNote s h := by
  unfold receive
  refine if_pos ?_
  rw [fecNote_addressed, fecNote_sess]
  rcases n with n | n
  · rw [n]; rfl
  · have : ((s.sess h.src.toNat).hs != .up) = true := bne_iff_ne.2 n
    rw [this]; simp

/-- A frame whose tag fails, or whose key phase is not accepted, is dropped and counted. -/
theorem receive_badTag {s : State} {h : Hdr} (a : addressed s h = true) (u : (s.sess h.src.toNat).hs = .up)
    (t : h.tagOk = false ∨ (h.kph ≠ (s.sess h.src.toNat).kph ∧ (s.sess h.src.toNat).overlap = false)) (run : State → Nat → State) :
    receive s h run = { fecNote s h with clu := { (fecNote s h).clu with authFail := bump (fecNote s h).clu.authFail } } := by
  unfold receive
  refine (if_neg (by rw [fecNote_addressed, fecNote_sess, a, u]; decide)).trans (if_pos ?_)
  rw [fecNote_sess]
  rcases t with t | ⟨t, o⟩
  · rw [t]; rfl
  · rw [o, bne_iff_ne.2 t]; simp

/-- A frame whose SEQ has been seen, or is 1,024 or more below the highest, is dropped silently. -/
theorem receive_seen {s : State} {h : Hdr} (a : addressed s h = true) (u : (s.sess h.src.toNat).hs = .up)
    (t : h.tagOk = true) (k : h.kph = (s.sess h.src.toNat).kph ∨ (s.sess h.src.toNat).overlap = true)
    (m : h.seq ∈ (s.sess h.src.toNat).rxSeen ∨ h.seq.toNat + 1024 ≤ (s.sess h.src.toNat).rxHigh.toNat)
    (run : State → Nat → State) : receive s h run = fecNote s h := by
  unfold receive
  refine (if_neg (by rw [fecNote_addressed, fecNote_sess, a, u]; decide)).trans
    ((if_neg ?_).trans (if_pos ?_))
  · rw [fecNote_sess, t]; rcases k with k | k <;> simp [k]
  · rw [Bool.or_eq_true, fecNote_sess]
    rcases m with m | m
    · exact Or.inl (by simpa using m)
    · exact Or.inr (decide_eq_true m)

end Sys2Proof.Machine
end

