-- ==== Sys2Proof/Laws/Ops.lean ====
section
/-! SUPPORT. What each shared operation can change, said once: raising a vector and writing a record leave everything but the
link, the outputs and the recorder as it was; a plot's event changes besides that plot. -/

namespace Sys2Proof.Machine

/-- Raising a vector changes the link (what is held, pending bits) and the outputs, and nothing else. -/
theorem raiseVec_only (s : State) (f : Fn) (v : Nat) :
    ∃ l o, raiseVec s f v = { s with link := l, out := o } := by
  unfold raiseVec
  simp only []
  split
  · split <;> exact ⟨_, _, rfl⟩
  · split <;> exact ⟨_, _, rfl⟩

/-- A crossing of the recorder's thresholds changes the recorder, the link and the outputs, and nothing else. -/
theorem crossings_only (s : State) (e : Recorder) :
    ∃ e' l o, crossings s e = { s with evr := e', link := l, out := o } := by
  unfold crossings
  simp only []
  split
  · obtain ⟨l, o, h⟩ := raiseVec_only
      { s with evr := if 65 ≤ room s.evr ∧ room e < 65 then (e.flag 0).flag 1 else e.flag 0 } .pf0 2
    exact ⟨_, l, o, h⟩
  · exact ⟨_, _, _, rfl⟩

/-- Keeping a record changes the recorder, the link and the outputs, and nothing else. -/
theorem keepEvent_only (s : State) (e : Recorder) (r : EvRec) :
    ∃ e' l o, keepEvent s e r = { s with evr := e', link := l, out := o } := by
  unfold keepEvent
  split
  · exact ⟨_, _, _, rfl⟩
  · exact crossings_only s _

/-- Reserving a slot changes the recorder, the link and the outputs, and nothing else. -/
theorem reserve_only (s : State) : ∃ e l o, reserve s = { s with evr := e, link := l, out := o } := crossings_only s _

/-- Releasing a reservation changes the recorder, the link and the outputs, and nothing else. -/
theorem unreserve_only (s : State) : ∃ e l o, unreserve s = { s with evr := e, link := l, out := o } := crossings_only s _

/-- Writing a reserved record changes the recorder, the link and the outputs, and nothing else. -/
theorem writeReserved_only (s : State) (code : BitVec 16) (scope : Nat) (p : Bytes) :
    ∃ e l o, writeReserved s code scope p = { s with evr := e, link := l, out := o } := keepEvent_only s _ _

/-- Recording an event changes the recorder, the link and the outputs, and nothing else. -/
theorem event_only (s : State) (code : BitVec 16) (scope : Nat) (p : Bytes) (flags : Byte) :
    ∃ e l o, event s code scope p flags = { s with evr := e, link := l, out := o } := by
  unfold event
  simp only []
  split
  · exact ⟨_, _, _, rfl⟩
  · split
    · exact keepEvent_only s _ _
    · exact ⟨_, _, _, rfl⟩

@[simp] theorem raiseVec_plots (s : State) (f : Fn) (v : Nat) : (raiseVec s f v).plots = s.plots := by
  obtain ⟨l, o, h⟩ := raiseVec_only s f v; rw [h]
@[simp] theorem reserve_plots (s : State) : (reserve s).plots = s.plots := by
  obtain ⟨e, l, o, h⟩ := reserve_only s; rw [h]
@[simp] theorem writeReserved_plots (s : State) (code : BitVec 16) (scope : Nat) (p : Bytes) :
    (writeReserved s code scope p).plots = s.plots := by
  obtain ⟨e, l, o, h⟩ := writeReserved_only s code scope p; rw [h]
@[simp] theorem event_plots (s : State) (code : BitVec 16) (scope : Nat) (p : Bytes) (flags : Byte) :
    (event s code scope p flags).plots = s.plots := by
  obtain ⟨e, l, o, h⟩ := event_only s code scope p flags; rw [h]

/-- A plot read after a slot has been reserved. -/
@[simp] theorem reserve_plot (s : State) (p : Nat) : (reserve s).plot p = s.plot p := by
  unfold State.plot; rw [reserve_plots]

/-- A plot's event leaves every other plot as it was. -/
theorem plotEvent_plot_ne (s : State) {p q b : Nat} (n : q ≠ p) : (plotEvent s p b).plot q = s.plot q := by
  unfold plotEvent State.plot
  rw [raiseVec_plots]
  exact tget_tset_ne n s.plots

/-- A plot's event leaves the plot's state as it was. -/
theorem plotEvent_st (s : State) (p b : Nat) (h : twf Plot.zero s.plots = true) :
    ((plotEvent s p b).plot p).st = (s.plot p).st := by
  unfold plotEvent State.plot
  rw [raiseVec_plots]
  simp only [State.modPlot_plots]
  rw [tget_tset_same h]
  rfl

/-- A plot that enters a state is in it. -/
theorem enterState_st (s : State) (p : Nat) (st : PlotSt) (h : twf Plot.zero s.plots = true) :
    ((enterState s p st).plot p).st = st := by
  unfold enterState
  rw [plotEvent_st _ _ _ (by exact twf_tset h _ _), State.modPlot_plot_same _ h]

/-- A plot that enters a state leaves every other plot as it was. -/
theorem enterState_plot_ne (s : State) {p q : Nat} (st : PlotSt) (n : q ≠ p) : (enterState s p st).plot q = s.plot q := by
  unfold enterState
  rw [plotEvent_plot_ne _ n, State.modPlot_plot_ne _ n]

end Sys2Proof.Machine
end

