-- ==== Sys2Proof/Laws/Random.lean ====
section
/-! SUPPORT. What the conditioner and the drills can change, said once: the random unit, the plots' drills and the numbers of
the free values, and nothing else. -/

namespace Sys2Proof.Machine

/-- Counting an instantiation changes the random unit alone. -/
theorem countInst_only (s : State) (r : SeedReq) (d : Drill) : ∃ x, countInst s r d = { s with rng := x } := by
  unfold countInst
  split <;> exact ⟨_, rfl⟩

/-- A served request changes the random unit and the plots, and nothing else. -/
theorem seedDone_only (s : State) (r : SeedReq) (e : Bytes) : ∃ x p, seedDone s r e = { s with rng := x, plots := p } := by
  cases r with
  | priv k =>
    obtain ⟨x, h⟩ := countInst_only
      (s.modPriv k fun d => { seeded s (.priv k) d e with fresh := d.fresh || s.rng.prWait.getLsbD k }) (.priv k) (s.priv k)
    simp only [seedDone, h]
    exact ⟨_, _, rfl⟩
  | plot p =>
    obtain ⟨x, h⟩ := countInst_only (s.modDrill p fun d => seeded s (.plot p) d e) (.plot p) (s.plot p).drill
    simp only [seedDone, h]
    exact ⟨_, _, rfl⟩

/-- The conditioner changes the random unit and the plots, and nothing else. -/
theorem pumpN_only : ∀ (n : Nat) (s : State), ∃ x p, pumpN n s = { s with rng := x, plots := p }
  | 0, s => ⟨_, _, rfl⟩
  | n + 1, s => by
    unfold pumpN
    split
    · exact ⟨_, _, rfl⟩
    · split
      · rename_i h rest r _ _
        obtain ⟨x, p, e⟩ := seedDone_only { s with rng := { s.rng with halves := rest, reqs := s.rng.reqs.erase r } } r h
        obtain ⟨x', p', e'⟩ := pumpN_only n
          (seedDone { s with rng := { s.rng with halves := rest, reqs := s.rng.reqs.erase r } } r h)
        rw [e', e]
        exact ⟨_, _, rfl⟩
      · exact ⟨_, _, rfl⟩

/-- A queued request changes the random unit, the plots and the numbers of the free values, and nothing else. -/
theorem wantSeed_only (s : State) (r : SeedReq) : ∃ x p f, wantSeed s r = { s with rng := x, plots := p, free := f } := by
  have done : ∃ x p f, seedDone (drawn s 32) r (freeBytes s.free 32) = { s with rng := x, plots := p, free := f } := by
    obtain ⟨x, p, e⟩ := seedDone_only (drawn s 32) r (freeBytes s.free 32)
    rw [e]
    exact ⟨_, _, _, rfl⟩
  have queue : ∃ x p f, (if s.rng.reqs.contains r then pump s else pump { s with rng := { s.rng with reqs := s.rng.reqs ++ [r] } }) =
      { s with rng := x, plots := p, free := f } := by
    split
    · obtain ⟨x, p, e⟩ := pumpN_only 16 s
      exact ⟨x, p, s.free, e⟩
    · obtain ⟨x, p, e⟩ := pumpN_only 16 { s with rng := { s.rng with reqs := s.rng.reqs ++ [r] } }
      exact ⟨x, p, s.free, e⟩
  unfold wantSeed
  cases r with
  | priv k => simp only [Bool.and_false, Bool.false_eq_true, if_false]; exact queue
  | plot k =>
    simp only [Bool.and_true]
    by_cases h : (s.clu.role == 2 || s.clu.role == 3) = true
    · rw [if_pos h]; exact done
    · rw [if_neg h]; exact queue

/-- The check of a plot's drill changes no more. -/
theorem drillCheck_only (s : State) (p : Nat) : ∃ x l f, drillCheck s p = { s with rng := x, plots := l, free := f } := by
  have k : ∃ x l f, (if (s.plot p).drill.inst && decide ((reseedAt s p + 1) / 2 ≤ (s.plot p).drill.c) && !(s.plot p).drill.queued
      then wantSeed (s.modDrill p fun d => { d with queued := true }) (.plot p) else s) =
      { s with rng := x, plots := l, free := f } := by
    split
    · obtain ⟨x, l, f, e⟩ := wantSeed_only (s.modDrill p fun d => { d with queued := true }) (.plot p)
      rw [e]
      exact ⟨_, _, _, rfl⟩
    · exact ⟨_, _, _, rfl⟩
  unfold drillCheck
  obtain ⟨x, l, f, e⟩ := k
  simp only [e]
  split <;> exact ⟨_, _, _, rfl⟩

/-- A generate request of a plot's drill changes no more. -/
theorem plotGen_only {s g : State} {p : Nat} (h : plotGen s p = some g) :
    ∃ x l f, g = { s with rng := x, plots := l, free := f } := by
  unfold plotGen at h
  split at h
  · obtain ⟨x, l, f, e⟩ := drillCheck_only (s.modDrill p fun d => { d with c := d.c + 1 }) p
    cases h
    rw [e]
    exact ⟨_, _, _, rfl⟩
  · cases h

/-- A generate request of a privileged drill changes no more. -/
theorem privGen_only (s : State) (k : Nat) : ∃ x l f, privGen s k = { s with rng := x, plots := l, free := f } := by
  unfold privGen
  split
  · exact ⟨_, _, _, rfl⟩
  · dsimp only
    split
    · obtain ⟨x, l, f, e⟩ := wantSeed_only
        ((s.modPriv k fun d => { d with c := d.c + 1 }).modPriv k fun d => { d with queued := true }) (.priv k)
      rw [e]
      exact ⟨_, _, _, rfl⟩
    · exact ⟨_, _, _, rfl⟩

/-- A key-generation request changes no more. -/
theorem keyGen_only (s : State) (k : Nat) : ∃ x l f, (keyGen s k).1 = { s with rng := x, plots := l, free := f } := by
  have e : ∃ x l f, (if (s.priv k).fresh then s else
      wantSeed { s with rng := { s.rng with prWait := s.rng.prWait ||| BitVec.ofNat 4 (2 ^ k) } } (.priv k)) =
      { s with rng := x, plots := l, free := f } := by
    split
    · exact ⟨_, _, _, rfl⟩
    · obtain ⟨x, l, f, e⟩ := wantSeed_only
        { s with rng := { s.rng with prWait := s.rng.prWait ||| BitVec.ofNat 4 (2 ^ k) } } (.priv k)
      rw [e]
      exact ⟨_, _, _, rfl⟩
  unfold keyGen
  obtain ⟨x, l, f, e⟩ := e
  simp only [e]
  split <;> exact ⟨_, _, _, rfl⟩

end Sys2Proof.Machine
end

