-- ==== Sys2Proof/Machine/Regs.lean ====
section
/-! DEFINITION. What the registers of the three windows and of the steward's RNG port read (R567 to R574, Tables 16.1 to
16.3, R43, R45, R407). No command of the table is a read: these are the values a read returns, 32 bits at an aligned offset,
with reserved offsets 0 (R571), and `readReg`, a read of any size with the snapshots of R574 (log 22). -/

namespace Sys2Proof.Machine

/-- A word of a register. -/
def word (n : Nat) : W32 := BitVec.ofNat 32 n
/-- The half of a 64-bit register that an offset addresses. -/
def half (off : Nat) (v : Nat) : W32 := word (v / 2 ^ (if off % 8 = 4 then 32 else 0))
/-- The index of an offset in an array of words of `step` bytes, if it lies there. -/
def ixOf (off base step n : Nat) : Option Nat :=
  if base ≤ off ∧ off < base + step * n then some ((off - base) / step) else none

/-! ### Hoppers (R51, R570) -/

/-- A register of a hopper's block. -/
def readHop (s : State) (r : HopRef) (reg : Nat) : W32 :=
  let x := s.hop r
  if reg = 0x00 ∨ reg = 0x04 then half reg x.sqBase.toNat
  else if reg = 0x08 ∨ reg = 0x0C then half reg x.cqBase.toNat
  else if reg = 0x10 then
    word (x.vector.toNat * 2 ^ 16 + x.prio.toNat * 2 ^ 10 + x.log2.toNat * 2 ^ 4 + flag x.en 0)
  else if reg = 0x14 then word (x.coalTime.toNat * 2 ^ 16 + x.coalCount.toNat)
  else if reg = 0x18 then
    word (flag x.halted 17 + flag x.enabled 16 + flag x.headErr 3 + flag x.fetchErr 2 + flag x.cfgErr 1 + flag x.dbRefused 0)
  else if reg = 0x1C then word (x.tail * 2 ^ 16 + x.fetchHead)
  else if reg = 0x20 then word (depth s r)
  else if reg = 0x24 then word (flag x.phase 16 + x.cqTail)
  else if reg = 0x28 then x.dbrCnt
  else if reg = 0x2C then x.cfgErrCnt
  else if reg = 0x30 then x.fetchErrCnt
  else if reg = 0x34 then x.headErrCnt
  else 0

/-! ### Plots (R141, R567) -/

/-- The encoding of Table 3.1. -/
def stCode : PlotSt → Nat
  | .absent => 0
  | .created => 1
  | .opened => 2
  | .stopping => 3
  | .stopped => 4
  | .resetting => 5
  | .removing => 6

/-- PLT_VSTATE and PLT_STATE. -/
def pltState (s : State) (p : Nat) : Nat :=
  let x := s.plot p
  x.version.toNat * 2 ^ 16 + flag x.shadowValid 6 + flag (decide (effGuar s p < x.acr.guarYokes)) 5 + flag x.openPend 4 +
    flag x.armed 3 + stCode x.st

/-- PLT_VPAIR (R567). -/
def pltPair (s : State) (p : Nat) : Nat :=
  flag (s.clu.role == 1 && s.clu.suspect) 33 + flag (s.clu.role == 1) 32 + (s.plot p).covered.toNat

/-- The plot status registers of Window V, 0x2000 to 0x20FF (R141). -/
def readVstat (s : State) (p : PlotId) (off : Nat) : W32 :=
  let x := s.plot p
  if off = 0x2000 then word (pltState s p)
  else if off = 0x2004 then word (x.maxver.toNat * 2 ^ 16 + flag x.openPend 0)
  else if off = 0x2008 then word (x.acr.hoppers * 2 ^ 16 + p.val)
  else if off = 0x200C then x.vevent.setWidth 32
  else if off = 0x2010 ∨ off = 0x2014 then half off x.txcnt.toNat
  else if off = 0x2018 ∨ off = 0x201C then half off (pltPair s p)
  else match ixOf off 0x2040 4 6 with
    | some b => tget 0 x.veventCnt b
    | none => 0

/-- Window V of plot p (Table 16.2). Of an ABSENT plot only the plot status registers do not read 0 (R43). -/
def readV (s : State) (p : PlotId) (off : Nat) : W32 :=
  let x := s.plot p
  if 0x2000 ≤ off ∧ off < 0x2100 then readVstat s p off
  else if x.st = .absent then 0
  else match ixOf off 0x100 64 16 with
    | some h => if granted s (hopRef p h) then readHop s (hopRef p h) ((off - 0x100) % 64) else 0
    | none =>
      if 0x1000 ≤ off ∧ off < 0x1040 then word (leNat (mread x.drwIn (off - 0x1000) 4))
      else if 0x1040 ≤ off ∧ off < 0x1080 then word (fld x.drwOut (off - 0x1040) 4)
      else if off = 0x1084 then word (flag x.inRefused 3 + flag x.badVer 2 + flag x.outValid 1 + flag x.inBusy 0)
      else if off = 0x1088 then x.badVerCnt
      else if off = 0x108C then x.inRefCnt
      else if 0x3000 ≤ off ∧ off < 0x3110 then readMsix s (.vf p) ((off - 0x3000) / 16) (off % 16 / 4)
      else if off = 0x3800 then readPend s (.vf p)
      else 0

/-- Window D (R570). -/
def readD (s : State) (off : Nat) : W32 :=
  match ixOf off 0x100 64 1, ixOf off 0x800 64 1 with
  | some _, _ => readHop s .admin (off - 0x100)
  | none, some _ => readMsix s .pf0 ((off - 0x800) / 16) (off % 16 / 4)
  | none, none => if off = 0xC00 then readPend s .pf0 else 0

/-- The plot control block of Window M. -/
def readPlt (s : State) (p reg : Nat) : W32 :=
  let x := s.plot p
  if reg = 0x00 then word (pltState s p)
  else if reg = 0x04 then word (flag x.outAcked 2 + flag x.outValid 1 + flag x.inBusy 0)
  else if reg = 0x08 ∨ reg = 0x0C then half reg x.txcnt.toNat
  else if reg = 0x10 then word x.kitUse
  else if reg = 0x14 then word x.kcUse
  else if reg = 0x18 then word x.rplUse
  else if reg = 0x1C then word (vltMiB x)
  else if reg = 0x20 then word (effGuar s p * 2 ^ 16 + x.busy)
  else if reg = 0x24 then x.squashCnt
  else if reg = 0x28 then x.outAckCnt
  else 0

/-- PLT_DRW_PEND[i]. -/
def drwPend (s : State) (i : Nat) : W32 :=
  word ((List.range 32).foldl (fun n j => n + flag (s.plot (32 * i + j)).inBusy j) 0)

/-! ### The units of Window M -/

/-- PWR_STAT.STATE: 0 ACTIVE, 1 IDLE, 2 DOZE (Table 1.4, R609). -/
def pwrState (s : State) : Nat :=
  if s.pwr.doze then 2
  else if s.pwr.gatedY = BitVec.allOnes 64 ∧ s.pwr.gatedL = BitVec.allOnes 32 ∧ s.pwr.gatedE = BitVec.allOnes 32 ∧
      s.pwr.floor.toNat < 2 then 1 else 0

/-- The global and power registers. -/
def readGlb (s : State) (off : Nat) : W32 :=
  if off = 0 then 0x9600B102#32
  else if off = 8 ∨ off = 12 then half off Config.serial.toNat
  else if off = 0x10800 then
    (if s.lcs.phase = .off ∨ s.lcs.phase = .reset then 0 else word (s.pwr.pll.toNat * 2 ^ 8 + pwrState s))
  else if off = 0x10804 then word (s.pwr.dozeDelay.toNat * 2 ^ 16 + s.pwr.floor.toNat)
  else 0

/-- The key plane, replay table and vault (R313). -/
def readKey (s : State) (off : Nat) : W32 :=
  if off = 0x40004 then word (flag s.kp.run 18 + flag s.kp.req 17 + s.kp.sweep)
  else if off = 0x40008 then
    word (s.kp.ovf.length * 2 ^ 20 + tcount (fun _ e => e.valid) s.kp.kit + s.kp.ovf.length)
  else if off = 0x4000C then s.kp.fullCnt
  else if off = 0x40010 then s.kp.rehashCnt
  else if off = 0x40014 then s.kp.dskipCnt
  else if off = 0x40100 then word (tcount (fun _ x => x.used) s.kp.slots)
  else if off = 0x40104 then s.kp.tagCnt
  else if off = 0x40200 then word (s.rpl.ovf.length * 2 ^ 20 + tcount (fun _ e => e.valid) s.rpl.tbl + s.rpl.ovf.length)
  else if off = 0x40204 then s.rpl.fullCnt
  else if off = 0x40300 then word (tcount (fun _ r => r.used) s.vlt.recs)
  else if off = 0x40304 then s.vlt.fullCnt
  else match ixOf off 0x40180 4 8 with
    | some c => tget 0 s.kp.kbRej c
    | none => 0

/-- A context bound to a transaction: one that a ceremony holds is none (R354, R479). -/
def boundTx (c : LaneCtx) : Bool :=
  match c.bound with
  | .tx _ => true
  | _ => false

/-- The lanes (R354). -/
def readLan (s : State) (off : Nat) : W32 :=
  if off = 0x50000 then s.lan.live
  else if off = 0x50004 then s.lan.retired
  else if off = 0x50008 then s.lan.event.setWidth 32
  else if off = 0x50010 ∨ off = 0x50014 then tget 0 s.lan.eventCnt ((off - 0x50010) / 4)
  else if off = 0x50018 then
    word (tcount (fun _ c => boundTx c) s.lan.ctx * 2 ^ 16 + tcount (fun _ c => c.job.isSome) s.lan.ctx)
  else if off = 0x50180 ∨ off = 0x50184 then half off s.lan.last.toNat
  else match ixOf off 0x50100 4 32, ixOf off 0x50208 8 17 with
    | some l, _ => tget 0 s.lan.faultCnt l
    | none, some t => half off (tget 0 s.lan.jobCnt (t + 1)).toNat
    | none, none => 0

/-- PKE_CURVE_USE[p]: bit i for a loaded curve. -/
def curveUse (s : State) (p : Nat) : W32 := word ((s.plot p).curves.foldl (fun n x => n + 2 ^ x.1) 0)

/-- The engines (R392). -/
def readPke (s : State) (off : Nat) : W32 :=
  if off = 0x60000 then s.pke.live
  else if off = 0x60004 then s.pke.retired
  else if off = 0x60008 then s.pke.event.setWidth 32
  else if off = 0x60010 ∨ off = 0x60014 then tget 0 s.pke.eventCnt ((off - 0x60010) / 4)
  else if off = 0x60018 then
    word (tcount (fun _ m => m.tx.isSome) s.pke.mac * 2 ^ 16 + tcount (fun _ x => x.job.isSome) s.pke.slots)
  else if off = 0x60300 ∨ off = 0x60304 then half off s.pke.last.toNat
  else match ixOf off 0x60100 4 32, ixOf off 0x60180 4 32, ixOf off 0x60200 4 32, ixOf off 0x60280 4 32, ixOf off 0x61000 4 1024 with
    | some e, _, _, _, _ => tget 0x50 s.pke.cfg e
    | _, some e, _, _, _ => tget 0x50 s.pke.cfgNext e
    | _, _, some e, _, _ => tget 0 s.pke.rejCnt e
    | _, _, _, some e, _ => tget 0 s.pke.invCnt e
    | _, _, _, _, some p => curveUse s p
    | _, _, _, _, _ => 0

/-- RNG_PRIV_STAT: drills at their count and unseeded, and those that wait for a fresh reseed (R415). -/
def privStat (s : State) : Nat :=
  s.rng.prWait.toNat * 2 ^ 4 + ([0, 1, 2, 3].foldl (fun n k => n + flag (decide (4096 ≤ (s.priv k).c)) k) 0)

/-- RNG_PLOT_WAIT: plot drills stalled or not yet instantiated (R415). -/
def plotWait (s : State) : Nat :=
  (s.plots.filter fun x => x.2.st != .absent && (!x.2.drill.inst || x.2.drill.must || decide (polReseed x.2.active ≤ x.2.drill.c))).length

/-- The code of a source's state (R396). -/
def srcCode : SrcSt → Nat
  | .starting => 0
  | .live => 1
  | .excluded => 2
  | .dead => 3

/-- The RNG (R415). -/
def readRng (s : State) (off : Nat) : W32 :=
  if off = 0x70000 then word (condStat s)
  else if off = 0x70004 then s.rng.event.setWidth 32
  else if off = 0x70020 then word (privStat s)
  else if off = 0x70024 then s.rng.stallCnt
  else if off = 0x70028 then word (plotWait s)
  else match ixOf off 0x70010 4 4, ixOf off 0x70100 4 20, ixOf off 0x70180 4 20 with
    | some b, _, _ => tget 0 s.rng.eventCnt b
    | _, some i, _ =>
      let x := s.src i
      word (x.retests * 2 ^ 16 + x.lastTest.toNat * 2 ^ 8 + srcKind i * 2 ^ 4 + srcCode x.st)
    | _, _, some i => (s.src i).failCnt
    | _, _, _ => 0

/-- HDG_PERM: in OPERATIONAL, PERM[7] of a locked region reads 0 (R457). -/
def hdgPerm (s : State) (r : Nat) : Nat :=
  let v := tget 0 s.hdg.perm r
  if s.lcs.state = 3 ∧ hdgLock (tget 0 s.hdg.cfg r) then (v &&& ~~~(0xE00000#64)).toNat else v.toNat

/-- The hedgerow (12). -/
def readHdg (s : State) (off : Nat) : W32 :=
  if off < 0x81000 then
    let r := (off - 0x80000) / 16
    if off % 16 = 0 then tget 0 s.hdg.base r else if off % 16 = 4 then tget 0 s.hdg.cfg r else half off (hdgPerm s r)
  else if off = 0x81000 then word (flag s.hdg.hold 0)
  else if off = 0x81004 then word (flag s.hdg.cfgErr 3 + flag s.hdg.long 2 + flag s.hdg.fault 1 + flag s.hdg.held 0)
  else if off = 0x81008 ∨ off = 0x8100C then half off s.hdg.faultReg.toNat
  else match ixOf off 0x81024 4 3 with
    | some b => tget 0 s.hdg.eventCnt (b + 1)
    | none => 0

/-- The event recorder (R524). -/
def readEvr (s : State) (off : Nat) : W32 :=
  if off = 0x90000 then word (min ringSlots (room s.evr))
  else if off = 0x90004 then s.evr.seq
  else if off = 0x90008 then s.evr.acked
  else if off = 0x9000C then s.evr.read
  else if off = 0x90010 then s.evr.baseSeq
  else if 0x90020 ≤ off ∧ off < 0x90030 then
    (match s.evr.epoch with | some k => word (fld (freeBytes k 16) (off - 0x90020) 4) | none => 0)
  else if off = 0x90030 then s.evr.event.setWidth 32
  else if off = 0x90050 then s.evr.lostCnt
  else if off = 0x90054 then s.evr.dropCnt
  else match ixOf off 0x90040 4 4 with
    | some b => tget 0 s.evr.eventCnt b
    | none => 0

/-- CLU_PORT_STAT[k]: a port that links has trained and locked its FEC (R528). -/
def portStat (s : State) (k : Nat) : Nat :=
  sessCount s k * 2 ^ 16 + (if tget false s.clu.link k then 7 else 0)

/-- The cluster registers (R567). -/
def readClu (s : State) (off : Nat) : W32 :=
  let c := s.clu
  if off = 0xA0000 then word (c.members.length * 2 ^ 16 + flag c.joined 15 + c.ver.toNat * 2 ^ 13 + c.node)
  else if 0xA0010 ≤ off ∧ off < 0xA0020 then half off (tget portDefault c.portCfg ((off - 0xA0010) / 8)).toNat
  else if 0xA0020 ≤ off ∧ off < 0xA0030 then half off (tget portDefault c.portNext ((off - 0xA0020) / 8)).toNat
  else if off = 0xA0030 ∨ off = 0xA0034 then word (portStat s ((off - 0xA0030) / 4))
  else if off = 0xA0038 then c.event.setWidth 32
  else if off = 0xA0060 ∨ off = 0xA0064 then tget 0 c.rxDrop ((off - 0xA0060) / 4)
  else if off = 0xA0068 then c.authFail
  else if off = 0xA006C then c.hsFail
  else if off = 0xA0070 ∨ off = 0xA0074 then tget 0 c.fecCorr ((off - 0xA0070) / 4)
  else if off = 0xA0078 ∨ off = 0xA007C then tget 0 c.fecUnc ((off - 0xA0078) / 4)
  else if off = 0xA0080 then word (flag c.hold 0)
  else if off = 0xA0084 then
    word (c.peer * 2 ^ 16 + c.swapTest.toNat * 2 ^ 4 + flag c.syncing 3 + flag c.suspect 2 + c.role.toNat)
  else if off = 0xA0088 ∨ off = 0xA008C then half off c.swapBuf.toNat
  else match ixOf off 0xA0040 4 7 with
    | some b => tget 0 c.eventCnt b
    | none => 0

/-- The yokes (R190). -/
def readYok (s : State) (off : Nat) : W32 :=
  if off = 0xB0000 ∨ off = 0xB0004 then half off s.yreg.live.toNat
  else if off = 0xB0008 ∨ off = 0xB000C then half off s.yreg.retired.toNat
  else if off = 0xB0010 then s.yreg.event.setWidth 32
  else if off = 0xB0300 ∨ off = 0xB0304 then half off s.yreg.last.toNat
  else match ixOf off 0xB0020 4 3, ixOf off 0xB0100 4 64, ixOf off 0xB0200 4 64 with
    | some b, _, _ => tget 0 s.yreg.eventCnt b
    | _, some y, _ => (s.yoke y).faultCnt
    | _, _, some y => (s.yoke y).eccCnt
    | _, _, _ => 0

/-- The keeper's copy (R576, Table 16.3). -/
def readKpr (s : State) (off : Nat) : W32 :=
  let k := s.kpr
  if off = 0xC0000 then word (kprStat k)
  else if off = 0xC0004 then k.opmin
  else if off = 0xC0008 then k.pwrcyc
  else if off = 0xC000C then k.startfail.setWidth 32
  else if off = 0xC0010 then word (kprVolt k)
  else if off = 0xC0014 then k.starts
  else if off = 0xC0020 then k.cause.setWidth 32
  else if off = 0xC0024 then k.live.setWidth 32
  else if off = 0xC0028 then k.loopCfg.setWidth 32
  else if off = 0xC0030 then k.event.setWidth 32
  else match ixOf off 0xC0040 4 3, ixOf off 0xC0100 16 16 with
    | some b, _ => tget 0 k.eventCnt b
    | _, some i => word (fld (tget LogRec.zero k.log i).bytes (off % 16) 4)
    | _, _ => 0

/-- CUST_STAT (R481). -/
def custStat (s : State) : Nat :=
  let c := s.cust
  let op := match c.op with | .idle => 0 | .enrol => 1 | .assembly => 2 | .ceremony => 3
  c.last.toNat * 2 ^ 16 + flag (!(tget [] c.cards 1).isEmpty) 13 + flag (!(tget [] c.cards 0).isEmpty) 12 + c.need * 2 ^ 8 +
    c.counted.length * 2 ^ 4 + op

/-- CUST_SESS[k]: the seconds that are left, the scope, the role, the anchor's slot. -/
def custSess (s : State) (k : Nat) : Nat :=
  match s.session k with
  | none => 0
  | some x => min 900 ((x.ends - s.now + 999999) / 1000000) * 2 ^ 32 + x.scope * 2 ^ 16 + x.role * 2 ^ 8 + x.slot * 2 ^ 4 + 1

/-- Life cycle, debug and custodians (R469, R481, R510). -/
def readLcs (s : State) (off : Nat) : W32 :=
  if off = 0xD0000 then word (lcsStat s)
  else if off = 0xD0008 then word (lcsStart s)
  else if off = 0xD0010 then word (lcsLastFail s)
  else if 0xD0020 ≤ off ∧ off < 0xD0030 then half off (lcsFw (s.bank (decide (0xD0028 ≤ off))))
  else if off = 0xD0100 then
    word (flag s.dbg.consent.isSome 7 + flag s.dbg.zeroised 6 + flag s.dbg.granted 4 + s.dbg.rights.toNat)
  else if off = 0xD0104 then s.dbg.failCnt
  else if off = 0xD0200 then word (custStat s)
  else if off = 0xD0208 then s.cust.kcv.setWidth 32
  else if 0xD0210 ≤ off ∧ off < 0xD0220 then half off (custSess s ((off - 0xD0210) / 8))
  else 0

/-- Window M (Table 16.1). -/
def readM (s : State) (off : Nat) : W32 :=
  match off / 0x10000 with
  | 0 => readGlb s off
  | 1 => readGlb s off
  | 2 => readPlt s ((off - 0x20000) / 64) (off % 64)
  | 3 => if off < 0x30080 then drwPend s ((off - 0x30000) / 4)
         else if off = 0x30080 then s.adm.errDet.setWidth 32 else if off = 0x30084 then s.adm.errTag else 0
  | 4 => readKey s off
  | 5 => readLan s off
  | 6 => readPke s off
  | 7 => readRng s off
  | 8 => readHdg s off
  | 9 => readEvr s off
  | 10 => readClu s off
  | 11 => readYok s off
  | 12 => readKpr s off
  | 13 => readLcs s off
  | _ => 0

/-! ### The steward's RNG port, and reads with snapshots -/

/-- The steward's RNG port (R407): RNG_SCTL, RNG_STAT, what RNG_DATA last returned, RNG_UNDERRUN_CNT. -/
def readRngPort (s : State) (off : Nat) : W32 :=
  if off = 0 then s.stw.sel.setWidth 32
  else if off = 4 then word (flag s.stw.prPend 2 + flag s.stw.underrun 1 + flag (decide (8 ≤ s.stw.buf.length)) 0)
  else if off = 8 ∨ off = 12 then half off s.stw.rngOut.toNat
  else if off = 16 then s.stw.underrunCnt
  else 0

/-- A 32-bit aligned word of a reader's register space. -/
def readWord (s : State) (w : Writer) (off : Nat) : W32 :=
  match w with
  | .managerM => readM s off
  | .managerD => readD s off
  | .driver p => readV s p off
  | .rngPort => readRngPort s off
  | .steward | .config _ => 0

/-- The ranges of 64-bit registers of Window M (Table 16.1): the first offset, the distance of one to the next, how many. -/
def wideM : List (Nat × Nat × Nat) :=
  [(0x8, 8, 1), (0x20008, 64, 1024), (0x30080, 8, 1), (0x50180, 8, 1), (0x50208, 8, 17), (0x60300, 8, 1), (0x80008, 16, 256),
   (0x81008, 8, 1), (0xA0010, 8, 4), (0xA0088, 8, 1), (0xB0000, 8, 2), (0xB0300, 8, 1), (0xD0020, 8, 2), (0xD0210, 8, 2)]

/-- The ranges of 128-bit registers of Window M: EVR_EPOCH and TMP_LOG (Tables 16.1 and 16.3). -/
def wideM4 : List (Nat × Nat × Nat) := [(0x90020, 16, 1), (0xC0100, 16, 16)]

/-- The register of a range of registers of `bytes` bytes that an offset lies in. -/
def inRange (off bytes : Nat) (r : Nat × Nat × Nat) : Option Nat :=
  if r.1 ≤ off ∧ off < r.1 + r.2.1 * r.2.2 ∧ (off - r.1) % r.2.1 < bytes then some (off - (off - r.1) % r.2.1) else none

/-- The register wider than 32 bits that an offset lies in: its offset and how many words it has. -/
def wideAt (w : Writer) (off : Nat) : Option (Nat × Nat) :=
  let pair (l : List (Nat × Nat × Nat)) (n : Nat) : Option (Nat × Nat) :=
    (l.findSome? (inRange off (4 * n))).map fun b => (b, n)
  match w with
  | .managerM => (pair wideM 2).or (pair wideM4 4)
  | .managerD => pair [(0x100, 8, 2)] 2
  | .driver _ => pair [(0x2010, 8, 2), (0x100, 64, 16), (0x108, 64, 16)] 2
  | _ => none

/-- The function that reads, by its number in `State.snaps`, and the name of an offset among its windows. -/
def readerOf (w : Writer) (off : Nat) : Nat × Nat :=
  match w with
  | .driver p => (p.val + 1, off)
  | .managerD => (0, 0x10000000 + off)
  | _ => (0, off)

/-- A read of `n` bytes at an offset, within one register (R573). A read of the lowest word of a wide register takes a snapshot
of the whole register for the function, and later reads of its higher words return it, until the function reads the lowest
word of any wide register again (R574). -/
def readReg (s : State) (w : Writer) (off n : Nat) : State × Bytes :=
  match wideAt w off with
  | none => (s, cut (le 4 (readWord s w (off - off % 4)).toNat) (off % 4) n)
  | some (b, k) =>
    let f := (readerOf w b).1
    let key := (readerOf w b).2
    let now := (List.range k).map fun i => readWord s w (b + 4 * i)
    let out (l : List W32) : Bytes := cut (l.flatMap fun v => le 4 v.toNat) (off - b) n
    if off < b + 4 then ({ s with snaps := tset none f (some { off := key, words := now }) s.snaps }, out now)
    else match tget none s.snaps f with
      | some x => (s, out (if x.off = key then x.words else now))
      | none => (s, out now)

end Sys2Proof.Machine
end

