-- ==== Sys2Proof/Tests/Slice0.lean ====
section
/-! SUPPORT. Tests of the model: the ill-formed commands that `wellFormed` refuses, single commands with results taken from
the specification, and for each statement with hypotheses a concrete state that meets them. -/

namespace Sys2Proof.Tests

open Sys2Proof.Machine

/-! ### Small states -/

/-- A module in full service, in PRODUCTION, untampered, with its supplies and clocks. -/
def up : State := { State.reset with
  lcs := { State.reset.lcs with phase := .full, state := 3 }
  kpr := { State.reset.kpr with tampered := false, lcs := 3 }
  pwr := { State.reset.pwr with good := true, pll := BitVec.allOnes _ } }

/-- `up` with a transaction running on yoke 0: its core and its bench. -/
def onYoke (k : Core) (b : Mem) : State :=
  up.setYoke 0 { core := k, bench := b, tx := some { plot := 0, hop := 0, phase := .running, deadline := 100000 } }

/-- The page of the secure general memory, where the steward's program of these tests lies. -/
def memBase : W32 := BitVec.ofNat 32 (4096 * Config.memPage)

/-- A hedgerow table whose region 0 grants every class everything in the 4 GiB of the fabric. -/
def openHedge : Hedge := { cfg := [(0, 0x120)], perm := [(0, BitVec.allOnes 64)] }

/-- `up` with the steward's registers, its program in the general memory. -/
def onSteward (k : Core) : State :=
  { up with stw := { up.stw with core := { k with priv := true, pc := memBase } }, hdg := openHedge }

/-- Yoke 0's core. -/
def t0 : CoreId := .tiller 0

/-- An immediate operand of 64 bits. -/
def imm (v : BitVec 16) : Ins := { sz := 3, f16 := v }

/-- The bench of a yoke with an 8-byte word at 0x100 that reads 5. -/
def word5 : Mem := [(0x100, 5)]

/-! ### Witnesses: the instruction set -/

theorem witness_operand_immediate : ∃ t v n, ReadsOperand (onYoke { a := 7 } []) t t0 (imm 5) false allModes false true v n :=
  ⟨_, _, _, by unfold Comes; decide, by decide, rfl⟩
theorem witness_operand_signed :
    ∃ t v n, ReadsOperand (onYoke { a := 7 } []) t t0 { imm 5 with sub := 1 } true allModes false true v n :=
  ⟨_, _, _, by unfold Comes; decide, by decide, rfl⟩
theorem witness_operand_memory :
    ∃ t n, ReadsOperand (onYoke { x := 0x100 } word5) t t0 { mode := 4, sz := 3 } true allModes false false 5 n :=
  ⟨_, _, by unfold Comes; decide, by decide, rfl⟩
theorem witness_zero_divisor_traps : ∃ t n, ReadsOperand (onYoke { a := 7, dztrap := true } []) t t0 (imm 0) false allModes false true 0 n ∧
    (settled (regsOf (onYoke { a := 7, dztrap := true } []) t0) true).dztrap = true :=
  ⟨_, _, ⟨by unfold Comes; decide, by decide, rfl⟩, by decide⟩
theorem witness_zero_divisor_flag : ∃ t n, ReadsOperand (onYoke { a := 7 } []) t t0 (imm 0) false allModes false true 0 n ∧
    (settled (regsOf (onYoke { a := 7 } []) t0) true).dztrap = false :=
  ⟨_, _, ⟨by unfold Comes; decide, by decide, rfl⟩, by decide⟩
theorem witness_one_register : Accepted (onYoke { a := 7 } []) t0 .ok false 0 true true true true :=
  ⟨by unfold Comes; decide, by decide⟩
theorem witness_store_register :
    let s := onYoke { a := 7 } []
    let i : Ins := { mode := 7, sz := 3, f16 := 0x0004 }
    Accepted s t0 i.hw i.e 0 (i.sub == 0) (i.mode != 7 || !loopReg i.rn) (i.modeOk (regsOf s t0) storeModes false)
      (i.privOk (regsOf s t0)) ∧ i.mode = 7 :=
  ⟨⟨by unfold Comes; decide, by decide⟩, by decide⟩
theorem witness_store_memory :
    let s := onYoke { a := 7, x := 0x100 } []
    let i : Ins := { mode := 4, sz := 3 }
    ∃ t, Accepted s t0 i.hw i.e 0 (i.sub == 0) (i.mode != 7 || !loopReg i.rn) (i.modeOk (regsOf s t0) storeModes false)
      (i.privOk (regsOf s t0)) ∧ i.mode ≠ 7 ∧
      store (fetched s t0) t0 i.hw (i.ea (settled (regsOf s t0) true)) i.bytes 7 = .ok t 0 :=
  ⟨_, ⟨by unfold Comes; decide, by decide⟩, by decide, rfl⟩
theorem witness_push : ∃ t v n u, ReadsOperand (onYoke { sp := 0x108 } []) t t0 (imm 9) false allModes true false v n ∧
    store t t0 .ok (0x108 - 8) 8 v = .ok u 0 :=
  ⟨_, _, _, _, ⟨by unfold Comes; decide, by decide, rfl⟩, rfl⟩
theorem witness_pop :
    let s := onYoke { sp := 0x100 } word5
    let i : Ins := { mode := 7, sz := 3, f16 := 0x0004 }
    ∃ t v, Accepted s t0 i.hw i.e 0 (i.sub == 0) (!loopReg i.rn) (i.modeOk (regsOf s t0) [7] true) (i.privOk (regsOf s t0)) ∧
      load (fetched s t0) t0 i.hw (regsOf s t0).sp 8 = .ok t v ∧ i.rn = 4 :=
  ⟨_, _, ⟨by unfold Comes; decide, by decide⟩, rfl, by decide⟩
theorem witness_lea :
    let s := onYoke { x := 0x100 } []
    let i : Ins := { mode := 2, sz := 3, f16 := 8 }
    Accepted s t0 i.hw i.e 0 (i.sub == 0) true (i.modeOk (regsOf s t0) [1, 2, 3, 6] false) true :=
  ⟨by unfold Comes; decide, by decide⟩
theorem witness_paired :
    let s := onYoke { x := 0x100, y := 0x200, a := 3 } word5
    let i : Ins := { mode := 4, sz := 3 }
    ∃ t u w p q, Accepted s t0 i.hw i.e 0 (i.sub == 0) true ((i.mode == 2 || (i.mode == 4 && i.f16 == 0)) && i.sz == 3 && !i.e) true ∧
      pairedOk t0 readable 0x100 = none ∧ pairedOk t0 readable 0x200 = none ∧ pairedOk t0 writable 0x200 = none ∧
      load (fetched s t0) t0 i.hw 0x100 8 = .ok t p ∧ load t t0 i.hw 0x200 8 = .ok u q ∧ store u t0 i.hw 0x200 8 15 = .ok w 0 :=
  ⟨_, _, _, _, _, ⟨by unfold Comes; decide, by decide⟩, by decide, by decide, by decide, rfl, rfl, rfl⟩
theorem witness_branch : Accepted (onYoke {} []) t0 .ok false 0 true false true true :=
  ⟨by unfold Comes; decide, by decide⟩
theorem witness_call :
    let s := onYoke { sp := 0x108 } []
    ∃ t, Accepted s t0 .ok false 0 true false true true ∧ store (fetched s t0) t0 .ok ((regsOf s t0).sp - 8) 8 4 = .ok t 0 :=
  ⟨_, ⟨by unfold Comes; decide, by decide⟩, rfl⟩
theorem witness_return :
    let s := onYoke { sp := 0x100 } word5
    let i : Ins := { sz := 0 }
    ∃ t v, Accepted s t0 i.hw i.e 0 (i.sub == 0) false i.noOperand true ∧
      load (fetched s t0) t0 i.hw (regsOf s t0).sp 8 = .ok t v :=
  ⟨_, _, ⟨by unfold Comes; decide, by decide⟩, rfl⟩
theorem witness_jump :
    let s := onYoke { x := 0x100, sp := 0x208 } word5
    let i : Ins := { mode := 7, sz := 3, f16 := 2 }
    ∃ t u v n, Accepted s t0 i.hw i.e 0 (i.sub == 0) false (i.modeOk (regsOf s t0) storeModes true) (i.privOk (regsOf s t0)) ∧
      opval (fetched s t0) t0 (settled (regsOf s t0) i.readsMac) i false = .ok t (v, n) ∧
        store t t0 i.hw (0x208 - 8) 8 4 = .ok u 0 :=
  ⟨_, _, _, _, ⟨by unfold Comes; decide, by decide⟩, rfl, rfl⟩
theorem witness_rte :
    let s := onYoke { intrap := true, epc := 0x40 } []
    let i : Ins := { sz := 0 }
    (regsOf s t0).intrap = true ∧ Accepted s t0 i.hw i.e 0 (i.sub == 0) false i.noOperand true :=
  ⟨by decide, by unfold Comes; decide, by decide⟩
theorem witness_loop :
    let s := onYoke { ldepth := 2 } []
    let i : InsL := { cnt := 1, ends := 4 }
    Accepted s t0 i.hw i.e 0 true false (loopFmt (regsOf s t0) i) true ∧ (regsOf s t0).ldepth ≠ 3 :=
  ⟨⟨by unfold Comes; decide, by decide⟩, by decide⟩
theorem witness_lpop :
    let s := onYoke { ldepth := 1 } []
    let i : Ins := { sz := 0 }
    Accepted s t0 i.hw i.e 0 (i.sub == 0) false (i.noOperand && !i.e) true ∧ (regsOf s t0).ldepth ≠ (regsOf s t0).lbase :=
  ⟨⟨by unfold Comes; decide, by decide⟩, by decide⟩
theorem witness_lpop_underflow :
    let s := onYoke { ldepth := 1, lbase := 1 } []
    let i : Ins := { sz := 0 }
    Accepted s t0 i.hw i.e 0 (i.sub == 0) false (i.noOperand && !i.e) true ∧ (regsOf s t0).ldepth = (regsOf s t0).lbase :=
  ⟨⟨by unfold Comes; decide, by decide⟩, by decide⟩
theorem witness_rpt :
    let s := onYoke {} []
    let i : InsP := { n1 := 255 }
    Accepted s t0 i.hw i.e 0 true false (!i.e && i.mbz == 0 && (!i.s || i.n1 == 0)) true :=
  ⟨by unfold Comes; decide, by decide⟩
/-- The general memory is a target, and region 0 of `openHedge` grants its bytes. -/
theorem memory_permitted (cls ty a : Nat) (hc : cls < 8) (ht : ty < 3) (h1 : 4096 * Config.memPage ≤ a)
    (h2 : a < 4096 * Config.memPage + 10485760) : bytePermitted openHedge cls ty a = true := by
  have b : Config.memPage < 1046017 := Nat.mod_lt _ (by omega)
  have t : Config.fabricTarget a = true := by
    have e : Config.fabricTarget a =
        (decide (4096 * Config.memPage ≤ a) && decide (a < 4096 * Config.memPage + 10485760) || Config.otherTarget a) := rfl
    rw [e, decide_eq_true h1, decide_eq_true h2]; rfl
  have r : regionHas openHedge 0 a = true := by
    have z : tget 0 openHedge.cfg 0 = 0x120 := by decide
    have y : tget 0 openHedge.base 0 = 0 := by decide
    unfold regionHas; rw [z, y]
    have sz : hdgSize 0x120 = 32 := by decide
    have w : ∀ n, n < 8 → hdgSrd 0x120 n = false := by decide
    have en : hdgEn 0x120 = true := by decide
    have zb : (0 : W32).toNat / 4096 * 4096 = 0 := by decide
    dsimp only
    have l : a < 4294967296 := by omega
    have q : (a - 0) * 8 / 4294967296 < 8 := by omega
    change _ = true
    rw [zb, sz, en]
    have e : (true && decide (0 ≤ a) && decide (a < 0 + 4294967296) && decide (a < 4294967296) &&
        !hdgSrd 0x120 ((a - 0) * 8 / 4294967296)) = true := by
      rw [w _ q, decide_eq_true (Nat.zero_le a), Nat.zero_add, decide_eq_true l]; rfl
    exact e
  have d : decider openHedge a = some 0 := by
    unfold decider; simp [openHedge] at r ⊢; exact r
  unfold bytePermitted; rw [t, d]
  have : 3 * cls + ty < 64 := by omega
  have q : tget 0 openHedge.perm 0 = BitVec.allOnes 64 := by decide
  have l : hdgLock (tget 0 openHedge.cfg 0) = false := by decide
  have g : (BitVec.allOnes 64).getLsbD (3 * cls + ty) = true := by rw [BitVec.getLsbD_allOnes]; exact decide_eq_true this
  simp only [q, l, g, Bool.and_false, Bool.not_false, Bool.and_self]

/-- The steward may fetch at the base of the general memory. -/
theorem steward_fetch (k : Core) (ext : Bool) : fetchFault (onSteward k) .steward { k with priv := true, pc := memBase } ext = none := by
  have b : Config.memPage < 1046017 := Nat.mod_lt _ (by omega)
  have e : memBase.toNat = 4096 * Config.memPage := by simp [memBase]; omega
  have e4 : (memBase + 4).toNat = 4096 * Config.memPage + 4 := by
    rw [BitVec.toNat_add, e]; simp; omega
  have f : ∀ a, 4096 * Config.memPage ≤ a → a < 4096 * Config.memPage + 8 → firstForbidden openHedge 0 2 a 4 = none := by
    intro a h1 h2
    have p : ∀ b, a ≤ b → b < a + 4 → bytePermitted openHedge 0 2 b = true := fun b x y =>
      memory_permitted 0 2 b (by decide) (by decide) (by omega) (by omega)
    simp only [firstForbidden, p a (by omega) (by omega), p (a + 1) (by omega) (by omega), p (a + 1 + 1) (by omega) (by omega),
      p (a + 1 + 1 + 1) (by omega) (by omega), if_true]
  have g : ∀ a : W32, a = memBase ∨ a = memBase + 4 → (a.toNat % 4 ≠ 0 || (firstForbidden openHedge 0 2 a.toNat 4).isSome) = false := by
    intro a h
    have : a.toNat = 4096 * Config.memPage ∨ a.toNat = 4096 * Config.memPage + 4 := by
      rcases h with rfl | rfl
      · exact Or.inl e
      · exact Or.inr e4
    rw [f a.toNat (by omega) (by omega)]
    simp; omega
  unfold fetchFault
  have g1 := g memBase (Or.inl rfl)
  have g2 := g (memBase + 4) (Or.inr rfl)
  change (if (decide (memBase.toNat % 4 ≠ 0) || (firstForbidden openHedge 0 2 memBase.toNat 4).isSome) = true then some memBase
    else if (ext && (decide ((memBase + 4).toNat % 4 ≠ 0) || (firstForbidden openHedge 0 2 (memBase + 4).toNat 4).isSome)) = true
      then some (memBase + 4) else none) = none
  rw [g1, g2, Bool.and_false]; rfl

/-- The steward comes to its next instruction. -/
theorem steward_comes (k : Core) (ext : Bool) : Comes (onSteward k) .steward .ok ext :=
  ⟨rfl, rfl, rfl, rfl, steward_fetch k ext⟩

theorem witness_steward :
    let s := onSteward {}
    let i : Ins := { sz := 0 }
    Accepted s .steward i.hw i.e 2 (i.sub == 0) true i.noOperand true ∧ s.stw.events = 0 ∧ (regsOf s .steward).priv = true :=
  ⟨⟨steward_comes _ _, rfl⟩, rfl, rfl⟩
theorem witness_evack :
    let s := onSteward {}
    let i : Ins := { sz := 3, f16 := 15 }
    Accepted s .steward i.hw i.e 2 (i.sub == 0) true (i.modeOk (regsOf s .steward) [0] false && decide (evackNo i ≤ 15)) true :=
  ⟨steward_comes _ _, rfl⟩
theorem witness_event : (onSteward { ie := true }).lcs.phase = .full ∧ (onSteward { ie := true }).stw.core.ie = true :=
  ⟨rfl, rfl⟩

/-! ### Witnesses: cores, keys, jobs -/

/-- `up` with a transaction of plot 0 on yoke 0, as the function changes the transaction. -/
def withTx (k : Core) (b : Mem) (f : Tx → Tx) (s : State := up) : State :=
  s.setYoke 0 { core := k, bench := b, tx := some (f { plot := 0, hop := 0, phase := .running, deadline := 100000 }) }

/-- A record at 0x100 whose words are 0 but for byte 0. -/
def rec1 (b : Byte) : Mem := [(0x100, b)]

/-- A record operand at X. -/
def atX : Ins := { mode := 2, sz := 3 }

theorem witness_yoke_reset : ((up.setYoke 0 { faulted := true }).yoke 0).faulted = true := by decide
theorem witness_watchdog_full : up.pwr.good = true ∧ up.pwr.shutdown = false ∧ up.stw.halted = false ∧ up.lcs.phase = .full := by
  decide
theorem witness_watchdog_starting : let s : State := { up with lcs := { up.lcs with phase := .starting } }
    s.pwr.good = true ∧ s.pwr.shutdown = false ∧ s.stw.halted = false ∧ s.lcs.phase = .starting := by decide

/-- The state with one key, named 7, in the key information table. -/
def oneKey : State :=
  let i := 4 * (kitPair 0 0 7).1
  withTx { x := 7 } [] id { up with kp := { up.kp with kit := [(i, { valid := true, name := 7, pinned := true })] } }

/-- The first bucket's first way is a place of the table. -/
theorem oneKey_entry (k : KeyPlane) (e : KitEntry) (h : k.kit = [(4 * (kitPair 0 0 7).1, e)]) :
    kitAt k (4 * (kitPair 0 0 7).1) = e := by
  have : (kitPair 0 0 7).1 < 131072 := Nat.mod_lt _ (by decide)
  have l : 4 * (kitPair 0 0 7).1 < kitWays := by simp only [kitWays]; omega
  unfold kitAt; rw [if_pos l, h]; simp [tget]

/-- A key in its first bucket is found. -/
theorem oneKey_found (s : State) (e : KitEntry) (h : s.kp.kit = [(4 * (kitPair 0 0 7).1, e)]) (h1 : s.kp.run = false)
    (h2 : s.kp.seed = 0) (h3 : matches' s 0 7 false e = true) : kitFind s 0 7 false = some (4 * (kitPair 0 0 7).1) := by
  have c : cands s.kp 0 7 = [(kitPair 0 0 7).1, (kitPair 0 0 7).2] := by unfold cands; rw [h1, h2]; rfl
  unfold kitFind; rw [c]
  simp only [List.flatMap_cons, waysOf, List.cons_append]
  refine List.find?_cons_of_pos ?_
  rw [oneKey_entry s.kp e h]; exact h3

theorem witness_kfnd :
    let s := oneKey
    let i : Ins := { mode := 7, sz := 3, f16 := 2 }
    ∃ t s1 s2 e h, Accepted s t0 i.hw i.e 1 (i.sub == 0 || i.sub == 1)
      false (i.modeOk (s.core t0) (recordModes ++ [7]) true && (i.mode != 7 || i.sub == 0)) (i.privOk (regsOf s t0)) ∧
      i.mode = 7 ∧ (fetched s t0).tx 0 = some t ∧ reloading t = false ∧ t.got = [] ∧
      (settled (regsOf s t0) i.readsMac).reg i.rn = 7 ∧
      kitLookup (fetched s t0) t.plot 7 false = (s1, .hit e) ∧ takeHandle s1 0 (kitAt s1.kp e) = (s2, stOK, h) := by
  have f : kitFind oneKey 0 7 false = some _ := oneKey_found oneKey { valid := true, name := 7, pinned := true } rfl rfl rfl rfl
  have z : ∃ s1, kitLookup oneKey 0 7 false = (s1, .hit (4 * (kitPair 0 0 7).1)) := by
    unfold kitLookup; rw [f]
    dsimp only
    rw [oneKey_entry oneKey.kp { valid := true, name := 7, pinned := true } rfl]
    exact ⟨_, if_neg (by decide)⟩
  obtain ⟨s1, z⟩ := z
  have x : s1.tx 0 = oneKey.tx 0 := by
    revert z; unfold kitLookup; rw [f]; dsimp only
    rw [oneKey_entry oneKey.kp { valid := true, name := 7, pinned := true } rfl, if_neg (by decide)]
    rintro ⟨⟩; rfl
  have y : ∃ s2 h, takeHandle s1 0 (kitAt s1.kp (4 * (kitPair 0 0 7).1)) = (s2, stOK, h) := by
    unfold takeHandle; rw [x]; exact ⟨_, _, rfl⟩
  obtain ⟨s2, h, y⟩ := y
  exact ⟨_, _, _, _, _, ⟨by unfold Comes; decide, by decide⟩, rfl, rfl, rfl, rfl, rfl, z, y⟩

theorem witness_ljob :
    let s : State := { withTx { x := 0x100 } (rec1 1) id up with lan := { up.lan with live := 1 } }
    ∃ t c, Accepted s t0 .ok false 1 true false (atX.modeOk (s.core t0) recordModes true) (atX.privOk (regsOf s t0)) ∧
      (fetched s t0).tx 0 = some t ∧ MayDescribe (fetched s t0) 0 (atX.addr (regsOf s t0)) ∧
      outstanding t < 8 ∧ t.wait = .none ∧ (let d := benchRecord (fetched s t0) 0 (atX.addr (regsOf s t0)) 64
       (jFlags d).testBit 0 = false ∧ 1 ≤ jType d ∧ jType d ≤ 17) ∧ allocCtx (fetched s t0) = some c :=
  ⟨_, 0, ⟨by unfold Comes; decide, by decide⟩, rfl, by unfold MayDescribe MayRecord; decide, by decide, rfl, by decide,
    by decide⟩
/-- A SEAL job: FLAGS bit 0 of the record is set. -/
def sealRec : Mem := [(0x100, 1), (0x102, 1)]
theorem witness_ljob_seal :
    let s : State := { withTx { x := 0x100 } sealRec id up with lan := { up.lan with live := 1 } }
    ∃ t c, (fetched s t0).tx 0 = some t ∧ MayDescribe (fetched s t0) 0 (atX.addr (regsOf s t0)) ∧
      (let d := benchRecord (fetched s t0) 0 (atX.addr (regsOf s t0)) 64
       (jFlags d).testBit 0 = true ∧ 1 ≤ jType d ∧ jType d ≤ 17) ∧ t.ctx = none ∧ t.jobs = [] ∧
      allocCtx (fetched s t0) = some c :=
  ⟨_, 0, rfl, by unfold MayDescribe MayRecord; decide, by decide, rfl, rfl, by decide⟩
theorem witness_ljob_waits : let s := withTx { x := 0x100 } (rec1 1) id up
    allocCtx (fetched s t0) = none ∧ MayDescribe (fetched s t0) 0 (atX.addr (regsOf s t0)) := by
  unfold MayDescribe MayRecord; decide
theorem witness_jobs_full :
    let s := withTx { x := 0x100 } (rec1 1) (fun t => { t with jobs := (List.range 8).map fun j =>
      (j, some { engine := false, desc := [], st := .running }) }) up
    ∃ t, (fetched s t0).tx 0 = some t ∧ 8 ≤ outstanding t := ⟨_, rfl, by decide⟩

/-- The bench record of a PJOB that attaches an engine. -/
def attachRec : Mem := [(0x100, 0x40), (0x120, 1)]
/-- Plot 0 has a share of the engines, and engine 0 is live in multiply-accumulate mode. -/
def engineUp : State :=
  ({ up with pke := { up.pke with live := 1, cfg := [(0, 0x51)] } }).setPlot 0 { st := .opened, acr := { pkeWeight := 1 } }

theorem witness_pjob :
    let s := withTx { x := 0x100 } attachRec id engineUp
    let f := fetched s t0
    let d := benchRecord f 0 (atX.addr (regsOf s t0)) 64
    ∃ t, Accepted s t0 .ok false 1 true false (atX.modeOk (s.core t0) recordModes true) (atX.privOk (regsOf s t0)) ∧
      f.tx 0 = some t ∧ t.wait = .none ∧ MayDescribe f 0 (atX.addr (regsOf s t0)) ∧ outstanding t < 8 ∧
      (f.plot t.plot).acr.pkeWeight ≠ 0 ∧ (engCheck f t d false).2 = none ∧
      (let j := freeJob t
       let w := (engCheck f t d false).1.modTx 0 fun t =>
         { t.setJob j (some { engine := true, desc := d, st := .waiting, order := t.jobSeq }) with jobSeq := t.jobSeq + 1 }
       (jobOf (pumpEng { w with pke := { w.pke with waitq := w.pke.waitq ++ [(0, j)] } }) (0, j)).map
         (fun q => decide (q.2.st ≠ .waiting)) = some true) :=
  ⟨_, ⟨by unfold Comes; decide, by decide⟩, rfl, rfl, by unfold MayDescribe MayRecord; decide, by decide, by decide, by decide, by decide⟩
/-- With engine 0 attached elsewhere the job waits; a job of an unknown type fails its checks; a plot without a weight has no job. -/
theorem witness_pjob_others :
    (let s := withTx { x := 0x100 } attachRec id (engineUp.modMac 0 fun e => { e with tx := some 1 })
     let f := fetched s t0
     let d := benchRecord f 0 0x100 64
     ∃ t, f.tx 0 = some t ∧ (engCheck f t d false).2 = none ∧
      (let j := freeJob t
       let w := (engCheck f t d false).1.modTx 0 fun t =>
         { t.setJob j (some { engine := true, desc := d, st := .waiting, order := t.jobSeq }) with jobSeq := t.jobSeq + 1 }
       (jobOf (pumpEng { w with pke := { w.pke with waitq := w.pke.waitq ++ [(0, j)] } }) (0, j)).map
         (fun q => decide (q.2.st ≠ .waiting)) = some false)) ∧
    (let f := fetched (withTx { x := 0x100 } (rec1 0x7F) id engineUp) t0
     ∃ t, f.tx 0 = some t ∧ (engCheck f t (benchRecord f 0 0x100 64) false).2 = some stPolicy) ∧
    ((fetched (withTx { x := 0x100 } attachRec id) t0).plot 0).acr.pkeWeight = 0 :=
  ⟨⟨_, rfl, by decide, by decide⟩, ⟨_, rfl, by decide⟩, by decide⟩
theorem witness_pjob_resumed :
    let s := withTx { x := 0x100 } attachRec (fun t => { t.setJob 7 (some { engine := true, desc := [], st := .running }) with
      wait := .engine 7 })
    ∃ t x, (fetched s t0).tx 0 = some t ∧ t.wait = .engine 7 ∧ t.job 7 = some x ∧
      x.st ≠ .waiting := ⟨_, _, rfl, rfl, rfl, by decide⟩

theorem witness_wjob :
    let s := withTx { x := 7 } [] (fun t => t.setJob 7 (some { engine := false, desc := [], st := .ended }))
    let i : Ins := { mode := 7, sz := 3, f16 := 2 }
    ∃ t x, Accepted s t0 i.hw i.e 1 (i.sub == 0 || i.sub == 1) false (wjobFmt i (s.core t0)) (i.privOk (regsOf s t0)) ∧
      (fetched s t0).tx 0 = some t ∧ t.job 7 = some x ∧ x.st = .ended ∧
      (operandOf (fetched s t0) t0 (settled (regsOf s t0) i.readsMac) i false).1.toNat = 7 ∧ i.mode = 7 :=
  ⟨_, _, ⟨by unfold Comes; decide, by decide⟩, rfl, rfl, rfl, by decide, rfl⟩
theorem witness_wjob_lowest :
    let s := withTx {} [] (fun t => (t.setJob 0 (some { engine := false, desc := [], st := .running })).setJob 1 (some {
      engine := false, desc := [], st := .ended }))
    let i : Ins := { sz := 0, sub := 1 }
    ∃ t x, Accepted s t0 i.hw i.e 1 (i.sub == 0 || i.sub == 1) false (wjobFmt i (s.core t0)) (i.privOk (regsOf s t0)) ∧
      (fetched s t0).tx 0 = some t ∧ t.job 1 = some x ∧ x.st = .ended ∧ (∀ l z, l < 1 → t.job l = some z → z.st ≠ .ended) := by
  refine ⟨_, _, ⟨by unfold Comes; decide, by decide⟩, rfl, rfl, rfl, fun l z h e => ?_⟩
  have : l = 0 := by omega
  subst this; cases e; decide
theorem witness_wjob_waits :
    let s := withTx { x := 0 } [] (fun t => t.setJob 0 (some { engine := false, desc := [], st := .running }))
    ∃ t x, (fetched s t0).tx 0 = some t ∧ t.job 0 = some x ∧ x.st ≠ .ended := ⟨_, _, rfl, rfl, by decide⟩

/-- `up` with plot 0's drill ready. -/
def drillUp : State := up.setPlot 0 { active := defaultPolicy, drill := { inst := true } }

theorem witness_rand_register :
    let s := withTx {} [] id drillUp
    let i : Ins := { mode := 7, sz := 3, f16 := 1 }
    ∃ t, Accepted s t0 i.hw i.e 1 (i.sub == 0) false
      (i.modeOk (s.core t0) (recordModes ++ [7]) true && (i.mode != 7 || i.f16 == 1)) (i.privOk (regsOf s t0)) ∧
      (fetched s t0).tx 0 = some t ∧ randReady (fetched s t0) t = true ∧ drillReady (fetched s t0) t.plot = true ∧
      (fetched s t0).clu.role = 0 :=
  ⟨_, ⟨by unfold Comes; decide, by decide⟩, rfl, by decide, by decide, rfl⟩
theorem witness_rand_record :
    let s := withTx { x := 0x100 } [] id drillUp
    ∃ t, Accepted s t0 .ok false 1 true false
      (atX.modeOk (s.core t0) (recordModes ++ [7]) true && (atX.mode != 7 || atX.f16 == 1)) (atX.privOk (regsOf s t0)) ∧
      (fetched s t0).tx 0 = some t ∧ MayRecord (atX.addr (regsOf s t0)) 32 8 writable ∧ randReady (fetched s t0) t = true :=
  ⟨_, ⟨by unfold Comes; decide, by decide⟩, rfl, by unfold MayRecord; decide, by decide⟩
theorem witness_rand_waits : ∃ t, (fetched (withTx {} [] id) t0).tx 0 = some t ∧
    randReady (fetched (withTx {} [] id) t0) t = false := ⟨_, rfl, by decide⟩

theorem witness_rply :
    let s := withTx { x := 0x100 } (rec1 9) id
    ∃ t, Accepted s t0 .ok false 1 true false (atX.modeOk (s.core t0) recordModes true) (atX.privOk (regsOf s t0)) ∧
      (fetched s t0).tx 0 = some t ∧ t.claimGot = none ∧ t.wait = .none ∧
      MayRecord (atX.addr (regsOf s t0)) 12 4 readable ∧ (fetched s t0).clu.joined = false ∧
      (∀ fp e, rplFind (fetched s t0) t.plot fp = some e → (rplAt (fetched s t0).rpl e).claim = false) := by
  refine ⟨_, ⟨by unfold Comes; decide, by decide⟩, rfl, rfl, rfl, by unfold MayRecord; decide, rfl, fun fp e _ => ?_⟩
  unfold rplAt; split <;> rfl

/-- The record of an XFER: OFS 0, bench 0x200, length 16, its direction. -/
def xferRec (dir : Byte) : Mem := [(0x105, 2), (0x106, 16), (0x108, dir)].filter (·.2 != 0)
/-- A descriptor with 64 bytes of external data and of result buffer. -/
def desc64 : Bytes := (List.range 128).map fun i => if i = 40 ∨ i = 44 then 64 else 0

theorem witness_xfer_out :
    let s := withTx { x := 0x100 } (xferRec 1) (fun t => { t with desc := desc64 })
    let b := benchRecord (fetched s t0) 0 (atX.addr (regsOf s t0)) 16
    ∃ t, Accepted s t0 .ok false 1 true false (atX.modeOk (s.core t0) recordModes true) (atX.privOk (regsOf s t0)) ∧
      (fetched s t0).tx 0 = some t ∧ t.xferDone = false ∧ t.wait = .none ∧ t.fwd = false ∧
      MayRecord (atX.addr (regsOf s t0)) 16 8 readable ∧ fld b 6 2 ≠ 0 ∧ fld b 6 2 ≤ 4096 ∧
      zeros b 9 7 = true ∧ byteAt b 8 = 1 ∧ rangeIn readable (fld b 4 2) (fld b 6 2) = true ∧
      fld b 0 4 + fld b 6 2 ≤ fld t.desc 44 4 :=
  ⟨_, ⟨by unfold Comes; decide, by decide⟩, rfl, rfl, rfl, rfl, by unfold MayRecord; decide, by decide, by decide, by decide, by decide,
    by decide, by decide⟩
theorem witness_xfer_in :
    let s := withTx { x := 0x100 } (xferRec 0) (fun t => { t with desc := desc64 })
    let b := benchRecord (fetched s t0) 0 (atX.addr (regsOf s t0)) 16
    ∃ t, Accepted s t0 .ok false 1 true false (atX.modeOk (s.core t0) recordModes true) (atX.privOk (regsOf s t0)) ∧
      (fetched s t0).tx 0 = some t ∧ t.xferDone = false ∧ t.wait = .none ∧ t.fwd = false ∧
      MayRecord (atX.addr (regsOf s t0)) 16 8 readable ∧ fld b 6 2 ≠ 0 ∧ fld b 6 2 ≤ 4096 ∧
      zeros b 9 7 = true ∧ byteAt b 8 = 0 ∧ rangeIn writable (fld b 4 2) (fld b 6 2) = true ∧
      fld b 0 4 + fld b 6 2 ≤ fld t.desc 40 4 :=
  ⟨_, ⟨by unfold Comes; decide, by decide⟩, rfl, rfl, rfl, rfl, by unfold MayRecord; decide, by decide, by decide, by decide, by decide,
    by decide, by decide⟩
theorem witness_xfer_past :
    let s := withTx { x := 0x100 } (xferRec 1) (fun t => { t with desc := [] })
    let b := benchRecord (fetched s t0) 0 0x100 16
    ∃ t, (fetched s t0).tx 0 = some t ∧ byteAt b 8 = 1 ∧ fld t.desc 44 4 < fld b 0 4 + fld b 6 2 := ⟨_, rfl, by decide, by decide⟩
theorem witness_xfer_ends :
    let s := withTx {} [] (fun t => { t with wait := .hostRead 0x200 16 })
    ∃ t, s.tx 0 = some t ∧ t.wait = .hostRead 0x200 16 ∧ t.fwd = false ∧ t.numbered = false := ⟨_, rfl, rfl, rfl, rfl⟩
theorem witness_xfer_done :
    let s := withTx { x := 0x100 } [] (fun t => { t with xferDone := true })
    ∃ t, Accepted s t0 .ok false 1 true false (atX.modeOk (s.core t0) recordModes true) (atX.privOk (regsOf s t0)) ∧
      (fetched s t0).tx 0 = some t ∧ t.xferDone = true :=
  ⟨_, ⟨by unfold Comes; decide, by decide⟩, rfl, rfl⟩
theorem witness_done :
    let s := withTx { a := 0x8000 } [] id
    let i : Ins := { sz := 3, f16 := 16 }
    ∃ t, active s t0 = true ∧ copyStops s t0 = false ∧ fetchFault (fetched s t0) t0 (regsOf s t0) i.e = none ∧
      checks (regsOf s t0) 1 (i.sub == 0) false (finFmt i (s.core t0)) (i.privOk (regsOf s t0)) = none ∧
      (fetched s t0).tx 0 = some t ∧ isForget t = false ∧ (fitVal i.bytes false i.disp).toNat = 16 ∧
      0x8000 ≤ ((regsOf s t0).a.setWidth 16 : BitVec 16).toNat :=
  ⟨_, by decide, by decide, by decide, by decide, rfl, by decide, by decide, by decide⟩
theorem witness_fail :
    let i : Ins := { sz := 1, f16 := 0x8000 }
    finFmt i (regsOf (withTx {} [] id) t0) = true ∧ 0x8000 ≤ (fitVal i.bytes false i.disp).toNat % 2 ^ 16 := by decide

/-- Nothing is found in an empty key information table. -/
theorem empty_kit (s : State) (p : Nat) (name : W64) (d : Bool) (h : s.kp.kit = []) (h1 : s.kp.ovf = []) :
    kitFind s p name d = none := by
  unfold kitFind
  rw [List.find?_eq_none]
  intro i _
  have : kitAt s.kp i = KitEntry.zero := by unfold kitAt; rw [h, h1]; split <;> rfl
  rw [this]; exact Bool.false_ne_true

theorem witness_reload_missing :
    let s := withTx {} [] (fun t => { t with wait := .vault 7 })
    ∃ t, s.tx 0 = some t ∧ t.wait = .vault 7 ∧ kitFind s t.plot 7 false = none ∧ vltFind s t.plot 7 = none := by
  refine ⟨_, rfl, rfl, empty_kit _ _ _ _ rfl rfl, ?_⟩
  unfold vltFind; rw [List.find?_eq_none]; intro i _; exact Bool.false_ne_true

/-- The state with one vault record of name 7, in its first page, and room to learn it. -/
def oneRecord (kind : BitVec 2) : State :=
  let s := up.setPlot 0 { acr := { kitQuota := 1, kcQuota := 1 } }
  let u := withTx {} [] (fun t => { t with wait := .vault 7 }) s
  { u with vlt := { u.vlt with recs := [(32 * (vltPair u 0 7).1, { used := true, name := 7, kind := kind })] } }

theorem oneRecord_found (k : BitVec 2) : vltFind (oneRecord k) 0 7 = some (32 * (vltPair (oneRecord k) 0 7).1) := by
  unfold vltFind vltPlaces
  have e : (List.range 32).map (32 * (vltPair (oneRecord k) 0 7).1 + ·) =
      (32 * (vltPair (oneRecord k) 0 7).1 + 0) :: ((List.range' 1 31).map (32 * (vltPair (oneRecord k) 0 7).1 + ·)) := rfl
  dsimp only
  rw [e, List.cons_append, List.find?_cons_of_pos]
  · rfl
  · have : (oneRecord k).vlt.recs = [(32 * (vltPair (oneRecord k) 0 7).1 + 0, { used := true, name := 7, kind := k })] := rfl
    rw [this]; simp [tget]
theorem oneRecord_is (k : BitVec 2) : tget VRec.zero (oneRecord k).vlt.recs (32 * (vltPair (oneRecord k) 0 7).1) =
    { used := true, name := 7, kind := k } := by
  have : (oneRecord k).vlt.recs = [(32 * (vltPair (oneRecord k) 0 7).1, { used := true, name := 7, kind := k })] := rfl
  rw [this]; simp [tget]
theorem witness_reload_key :
    ∃ n t, (oneRecord 0).tx 0 = some t ∧ t.wait = .vault 7 ∧ kitFind (oneRecord 0) t.plot 7 false = none ∧
      vltFind (oneRecord 0) t.plot 7 = some n ∧
      (let r := tget VRec.zero (oneRecord 0).vlt.recs n
       r.authentic = true ∧ r.kind ≠ 2 ∧ weakSlot (learnOf r).slot = false ∧
        policyAdmits ((oneRecord 0).plot t.plot).active r.alg.toNat (derives r.attr) r.pset = true ∧
          vaultUp (oneRecord 0) = true ∧
        ∃ s1 st, learnFast (oneRecord 0) (learnOf r) = (s1, some st)) := by
  refine ⟨_, _, rfl, rfl, empty_kit _ _ _ _ rfl rfl, oneRecord_found 0, ?_⟩
  dsimp only; rw [oneRecord_is]
  refine ⟨rfl, by decide, by decide, by decide, by decide, ?_⟩
  unfold learnFast
  have : learnChecks (oneRecord 0) (learnOf { used := true, name := 7, kind := 0 }) = none := by
    unfold learnChecks; rw [empty_kit _ _ _ _ rfl rfl]; decide
  rw [this]
  have c : cands (oneRecord 0).kp 0 7 = [(kitPair 0 0 7).1, (kitPair 0 0 7).2] := rfl
  have w : freeWay (oneRecord 0) (cands (oneRecord 0).kp 0 7) = some (4 * (kitPair 0 0 7).1) := by
    unfold freeWay; rw [c]; simp only [List.flatMap_cons, waysOf, List.cons_append]
    refine List.find?_cons_of_pos ?_
    have : kitAt (oneRecord 0).kp (4 * (kitPair 0 0 7).1) = KitEntry.zero := by unfold kitAt; split <;> rfl
    rw [this]; decide
  change ∃ s1 st, (match freeWay (oneRecord 0) (cands (oneRecord 0).kp 0 7) with
    | some i => (placeKey (oneRecord 0) (learnOf { used := true, name := 7, kind := 0 }) i, some stOK)
    | none => (oneRecord 0, none)) = (s1, some st)
  rw [w]; exact ⟨_, _, rfl⟩
theorem witness_reload_public :
    ∃ n, vltFind (oneRecord 2) 0 7 = some n ∧ (tget VRec.zero (oneRecord 2).vlt.recs n).kind = 2 :=
  ⟨_, oneRecord_found 2, by rw [oneRecord_is]⟩

/-! ### Witnesses: the bench -/

theorem witness_bench : Canon (onYoke {} word5) ∧ (0xEFF8 : W64).toNat < 0xF000 ∧ (0xEFF8 : W64).toNat % 8 = 0 ∧
    0xE000 ≤ (0xEFF8 : W64).toNat := by
  refine ⟨⟨by decide, by decide, by decide, fun y => ?_⟩, by decide, by decide, by decide⟩
  have : (onYoke {} word5).yoke y = if y = 0 then (onYoke {} word5).yoke 0 else Yoke.zero := by
    by_cases h : y = 0
    · rw [if_pos h, h]
    · have h' : ¬ 0 = y := fun e => h e.symm
      rw [if_neg h]; exact if_neg h'
  rw [this]; split
  · decide
  · decide
theorem witness_load_traps :
    let s := onYoke { x := 0x10000 } []
    let i : Ins := { mode := 2, sz := 3 }
    ∃ t, Accepted s t0 i.hw i.e 0 (i.sub == 0) true (i.modeOk (regsOf s t0) storeModes false) (i.privOk (regsOf s t0)) ∧
      i.mode ≠ 7 ∧ (regsOf s t0).intrap = false ∧
      load (fetched s t0) t0 .ok (i.ea (regsOf s t0)) i.bytes = .trap (fetched s t0) t ∧
      store (fetched s t0) t0 .ok (i.ea (regsOf s t0)) i.bytes 0 = .trap (fetched s t0) t :=
  ⟨_, ⟨by unfold Comes; decide, by decide⟩, by decide, by decide, rfl, rfl⟩
theorem witness_operand_load :
    let i : Ins := { mode := 2, sz := 3 }
    ∃ t v, i.mode ≠ 0 ∧ i.mode ≠ 7 ∧ load (onYoke { x := 0x100 } word5) t0 i.hw (i.ea { x := 0x100 }) i.bytes = .ok t v :=
  ⟨_, _, by decide, by decide, rfl⟩
theorem witness_handler_traps : (regsOf (onYoke { intrap := true } []) t0).intrap = true := by decide
theorem witness_loop_end :
    let d : Core := { ldepth := 1, lp := [(0, { ls := 0, le := 4, lc := 2 })] }
    d.ldepth = 1 ∧ d.lbase = 0 ∧ (d.lvl 0).le = (0 : W32) + 4 ∧ 1 < (d.lvl 0).lc.toNat := by decide
theorem witness_user_wait : Comes (onYoke {} []) t0 .ok false ∧ (regsOf (onYoke {} []) t0).rpt = 0 :=
  ⟨by unfold Comes; decide, rfl⟩

/-! ### Witnesses: hoppers, plots, windows, life cycle -/

/-- `up` with its PCIe link trained, four VFs enabled, the admin hopper live. -/
def linked : State := { up with
  link := { up.link with perst := false, trained := true, vfEnable := true, numVfs := 4 }
  adm := { up.adm with live := true } }

/-- An open plot 0 with one hopper of 64 entries, which is enabled. -/
def openPlot : Plot := {
  st := .opened, armed := true, active := defaultPolicy
  acr := { hoppers := 1, guarYokes := 1, weight := 1, depthLog2 := [6] }
  hoppers := [(0, { log2 := 6, en := true, enabled := true })] }

/-- `linked` with that plot. -/
def served : State := linked.setPlot 0 openPlot

/-- A module whose admin queue holds one command. -/
def serving (d : Adm) (s : State := linked) : State := { s with adm := { s.adm with queue := [d] } }

theorem witness_doorbell : let r : HopRef := .vf 0 0
    reach served (hopFn r) = true ∧ hopDropped served r = false ∧ hopOpen served r = true ∧ (served.hop r).en = true ∧
      (served.hop r).halted = false ∧ (63 : W32).toNat < 2 ^ (served.hop r).log2.toNat ∧ 63 ≤ depth served r := by decide
theorem witness_enable : let s := served.setHop (.vf 0 0) { log2 := 6 }
    let r : HopRef := .vf 0 0
    reach s (hopFn r) = true ∧ hopDropped s r = false ∧ hopOpen s r = true ∧ (s.hop r).en = false ∧
      (s.hop r).enabled = false := by
  decide
theorem witness_disable : let s := linked.setHop .admin { en := true, enabled := true, log2 := 6 }
    reach s .pf0 = true ∧ s.adm.hop.en = true ∧ s.adm.hop.enabled = true ∧ s.adm.hop.inflight = 0 ∧ heldEntries s .admin = 0 := by
  decide

/-- One descriptor waits in plot 0's hopper, and yoke 5 alone is live. -/
def toDispatch : State :=
  let s := served.setHop (.vf 0 0) { log2 := 6, en := true, enabled := true, tail := 1, acc := [(0, 1000)] }
  { s with yreg := { s.yreg with live := 32 } }
theorem witness_dispatch : ∃ s1 c h, standby toDispatch = false ∧ pickYoke toDispatch = some 5 ∧
    choosePlot toDispatch = (s1, some 0) ∧
    chooseHop s1 0 = some (c, h) ∧ twf Plot.zero s1.plots = true ∧ twf Yoke.zero s1.yokes = true :=
  ⟨_, 0, 0, by decide, by decide, rfl, rfl, by decide, by decide⟩

/-- A descriptor of 128 zero bytes but for its code. -/
def descOf (code : Nat) : Bytes := le 2 code ++ List.replicate 126 0
theorem witness_admin_arrival : let s := linked.setHop .admin { en := true, enabled := true, log2 := 6, tail := 1, acc := [(0, 0)] }
    s.adm.hop.en = true ∧ s.adm.hop.halted = false ∧ s.adm.hop.acc ≠ [] ∧ readGate s .admin = true ∧
      descOk (descOf 0x181) 2 65536 = true ∧ (admOf (descOf 0x181)).code.toNat ∈ adminCodes ∧
      (admOf (descOf 0x001)).code.toNat ∉ adminCodes := by decide
theorem witness_arrival : let s := withTx {} [] (fun t => { t with phase := .reading })
    ∃ t, s.tx 0 = some t ∧ t.phase = .reading ∧ t.fwd = false := ⟨_, rfl, rfl, rfl⟩
theorem witness_staging : let s := withTx {} [] (fun t => { t with phase := .staging })
    ∃ t, s.tx 0 = some t ∧ t.phase = .staging ∧ t.fwd = false ∧ s.now < t.deadline := ⟨_, rfl, rfl, rfl, by decide⟩
theorem witness_staging_late : let s := withTx {} [] (fun t => { t with phase := .staging, deadline := 0 })
    ∃ t, s.tx 0 = some t ∧ t.phase = .staging ∧ t.fwd = false ∧ t.deadline ≤ s.now := ⟨_, rfl, rfl, rfl, by decide⟩
theorem witness_deadline : let s := withTx { tmargin := 9 } [] id
    ∃ t, s.tx 0 = some t ∧ t.phase = .running ∧ t.fwd = false ∧ (s.yoke 0).core.tmargin ≠ 0 := ⟨_, rfl, rfl, rfl, by decide⟩
theorem witness_coalescing : let s := served.setHop (.vf 0 0) { coalDue := some 7 }
    (s.hop (.vf 0 0)).coalDue = some 7 := by decide
theorem witness_msix : reach linked .pf0 = true ∧ hasVector .pf0 3 = true ∧ heldFor linked .pf0 = false ∧
    (3 : Nat) ∉ (linked.msixOf .pf0).unmasked ∧ (3 : Nat) ∉ (linked.msixOf .pf0).pend := by decide
theorem witness_msix_open : let s := linked.setMsix .pf0 { enable := true, fnMask := false, unmasked := [16] }
    (s.msixOf .pf0).enable = true ∧ (s.msixOf .pf0).fnMask = false ∧ 16 ∈ (s.msixOf .pf0).unmasked ∧ heldFor s .pf0 = false := by
  decide
theorem witness_ide : let s := (linked.setIde 1 { active := some 0, prog1 := true })
    (s.ide 1).active = some 0 ∧ (s.ide 1).insecure = false ∧ (s.ide 1).prog1 = true := by decide
theorem witness_spdm :
    let s : State := { linked with link := { linked.link with spdm := [{ secret := [] }] }, rng := { linked.rng with priv := [(1, { inst := true })] } }
    s.link.perst = false ∧ s.link.trained = true ∧ s.adm.live = true ∧ s.link.spdm = { secret := [] } :: [] ∧
      privReady s 1 = true ∧
      { linked with adm := { linked.adm with live := false } }.adm.live = false := by decide

/-- The inline bytes of a plot command: plot 1, then operands. -/
def onPlot1 (b : Bytes) : Bytes := [1, 0, 0, 0] ++ b
/-- An acreage record of one hopper of 64 entries. -/
def smallAcr : Bytes := [1, 0] ++ List.replicate 62 0

/-- Plot 1 in a state. -/
def plot1 (st : PlotSt) (s : State := linked) : State := s.setPlot 1 { openPlot with st := st }

theorem witness_create : let d : Adm := { code := 0x101, inlen := 68, inl := onPlot1 ([1, 0, 1, 0] ++ List.replicate 20 0 ++ [6] ++ List.replicate 39 0) }
    let s := serving d { linked with rng := { linked.rng with priv := [(0, { inst := true, fresh := true })] } }
    Serves s d [] ∧ plotNamed d = true ∧ acrRange d.acr = true ∧ (s.plot d.pid).st = .absent ∧
      poolFault (popAdm s []) d.pid (acrOf d.acr) = none ∧ auditRoom (popAdm s []) = true ∧
        (keyGen (popAdm s []) 0).2 = true := by
  unfold Serves; decide
theorem witness_open : let d : Adm := { code := 0x102, inlen := 6, inl := onPlot1 [0, 1] }
    let s := serving d (plot1 .created)
    Serves s d [] ∧ plotNamed d = true ∧ 0x100 ≤ fld d.inl 4 2 ∧ (s.plot d.pid).st = .created := by
  unfold Serves; decide
theorem witness_stop : let d : Adm := { code := 0x103, inlen := 4, inl := onPlot1 [] }
    let s := serving d (plot1 .opened)
    Serves s d [] ∧ plotNamed d = true ∧ (s.plot d.pid).st = .opened ∧ twf Plot.zero s.plots = true := by
  unfold Serves; decide
theorem witness_start : let d : Adm := { code := 0x104, inlen := 4, inl := onPlot1 [] }
    let s := serving d (plot1 .stopped)
    Serves s d [] ∧ plotNamed d = true ∧ (s.plot d.pid).st = .stopped := by
  unfold Serves; decide
theorem witness_resize : let d : Adm := { code := 0x105, inlen := 68, inl := onPlot1 ([1, 0, 1, 0] ++ List.replicate 20 0 ++ [16] ++ List.replicate 39 0) }
    let s := serving d (plot1 .opened)
    Serves s d [] ∧ plotNamed d = true ∧ acrRange d.acr = true ∧ (s.plot d.pid).st ∈ createdToStopped ∧
      shrinks (popAdm s []) d.pid (acrOf d.acr) = false ∧ poolFault (popAdm s []) d.pid (acrOf d.acr) = none := by
  unfold Serves; decide
theorem witness_reset : let d : Adm := { code := 0x106, inlen := 4, inl := onPlot1 [] }
    let s := serving d (plot1 .stopping)
    Serves s d [] ∧ plotNamed d = true ∧ (s.plot d.pid).st ∈ createdToStopped := by
  unfold Serves; decide
theorem witness_remove : let d : Adm := { code := 0x107, inlen := 4, inl := onPlot1 [] }
    let s := serving d (plot1 .created)
    Serves s d [] ∧ plotNamed d = true ∧ (s.plot d.pid).st ∈ createdToStopped ∧ holdsCard (popAdm s []) d.pid 0 = false ∧
      auditRoom (popAdm s []) = true ∧ (s.plot d.pid).removeWait = none := by
  unfold Serves; decide
theorem witness_sequences : (let s := plot1 .resetting
    (s.plot 1).st = .resetting ∧ (s.plot 1).removeWait = none) ∧
    (let s := linked.setPlot 1 { st := .removing, resetDone := true, removeWait := some {} }
     (s.plot 1).st = .removing ∧ (s.plot 1).resetDone = true ∧ (s.plot 1).removeWait = some {}) := by decide
theorem witness_stage : let d : Adm := { code := 0x108, inlen := 4, inl := onPlot1 [], extLen := 512 }
    let s := serving d (plot1 .opened)
    Serves s d [] ∧ plotNamed d = true ∧ (s.plot d.pid).st ∈ createdToStopped := by
  unfold Serves; decide
theorem witness_commit : let d : Adm := { code := 0x109, inlen := 4, inl := onPlot1 [] }
    let s := serving d (linked.setPlot 1 { openPlot with shadow := defaultPolicy, shadowValid := true })
    Serves s d [] ∧ plotNamed d = true ∧ (s.plot d.pid).st ∈ createdToStopped ∧ (s.plot d.pid).shadowValid = true ∧
      auditRoom (popAdm s []) = true ∧ (s.plot d.pid).drill.inst = false := by
  unfold Serves; decide
theorem witness_query : let d : Adm := { code := 0x10A, inlen := 4, inl := onPlot1 [], resLen := 64 }
    Serves (serving d) d [] ∧ plotNamed d = true := by
  unfold Serves; decide
theorem witness_send : let d : Adm := { code := 0x110, inlen := 68, inl := onPlot1 ([1] ++ List.replicate 63 0) }
    let s := serving d (plot1 .opened)
    Serves s d [] ∧ plotNamed d = true ∧ msgOk (cut d.inl 4 64) = true ∧ (s.plot d.pid).st ∈ createdToStopped ∧
      (s.plot d.pid).outValid = false := by
  unfold Serves; decide
theorem witness_recv : let d : Adm := { code := 0x111, inlen := 4, inl := onPlot1 [], resLen := 64 }
    let s := serving d (linked.setPlot 1 { openPlot with inBusy := true })
    Serves s d [] ∧ plotNamed d = true ∧ (s.plot d.pid).st ∈ createdToStopped ∧ (s.plot d.pid).inBusy = true := by
  unfold Serves; decide
theorem witness_drawer : (let s := linked.setPlot 1 { openPlot with drwIn := [(0, 1)], outValid := true }
    reach s (vfOf 1) = true ∧ (s.plot 1).st ≠ .absent ∧ (s.plot 1).inBusy = false ∧ (s.plot 1).outValid = true ∧
      msgOk (mread (s.plot 1).drwIn 0 64) = true) ∧
    (let s := linked.setPlot 1 { openPlot with drwIn := [(0, 9)] }
     msgOk (mread (s.plot 1).drwIn 0 64) = false) ∧
    ((plot1 .created).plot 1).st = .created ∧ (0x01000001 : W32).getLsbD 0 = true := by decide
theorem witness_negotiate : let s := linked.setPlot 1 { st := .created, armed := true, openPend := true, maxver := 0x1FF, verCap := 0x100 }
    (s.plot 1).st = .created ∧ (s.plot 1).armed = true ∧ (s.plot 1).openPend = true ∧ mirrors s = false ∧
      0x100 ≤ (s.plot 1).verCap.toNat := by decide
theorem witness_flr : let s := plot1 .opened
    reach s (.vf 1) = true ∧ (s.plot 1).st ∈ createdToStopped ∧ reach s .pf0 = true ∧ s.link.vfEnable = true ∧
      s.pwr.good = true := by
  decide

/-- Plot 1 with a Security Officer card, whose session is live, and the signer 9. -/
def officerPlot : State :=
  let s := (linked.setPlot 1 { openPlot with signers := [(9, [4])], acr := { openPlot.acr with progSlots := 1 }, progs := [(0x400, 0)] })
  { s with cust := { s.cust with regs := [(1, { cards := [{ hash := [], role := 0, ix := 0 }] })], sess := [(0, some { scope := 1, role := 0, slot := 0, anchor := [], ends := 0 })] } }
theorem witness_signer_add : let d : Adm := { code := 0x120, inlen := 12, inl := onPlot1 (le 8 7), extLen := 97 }
    let s := serving d officerPlot
    Serves s d [] ∧ plotNamed d = true ∧ (s.plot d.pid).st ∈ createdToStopped ∧ holdsCard (popAdm s []) d.pid 0 = true ∧
      sessionLive (popAdm s []) d.pid 0 = true ∧ auditRoom (popAdm s []) = true ∧ (BitVec.ofNat 64 (fld d.inl 4 8) : W64) ≠ 0 ∧
      (s.plot d.pid).signers.length < 4 ∧ (∀ x ∈ (s.plot d.pid).signers, x.1 ≠ BitVec.ofNat 64 (fld d.inl 4 8)) ∧
      byteAt (fit 97 (le 1 4)) 0 = 4 := by
  unfold Serves; decide
theorem witness_signer_remove : let d : Adm := { code := 0x121, inlen := 12, inl := onPlot1 (le 8 9) }
    let s := serving d officerPlot
    Serves s d [] ∧ plotNamed d = true ∧ (∃ x ∈ (s.plot d.pid).signers, x.1 = BitVec.ofNat 64 (fld d.inl 4 8)) := by
  unfold Serves; decide
/-- An image of one word, program 0x401, signed by signer 9. -/
def image1 : Bytes := [0x53, 0x4D, 0x50, 0x47, 1, 1] ++ le 2 0x401 ++ le 4 4 ++ le 4 0 ++ le 4 1 ++ le 4 0 ++ le 8 9 ++ List.replicate 132 0
set_option maxRecDepth 8000 in
theorem witness_install : let d : Adm := { code := 0x122, inlen := 4, inl := onPlot1 [], extLen := 164 }
    let s := serving d (officerPlot.modPlot 1 fun pl => { pl with progs := [] })
    Serves s d [] ∧ plotNamed d = true ∧ imgOk image1 = true ∧ byteAt image1 5 ≤ 2 ∧
      ((s.plot d.pid).progs.find? fun x => x.1 == imgId image1) = none ∧
        (s.plot d.pid).progs.length < (s.plot d.pid).acr.progSlots ∧
      ((s.plot d.pid).signers.find? fun x => x.1 == imgSigner image1) = some (9, [4]) ∧
      findGranules (popAdm s []) (granules (imgCode image1)) = some 0 := by
  refine ⟨by unfold Serves; decide, rfl, rfl, by decide, rfl, by decide, rfl, rfl⟩
theorem witness_prog_remove : let d : Adm := { code := 0x123, inlen := 6, inl := onPlot1 (le 2 0x400) }
    let s := serving d officerPlot
    Serves s d [] ∧ plotNamed d = true ∧ ((s.plot d.pid).progs.find? fun x => x.1 == fld d.inl 4 2) = some (0x400, 0) ∧
      (s.plot d.pid).st ∈ createdToStopped ∧ sessionLive (popAdm s []) d.pid 0 = true := by
  unfold Serves; decide
theorem witness_prog_list : let d : Adm := { code := 0x124, inlen := 4, inl := onPlot1 [], resLen := 1024 }
    Serves (serving d officerPlot) d [] ∧ plotNamed d = true ∧ ((serving d officerPlot).plot d.pid).st ≠ .absent := by
  unfold Serves; decide
theorem witness_register : doorbellAt .managerM 0x50008 = none ∧ 0x50008 % 8 = 0 ∧ reach linked .pf0 = true ∧
    linked.adm.hop.en = false := by decide

/-- A module-wide command of an officer whose session is live. -/
def official (d : Adm) (s : State := linked) : State :=
  serving d { s with cust := { s.cust with sess := [(0, some { scope := modScope, role := 0, slot := 0, anchor := [], ends := 0 })] } }
theorem witness_lcs_advance : let d : Adm := { code := 0x180, inlen := 5, inl := [0, 0, 0, 0, 4] }
    let s := official d { linked with pwr := { linked.pwr with charged := true }, lcs := { linked.lcs with fuses := [16, 16, 16, 0, 0] } }
    Serves s d [] ∧ noPlot d = true ∧ byteAt d.inl 4 = s.lcs.state.toNat + 1 ∧ decodeFuses s.lcs.fuses = s.lcs.state.toNat ∧
      sessionLive (popAdm s []) modScope 0 = true ∧ 2400 ≤ s.kpr.kvbat ∧ s.pwr.charged = true := by
  unfold Serves; decide
theorem witness_lcs_wrong : let d : Adm := { code := 0x180, inlen := 5, inl := [0, 0, 0, 0, 5] }
    Serves (official d) d [] ∧ noPlot d = true ∧ byteAt d.inl 4 ≤ 5 ∧ byteAt d.inl 4 ≠ (official d).lcs.state.toNat + 1 := by
  unfold Serves; decide
theorem witness_lcs_status : let d : Adm := { code := 0x181, inlen := 4, inl := [0, 0, 0, 0], resLen := 64 }
    Serves (official d) d [] ∧ noPlot d = true := by
  unfold Serves; decide
theorem witness_fw_load : let d : Adm := { code := 0x182, inlen := 12, inl := List.replicate 12 0, extLen := 4096 }
    Serves (official d) d [] ∧ noPlot d = true ∧ fld d.inl 4 4 = 0 ∧ byteAt d.inl 8 = 0 ∧ zeros d.inl 9 3 = true := by
  unfold Serves; decide
theorem witness_fw_activate : let d : Adm := { code := 0x183, inlen := 5, inl := [0, 0, 0, 0, 1] }
    let s := (official d).setBank true { valid := true }
    Serves s d [] ∧ noPlot d = true ∧ byteAt d.inl 4 ≤ 1 ∧ s.lcs.change = .none ∧ (s.bank true).valid = true ∧
      (s.bank false).valid = true ∧
      ((official d).bank true).valid = false := by
  unfold Serves; decide
theorem witness_official : let d : Adm := { code := 0x184, inlen := 4, inl := [0, 0, 0, 0] }
    Serves (official d) d [] ∧ noPlot d = true ∧ sessionLive (popAdm (official d) []) modScope 0 = true := by
  unfold Serves; decide
theorem witness_reconfig : let d : Adm := { code := 0x186, inlen := 5, inl := [0, 0, 0, 0, 7] }
    Serves (official d) d [] ∧ noPlot d = true ∧ byteAt d.inl 4 < 8 ∧ (official d).lcs.change = .none := by
  unfold Serves; decide
theorem witness_export : let d : Adm := { code := 0x190, inlen := 8, inl := List.replicate 8 0, resLen := 288 }
    Serves (official d) d [] ∧ noPlot d = true ∧
      recordsFrom (official d).evr ((d.resLen - 224) / 64) (exportFrom (official d).evr (BitVec.ofNat 32 (fld d.inl 4 4))) = [] := by
  unfold Serves; decide
theorem witness_ack : let d : Adm := { code := 0x191, inlen := 8, inl := [0, 0, 0, 0, 5, 0, 0, 0] }
    let s := official d { linked with evr := { linked.evr with anyRead := true, read := 5 } }
    Serves s d [] ∧ noPlot d = true ∧ holdsCard (popAdm s []) modScope 4 = false ∧ s.evr.anyRead = true ∧
      ((BitVec.ofNat 32 (fld d.inl 4 4) : W32) - s.evr.acked).toNat ≤ (s.evr.read - s.evr.acked).toNat ∧
      (official d).evr.anyRead = false := by
  unfold Serves; decide

/-! ### Witnesses: the start, the supplies, the resets -/

/-- Right after main power: the phase reset, the privileged drills started, the check word as the keeper wrote it. -/
def starting : State :=
  ({ up with
    lcs := { up.lcs with phase := .reset, fuses := [16, 16, 16, 0, 0], bankA := { up.lcs.bankA with valid := true } }
    rng := { up.rng with started := true } } : State).setCab id

/-- A cabinet as the keeper wrote it verifies (R425). -/
theorem setCab_verifies (s : State) (f : Cabinet → Cabinet) : (s.setCab f).kpr.cab.verifies = true := beq_self_eq_true _

theorem witness_power : let s := State.reset
    s.pwr.good = false ∧ s.pwr.shutdown = false ∧ s.pwr.vio = true ∧ s.kpr.powered = true ∧ s.lcs.phase ≠ .inert ∧
      s.lcs.trimBlown = false := by decide
theorem witness_scrap : let s : State := { starting with lcs := { starting.lcs with fuses := [16, 16, 16, 16, 16] } }
    s.lcs.phase = .reset ∧ s.pwr.good = true ∧ s.pwr.shutdown = false ∧ s.lcs.trimBlown = false ∧
      decodeFuses s.lcs.fuses = 5 := by
  decide
theorem witness_inert : decodeFuses [16, 0, 16, 0, 0] = 6 := by decide
/-- What MODULE_START decides on. -/
def decided (s : State) : State :=
  let c := countStart s
  { c with lcs := { c.lcs with state := BitVec.ofNat 4 (decodeFuses s.lcs.fuses) } }
theorem witness_fallow : let s : State := { starting with kpr := { starting.kpr with fallowReq := true } }
    decodeFuses s.lcs.fuses = 3 ∧ fallowStart (decided s) = true := by decide
/-- The check of the cabinet and the mirror pass. -/
theorem starting_checks : mirrorBad (decided starting) 3 = false ∧ checkBad (decided starting) 3 true = false ∧
    checkBad (decided starting) 3 false = true := by
  have v : (decided starting).kpr.cab.verifies = true := setCab_verifies _ id
  refine ⟨rfl, ?_, ?_⟩ <;> (unfold checkBad; rw [v]; rfl)
theorem witness_start_fails : decodeFuses starting.lcs.fuses = 3 ∧ fallowStart (decided starting) = false ∧
    startFault (decided starting) { katFail := some 7 } 3 = some (3, 7, false) ∧
    startFault (decided starting) { checkWord := false } 3 = some (7, 0, false) ∧
    startFault (decided starting) { vaultOk := false } 3 = some (2, 0, true) := by
  obtain ⟨a, b, c⟩ := starting_checks
  refine ⟨rfl, rfl, ?_, ?_, ?_⟩
  · unfold startFault; rw [a, b]; rfl
  · unfold startFault; rw [a, c]; rfl
  · unfold startFault; rw [a, b]; rfl
theorem witness_start_ok : decodeFuses starting.lcs.fuses = 3 ∧ fallowStart (decided starting) = false ∧
    startFault (decided starting) {} 3 = none ∧ (decided starting).rng.started = true ∧
    ({ starting with rng := {} } : State).rng.started = false := by
  obtain ⟨a, b, _⟩ := starting_checks
  refine ⟨rfl, rfl, ?_, rfl, rfl⟩
  unfold startFault; rw [a, b]; rfl
theorem witness_charged : let s : State := { up with lcs := { up.lcs with phase := .starting } }
    s.lcs.phase = .starting ∧ s.lcs.restoring = false ∧ s.pwr.good = true := by decide
theorem witness_full : let s : State := { up with lcs := { up.lcs with phase := .live }, rng := { up.rng with claim := true } }
    s.lcs.phase = .live ∧ s.lcs.fallow = false ∧ s.rng.claim = true ∧ ones (BitVec.ofNat 32 0x0FFFFFFF) = 28 ∧
      ones (BitVec.ofNat 32 0xFFFF) = 16 ∧ ones (BitVec.ofNat 64 0x00FFFFFFFFFFFFFF) = 56 ∧
        ones (BitVec.ofNat 64 0x007FFFFFFFFFFFFF) < 56 := by
  decide
theorem witness_apply : (let s : State := { up with lcs := { up.lcs with change := .reconfig {} 1 } }
      allStopped s = true ∧ (1 : BitVec 3).getLsbD 1 = false ∧ s.lcs.change = .reconfig {} 1) ∧
    (let s : State := { up with lcs := { up.lcs with change := .activate {} true } }
     allStopped s = true ∧ s.lcs.change = .activate {} true) := by decide
theorem witness_events : let up : State := { up with pwr := { up.pwr with floor := 0 } }
    up.pwr.good = true ∧ up.lcs.phase ≠ .inert ∧ up.pwr.shutdown = false ∧ up.pwr.vio = true ∧ up.pwr.doze = false ∧
    up.tx 3 = none ∧ up.pwr.floor = 0 ∧ up.lcs.phase = .full ∧ quiet up = true ∧ reach linked .pf0 = true := by decide

/-! ### Witnesses: random numbers, the key plane, the keeper, hedgerow and debug port -/

theorem witness_sources : (∀ i : Fin 20, ((up.setSrc i.val { st := .live }).src i.val).st = .live) ∧ up.pwr.good = true ∧
    ((up.setSrc 19 { st := .excluded }).src 19).st = .excluded ∧
    (let x := (up.setSrc 19 { st := .starting, retests := 15, lastTest := 3 }).src 19
     x.st = .starting ∧ x.lastTest ≠ 0 ∧ 15 ≤ x.retests) ∧
    (let x := (up.setSrc 0 { st := .starting, retests := 14, lastTest := 3 }).src 0
     x.st = .starting ∧ x.lastTest ≠ 0 ∧ x.retests < 15) := by decide
theorem witness_conditioner : let s : State := { up with rng := { up.rng with claim := true } }
    s.pwr.good = true ∧ s.rng.claim = true ∧ s.rng.raw = false ∧ claimMet s = false := by decide
theorem witness_claim_timeout : let s : State := { up with lcs := { up.lcs with phase := .starting } }
    s.lcs.phase = .starting ∧ s.lcs.fallow = false ∧ s.rng.claim = false := by decide
theorem witness_claim_met : let s := ([0, 1, 2, 16, 17].foldl (fun (s : State) i => s.setSrc i { st := .live }) up)
    claimMet s = true := by decide
theorem witness_steward_port : let s : State := { up with stw := { up.stw with buf := List.replicate 8 0 } }
    8 ≤ s.stw.buf.length ∧ up.stw.buf.length < 8 := by decide
theorem witness_mask : let s : State := { up with rng := { up.rng with priv := [(3, { inst := true })] } }
    privReady s 3 = true ∧ privReady up 3 = false := by decide
theorem witness_bound : let s : State := { serving {} with rng := { linked.rng with keyWait := some {}, capture := some (0, {}) } }
    s.rng.keyWait = some {} ∧ s.adm.queue = {} :: [] ∧ s.rng.capture = some (0, {}) := by decide
theorem witness_raw : let d : Adm := { code := 0x150, inlen := 5, inl := [0, 0, 0, 0, 19], resLen := 65536 }
    let s := official d
    Serves s d [] ∧ noPlot d = true ∧ s.rng.raw = false ∧ byteAt d.inl 4 ≤ 19 ∧ s.lcs.state = 3 ∧
      sessionLive (popAdm s []) modScope 0 = true := by
  unfold Serves; decide
theorem witness_rehash : let s : State := { up with kp := { up.kp with run := true, sweep := 5 } }
    s.kp.run = true ∧ s.kp.sweep + 1 < kitBuckets ∧ (∀ i ∈ waysOf s.kp.sweep, (kitAt s.kp i).valid = false) ∧
      up.kp.run = false := by
  decide
theorem witness_walk (l : Learn) (w : Learner) : ({ up.kp with walkq := [(l, w)] } : KeyPlane).walkq = (l, w) :: [] := rfl
theorem witness_vault_save : let d : Adm := { code := 0x130, inlen := 12, inl := onPlot1 (le 8 0), resLen := 128 }
    let s := serving d (plot1 .opened)
    Serves s d [] ∧ plotNamed d = true ∧ (s.plot d.pid).st ∈ createdToStopped := by
  unfold Serves; decide
theorem witness_vault_load : let d : Adm := { code := 0x131, inlen := 4, inl := onPlot1 [], extLen := 128 }
    let s := serving d (plot1 .opened)
    Serves s d [] ∧ plotNamed d = true ∧ (s.plot d.pid).st ∈ createdToStopped ∧ d.extLen % 128 = 0 ∧ d.extLen ≠ 0 := by
  unfold Serves; decide
theorem witness_curve_load : let d : Adm := { code := 0x140, inlen := 4, inl := onPlot1 [], extLen := 488 }
    let s := serving d { plot1 .opened with rng := { linked.rng with priv := [(0, { inst := true })] } }
    Serves s d [] ∧ plotNamed d = true ∧ (s.plot d.pid).st ∈ createdToStopped ∧ privReady (popAdm s []) 0 = true ∧
      curveOf (popAdm s []) d.pid (curvePset 15) = [] ∧ auditRoom (drawn (privGen (popAdm s []) 0) 1) = true := by
  unfold Serves; decide
theorem witness_curve_clear : let d : Adm := { code := 0x141, inlen := 5, inl := onPlot1 [15] }
    let s := serving d (plot1 .opened)
    Serves s d [] ∧ plotNamed d = true ∧ (s.plot d.pid).st ∈ createdToStopped ∧ byteAt d.inl 4 ≤ 15 ∧
      auditRoom (popAdm s []) = true ∧ curveUsed (popAdm s []) d.pid (curvePset 15) = false := by
  unfold Serves; decide

theorem witness_sensor : senses up 14 = true ∧ up.kpr.lcs ≠ 0 ∧
    senses { up with kpr := { up.kpr with live := 0x4000 } } 14 = false := by
  decide
theorem witness_keeper : (let s : State := { up with kpr := { up.kpr with powered := false } }
      s.kpr.powered = false) ∧ (State.reset.pwr.good = false ∧ State.reset.kpr.powered = true) ∧
    (up.kpr.powered = true ∧ up.kpr.batLow = false ∧ up.pwr.good = true) ∧
    (let s : State := { up with kpr := { up.kpr with opmin := 59 } }
     (s.kpr.opmin + 1).toNat % 60 = 0 ∧ (up.kpr.opmin + 1).toNat % 60 ≠ 0) := by decide
theorem witness_response : up.pwr.good = true ∧ up.pwr.shutdown = false ∧ up.lcs.phase ≠ .inert ∧ up.pwr.vio = true := by decide
theorem witness_loop_set : let d : Adm := { code := 0x160, inlen := 5, inl := [0, 0, 0, 0, 15] }
    Serves (serving d) d [] (tamper := true) (standby := true) ∧ noPlot d = true ∧ byteAt d.inl 4 < 16 ∧
      holdsCard (popAdm (serving d) []) modScope 0 = false := by
  unfold Serves; decide
theorem witness_rearm : let d : Adm := { code := 0x161, inlen := 4, inl := [0, 0, 0, 0] }
    let s := official d { linked with kpr := { linked.kpr with tampered := true } }
    Serves s d [] (tamper := true) (standby := true) (lim := 5) ∧ noPlot d = true ∧ sessionLive (popAdm s []) modScope 0 = true ∧
      s.kpr.tampered = true ∧ (∀ x ∈ s.plots, x.2.st = .absent) ∧ s.kpr.live = 0 ∧ s.lcs.state ≠ 4 := by
  unfold Serves; decide

theorem witness_hold : up.hdg.hold = false ∧ { up.hdg with hold := true }.hold = true := by decide
theorem witness_lock : let s : State := { up with hdg := { up.hdg with cfg := [(255, 0x80000000)] } }
    hdgLock (tget 0 s.hdg.cfg 255) = true ∧ hdgLock (tget 0 s.hdg.cfg 0) = false ∧ hdgSize 0x120 = 32 ∧ hdgSize 0x10F = 15 ∧
      hdgSize ((0x120 : W32) &&& 0x80FF013F#32) = 32 := by decide
theorem witness_decider : twf 0 openHedge.cfg = true ∧ decider openHedge 5 = some 0 ∧ decider {} 5 = none := by decide
theorem witness_refused : firstForbidden {} 0 0 5 1 = some 5 := by
  unfold firstForbidden bytePermitted
  have : decider {} 5 = none := by decide
  rw [this, Bool.and_false]; rfl
theorem witness_debug : let s : State := { up with dbg := { up.dbg with rights := 0xF }, lcs := { up.lcs with state := 1 } }
    s.pwr.vio = true ∧ s.pwr.good = true ∧ s.lcs.state.toNat ≤ 1 ∧ s.lcs.phase ≠ .inert ∧ (rights s).getLsbD 0 = true ∧
      (rights s).getLsbD 1 = true ∧ (rights s).getLsbD 2 = true ∧ (rights up).getLsbD 2 = false ∧
        1 < up.lcs.state.toNat := by decide
theorem witness_debug_access : firstForbidden openHedge 7 1 (4096 * Config.memPage) 1 = none ∧
    firstForbidden openHedge 7 0 (4096 * Config.memPage) 1 = none := by
  have b : Config.memPage < 1046017 := Nat.mod_lt _ (by omega)
  have p := fun ty (h : ty < 3) => memory_permitted 7 ty (4096 * Config.memPage) (by decide) h (by omega) (by omega)
  simp only [firstForbidden, p 0 (by decide), p 1 (by decide), if_true, and_self]
theorem witness_challenge : let s : State := { up with rng := { up.rng with priv := [(1, { inst := true })] } }
    privReady s 1 = true ∧ tokenOk s [] = false := by decide
theorem witness_consent : let d : Adm := { code := 0x178, inlen := 40, inl := le 2 modScope ++ [0, 0] ++ List.replicate 32 0 ++ [15, 0, 0, 0] }
    let s := official d
    Serves s d [] ∧ s.lcs.state = 3 ∧ d.pid = modScope ∧ zeros d.inl 2 2 = true ∧ byteAt d.inl 36 < 16 ∧ zeros d.inl 37 3 = true ∧
      sessionLive (popAdm s []) modScope 0 = true ∧ auditRoom (popAdm s []) = true := by
  unfold Serves; decide

/-! ### Witnesses: custodians -/

/-- A scope whose officer has a session, with a PED enrolled. -/
def custody (d : Adm) (cards : List Card := []) (sess : List (Nat × Option Session) := []) : State :=
  let s := linked.setPlot 1 openPlot
  serving d { s with cust := { s.cust with
    ped := [4], regs := [(1, { cards := cards })]
    sess := sess ++ [(1, some { scope := 1, role := 0, slot := 0, anchor := [7], ends := 0 })] } }
/-- A card of the Security Officer. -/
def card (n : Byte) : Card := { hash := List.replicate 32 n, role := 0, ix := n.toNat }

theorem witness_enrol : let d : Adm := { code := 0x170, inlen := 6, inl := onPlot1 [4, 0] }
    let s := custody d
    Serves s d [] ∧ scopeNamed d = true ∧ zeros d.inl 5 1 = true ∧ sessionLive (popAdm s []) d.pid 0 = true ∧ s.cust.op = .idle ∧
      roleOk (popAdm s []) d = true ∧ s.cust.ped ≠ [] ∧ auditRoom (popAdm s []) = true ∧ slotFree (popAdm s []) = true ∧
      roleCards ((popAdm s []).registry d.pid) 4 < 16 := by
  unfold Serves; decide
theorem witness_revoke : let d : Adm := { code := 0x171, inlen := 36, inl := onPlot1 (List.replicate 32 3) }
    let s := custody d [card 1, card 2, card 3]
    let r := (popAdm s []).registry d.pid
    Serves s d [] ∧ scopeNamed d = true ∧ (r.cards.find? fun x => x.hash == cut d.inl 4 32) = some (card 3) ∧
      roleM r 0 < roleCards r 0 := by
  unfold Serves; decide
theorem witness_set_m : let d : Adm := { code := 0x172, inlen := 6, inl := onPlot1 [0, 2] }
    let s := custody d [card 1, card 2]
    Serves s d [] ∧ scopeNamed d = true ∧ roleOk (popAdm s []) d = true ∧ 2 ≤ byteAt d.inl 5 ∧
      byteAt d.inl 5 ≤ roleCards ((popAdm s []).registry d.pid) 0 := by
  unfold Serves; decide
theorem witness_session_open : let d : Adm := { code := 0x173, inlen := 6, inl := onPlot1 [1, 0] }
    let s := custody d
    Serves s d [] ∧ scopeNamed d = true ∧ s.cust.op = .idle ∧ roleOk (popAdm s []) d = true ∧
      sessionLive (popAdm s []) d.pid 1 = false ∧ (popAdm s []).session 0 = none := by
  unfold Serves; decide
theorem witness_session_end : let d : Adm := { code := 0x174, inlen := 6, inl := onPlot1 [2, 0] }
    let x : Session := { scope := 1, role := 2, slot := 1, anchor := [], ends := 0 }
    let s := custody d [] [(0, some x)]
    Serves s d [] ∧ scopeNamed d = true ∧ (popAdm s []).session 0 = some x ∧ x.scope = d.pid ∧ x.role = byteAt d.inl 4 := by
  unfold Serves; decide
theorem witness_ceremony : let d : Adm := { code := 0x175, inlen := 24, inl := onPlot1 (le 8 7 ++ [0x10, 2, 3, 0, 0, 0, 0, 0, 0, 0, 0, 0]) }
    let s := { custody d with lan := { linked.lan with live := 1 } }
    Serves s d [] ∧ scopeNamed d = true ∧ zeros d.inl 21 3 = true ∧ s.cust.op = .idle ∧ slotFree (popAdm s []) = true ∧
      d.pid ≠ modScope ∧ (s.plot d.pid).st ∈ createdToStopped ∧ cerOk d = true ∧ auditRoom (popAdm s []) = true ∧
      allocCtx (popAdm s []) = some 0 := by
  unfold Serves; decide
theorem witness_cancel : let d : Adm := { code := 0x176, inlen := 4, inl := onPlot1 [] }
    let c := custody d
    let s : State := { c with cust := { c.cust with op := .enrol, scope := 1 } }
    Serves s d [] ∧ scopeNamed d = true ∧ s.cust.op ≠ .idle ∧ s.cust.scope = d.pid := by
  unfold Serves; decide
theorem witness_ped : let d : Adm := { code := 0x177, inlen := 4, inl := le 2 modScope ++ [0, 0], extLen := 65 }
    Serves (official d) d [] ∧ scopeNamed d = true ∧ d.pid = modScope ∧ sessionLive (popAdm (official d) []) d.pid 0 = true ∧
      byteAt (fit 65 [4]) 0 = 4 := by
  unfold Serves; decide
/-- An interaction under way. -/
def acting (op : CustOp) (step : AuthStep) : State := { linked with
  cust := { linked.cust with op := op, step := step, ped := [4] }, rng := { linked.rng with priv := [(1, { inst := true })] } }
theorem witness_insert : let s := acting .enrol .card
    s.pwr.good = true ∧ s.pwr.shutdown = false ∧ cardIn s 1 = [] ∧ s.cust.op = .enrol ∧ s.cust.step = .card ∧
      anchored s 1 = false ∧ privReady s 1 = true ∧ (s.registry s.cust.scope).cards = [] := by decide
theorem witness_card_answers : (acting .enrol .cardPin).cust.op ≠ .idle ∧ (acting .enrol .cardPin).cust.slot = 0 ∧
    (acting .enrol .cardPin).cust.step = .cardPin ∧ (acting .enrol .sign).cust.step = .sign ∧
      (acting .enrol .sign).cust.counted = [] := by
  decide
theorem witness_console : let s := acting .enrol .pin
    s.pwr.good = true ∧ s.cust.ped ≠ [] ∧ s.cust.conSeq.toNat ≤ (0 : W32).toNat ∧ s.cust.conBad < 2 ∧
      2 ≤ ({ s.cust with conBad := 2 } : Cust).conBad := by decide
theorem witness_assembly : (acting .assembly .card).cust.op = .assembly ∧ (acting .ceremony .pin).cust.op = .ceremony ∧
    (acting .ceremony .pin).cust.step ≠ .card ∧ (acting .ceremony .pin).cust.slot = (0 : Fin 2).val ∧
    (acting .idle .card).cust.op = .idle ∧ (acting .idle .card).session 0 = none ∧ (acting .idle .card).session 1 = none ∧
    twf none linked.cust.sess = true ∧ (∃ x, (custody {}).session 1 = some x) := by
  refine ⟨by decide, by decide, by decide, by decide, by decide, by decide, by decide, by decide, ⟨_, rfl⟩⟩

/-! ### Witnesses: the Reile link, the domain, pairs -/

/-- Node 1 of a domain whose session with node 2 is `x`. -/
def node1 (x : Sess) (f : Cluster → Cluster := id) : State := { linked with clu := f { linked.clu with
  joined := true, node := 1, members := [{ node := 1, mask := 3, ver := 2, mac := [] }, { node := 2, mask := 3, ver := 2, mac := [] }]
  sess := [(2, x)], link := [(0, true), (1, true)] } }
/-- A frame of node 2. -/
def from2 : Hdr := { src := 2, dst := 1, seq := 5, ackReq := false }
/-- A session that is up. -/
def upSess : Sess := { hs := .up, ver := 2, synced := true }

theorem witness_frame : FrameIn (node1 upSess) from2 := by unfold FrameIn; decide
theorem witness_frame_oldest : FrameIn (node1 { upSess with rxHigh := 1028, rxSeen := [1028] }) from2 := by unfold FrameIn; decide
theorem witness_bad_tag : addressed (node1 upSess) from2 = true ∧ ((node1 upSess).sess 2).hs = .up ∧
    ({ from2 with tagOk := false } : Hdr).tagOk = false := by decide
theorem witness_seen : let s := node1 { upSess with rxSeen := [5] }
    addressed s from2 = true ∧ (s.sess 2).hs = .up ∧ from2.tagOk = true ∧ from2.kph = (s.sess 2).kph ∧
      from2.seq ∈ (s.sess 2).rxSeen := by
  decide
theorem witness_not_mine : addressed (node1 upSess) { from2 with dst := 3 } = false := by decide
theorem witness_port : (node1 {}).pwr.good = true ∧ tget false (node1 {}).clu.link 0 = true ∧
    tget false linked.clu.link 1 = false := by
  decide
theorem witness_hello : let s := node1 { hs := .helloSent }
    s.clu.joined = true ∧ from2.dst.toNat = s.clu.node ∧ from2.src.toNat ≠ s.clu.node ∧ helloOk s from2 9 [] [] = false ∧
      (s.sess 2).hs = .helloSent := by decide
theorem witness_kex : let s : State := { node1 { hs := .helloSent, heard := true } with
      clu := { (node1 { hs := .helloSent, heard := true }).clu with node := 3, members := [{ node := 2, mask := 3, ver := 2, mac := [] }] } }
    let h : Hdr := { from2 with dst := 3 }
    addressed s h = true ∧ (s.sess 2).heard = true ∧ (s.sess 2).hs = .helloSent ∧ h.src.toNat < s.clu.node := by decide
theorem witness_reply : (let s := node1 { hs := .kexSent, heard := true }
     addressed s from2 = true ∧ (s.sess 2).heard = true ∧ (s.sess 2).hs = .kexSent) ∧
    (let s := node1 { hs := .replySent, heard := true }
     addressed s from2 = true ∧ (s.sess 2).heard = true ∧ (s.sess 2).hs = .replySent) := by decide
theorem witness_rekey : (let s := node1 upSess
     FrameIn s from2 ∧ (s.sess 2).rk = .idle ∧ ((frameTaken s from2 false).sess 2).rk = .idle) ∧
    (let s := node1 { upSess with rk := .kexSent }
     FrameIn s from2 ∧ ((frameTaken s from2 false).sess 2).rk = .kexSent) := by unfold FrameIn; decide
theorem witness_resend : let s := node1 { upSess with unacked := [(7, .pairSwap, 32), (8, .pairSwap, 31)] }
    (s.sess 2).hs = .up ∧ ((s.sess 2).unacked.find? fun u => u.1 == 7) = some (7, .pairSwap, 32) ∧
      ((s.sess 2).unacked.find? fun u => u.1 == 8) = some (8, .pairSwap, 31) := ⟨rfl, rfl, rfl⟩

/-- Node 1 with plot 1 bound to domain key 9. -/
def bound : State := (node1 upSess).setPlot 1 { openPlot with dtid := 9, acr := { openPlot.acr with kitQuota := 1, kcQuota := 1 } }
theorem witness_shared : FrameIn bound from2 ∧ ((frameTaken bound from2 false).sess 2).synced = true ∧
    boundPlot (frameTaken bound from2 false) 9 = some 1 ∧ 2 ≤ ((frameTaken bound from2 false).sess 2).ver.toNat ∧
    homeHolds (frameTaken bound from2 false) 9 = true ∧
    homeHolds { bound with clu := { bound.clu with hasSd := true } } 9 = false := by unfold FrameIn; decide
theorem witness_share_empty (n : W64) : kitFind (frameTaken bound from2 false) 1 n false = none := empty_kit _ _ _ _ rfl rfl
theorem witness_old_peer : FrameIn (node1 { upSess with ver := 1 }) from2 ∧
    ((frameTaken (node1 { upSess with ver := 1 }) from2 false).sess 2).ver.toNat < 2 := by unfold FrameIn; decide

/-- A cluster command on node 1, its officer's session live. -/
def clusterCmd (d : Adm) (x : Sess := upSess) (f : Cluster → Cluster := id) : State := official d (node1 x f)
theorem witness_join : let d : Adm := { code := 0x1A0, inlen := 12, inl := [0, 0, 0, 0, 1, 0, 0, 0, 9, 0, 0, 0], extLen := 98 }
    let s := clusterCmd d
    Serves s d [] ∧ s.lcs.state = 3 ∧ noPlot d = true ∧ byteAt d.inl 6 = 0 ∧ byteAt d.inl 7 = 0 ∧
      sessionLive (popAdm s []) modScope 0 = true ∧ fld d.inl 4 2 ≤ 4095 := by
  unfold Serves; decide
theorem witness_members : let d : Adm := { code := 0x1A1, inlen := 4, inl := [0, 0, 0, 0], extLen := 16 }
    let s := clusterCmd d
    let es := tableEntries (fit 16 [1, 0, 3, 2])
    Serves s d [] ∧ s.clu.joined = true ∧ es.all memberOk = true ∧ (∃ m ∈ es.map memberOf, m.node = s.clu.node) ∧
      ((es.map memberOf).map (·.node)).eraseDups.length = (es.map memberOf).length := by
  refine ⟨by unfold Serves; decide, by decide, by decide, by decide, by decide⟩
theorem witness_leave : let d : Adm := { code := 0x1A2, inlen := 4, inl := [0, 0, 0, 0] }
    Serves (clusterCmd d) d [] ∧ noPlot d = true ∧ (clusterCmd d).clu.joined = true ∧ (official d).clu.joined = false ∧
      Serves (official d) d [] := by
  unfold Serves; decide
theorem witness_bind : let d : Adm := { code := 0x1A3, inlen := 9, inl := onPlot1 (le 4 9 ++ [0]) }
    let s := serving d bound
    Serves s d [] ∧ plotNamed d = true ∧ byteAt d.inl 8 = 0 ∧ s.clu.joined = true ∧ (s.plot d.pid).st ∈ createdToStopped ∧
      (∀ x ∈ s.plots, x.1 ≠ d.pid → x.2.st ≠ .absent → x.2.dtid ≠ BitVec.ofNat 32 (fld d.inl 4 4)) := by
  unfold Serves; decide
theorem witness_pair : let d : Adm := { code := 0x1A4, inlen := 8, inl := [0, 0, 0, 0, 2, 0, 1, 0] }
    Serves (clusterCmd d) d [] ∧ byteAt d.inl 6 = 1 ∧ pairOk (popAdm (clusterCmd d) []) 2 = true ∧
      allAbsent (popAdm (clusterCmd d) []) = true ∧
      pairOk (popAdm (clusterCmd d {}) []) 2 = false := by
  unfold Serves; decide
theorem witness_unpair_swap : let d : Adm := { code := 0x1A6, inlen := 4, inl := [0, 0, 0, 0] }
    let s := clusterCmd d upSess fun c => { c with role := 1, peer := 2, peerSwap := true }
    Serves s d [] ∧ s.clu.role = 1 ∧ s.clu.suspect = false ∧ s.clu.peerSwap = true ∧ s.lcs.change = .none := by
  unfold Serves; decide
theorem witness_promote : let d : Adm := { code := 0x1A7, inlen := 4, inl := [0, 0, 0, 0] }
    let s := clusterCmd d upSess fun c => { c with role := 3 }
    s.adm.queue = d :: [] ∧ s.lcs.fallow = false ∧ s.kpr.tampered = false ∧ s.lcs.state = 3 ∧
      sessionLive (popAdm s []) modScope 0 = true ∧ s.clu.role = 3 ∧ (clusterCmd d).clu.role ≠ 3 := by decide
theorem witness_standby : let s := node1 upSess fun c => { c with role := 2, peer := 2 }
    FrameIn s from2 ∧ (frameTaken s from2 false).clu.role = 2 ∧ (frameTaken s from2 false).clu.peer = 2 ∧
      (frameTaken s from2 false).clu.stream = [] ∧ (frameTaken s from2 false).clu.pairAdm = none ∧
      fwdYoke (frameTaken s from2 false) 4 = none := by unfold FrameIn; decide
theorem witness_standby_busy : let s := node1 upSess fun c => { c with role := 2, peer := 2, stream := [.pairSwap] }
    FrameIn s from2 ∧ (frameTaken s from2 false).clu.stream ≠ [] := ⟨by unfold FrameIn; decide, List.cons_ne_nil _ _⟩
theorem witness_active : let s := node1 upSess fun c => { c with role := 1, peer := 2, sent := [(0, 1)] }
    FrameIn s from2 ∧ (frameTaken s from2 false).clu.role = 1 ∧ (frameTaken s from2 false).clu.suspect = false ∧
      ((0 : W64), 1) ∈ (frameTaken s from2 false).clu.sent ∧ batchDigest (frameTaken s from2 false) 0 1 = none := by
  unfold FrameIn; decide
theorem witness_times : (let s := node1 upSess fun c => { c with role := 1, peer := 2, seq := 1 }
     s.clu.role = 1 ∧ s.clu.seq ≠ s.clu.batch ∧ (s.sess s.clu.peer).hs = .up ∧ portUp s 0 = true) ∧
    (let s := node1 upSess fun c => { c with role := 2, suspect := true }
     s.clu.role = 2 ∧ s.clu.suspect = true) ∧
    (let s := node1 upSess fun c => { c with role := 2 }
     s.clu.role = 2 ∧ s.clu.suspect = false ∧ s.clu.hold = false) ∧
    (let s := node1 upSess fun c => { c with syncing := true, pairAdm := some {}, willing := true }
     s.clu.syncing = true ∧ s.clu.pairAdm = some {} ∧ s.clu.willing = true) ∧
    (let s := node1 upSess fun c => { c with syncing := true }
     s.clu.syncing = true ∧ s.clu.pairAdm = none) := by decide
theorem witness_swap : let n := node1 upSess fun c => { c with role := 1, peer := 2 }
    let s : State := { n with lcs := { n.lcs with change := .swap {} } }
    s.lcs.change = .swap {} ∧ s.clu.role = 1 ∧ s.clu.suspect = false ∧ allStopped s = true ∧ allAcked s = true := by decide

/-! ### Witnesses: lane jobs -/

/-- A two-key TDES key, an AES-256 key and an HMAC key, with every attribute, their tags as R270 has them. -/
def keys3 : Tbl Slot := [
  { used := true, attr := 0xFFFFF, alg := 0x01, len := 16, material := List.replicate 16 1 },
  { used := true, attr := 0xFFFFF, alg := 0x12, len := 32, material := List.replicate 32 1 },
  { used := true, attr := 0x30, alg := 0x20, len := 32, material := List.replicate 32 1 },
  { used := true, attr := 0x20003, alg := 0x12, len := 32, material := List.replicate 32 1 }].zipIdx.map fun x =>
    (x.2, tagged up.kp x.1)
def handle3 (i : Nat) : Handle := { slot := i, name := 7, pinned := false, derived := false, shared := false }
/-- A policy set that allows every algorithm and PIN format, PINs of 4 to 12 digits. -/
def openPolicy : Bytes := List.replicate 14 0xFF ++ [4, 12] ++ List.replicate 496 0xFF
/-- A job descriptor: type, flags, SIN, SOUT, two handles, three lengths, PARAM. -/
def jobDesc (ty fl sin sout h1 h2 n1 n2 n3 : Nat) (param : Bytes) : Bytes :=
  le 2 ty ++ le 2 fl ++ [BitVec.ofNat 8 sin, BitVec.ofNat 8 sout, 0, 0] ++ le 4 h1 ++ le 4 h2 ++ le 2 (if n1 = 0 then 0 else 0x200) ++ le 2 n1 ++
    le 2 (if n2 = 0 then 0 else 0x300) ++ le 2 n2 ++ le 2 (if n3 = 0 then 0 else 0x400) ++ le 2 n3 ++ le 4 0 ++ fit 32 param
/-- Lane job 0 of the transaction of these tests, and the transaction. -/
def laneJob (d : Bytes) : Job := { engine := false, desc := d, st := .running }
def laneTx (d : Bytes) : Tx :=
  { ({ plot := 0, hop := 0, phase := .running, deadline := 100000 } : Tx).setJob 0 (some (laneJob d)) with
    policy := openPolicy, handles := [handle3 0, handle3 1, handle3 2, handle3 3] }
/-- Yoke 0 with that job running on lane 0's context 0. -/
def laneUp (d : Bytes) (b : Mem := []) (seals : Tbl Sealed := []) : State :=
  let s : State := { up with
    kp := { up.kp with slots := keys3 }
    lan := { up.lan with live := 1, ctx := [(0, { bound := .tx 0, job := some (0, 0), seals := seals })] } }
  s.setYoke 0 { bench := b, tx := some (laneTx d) }
/-- The job as it stands past its checks. -/
def lanePast (s : State) (d : Bytes) (ev : LaneEv) : LJ :=
  let ks := laneKeys s (laneTx d) d 0
  { y := 0, j := 0, t := laneTx d, d := d, u := 0, k1 := ks.1, k2 := ks.2,
    sin := if byteAt d 4 = 0 then {} else sealReg s 0 (byteAt d 4), ev := ev }
/-- Every check of Table 8.1 but the slot tags', which `keys3` meets. -/
def laneOpen (s : State) (d : Bytes) (ev : LaneEv) (sp : LaneSpec) : Bool :=
  let q := lanePast s d ev
  let tdes := (sp.k1 && isTdes q.k1.alg) || (sp.k2 && isTdes q.k2.alg)
  laneStatic sp d && !(namedHandles (laneTx d) d).any (·.isNone) &&
    !((sp.k1 && expired s q.k1.expiry) || (sp.k2 && expired s q.k2.expiry)) && sp.use q.k1 q.k2 q.sin &&
    !(tdes && (!bit (polAlg openPolicy) 0 || (sp.dukpt && !bit (polAlg openPolicy) 1))) && sp.pin &&
    !(sp.record && !auditRoom s)

/-- The slots of `keys3` carry the tags of their content. -/
theorem keys3_tags (d : Bytes) (b : Mem) (seals : Tbl Sealed) (i : Nat) (h : i < 4) : tagOk (laneUp d b seals) i = true := by
  have : i = 0 ∨ i = 1 ∨ i = 2 ∨ i = 3 := by omega
  rcases this with rfl | rfl | rfl | rfl <;> exact beq_self_eq_true (Config.slotTag _ _)
theorem lane_tags (d : Bytes) (b : Mem) (seals : Tbl Sealed) (ev : LaneEv) (h : ∀ k, ev ≠ .tagFail k) :
    badTag (laneUp d b seals) (laneTx d) d ev = none := by
  have held : ∀ v x, heldHandle (laneTx d) v = some x → tagOk (laneUp d b seals) x.slot = true := by
    intro v x e
    unfold heldHandle at e
    split at e
    · rename_i z hz
      split at e
      · cases e
        have m := List.mem_of_getElem? hz
        simp only [laneTx, List.mem_cons, List.not_mem_nil, or_false] at m
        rcases m with rfl | rfl | rfl | rfl <;> exact keys3_tags _ _ _ _ (by decide)
      · cases e
    · cases e
  have ev' : ∀ k, (ev == LaneEv.tagFail k) = false := fun k => beq_eq_false_iff_ne.mpr (h k)
  unfold badTag
  dsimp only
  have one : ∀ v k, (match heldHandle (laneTx d) v with
      | some z => if v ≠ 0 ∧ (!tagOk (laneUp d b seals) z.slot || ev == LaneEv.tagFail (Fin.ofNat 4 k)) = true then some z.slot else none
      | none => none) = none := by
    intro v k
    split
    · rename_i z hz
      rw [held v z hz, ev']; simp
    · rfl
  exact congr (congrArg Option.or (one _ 0)) (one _ 1)
theorem lane_past (d : Bytes) (b : Mem) (seals : Tbl Sealed) (ev : LaneEv) (ty : Nat)
    (spec : State → Bytes → Tx → Bytes → Nat → LaneSpec) (h0 : (laneUp d b seals).tx 0 = some (laneTx d)) (h1 : (∀ k, ev ≠ .tagFail k) ∧ ev ≠ .benchUnc)
    (h2 : laneReady (laneTx d) 0 ty = some (laneJob d))
    (h3 : laneOpen (laneUp d b seals) d ev (spec (laneUp d b seals) (benchRange (laneUp d b seals) 0 0 (jIn d)) (laneTx d) d 0) = true) :
    LanePast (laneUp d b seals) 0 0 ev ty spec (laneTx d) (laneJob d) (lanePast (laneUp d b seals) d ev) := by
  refine ⟨show pllUp up 2 = true by decide, h0, h2, ?_, fun e => absurd e h1.2⟩
  generalize hsp : spec (laneUp d b seals) (benchRange (laneUp d b seals) (0 : YokeId).val (0 : JobIx).val (jIn (laneJob d).desc)) (laneTx d)
    (laneJob d).desc (laneJob d).unit = sp at *
  have h3 : laneOpen (laneUp d b seals) d ev sp = true := by rw [← hsp]; exact h3
  unfold laneOpen at h3
  simp only [Bool.and_eq_true, Bool.not_eq_true'] at h3
  obtain ⟨⟨⟨⟨⟨⟨a, n⟩, e⟩, u⟩, t⟩, p⟩, r⟩ := h3
  have a : laneStatic sp (laneJob d).desc = true := a
  have n : (namedHandles (laneTx d) (laneJob d).desc).any (·.isNone) = false := n
  have bt : badTag (laneUp d b seals) (laneTx d) (laneJob d).desc ev = none := lane_tags d b seals ev h1.1
  unfold laneGate
  rw [a, n, bt]
  dsimp only
  unfold lanePast at e u t
  have e : ((sp.k1 && expired (laneUp d b seals) (laneKeys (laneUp d b seals) (laneTx d) (laneJob d).desc (laneJob d).unit).1.expiry) ||
    (sp.k2 && expired (laneUp d b seals) (laneKeys (laneUp d b seals) (laneTx d) (laneJob d).desc (laneJob d).unit).2.expiry)) = false := e
  rw [e]
  have u : sp.use (laneKeys (laneUp d b seals) (laneTx d) (laneJob d).desc (laneJob d).unit).1
    (laneKeys (laneUp d b seals) (laneTx d) (laneJob d).desc (laneJob d).unit).2
    (if byteAt (laneJob d).desc 4 = 0 then {} else sealReg (laneUp d b seals) (laneJob d).unit (byteAt (laneJob d).desc 4)) = true := u
  rw [u]
  have t : ((sp.k1 && isTdes (laneKeys (laneUp d b seals) (laneTx d) (laneJob d).desc (laneJob d).unit).1.alg ||
    sp.k2 && isTdes (laneKeys (laneUp d b seals) (laneTx d) (laneJob d).desc (laneJob d).unit).2.alg) &&
    (!bit (polAlg (laneTx d).policy) 0 || (sp.dukpt && !bit (polAlg (laneTx d).policy) 1))) = false := t
  rw [t, p, r]
  rfl
def hT : Nat := 0x80000000
def hA : Nat := 0x81000001
def hH : Nat := 0x82000002
/-- PANF with a PAN of 16 digits. -/
def pan16 : Bytes := [16, 0, 0x12, 0x34, 0x56, 0x78, 0x90, 0x12, 0x34, 0x56, 0xFF, 0xFF]
/-- A sealed PIN of four digits. -/
def sealedPin : Tbl Sealed := [(0, { tag := .pin 4, val := [1, 2, 3, 4] })]

theorem witness_xlate : ∃ t x q, LanePast (laneUp (jobDesc 0x01 0 0 0 hT hA 8 0 16 ([0, 4] ++ pan16))) 0 0 .ok 0x01 specXlate t x q :=
  ⟨_, _, _, lane_past _ _ _ _ _ _ rfl (by decide) (by decide) (by decide)⟩
theorem witness_pin_open : ∃ t x q, LanePast (laneUp (jobDesc 0x02 1 0 0x80 hT 0 8 0 0 ([0, 0] ++ pan16))) 0 0 .ok 0x02 specOpen t x q :=
  ⟨_, _, _, lane_past _ _ _ _ _ _ rfl (by decide) (by decide) (by decide)⟩
theorem witness_reseal :
    ∃ t x q, LanePast (laneUp (jobDesc 0x03 1 0x80 0 0 hT 0 0 8 ([0, 0] ++ pan16)) [] sealedPin) 0 0 .ok 0x03 specReseal t x q :=
  ⟨_, _, _, lane_past _ _ _ _ _ _ rfl (by decide) (by decide) (by decide)⟩
/-- The descriptor of a PIN_VER_3624 on the sealed PIN. -/
def d3624 : Bytes := jobDesc 0x04 1 0x80 0 0 hT 0 8 0 ([0, 4] ++ List.replicate 12 0 ++
  [0x01, 0x23, 0x45, 0x67, 0x89, 0x01, 0x23, 0x45, 0x12, 0x34, 0xFF, 0xFF, 0xFF, 0xFF])
theorem witness_3624 : ∃ t x q pin, LanePast (laneUp d3624 [] sealedPin) 0 0 .ok 0x04 spec3624 t x q ∧
    verifyPin (laneAt (laneUp d3624 [] sealedPin) 0 .ok x q) q = .ok pin :=
  ⟨_, _, _, _, lane_past _ _ _ _ _ _ rfl (by decide) (by decide) (by decide), rfl⟩
theorem witness_pvv :
    ∃ t x q, LanePast (laneUp (jobDesc 0x05 1 0x80 0 0 hT 0 0 0 ([0, 1] ++ pan16 ++ [0x12, 0x34])) [] sealedPin) 0 0 .ok 0x05 specPvv t x q :=
  ⟨_, _, _, lane_past _ _ _ _ _ _ rfl (by decide) (by decide) (by decide)⟩
theorem witness_cvv : ∃ t x q, LanePast (laneUp (jobDesc 0x06 0 0 0 hT 0 0 0 2 (pan16 ++ [0x12, 0x34, 0x10, 0x1F]))) 0 0 .ok 0x06 specCvv t x q :=
  ⟨_, _, _, lane_past _ _ _ _ _ _ rfl (by decide) (by decide) (by decide)⟩
theorem witness_cvv_verify :
    ∃ t x q, LanePast (laneUp (jobDesc 0x06 2 0 0 hT 0 0 0 0 (pan16 ++ [0x12, 0x34, 0x10, 0x1F, 0x12, 0x3F]))) 0 0 .ok 0x06 specCvv t x q ∧
      jVerify x.desc = true :=
  ⟨_, _, _, lane_past _ _ _ _ _ _ rfl (by decide) (by decide) (by decide), rfl⟩
theorem witness_arqc : ∃ t x q, LanePast (laneUp (jobDesc 0x07 0 0 0 hT 0 16 8 8 ([1, 0] ++ pan16 ++ [1]))) 0 0 .ok 0x07 specArqc t x q :=
  ⟨_, _, _, lane_past _ _ _ _ _ _ rfl (by decide) (by decide) (by decide)⟩
theorem witness_dukpt : ∃ t x q, LanePast (laneUp (jobDesc 0x08 1 0 0x81 hT 0 0 0 0 ([1, 0, 10, 0] ++ List.replicate 9 0 ++ [1]))) 0 0 .ok 0x08
    specDukpt t x q :=
  ⟨_, _, _, lane_past _ _ _ _ _ _ rfl (by decide) (by decide) (by decide)⟩
theorem witness_unwrap : ∃ t x q, LanePast (laneUp (jobDesc 0x09 0 0 0 hA 0 80 0 3 (le 8 9)) [(0x200, 68)]) 0 0 .ok 0x09 specUnwrap t x q ∧
    chr (benchRange (laneAt (laneUp (jobDesc 0x09 0 0 0 hA 0 80 0 3 (le 8 9)) [(0x200, 68)]) 0 .ok x q) 0 0 (jIn x.desc)) 0 = 68 ∧
    isAes q.k1.alg = true :=
  ⟨_, _, _, lane_past _ _ _ _ _ _ rfl (by decide) (by decide) (by decide), rfl, rfl⟩
theorem witness_cmac : ∃ t x q, LanePast (laneUp (jobDesc 0x0B 0 0 0 hA 0 16 0 16 [16, 0])) 0 0 .ok 0x0B specCmac t x q :=
  ⟨_, _, _, lane_past _ _ _ _ _ _ rfl (by decide) (by decide) (by decide)⟩
theorem witness_cmac_first : ∃ t x q, LanePast (laneUp (jobDesc 0x0B 1 0 0x80 hA 0 16 0 0 [16, 1])) 0 0 .ok 0x0B specCmac t x q :=
  ⟨_, _, _, lane_past _ _ _ _ _ _ rfl (by decide) (by decide) (by decide)⟩
theorem witness_mac9797 : ∃ t x q, LanePast (laneUp (jobDesc 0x0C 2 0 0 hT 0 16 8 0 [3, 1, 8, 0])) 0 0 .ok 0x0C specMac9797 t x q ∧
    jVerify x.desc = true :=
  ⟨_, _, _, lane_past _ _ _ _ _ _ rfl (by decide) (by decide) (by decide), rfl⟩
theorem witness_hmac : ∃ t x q, LanePast (laneUp (jobDesc 0x0D 0 0 0 hH 0 16 0 32 [32, 0])) 0 0 .ok 0x0D specHmac t x q :=
  ⟨_, _, _, lane_past _ _ _ _ _ _ rfl (by decide) (by decide) (by decide)⟩
theorem witness_hash : ∃ t x q, LanePast (laneUp (jobDesc 0x11 0 0 0 0 0 16 0 32 [1, 0])) 0 0 .ok 0x11 specHash t x q :=
  ⟨_, _, _, lane_past _ _ _ _ _ _ rfl (by decide) (by decide) (by decide)⟩
theorem witness_gcm : ∃ t x q, LanePast (laneUp (jobDesc 0x0E 0 0 0 hA 0 32 16 16 (List.replicate 12 0 ++ [16, 0, 16]))) 0 0 .ok 0x0E specGcm t x q :=
  ⟨_, _, _, lane_past _ _ _ _ _ _ rfl (by decide) (by decide) (by decide)⟩
theorem witness_ff1 : ∃ t x q, LanePast (laneUp (jobDesc 0x0F 0 0 0 hA 0 6 0 6 [10])) 0 0 .ok 0x0F specFf1 t x q :=
  ⟨_, _, _, lane_past _ _ _ _ _ _ rfl (by decide) (by decide) (by decide)⟩
theorem witness_cipher : ∃ t x q, LanePast (laneUp (jobDesc 0x10 0 0 0 hT 0 16 0 16 [1, 1])) 0 0 .ok 0x10 specCipher t x q :=
  ⟨_, _, _, lane_past _ _ _ _ _ _ rfl (by decide) (by decide) (by decide)⟩
theorem witness_ctr : ∃ t x q, LanePast (laneUp (jobDesc 0x10 0 0 0 hA 0 1 0 1 [2, 0])) 0 0 .ok 0x10 specCipher t x q :=
  ⟨_, _, _, lane_past _ _ _ _ _ _ rfl (by decide) (by decide) (by decide)⟩

/-! ### Witnesses: engine jobs -/

/-- Nothing of a plot with room stops a learning into an empty key information table. -/
theorem empty_checks (s : State) (l : Learn) (h : s.kp.kit = []) (h1 : s.kp.ovf = [])
    (hq : ((s.plot l.plot).acr.kitQuota ≤ (s.plot l.plot).kitUse || decide
      ((s.plot l.plot).acr.kcQuota ≤ (s.plot l.plot).kcUse)) = false) : learnChecks s l = none := by
  unfold learnChecks; rw [empty_kit s _ _ _ h h1]
  show (if _ then some stQuota else none) = none
  rw [if_neg]; intro q; exact absurd (hq.symm.trans q) (by decide)
/-- A key can be learned into an empty key information table of a plot with room that keeps no vault. -/
theorem empty_learn (s : State) (l : Learn) (w : Learner) (h : s.kp.kit = []) (h1 : s.kp.ovf = []) (h2 : s.kp.run = false)
    (hv : toVault s l = false) (hq : ((s.plot l.plot).acr.kitQuota ≤ (s.plot l.plot).kitUse || decide
      ((s.plot l.plot).acr.kcQuota ≤ (s.plot l.plot).kcUse)) = false) : ∃ s1, learnFor s l w = (s1, some stOK) := by
  have c : learnChecks s (withFlags s l) = none := empty_checks s _ h h1 hq
  have k : ∀ i, kitAt s.kp i = KitEntry.zero := fun i => by unfold kitAt; rw [h, h1]; split <;> rfl
  obtain ⟨i, f⟩ : ∃ i, freeWay s (cands s.kp (withFlags s l).plot (withFlags s l).name) = some i := by
    unfold freeWay cands; rw [h2]
    refine ⟨4 * (kitPair s.kp.seed l.plot l.name).1, ?_⟩
    have e : ∀ n : Nat × Nat, [n.1, n.2].flatMap waysOf = 4 * n.1 :: ([n.1, n.2].flatMap waysOf).tail := fun _ => rfl
    show List.find? _ (List.flatMap waysOf [_, _]) = _
    rw [e, List.find?_cons_of_pos]
    · rfl
    · show (!(kitAt s.kp _).valid || _) = true
      rw [k]; rfl
  have v : vaultWaits s l = false := by unfold vaultWaits; rw [hv, Bool.and_false, Bool.false_and]
  have v' : toVault s (withFlags s l) = false := hv
  have g : learnGate s (withFlags s l) = (s, none) := by unfold learnGate; rw [c, v']; rfl
  have b : placeBody s (withFlags s l) = (s, withFlags s l) := by unfold placeBody; rw [v']; rfl
  have q : learnFast s (withFlags s l) = (placeKey s (withFlags s l) i, some stOK) := by unfold learnFast; rw [c]; dsimp only; rw [f]
  unfold learnFor; rw [v]
  unfold learnKey; rw [g]; dsimp only; rw [b]; dsimp only; rw [q]
  exact ⟨_, rfl⟩
/-- A symmetric key of a plot that keeps a vault waits while the vault cannot be written. -/
theorem empty_waits (s : State) (l : Learn) (h : s.kp.kit = []) (h1 : s.kp.ovf = []) (hv : toVault s l = true)
    (hq : ((s.plot l.plot).acr.kitQuota ≤ (s.plot l.plot).kitUse || decide
      ((s.plot l.plot).acr.kcQuota ≤ (s.plot l.plot).kcUse)) = false)
    (hr : s.vlt.recs = []) (hs : s.vlt.seq = 0) (ha : l.slot.asym = false) (hu : (s.plot l.plot).vltUse = 0)
    (hw : vaultReady s l.plot = false) : vaultWaits s l = true := by
  have z : ∀ i, tget VRec.zero s.vlt.recs i = VRec.zero := fun i => by rw [hr]; rfl
  have n : vltFind s l.plot l.name = none := by
    unfold vltFind; rw [List.find?_eq_none]; intro i _; rw [z]; exact Bool.false_ne_true
  have p : (vltPlace s l.plot l.name).isNone = false := by
    unfold vltPlace; rw [n]
    have : ∃ x t, vltPlaces s l.plot l.name = x :: t := ⟨_, _, rfl⟩
    obtain ⟨x, t, e⟩ := this
    dsimp only; rw [e, List.find?_cons_of_pos]
    · rfl
    · rw [z]; rfl
  have q : 0 < (s.plot l.plot).acr.vltQuota := by
    unfold toVault at hv; simp only [Bool.and_eq_true, decide_eq_true_eq] at hv; exact hv.2
  have o : bodyOk s (vrecOf l) = true := by unfold bodyOk; unfold vrecOf; rw [ha]; rfl
  have cost : vltCost (vrecOf l) = 128 := by simp [vltCost, bodyLen, vrecOf, ha, bodyRoom]
  have f : vltRefuse s (vrecOf l) = none := by
    unfold vltRefuse
    have e : (vrecOf l).plot = l.plot := rfl
    have e' : (vrecOf l).name = l.name := rfl
    rw [e, e', n]; dsimp only
    rw [cost, o, p, hs, hu, if_neg (by unfold vltQuotaBytes; omega)]; rfl
  have g : learnGate s l = (s, none) := by unfold learnGate; rw [empty_checks s l h h1 hq, hv, f]; rfl
  unfold vaultWaits; rw [g, hv, hw]; rfl
theorem empty_parked (s : State) (l : Learn) (w : Learner) (h : vaultWaits s l = true) : ∃ s1, learnFor s l w = (s1, none) := by
  unfold learnFor; rw [h]; exact ⟨_, rfl⟩

/-- A descriptor: type, parameter set, an AES-256 key to learn. -/
def engDesc (ty ps : Nat) : Bytes := le 2 ty ++ [0, 0] ++ le 2 ps ++ List.replicate 34 0 ++ [0x12] ++ List.replicate 21 0
/-- Engine job 0 of yoke 0, running on slot 0 of engine 0, in plot 0 with quotas and a drill. -/
def engJob (ty ps : Nat) (st : JobSt := .running) : State :=
  withTx {} [] (fun t => t.setJob 0 (some { engine := true, st := st, desc := engDesc ty ps }))
    (up.setPlot 0 { active := defaultPolicy, drill := { inst := true }, acr := { kitQuota := 1, kcQuota := 1 } })

theorem witness_windows : ∀ x ∈ [(0x02, 0x102), (0x03, 0x102), (0x11, 0x201), (0x12, 0x201), (0x15, 0x301), (0x16, 0x302), (0x23, 0x501)],
    ∃ q, EngPast (engJob x.1 x.2) 0 0 x.1 q := by
  intro x h
  simp only [List.mem_cons, List.not_mem_nil, or_false] at h
  rcases h with rfl | rfl | rfl | rfl | rfl | rfl | rfl <;> exact ⟨_, rfl⟩
theorem witness_window_ends : ∀ x ∈ [(0x02, 0x102), (0x03, 0x102), (0x11, 0x201), (0x12, 0x201), (0x16, 0x302)],
    ∃ t k q, jobOf (engJob x.1 x.2 .windowed) ((0 : YokeId).val, (0 : JobIx).val) = some (t, k) ∧
      engReady (engJob x.1 x.2 .windowed) 0 0 (jType k.desc) .windowed = some q ∧ q.ty = x.1 ∧ invFails k.ev [1, 4] = none := by
  intro x h
  simp only [List.mem_cons, List.not_mem_nil, or_false] at h
  rcases h with rfl | rfl | rfl | rfl | rfl <;> exact ⟨_, _, _, rfl, rfl, rfl, rfl⟩
/-- A requested symmetric key can be learned in the state of `engJob`. -/
theorem witness_window_learns (q : EJ) (key : Bytes) (h : q.t.plot = 0) :
    ∃ s1, learnFor (engJob 0x12 0x201 .windowed) (symLearn q key) (.engineJob 0 0) = (s1, some stOK) := by
  apply empty_learn <;> try rfl
  all_goals simp only [symLearn, h, toVault]; decide
theorem witness_sign_rsa : ∃ q, EngPast (engJob 0x01 0x102) 0 0 0x01 q := ⟨_, rfl⟩
theorem witness_sign_eddsa : ∃ q, EngPast (engJob 0x14 0x301) 0 0 0x14 q := ⟨_, rfl⟩
theorem witness_sign_ecdsa : ∃ q v, EngPast (engJob 0x10 0x201) 0 0 0x10 q ∧
    txRandom (engAt (engJob 0x10 0x201) 0 .ok q) 0 0 64 = some v := ⟨_, _, rfl, rfl⟩
theorem witness_sign_mldsa : ∃ q v, EngPast (engJob 0x22 0x501) 0 0 0x22 q ∧
    txRandom (engAt (engJob 0x22 0x501) 0 .ok q) 0 0 64 = some v := ⟨_, _, rfl, rfl⟩
theorem witness_sign_waits : let s := (engJob 0x10 0x201).setPlot 0 {}
    ∃ q, EngPast s 0 0 0x10 q ∧ txRandom (engAt s 0 .ok q) 0 0 64 = none := ⟨_, rfl, rfl⟩
theorem witness_generate : ∃ q v, EngPast (engJob 0x13 0x201) 0 0 0x13 q ∧
    txRandom (engAt (engJob 0x13 0x201) 0 .ok q) 0 0 64 = some v ∧
    (v.1.plot q.t.plot).acr.vltQuota = 0 := ⟨_, _, rfl, rfl, rfl⟩
theorem witness_encapsulate : ∃ q v, EngPast (engJob 0x20 0x401) 0 0 0x20 q ∧
    txRandom (engAt (engJob 0x20 0x401) 0 .ok q) 0 0 64 = some v ∧
    ∀ key, ∃ s1, learnFor (q.use v.1) (symLearn q key) (.engineJob 0 0) = (s1, some stOK) :=
  ⟨_, _, rfl, rfl, fun _ => empty_learn _ _ _ rfl rfl rfl rfl rfl⟩
theorem witness_decapsulate : ∃ q, EngPast (engJob 0x21 0x401) 0 0 0x21 q ∧
    ∀ key, ∃ s1, learnFor (q.use (engAt (engJob 0x21 0x401) 0 .ok q)) (symLearn q key) (.engineJob 0 0) = (s1, some stOK) :=
  ⟨_, rfl, fun _ => empty_learn _ _ _ rfl rfl rfl rfl rfl⟩
theorem witness_attach : ∃ t x, jobOf (engJob 0x40 0) ((0 : YokeId).val, (0 : JobIx).val) = some (t, x) ∧ x.engine = true ∧
    x.st = .running ∧ jType x.desc = 0x40 := ⟨_, _, rfl, rfl, rfl, rfl⟩
theorem witness_squash_detach : ((up.modEslot 1 fun _ => { squash := true }).eslot 1).squash = true ∧
    ((up.modMac 31 fun _ => { detach := true }).mac 31).detach = true := by decide

/-- Engine 0 attached to yoke 0, with one command of Table 9.12 at the front of its queue: OPCODE, D 1, A 2, B 3, M 4, and 7 in
shelf 4. -/
def attached (op : Nat) (m : Option Nat := none) (q : Nat := 0) : State := up.modMac 0 fun _ =>
  { tx := some 0, queue := [BitVec.ofNat 64 (op * 2 ^ 56 + q)], shelves := [(0, 7), (4, 7)], modulus := m }
theorem witness_shelf : ∀ op ∈ [0x01, 0x02, 0x03, 0x04, 0x05, 0x06, 0x07, 0x08, 0x09, 0x0A, 0x0B],
    ∀ md ∈ [none, some 7], ∃ w, ((attached op md).mac 0).queue = w :: [] ∧ pcOp w = op ∧
      ((attached op md).mac 0).tx.isSome = true ∧
      ((attached op md).mac 0).detach = false ∧ ((attached op md).mac 0).modulus = md := by
  intro op h md hm
  refine ⟨BitVec.ofNat 64 (op * 2 ^ 56 + 0), rfl, ?_, rfl, rfl, rfl⟩
  revert op md; decide
theorem witness_modulus : shelf ((attached 0x03).mac 0) (pcM (BitVec.ofNat 64 (0x03 * 2 ^ 56 + 4 * 2 ^ 36))) = 7 ∧ 
    shelf ({} : Mac) (pcM (BitVec.ofNat 64 (0x03 * 2 ^ 56 + 4 * 2 ^ 36))) = 0 := by decide
theorem witness_mersenne : pcQ (BitVec.ofNat 64 (0x0A * 2 ^ 56)) = false := by decide

theorem witness_wrap : ∃ t x q r, LanePast (laneUp (jobDesc 0x0A 0 0 0 0x83000003 hA 0 0 400 [])) 0 0 .ok 0x0A specWrap t x q ∧
    wrapRow q.k1 = some r := ⟨_, _, _, _, lane_past _ _ _ _ _ _ rfl (by decide) (by decide) (by decide), rfl⟩
theorem witness_inverse :
    let s := laneUp (jobDesc 0x03 1 0x80 0 0 hT 0 0 8 ([0, 0] ++ pan16)) [] sealedPin
    ∃ t x q, LanePast s 0 0 .encFail 0x03 specReseal t x q ∧
      ∃ s2 out sl inv, compReseal (laneAt s 0 .encFail x q) q = .fin s2 stOK out sl inv ∧ LaneEv.encFail ∈ inv :=
  ⟨_, _, _, lane_past _ _ _ _ _ _ rfl (by decide) (by decide) (by decide), _, _, _, _, rfl, by decide⟩

/-! ### Ill-formed commands are refused -/

set_option maxRecDepth 8000 in
theorem test_wf_descriptor : wellFormed (.descriptorArrival .admin (.data [])) = false ∧
    wellFormed (.descriptorArrival .admin (.data (List.replicate 128 0))) = true := by decide
theorem test_wf_deadline : wellFormed (.deadlineExpired (.queued 0 0 [0])) = false ∧
    wellFormed (.deadlineExpired (.yoke 0)) = true := by
  decide
theorem test_wf_challenge : wellFormed (.spdmChallenge [0]) = false := by decide
theorem test_wf_measurements : wellFormed (.spdmGetMeasurements 0 [0]) = false := by decide
theorem test_wf_exchange : wellFormed (.spdmKeyExchange (List.replicate 32 0)) = false := by decide
set_option maxRecDepth 8000 in
theorem test_wf_token : wellFormed (.dbgToken (List.replicate 161 0)) = false := by decide
theorem test_wf_card : wellFormed (.cardInsert 0 (List.replicate 64 4)) = false := by decide
theorem test_wf_ack : wellFormed (.ack from2 (List.replicate 65 0)) = false := by decide
theorem test_wf_packed : wellFormed (.packed from2 (List.replicate 17 (.ack []))) = false := by decide
theorem test_malformed : exec (.spdmChallenge [0]) up = .fault .malformed := rfl

/-! ### Results -/

/-- What yoke 0's core holds after one instruction on `onYoke k b`. -/
def after (i : Instr) (k : Core) (b : Mem := []) : Option Core :=
  match exec i (onYoke k b) with
  | .next t => some (t.core t0)
  | _ => none

theorem test_add_carries : (after (.add t0 (imm 1)) { a := BitVec.allOnes 64 }).map (fun c => (c.a, c.fl.z, c.fl.c, c.fl.n, c.fl.v)) =
    some (0, true, true, false, false) := by decide
theorem test_sub_overflows : (after (.sub t0 (imm 1)) { a := BitVec.intMin 64 }).map (fun c => (c.a, c.fl.n, c.fl.v)) =
    some (BitVec.intMax 64, false, true) := by decide

/-- NEG of the most negative number: the result of Table 4.9, with C = 1. -/
theorem test_neg_min : (after (.neg t0 { sz := 0 }) { a := BitVec.intMin 64 }).map (fun c => (c.a, c.fl.c, c.fl.v)) =
    some (BitVec.intMin 64, true, true) := by decide
/-- The most negative number divided by -1: A keeps its value, AH is 0, V is set. -/
theorem test_divs_min : (after (.divs t0 { mode := 2 }) { a := BitVec.intMin 64, x := 0x100 }
    ((List.range 8).map fun i => (0x100 + i, (0xFF : Byte)))).map (fun c => (c.a, c.ah, c.fl.v, c.fl.dz)) =
    some (BitVec.intMin 64, 0, true, false) := by decide
/-- The remainder takes the dividend's sign. -/
theorem test_divs_sign : (after (.divs t0 (imm 2)) { a := -7 }).map (fun c => (c.a, c.ah)) = some (-3, -1) := by decide
/-- A count of 64 gives 0 and the last bit out. -/
theorem test_shl_64 : (after (.shl t0 (imm 64)) { a := 1 }).map (fun c => (c.a, c.fl.c, c.fl.z)) = some (0, true, true) := by decide
theorem test_sar_200 : (after (.sar t0 (imm 200)) { a := BitVec.intMin 64 }).map (fun c => (c.a, c.fl.c)) = some (BitVec.allOnes 64, true) := by
  decide
/-- `BSWP.32` of 0x7856_3412 is 0x1234_5678 (chapter 5). -/
theorem test_bswp : (after (.bswp t0 { sz := 2 }) { a := 0x78563412 }).map (·.a) = some 0x12345678 := by decide
/-- The schoolbook step at its largest: a * b + t + carry is 2^128 - 1. -/
theorem test_macc : (after (.macc t0 { mode := 4 }) { a := BitVec.allOnes 64, ah := BitVec.allOnes 64, x := 0x100, y := 0x200 }
    ((List.range 8).map (fun i => (0x100 + i, (0xFF : Byte))) ++ (List.range 8).map fun i => (0x200 + i, (0xFF : Byte)))).map
      (fun c => (c.ah, c.a, c.x, c.y)) = some (BitVec.allOnes 64, BitVec.allOnes 64, 0x108, 0x208) := by decide
/-- R607: LDX through [X+] loads from the old X, and the increment is not applied. -/
theorem test_ldx_own : (after (.ldx t0 { mode := 4 }) { x := 0x100 } word5).map (·.x) = some 5 := by decide
/-- R200: PUSH SP stores the old SP. -/
theorem test_push_sp : (match exec (.push t0 { mode := 7, f16 := 4 }) (onYoke { sp := 0x108 } []) with
    | .next t => some ((t.core t0).sp, mread (t.yoke 0).bench 0x100 8)
    | _ => none) = some (0x100, [8, 1, 0, 0, 0, 0, 0, 0]) := by decide

/-! ### The worked examples -/

/-- Chapter 8: the PIN_XLATE job of Table 8.10, whose formats are 4 and 4 and whose first key is sealed register 0. -/
def example810 : Bytes := [0x01, 0, 1, 0, 0, 0, 0x80, 0, 0, 0, 0, 0, 0x40, 0x0C, 0x02, 0x81, 0x58, 0xC0, 0x10, 0, 0, 0, 0, 0,
  0, 0xE0, 0x10, 0, 0, 0, 0, 0, 4, 4, 0x10, 0, 0x99, 0x54, 0, 0x12, 0x34, 0x56, 0x78, 0x90, 0xFF, 0xFF] ++ List.replicate 18 0
theorem test_example_xlate : (specXlate up [] { plot := 0, hop := 0 } example810 0).static = true ∧
    jIn example810 = (0xC058, 16) ∧ jOut example810 = (0xE000, 16) ∧
    panDigits (jParam example810) 2 = [9, 9, 5, 4, 0, 0, 1, 2, 3, 4, 5, 6, 7, 8, 9, 0] := by decide
/-- Chapter 8: the DUKPT_DERIVE job of Table 8.10, its KSN with counter 7. -/
def example810d : Bytes := [0x08, 0, 1, 0, 0, 0x80, 0, 0, 0x2B, 0x1A, 0, 0x80] ++ List.replicate 20 0 ++
  [0, 0, 12, 0, 9, 0x10, 0x22, 0, 0, 0, 0, 1, 0, 0, 0, 7] ++ List.replicate 16 0
theorem test_example_dukpt : (specDukpt up [] { plot := 0, hop := 0 } example810d 0).static = true ∧
    ksn (jParam example810d) = [9, 0x10, 0x22, 0, 0, 0, 0, 1, 0, 0, 0, 7] := by decide
/-- Chapter 2: the completion bytes of Table 2.15. -/
theorem test_example_completion : Entry.bytes { tag := 0xB3F0, status := 0 } 0 0x127A3C true =
    [0xF0, 0xB3, 0, 0, 0, 0, 0, 0, 0x3C, 0x7A, 0x12, 0, 0, 0, 0, 1] ++ List.replicate 16 0 := by decide

/-! ### Points, by hand: y² = x³ + 2x + 2 modulo 17, base point (5, 1) of order 19 -/

def small17 : Curve := { p := 17, a := 2, b := 2, gx := 5, gy := 1, n := 19, h := 1 }
set_option maxRecDepth 20000 in
theorem test_double : addPoints small17 (some (5, 1)) (some (5, 1)) = some (6, 3) := by decide
theorem test_opposite : addPoints small17 (some (5, 1)) (some (5, 16)) = none := by decide
theorem test_on_curve : onCurve small17 6 3 = true ∧ onCurve small17 6 4 = false := by decide
set_option maxRecDepth 20000 in
theorem test_miller_rabin : millerRabin 17 3 = true ∧ millerRabin 15 2 = false := by decide

/-! ### Witnesses: accesses that may be carried out, clause by clause -/

/-- An aligned address of the bench below port space is loaded; below the command region, or above it, stored. -/
theorem may_load (s : State) (y : YokeId) (a : W64) (n : Nat) (h : a.toNat < 0xF000 ∧ a.toNat % n = 0) :
    MayLoad s (.tiller y) a n := h
theorem may_store (s : State) (y : YokeId) (a : W64) (n : Nat)
    (h : a.toNat < 0xF000 ∧ (a.toNat < 0xC000 ∨ 0xE000 ≤ a.toNat) ∧ a.toNat % n = 0) : MayStore s (.tiller y) a n := h
theorem witness_may_edges (s : State) (y : YokeId) : MayLoad s (.tiller y) 0xEFF8 8 ∧ MayLoad s (.tiller y) 0xC000 8 ∧
    MayStore s (.tiller y) 0xBFF8 8 ∧ MayStore s (.tiller y) 0xE000 8 ∧ ¬ MayStore s (.tiller y) 0xC000 8 ∧
    ¬ MayLoad s (.tiller y) 0xF000 1 :=
  ⟨may_load _ _ _ _ (by decide), may_load _ _ _ _ (by decide), may_store _ _ _ _ (by decide), may_store _ _ _ _ (by decide),
    fun h => absurd h.2.1 (by decide), fun h => absurd h.1 (by decide)⟩
/-- The general memory's first byte may be loaded and stored by the steward. -/
theorem witness_may_steward : let s := onSteward {}
    let a : W64 := memBase.setWidth 64
    MayLoad s .steward a 1 ∧ MayStore s .steward a 1 := by
  have b : Config.memPage < 1046017 := Nat.mod_lt _ (by omega)
  have e : (memBase.setWidth 64).toNat = 4096 * Config.memPage := by
    have : memBase.toNat = 4096 * Config.memPage := by simp [memBase]; omega
    rw [BitVec.toNat_setWidth, this]; omega
  have p := fun ty (h : ty < 3) => memory_permitted 0 ty (4096 * Config.memPage) (by decide) h (by omega) (by omega)
  have f : ∀ ty, ty < 3 → firstForbidden openHedge 0 ty (4096 * Config.memPage) 1 = none := fun ty h => by
    simp only [firstForbidden, p ty h, if_true]
  refine ⟨⟨?_, rfl, ?_⟩, ?_, rfl, ?_⟩
  · rw [e]; omega
  · rw [e]; exact f 0 (by decide)
  · rw [e]; omega
  · rw [e]; exact f 1 (by decide)

theorem witness_may_store :
    let s := onYoke { a := 7, x := 0x100 } []
    let i : Ins := { mode := 4, sz := 3 }
    Accepted s t0 i.hw i.e 0 (i.sub == 0) (i.mode != 7 || !loopReg i.rn) (i.modeOk (regsOf s t0) storeModes false)
      (i.privOk (regsOf s t0)) ∧ i.mode ≠ 7 ∧ MayStore s t0 (i.addr (regsOf s t0)) i.bytes :=
  ⟨⟨by unfold Comes; decide, by decide⟩, by decide, may_store _ _ _ _ (by decide)⟩
theorem witness_may_push :
    let s := onYoke { x := 0x100, sp := 0x208 } word5
    let i : Ins := { mode := 4, sz := 3 }
    Accepted s t0 i.hw i.e 0 (i.sub == 0) true (i.modeOk (regsOf s t0) allModes true) (i.privOk (regsOf s t0)) ∧
      OperandOpen s t0 (settled (regsOf s t0) i.readsMac) i ∧ MayStore s t0 ((settled (regsOf s t0) i.readsMac).sp - 8) 8 :=
  ⟨⟨by unfold Comes; decide, by decide⟩, Or.inr (Or.inr (may_load _ _ _ _ (by decide))), may_store _ _ _ _ (by decide)⟩
theorem witness_may_pop :
    let s := onYoke { sp := 0xEFF8 } []
    let i : Ins := { mode := 7, sz := 3, f16 := 0x0001 }
    Accepted s t0 i.hw i.e 0 (i.sub == 0) (!loopReg i.rn) (i.modeOk (regsOf s t0) [7] true) (i.privOk (regsOf s t0)) ∧
      MayLoad s t0 (regsOf s t0).sp 8 :=
  ⟨⟨by unfold Comes; decide, by decide⟩, may_load _ _ _ _ (by decide)⟩
theorem witness_may_paired :
    let s := onYoke { x := 0x100, y := 0x200, a := 3 } word5
    let i : Ins := { mode := 4, sz := 3 }
    let k := regsOf s t0
    let a := if i.mode = 4 then k.x else indexed k.x (8 * (i.f16.extractLsb' 8 8).signExtend 64)
    let b := if i.mode = 4 then k.y else indexed k.y (8 * (i.f16.extractLsb' 0 8).signExtend 64)
    Accepted s t0 i.hw i.e 0 (i.sub == 0) true ((i.mode == 2 || (i.mode == 4 && i.f16 == 0)) && i.sz == 3 && !i.e) true ∧
      MayLoad s t0 a 8 ∧ MayLoad s t0 b 8 ∧ MayStore s t0 b 8 :=
  ⟨⟨by unfold Comes; decide, by decide⟩, may_load _ _ _ _ (by decide), may_load _ _ _ _ (by decide), may_store _ _ _ _ (by decide)⟩
theorem witness_may_call : let s := onYoke { sp := 8 } []
    Accepted s t0 .ok false 0 true false (!false && (0 : BitVec 4) == 0) true ∧ MayStore s t0 ((regsOf s t0).sp - 8) 8 ∧
      MayLoad s t0 (regsOf s t0).sp 8 :=
  ⟨⟨by unfold Comes; decide, by decide⟩, may_store _ _ _ _ (by decide), may_load _ _ _ _ (by decide)⟩
theorem witness_may_jump :
    let s := onYoke { x := 0x100, sp := 0x208 } word5
    let i : Ins := { mode := 2, sz := 3 }
    Accepted s t0 i.hw i.e 0 (i.sub == 0) false (i.modeOk (regsOf s t0) storeModes true) (i.privOk (regsOf s t0)) ∧
      OperandOpen s t0 (settled (regsOf s t0) i.readsMac) i ∧ MayStore s t0 ((settled (regsOf s t0) i.readsMac).sp - 8) 8 :=
  ⟨⟨by unfold Comes; decide, by decide⟩, Or.inr (Or.inr (may_load _ _ _ _ (by decide))), may_store _ _ _ _ (by decide)⟩
/-- Every kind of operand, and a sum of an address that goes past either end of 64 bits. -/
theorem witness_operand_kinds :
    OperandOpen (onYoke {} []) t0 {} { mode := 0 } ∧ OperandOpen (onYoke {} []) t0 {} { mode := 7 } ∧
    (let b : W64 := BitVec.allOnes 64
     let sum : Int := b.toNat + (1 : W64).toInt
     2 ^ 64 ≤ sum) ∧ (let sum : Int := (0 : W64).toNat + (-1 : W64).toInt
     sum < 0) ∧ (let sum : Int := (1 : W64).toNat + (-1 : W64).toInt
     sum = 0) :=
  ⟨Or.inl rfl, Or.inr (Or.inl rfl), by decide, by decide, by decide⟩
theorem witness_bench_traps : (0xFFFF : Nat) < (0x10000 : W64).toNat ∧ (0xC000 : Nat) ≤ (0xC000 : W64).toNat ∧
    (0xDFFF : W64).toNat < 0xE000 ∧
    (0xEFFF : W64).toNat < 0xF000 ∧ (0xEFFF : W64).toNat % 2 ≠ 0 ∧ 0xE000 ≤ (0xEFFF : W64).toNat := by decide
theorem witness_handler : let s := onYoke { tv := 0x1000 } []
    (regsOf s t0).intrap = false ∧ (regsOf s t0).tv ≠ 0 ∧ (regsOf (onYoke {} []) t0).tv = 0 := by decide
theorem witness_retire : let d : Core := { ldepth := 1, lp := [(0, { ls := 0, le := 4, lc := 1 })] }
    (({ rpt := 1 } : Core).rpt ≤ 1 ∧ 1 < ({ rpt := 2 } : Core).rpt ∧ ({} : Core).ldepth = 0) ∧
      (d.ldepth = 1 ∧ d.lbase = 0 ∧ (d.lvl 0).le = (0 : W32) + 4 ∧ (d.lvl 0).lc.toNat ≤ 1) := by decide

/-- A loop over its count, a count of 0, and a full stack of levels. -/
theorem witness_loop_counts :
    (let s := onYoke { x := 3 } []
     let i : InsL := { s := true, ends := 4 }
     Accepted s t0 i.hw i.e 0 true false (loopFmt (regsOf s t0) i) true ∧ ((regsOf s t0).x.setWidth 32 : W32) ≠ 0) ∧
    (let s := onYoke {} []
     let i : InsL := { cnt := 0, ends := 4 }
     Accepted s t0 i.hw i.e 0 true false (loopFmt (regsOf s t0) i) true ∧ (i.cnt.setWidth 32 : W32) = 0) :=
  ⟨⟨⟨by unfold Comes; decide, by decide⟩, by decide⟩, ⟨⟨by unfold Comes; decide, by decide⟩, by decide⟩⟩

/-- A steward that takes its event at once, one that keeps it, and its lowest pending event. -/
theorem witness_steward_events :
    (let s := onSteward { ie := true }
     s.lcs.phase = .full ∧ s.stw.core.ie = true ∧ s.stw.core.intrap = false ∧ s.stw.halted = false ∧ s.stw.dead = false) ∧
    (onSteward {}).stw.core.ie = false ∧
    (let s : State := { up with stw := { up.stw with events := 0xC } }
     s.stw.events.getLsbD 2 = true ∧ (∀ j, j < 2 → s.stw.events.getLsbD j = false)) ∧ up.stw.events = 0 := by decide

/-! ### Witnesses: lookups and replays -/

/-- A name of 0, and a miss in a plot without vault records and in one with some. -/
theorem witness_kfnd_misses :
    (let s := withTx { x := 0 } [] id
     let i : Ins := { mode := 7, sz := 3, f16 := 2 }
     ∃ t, Accepted s t0 i.hw i.e 1 (i.sub == 0 || i.sub == 1)
       false (i.modeOk (s.core t0) (recordModes ++ [7]) true && (i.mode != 7 || i.sub == 0)) (i.privOk (regsOf s t0)) ∧
       (fetched s t0).tx 0 = some t ∧ reloading t = false ∧ t.got = [] ∧ (settled (regsOf s t0) i.readsMac).reg i.rn = 0) ∧
    (let s := withTx { x := 0x100 } [(0x100, 7)] id
     let i : Ins := { mode := 2, sz := 3 }
     (kitLookup (fetched s t0) 0 7 false).2 = .miss ∧ hasRecords (fetched s t0) 0 = false ∧
       MayRecord (i.addr (regsOf s t0)) 8 8 readable ∧
       loadedAt (fetched s t0) t0 (i.addr (regsOf s t0)) 8 = 7) ∧
    (let s := withTx {} [] id { up with vlt := { up.vlt with recs := [(0, { used := true })] } }
     (kitLookup (fetched s t0) 0 7 false).2 = .miss ∧ hasRecords (fetched s t0) 0 = true) := by
  have miss : ∀ s : State, s.kp.kit = [] → s.kp.ovf = [] → (kitLookup s 0 7 false).2 = .miss := fun s h h1 => by
    unfold kitLookup; rw [empty_kit s 0 7 false h h1]
  refine ⟨⟨_, ⟨by unfold Comes; decide, by decide⟩, rfl, rfl, rfl, by decide⟩, ⟨miss _ rfl rfl, rfl, by unfold MayRecord; decide, ?_⟩,
    miss _ rfl rfl, rfl⟩
  decide
/-- The state with one key, named 7, whose slot's expiry has passed. -/
def oldKey : State := withTx { x := 7 } [] id { up with
  kpr := { up.kpr with opmin := 9 }
  kp := { up.kp with
    kit := [(4 * (kitPair 0 0 7).1, { valid := true, name := 7, pinned := true })], slots := [(0, { used := true, expiry := 1 })] } }
theorem witness_kfnd_expired : (kitLookup oldKey 0 7 false).2 = .expired := by
  have f := oneKey_found oldKey { valid := true, name := 7, pinned := true } rfl rfl rfl rfl
  unfold kitLookup; rw [f]; dsimp only
  rw [oneKey_entry oldKey.kp { valid := true, name := 7, pinned := true } rfl]
  exact congrArg Prod.snd (if_pos (show expired oldKey _ = true by decide))
theorem witness_reload_down : vaultUp { up with pwr := { up.pwr with pll := 0x2F } } = false ∧ vaultUp up = true ∧
    vaultUp { up with vlt := { up.vlt with selfRefresh := true } } = false := by decide
/-- A record whose two-key TDES key has equal halves is a weak key's. -/
theorem witness_reload_weak : weakSlot (learnOf { used := true, name := 7, alg := 0x01, len := 16, material := List.replicate 16 1 }).slot = true := by
  decide

theorem witness_done_vendor :
    (let s := withTx { a := 0 } [] (fun t => { t with desc := le 2 0x400 ++ List.replicate 126 0 })
     ∃ t, (fetched s t0).tx 0 = some t ∧ vendorBad t = false ∧ isForget t = false) ∧
    (let s := withTx { a := 0 } [] (fun t => { t with desc := le 2 0x10 ++ List.replicate 126 0 })
     ∃ t, (fetched s t0).tx 0 = some t ∧ vendorBad t = true) ∧ stDataFault.toNat % 2 ^ 16 ∈ failCodes := by
  refine ⟨⟨_, rfl, by decide, by decide⟩, ⟨_, rfl, by decide⟩, by decide⟩

/-! ### Witnesses: the hoppers and the link, clause by clause -/

theorem witness_doorbell_refused : let s := served.setHop (.vf 0 0) { log2 := 6, ringLog2 := 6, en := true, enabled := true, halted := true }
    reach s (.vf 0) = true ∧ hopDropped s (.vf 0 0) = false ∧ hopOpen s (.vf 0 0) = true ∧ (s.hop (.vf 0 0)).halted = true ∧
      (5 : W32).toNat ≠ (s.hop (.vf 0 0)).tail := by decide
/-- The admin hopper, enabled and empty: the whole ring but one entry may be posted, and the steward reads the first. -/
def adminOn : State := linked.setHop .admin { en := true, enabled := true, log2 := 6, ringLog2 := 6 }
theorem witness_doorbell_admin : let s := adminOn
    let x := s.hop .admin
    reach s .pf0 = true ∧ hopDropped s .admin = false ∧ hopOpen s .admin = true ∧ x.en = true ∧ x.halted = false ∧
      (63 : W32).toNat < 2 ^ x.ringLog2.toNat ∧ 63 ≤ depth s .admin ∧ x.reads = 0 ∧
      readRoom (s.setHop .admin { x with tail := 63, acc := List.replicate 63 (s.now, defaultDeadline s .admin) }) .admin = true ∧
      x.acc = [] ∧ (0 : W32).toNat = x.tail := by decide
theorem witness_head_doorbell : let s := served.setHop (.vf 0 0) { log2 := 6, ringLog2 := 6, en := true, enabled := true, cqTail := 2 }
    let x := s.hop (.vf 0 0)
    reach s (.vf 0) = true ∧ hopDropped s (.vf 0 0) = false ∧
      (let dist := fun i : Nat => (i + 2 ^ x.ringLog2.toNat - x.hostHead % 2 ^ x.ringLog2.toNat) % 2 ^ x.ringLog2.toNat
       dist 2 ≤ dist x.cqTail ∧ ¬ dist 3 ≤ dist x.cqTail) := by decide
theorem witness_enable_refused : let s := served.setHop (.vf 0 0) { log2 := 5 }
    reach s (.vf 0) = true ∧ hopDropped s (.vf 0 0) = false ∧ (0x51 : W32).getLsbD 0 = true ∧ (s.hop (.vf 0 0)).en = false ∧
      ((0x51 : W32).extractLsb' 4 5 : BitVec 5).toNat < 6 ∧ (6 ≤ ((0x61 : W32).extractLsb' 4 5 : BitVec 5).toNat) ∧
      ((0x101 : W32).extractLsb' 4 5 : BitVec 5).toNat ≤ 16 := by decide
theorem witness_disable_vf : reach served (.vf 0) = true ∧ (served.hop (.vf 0 0)).en = true ∧
    (served.hop (.vf 0 0)).enabled = true ∧
    readersOf served (0 : PlotId) (0 : Fin 16) = [] ∧ (served.plot 0).st ≠ .stopping ∧ twf Plot.zero served.plots = true ∧
    twf Hopper.zero (served.plot 0).hoppers = true := by decide

/-- An admin descriptor is being read; nothing is in front of it. -/
def adminReading : State := linked.setHop .admin { en := true, enabled := true, log2 := 6, ringLog2 := 6, tail := 1, acc := [(0, 0)], reads := 1 }
set_option maxRecDepth 8000 in
theorem witness_admin_read : let s := adminReading
    s.adm.hop.en = true ∧ s.adm.hop.halted = false ∧ s.adm.hop.acc ≠ [] ∧ s.adm.hop.reads ≠ 0 ∧ heldFor s .pf0 = false ∧
      s.adm.queue = [] ∧ adminBusy s = false ∧ descOk (descOf 0x181) 2 65536 = true ∧
        (admOf (descOf 0x181)).code.toNat ∈ adminCodes ∧
      descOk (descOf 0x001) 2 65536 = true ∧ (admOf (descOf 0x001)).code.toNat ∉ adminCodes ∧
      descOk (le 2 0x181 ++ List.replicate 126 0xFF) 2 65536 = false ∧ (descOf 0x181).length = 128 := by decide
theorem witness_reading_free : let s := withTx {} [] (fun t => { t with phase := .reading })
    ∃ t, s.tx 0 = some t ∧ t.phase = .reading ∧ t.fwd = false ∧ heldFor s (vfOf t.plot) = false := ⟨_, rfl, rfl, rfl, by decide⟩
theorem witness_staging_free : heldFor (withTx {} [] (fun t => { t with phase := .staging })) (vfOf 0) = false := by decide

theorem witness_config : cfgReach linked .pf0 = true ∧ tableReach linked .pf0 = true ∧ hasVector .pf0 3 = true ∧
    hasVector (.vf 0) 16 = true ∧
    cfgReach linked (.vf 3) = true ∧ tableReach served (.vf 0) = true := by decide
theorem witness_ide_sets : let s := linked.setIde 1 { prog0 := true, active := some 0 }
    (if (0 : Fin 2) = 0 then (s.ide 1).prog0 else (s.ide 1).prog1) = true ∧ (s.ide 1).active = some 0 ∧
      (s.ide 1).active ≠ some 1 := by decide
theorem witness_spdm_operands : (List.replicate 32 (0 : Byte)).length = 32 ∧ (List.replicate 96 (0 : Byte)).length = 96 ∧
    1 ≤ (1 : Byte).toNat ∧ (5 : Byte).toNat ≤ 5 := by decide

/-! ### Witnesses: plots, clause by clause -/

theorem witness_create_waits : let d : Adm := { code := 0x101, inlen := 68, inl := onPlot1 ([1, 0, 1, 0] ++ List.replicate 20 0 ++ [6] ++ List.replicate 39 0) }
    let s := serving d
    Serves s d [] ∧ poolFault (popAdm s []) d.pid (acrOf d.acr) = none ∧ auditRoom (popAdm s []) = true ∧
      (keyGen (popAdm s []) 0).2 = false := by
  unfold Serves; decide
theorem witness_open_any : let d : Adm := { code := 0x102, inlen := 6, inl := onPlot1 [0, 0] }
    Serves (serving d (plot1 .created)) d [] ∧ fld d.inl 4 2 = 0 := by
  unfold Serves; decide
theorem witness_stops : ∀ st ∈ [PlotSt.created, .stopping, .stopped],
    let d : Adm := { code := 0x103, inlen := 4, inl := onPlot1 [] }
    let s := serving d (plot1 st)
    Serves s d [] ∧ plotNamed d = true ∧ (s.plot d.pid).st = st ∧ twf Plot.zero s.plots = true := by
  unfold Serves; decide
theorem witness_reset_again : let d : Adm := { code := 0x106, inlen := 4, inl := onPlot1 [] }
    let s := serving d (plot1 .resetting)
    Serves s d [] ∧ plotNamed d = true ∧ (s.plot d.pid).st = .resetting := by
  unfold Serves; decide
theorem witness_remove_officer : let d : Adm := { code := 0x107, inlen := 4, inl := onPlot1 [] }
    let s := serving d officerPlot
    Serves s d [] ∧ (s.plot d.pid).st ∈ createdToStopped ∧ holdsCard (popAdm s []) d.pid 0 = true ∧
      sessionLive (popAdm s []) d.pid 0 = true := by
  unfold Serves; decide
theorem witness_commit_late : let d : Adm := { code := 0x109, inlen := 4, inl := onPlot1 [] }
    let s := serving d (linked.setPlot 1 { openPlot with
      shadow := defaultPolicy, active := List.replicate 512 0xFF, shadowValid := true, drill := { inst := true, c := polReseed defaultPolicy } })
    Serves s d [] ∧ auditRoom (popAdm s []) = true ∧ (s.plot d.pid).drill.inst = true ∧
      (s.plot d.pid).drill.c < polReseed (s.plot d.pid).active ∧ polReseed (s.plot d.pid).shadow ≤ (s.plot d.pid).drill.c := by
  unfold Serves; decide
/-- Four little-endian bytes read back. -/
theorem leNat_le4 (n : Nat) : leNat (le 4 n) = n % 2 ^ 32 := by
  simp only [le, leNat, BitVec.toNat_ofNat]; omega
set_option maxRecDepth 40000 in
/-- Every check of the default policy set but its CRC. -/
theorem policy_fields (a b c d : Byte) :
    policyOk (fit 512 (defaultBody ++ [a, b, c, d])) = (leNat [a, b, c, d] == (crc32 defaultBody).toNat) := by
  have e : cut (fit 512 (defaultBody ++ [a, b, c, d])) 0 508 = defaultBody := by rfl
  unfold policyOk; rw [e]
  rfl
theorem default_policy_ok : policyOk (fit 512 defaultPolicy) = true := by
  have h := policy_fields
  unfold defaultPolicy
  generalize crc32 defaultBody = x at h ⊢
  exact (h _ _ _ _).trans (beq_iff_eq.2 ((leNat_le4 x.toNat).trans (Nat.mod_eq_of_lt x.isLt)))
theorem witness_stage_policy : ∃ b, policyOk (fit 512 b) = true := ⟨_, default_policy_ok⟩
theorem witness_recv_empty : let d : Adm := { code := 0x111, inlen := 4, inl := onPlot1 [], resLen := 64 }
    let s := serving d (plot1 .created)
    Serves s d [] ∧ (s.plot d.pid).st ∈ createdToStopped ∧ (s.plot d.pid).inBusy = false := by
  unfold Serves; decide
theorem witness_in_busy : let s := linked.setPlot 1 { openPlot with inBusy := true }
    reach s (vfOf 1) = true ∧ (s.plot 1).st ≠ .absent ∧ (s.plot 1).inBusy = true := by decide
theorem witness_version_edges : (let s := linked.setPlot 1 { st := .created, armed := true, openPend := true, maxver := 0xFF }
     mirrors s = false ∧ ∀ v ∈ [0x100, 0x101, 0x200, 0x201], ¬ v ≤ (s.plot 1).maxver.toNat) ∧
    (let s := linked.setPlot 1 { st := .created, armed := true, openPend := true, maxver := 0xFFFF }
     (0x201 : Nat) ≤ (s.plot 1).maxver.toNat ∧ (s.plot 1).verCap = 0) := by decide
theorem witness_held_free : heldFor (serving {} officerPlot) .pf0 = false := by decide

/-! ### Witnesses: register writes -/

theorem witness_writes : doorbellAt (.driver 0) 0x100 = none ∧ doorbellAt .managerM 0 = none ∧ reach served (.vf 0) = true ∧
    hopDropped served (.vf 0 0) = false ∧ cfgReach linked (.vf 0) = true ∧ tableReach linked .pf0 = true ∧
      linked.pwr.good = true ∧
    adminOn.adm.hop.en = true ∧ (1 : W32).getLsbD 0 = true ∧ (0 : W32).getLsbD 0 = false := by decide

/-! ### Witnesses: the life cycle -/

theorem witness_lcs_stops : let d : Adm := { code := 0x180, inlen := 5, inl := [0, 0, 0, 0, 4] }
    let s := official d { linked with
      lcs := { linked.lcs with fuses := [16, 16, 16, 0, 0] }, kpr := { linked.kpr with kvbat := 2399 } }
    Serves s d [] ∧ noPlot d = true ∧ byteAt d.inl 4 = s.lcs.state.toNat + 1 ∧ decodeFuses s.lcs.fuses = s.lcs.state.toNat ∧
      s.kpr.kvbat < 2400 ∧ s.pwr.charged = false := by
  unfold Serves; decide
/-- From DECOMMISSIONED the last step needs every record exported: without a record it may be taken, with an open one not. -/
theorem witness_lcs_last : let d : Adm := { code := 0x180, inlen := 5, inl := [0, 0, 0, 0, 5] }
    let s := fun (recs : Tbl EvRec) => official d { linked with
      lcs := { linked.lcs with state := 4, fuses := [16, 16, 16, 16, 0] }, pwr := { linked.pwr with charged := true }
      evr := { linked.evr with recs := recs } }
    (∀ recs ∈ [[], [((0 : Nat), ({ used := true, seq := 1 } : EvRec))]], Serves (s recs) d [] (standby := true) (lim := 5) ∧
      byteAt d.inl 4 = (s recs).lcs.state.toNat + 1 ∧ decodeFuses (s recs).lcs.fuses = (s recs).lcs.state.toNat ∧
      sessionLive (popAdm (s recs) []) modScope 0 = true ∧ 2400 ≤ (s recs).kpr.kvbat ∧ (s recs).pwr.charged = true) ∧
    allExported (popAdm (s []) []) = true ∧ allExported (popAdm (s [(0, { used := true, seq := 1 })]) []) = false := by
  unfold Serves; decide
/-- Fallow mode, TAMPERED, DECOMMISSIONED and a standby serve what their clauses say. -/
theorem witness_serves_fallow : let d : Adm := { code := 0x184, inlen := 4, inl := [0, 0, 0, 0] }
    let s := official d { linked with lcs := { linked.lcs with fallow := true } }
    Serves s d [] (fallow := true) (standby := true) ∧ sessionLive (popAdm s []) modScope 0 = true := by
  unfold Serves; decide
theorem witness_serves_all : let d : Adm := { code := 0x181, inlen := 4, inl := [0, 0, 0, 0], resLen := 64 }
    Serves (official d { linked with lcs := { linked.lcs with state := 4 }, kpr := { linked.kpr with tampered := true } }) d [] true
      true true 5 := by
  unfold Serves; decide
theorem witness_serves_tampered : let d : Adm := { code := 0x107, inlen := 4, inl := onPlot1 [], resLen := 1024 }
    let s := serving d (plot1 .opened { linked with kpr := { linked.kpr with tampered := true } })
    Serves s d [] (tamper := true) ∧ plotNamed d = true ∧ (s.plot d.pid).st ∈ createdToStopped := by
  unfold Serves; decide
theorem witness_serves_custody : let d : Adm := { code := 0x172, inlen := 6, inl := [0, 4, 0, 0, 0, 2] }
    let s := official d { linked with lcs := { linked.lcs with state := 4 }, kpr := { linked.kpr with tampered := true } }
    isManager d = true ∧ Serves s d [] (isManager d) (isManager d) true (if isManager d then 5 else 4) ∧ scopeNamed d = true := by
  unfold Serves; decide
theorem witness_rearm_last : let d : Adm := { code := 0x161, inlen := 4, inl := [0, 0, 0, 0] }
    let s := official d { linked with lcs := { linked.lcs with state := 4 }, kpr := { linked.kpr with tampered := true } }
    noPlot d = true ∧ Serves s d [] (tamper := true) (standby := true) (lim := 5) ∧ sessionLive (popAdm s []) modScope 0 = true ∧
      s.kpr.live = 0 ∧ s.lcs.state = 4 ∧ ∀ x ∈ s.plots, x.2.st = .absent := by
  unfold Serves; decide
theorem witness_fw_chunks : (let d : Adm := { code := 0x182, inlen := 12, inl := [0, 0, 0, 0, 0, 0, 1, 0, 1, 0, 0, 0], extLen := 4096 }
     let s := (official d).setBank true { valid := false, data := List.replicate 65536 0 }
     Serves s d [] ∧ noPlot d = true ∧ fld d.inl 4 4 % 65536 = 0 ∧ byteAt d.inl 8 = 1 ∧ zeros d.inl 9 3 = true ∧
       s.lcs.bank = false ∧
       heldFor s .pf0 = false ∧ (s.bank true).valid = false) ∧
    fwHeaderOk [] = false := by
  unfold Serves; decide
set_option maxRecDepth 40000 in
/-- A header that is right; its signatures hold or do not, by the firmware keys. -/
theorem witness_fw_header : ∃ img, fwHeaderOk img = true ∧ (fwSigned img = true ∨ fwSigned img = false) := by
  refine ⟨[0x53, 0x4D, 0x46, 0x57, 1] ++ List.replicate (59 + 96 + 4627) 0, by decide, ?_⟩
  cases fwSigned _
  · exact Or.inr rfl
  · exact Or.inl rfl
theorem witness_export_further : let d : Adm := { code := 0x190, inlen := 8, inl := List.replicate 8 0, resLen := 65536 }
    let s := official d { linked with evr := { linked.evr with recs := [(0, { used := true, seq := 1 })], wpos := 1, seq := 2 } }
    Serves s d [] ∧ noPlot d = true ∧ s.evr.anyRead = false ∧
      recordsFrom s.evr ((d.resLen - 224) / 64) (exportFrom s.evr (BitVec.ofNat 32 (fld d.inl 4 4))) ≠ [] := by
  unfold Serves; decide
theorem witness_ack_beyond : let d : Adm := { code := 0x191, inlen := 8, inl := [0, 0, 0, 0, 6, 0, 0, 0] }
    let s := official d { linked with evr := { linked.evr with anyRead := true, read := 5 } }
    Serves s d [] ∧ (s.evr.read - s.evr.acked).toNat < ((BitVec.ofNat 32 (fld d.inl 4 4) : W32) - s.evr.acked).toNat := by
  unfold Serves; decide

/-! ### Witnesses: the start and the supplies, at their boundaries -/

theorem witness_vin : (10800 : Nat) ≤ ({ conLvl := true, vinMv := 10800 } : PowerPins).vinMv.toNat ∧
    ({ conLvl := true, vinMv := 13200 } : PowerPins).vinMv.toNat ≤ 13200 ∧
    ({ conLvl := false, vinMv := 10799 } : PowerPins).vinMv.toNat < 10800 ∧
    13200 < ({ conLvl := false, vinMv := 13201 } : PowerPins).vinMv.toNat := by decide
theorem witness_trim : let s : State := { starting with lcs := { starting.lcs with trimBlown := true } }
    s.lcs.phase = .reset ∧ s.pwr.good = true ∧ s.pwr.shutdown = false ∧ s.lcs.trimBlown = true ∧ decodeFuses s.lcs.fuses ≠ 6 := by
  decide
/-- A plot in the flash directory whose drill is not there yet is waited for; without a plot the firmware runs. -/
theorem witness_seeds : plotsSeeded { up with flash := { up.flash with plots := [(0, {})] } } = false ∧ plotsSeeded up = true ∧
    plotsSeeded { up.setPlot 0 { drill := { inst := true } } with flash := { up.flash with plots := [(0, {})] } } = true := by decide
theorem witness_few_units : ones (BitVec.ofNat 32 0x07FFFFFF) < 28 ∧ ones (BitVec.ofNat 32 0x7FFF) < 16 ∧
    ({ faults := 2 } : InstanceTests).faults < 3 ∧ 3 ≤ ({ faults := 3 } : InstanceTests).faults := by decide
theorem witness_dog : ∀ p ∈ [Phase.full, .starting, .live], let s : State := { up with lcs := { up.lcs with phase := p } }
    s.lcs.phase = p ∧ s.pwr.good = true ∧ s.pwr.shutdown = false ∧ s.stw.halted = false ∧ s.lcs.fallow = false := by decide
theorem witness_supplies : (let s := State.reset
     s.pwr.good = false ∧ s.pwr.shutdown = false) ∧
    (let s : State := { up with pwr := { up.pwr with floor := 1, vin := 11400 } }
     s.pwr.floor.toNat < 2 ∧ 11400 ≤ s.pwr.vin ∧ s.tx 63 = none ∧ (s.eslot 62).job = none ∧ (s.eslot 63).job = none ∧
       (s.mac 31).tx = none ∧ ∀ c ∈ List.range 8, (s.ctx (8 * 31 + c)).job = none ∧ (s.ctx (8 * 31 + c)).bound = .free) ∧
    ({ pwrgd := true, smbadr := 3 } : VioPins).pwrgd = true ∧ (4 : Fin 6).val = 4 ∧ (5 : Fin 6).val ≠ 4 := by decide

/-! ### Witnesses: noise sources and drills, clause by clause -/

set_option maxRecDepth 100000 in
/-- 1,024 samples that alternate pass the tests; a run of one value fails the repetition count test, and a biased window whose runs
stay short the proportion test. -/
theorem witness_samples : ((List.range 1024).map fun i => i % 2 == 0).length = 1024 ∧
    testFail up 0 ((List.range 1024).map fun i => i % 2 == 0) = 0 ∧ testFail up 0 (List.replicate 1024 true) = 2 ∧
    testFail up 0 ((List.range 1024).map fun i => i % 10 != 9) = 3 := by decide +kernel
/-- A start-up test of any other length is no command of the hardware. -/
theorem smoke_startup_test : wellFormed (.startupTestEnd 0 (List.replicate 3 true)) = false := by decide
theorem witness_claim_lost : let s : State := { up with rng := { up.rng with claim := true } }
    s.rng.claim = true ∧ claimMet s = false := by decide
/-- The key generations of a drill: each takes a reseed of its own. -/
theorem witness_key_generations : (let s : State := { up with rng := { up.rng with priv := [(0, { inst := true, fresh := true })] } }
     (keyGen s 0).2 = true ∧ (keyGens s 0 1).2 = 0 ∧ (keyGens s 0 4).2 = 3) ∧ (keyGen up 0).2 = false := by decide

/-! ### Witnesses: the key plane's own work, clause by clause -/

theorem witness_rehash_waits : up.kp.run = false ∧ privReady up 0 = false ∧
    (let s : State := { up with rng := { up.rng with priv := [(0, { inst := true })] } }
     s.kp.run = false ∧ privReady { s with kp := { s.kp with rehash := true } } 0 = true) := by decide
theorem witness_sweep_end : (kitBuckets - 2) + 1 < kitBuckets ∧ ¬ (kitBuckets - 1) + 1 < kitBuckets := by decide
theorem witness_walks (l : Learn) : plainLearner (.reload 0 0) = true ∧ plainLearner (.derived 0 0) = true ∧
    plainLearner (.laneJob 0 0) = false ∧ ({ l with parked := false } : Learn).parked = false := ⟨rfl, rfl, rfl, rfl⟩
theorem witness_vault_down : vaultUp up = true ∧ heldFor up .pf0 = false ∧
    (le 2 0x131).length = 2 ∧ fld (onPlot1 (le 8 (2 ^ 64 - 1))) 4 8 = 2 ^ 64 - 1 := by decide
theorem witness_pub : let d : Adm := {
      code := 0x142, inlen := 16, inl := onPlot1 (le 8 7 ++ le 2 0x0501 ++ [1, 0]), extLen := 1312 }
    let s := serving d ((plot1 .opened).setPlot 1 { openPlot with acr := { openPlot.acr with vltQuota := 1 } })
    Serves s d [] ∧ plotNamed d = true ∧ (s.plot d.pid).st ∈ createdToStopped ∧ auditRoom (popAdm s []) = true ∧
      pubArgs (popAdm s []) d = true ∧ pubSuits d = true ∧ (s.plot d.pid).acr.vltQuota ≠ 0 := by
  unfold Serves; decide
theorem witness_pub_key (key : Bytes) : pubkeyOk 0x0501 [] key = true := rfl

/-! ### Witnesses: the keeper, clause by clause -/

theorem witness_trips : (let s : State := { up with kpr := { up.kpr with lcs := 0 } }
     senses s 14 = true ∧ s.kpr.lcs = 0) ∧ senses { up with kpr := { up.kpr with loopCfg := 0 } } 11 = false ∧
    senses { up with kpr := { up.kpr with loopCfg := 1 } } 11 = true ∧
      senses { up with kpr := { up.kpr with loopCfg := 1 } } 12 = false := by
  decide
theorem witness_fall : (let s : State := { up with pwr := { up.pwr with good := false } }
     s.kpr.powered = true ∧ s.pwr.good = false) ∧
    (let s : State := { up with kpr := { up.kpr with kvbat := 2399 } }
     s.kpr.kvbat < 2400) := by decide
theorem witness_loop_officer : let d : Adm := { code := 0x160, inlen := 5, inl := [0, 0, 0, 0, 0] }
    let s := official d { linked with kpr := { linked.kpr with tampered := true }
                                      cust := { linked.cust with regs := [(modScope, { cards := [card 1] })] } }
    Serves s d [] (tamper := true) (standby := true) ∧ noPlot d = true ∧ holdsCard (popAdm s []) modScope 0 = true ∧
      sessionLive (popAdm s []) modScope 0 = true := by
  unfold Serves; decide
theorem witness_rearm_stops : let d : Adm := { code := 0x161, inlen := 4, inl := [0, 0, 0, 0] }
    (let s := official d
     Serves s d [] (tamper := true) (standby := true) (lim := 5) ∧ s.kpr.tampered = false) ∧
    (let s := official d (plot1 .opened { linked with kpr := { linked.kpr with tampered := true } })
     Serves s d [] (tamper := true) (standby := true) (lim := 5) ∧ s.kpr.tampered = true ∧ ∃ x ∈ s.plots, x.2.st ≠ .absent) ∧
    (let s := official d { linked with kpr := { linked.kpr with tampered := true, live := 1 } }
     Serves s d [] (tamper := true) (standby := true) (lim := 5) ∧ s.kpr.live ≠ 0 ∧ ∀ x ∈ s.plots, x.2.st = .absent) := by
  unfold Serves; decide
/-- The key generations of TMP_REARM, the last of them served here. -/
theorem witness_rearm_keys : let s : State := { up with
      rng := { up.rng with priv := [(0, { inst := true, fresh := true })], keyGot := 3 } }
    (keyGens s 0 (4 - s.rng.keyGot)).2 = 0 ∧ (keyGens up 0 (4 - up.rng.keyGot)).2 ≠ 0 := by decide

/-! ### Witnesses: the custodians, clause by clause -/

theorem witness_first_card : let d : Adm := { code := 0x170, inlen := 6, inl := onPlot1 [0, 0] }
    let s := serving d { (linked.setPlot 1 { openPlot with st := .created }) with cust := { linked.cust with ped := [4] } }
    Serves s d [] ∧ byteAt d.inl 4 = 0 ∧ holdsCard (popAdm s []) d.pid 0 = false ∧ firstCards (popAdm s []) d = true := by
  unfold Serves; decide
theorem witness_end_second : let d : Adm := { code := 0x174, inlen := 6, inl := onPlot1 [0, 0] }
    let s := custody d
    Serves s d [] ∧ (popAdm s []).session 0 = none ∧ (∃ x, (popAdm s []).session 1 = some x ∧ x.scope = d.pid ∧
      x.role = byteAt d.inl 4) := by
  unfold Serves; exact ⟨by decide, by decide, _, rfl, by decide, by decide⟩
theorem witness_first_ped : let d : Adm := { code := 0x177, inlen := 4, inl := le 2 modScope ++ [0, 0], extLen := 65 }
    let s := serving d { linked with lcs := { linked.lcs with state := 2 } }
    Serves s d [] true true true 5 ∧ s.cust.ped = [] ∧ firstCards (popAdm s []) d = true := by
  unfold Serves; decide
/-- A card of the registry that an assembly or a ceremony asks for, by the hash of its key, and one it does not know. -/
theorem witness_known_card (key : Bytes) (role : Nat) :
    let c : Card := { hash := keyHash key, role := role, ix := 0 }
    let s : State := { acting .assembly .card with cust := { (acting .assembly .card).cust with regs := [(0, { cards := [c] })] } }
    (((s.registry s.cust.scope).cards.find? fun c => c.hash == keyHash key) = some c) ∧
      ((((acting .assembly .card).registry 0).cards.find? fun c => c.hash == keyHash key) = none) := by
  refine ⟨?_, rfl⟩
  change (List.find? _ [_]) = _
  simp
theorem witness_card_anchored : let s : State := { acting .assembly .card with
      cust := { (acting .assembly .card).cust with sess := [(0, some { scope := 0, role := 0, slot := 1, anchor := [], ends := 0 })] } }
    anchored s 1 = true ∧ anchored s 0 = false := by decide
theorem witness_console_order : let s : State := { acting .ceremony .digits with
      cust := { (acting .ceremony .digits).cust with conSeq := 5, cer := { inl := onPlot1 (le 8 7 ++ [0x10, 2]) } } }
    (4 : W32).toNat < s.cust.conSeq.toNat ∧ s.cust.conSeq.toNat ≤ (5 : W32).toNat ∧ s.cust.step = .digits ∧
      2 * algLen (cerAlg s.cust.cer) 0 = 32 ∧ (acting .ceremony .confirm).cust.step = .confirm := by decide
theorem witness_session_opens : let s := acting .assembly .sign
    s.session 0 = none ∧ twf none s.cust.sess = true ∧ s.cust.op ≠ .ceremony := by decide

/-! ### Witnesses: the Reile link, clause by clause -/

/-- The oldest frame a session takes lies 1,023 below the highest; the next one below is dropped. -/
theorem witness_window_below : let s := node1 { upSess with rxHigh := 1029, rxSeen := [1029] }
    addressed s from2 = true ∧ (s.sess 2).hs = .up ∧ from2.tagOk = true ∧ from2.kph = (s.sess 2).kph ∧
      from2.seq.toNat + 1024 ≤ (s.sess 2).rxHigh.toNat := by decide
theorem witness_phase : let s := node1 upSess
    addressed s { from2 with kph := true } = true ∧ (true ≠ (s.sess 2).kph ∧ (s.sess 2).overlap = false) ∧
      FrameIn (node1 { upSess with overlap := true }) { from2 with kph := true } ∧ (s.sess 3).hs ≠ .up := by
  unfold FrameIn; decide
theorem witness_rekey_roles : (let s : State := node1 { upSess with rk := .helloSent }
     FrameIn s from2 ∧ ((frameTaken s from2 false).sess 2).rk ≠ .idle ∧ (frameTaken s from2 false).clu.node ≤ 2) ∧
    (let s := node1 { upSess with rk := .replySent }
     FrameIn s from2 ∧ ((frameTaken s from2 false).sess 2).rk = .replySent) := by unfold FrameIn; decide
theorem witness_unsynced : let s := node1 { upSess with synced := false }
    FrameIn s from2 ∧ ((frameTaken s from2 false).sess 2).synced = false := by unfold FrameIn; decide
/-- A HELLO that passes its checks and one that does not, by the domain; the certificate is the authority's to give. -/
theorem witness_hello_checks (chain cert : Bytes) :
    (Config.certOk (node1 upSess).clu.caKey 0 2 chain cert = true → helloOk (node1 upSess) from2 0 chain cert = true) ∧
    helloOk (node1 upSess) from2 9 chain cert = false := by
  refine ⟨fun h => ?_, rfl⟩
  unfold helloOk
  rw [show from2.src.toNat = 2 from rfl, h]; rfl

/-! ### Witnesses: cluster commands and pairs, clause by clause -/

theorem witness_founder : let d : Adm := { code := 0x1A0, inlen := 12, inl := [0, 0, 0, 0, 1, 0, 1, 0, 9, 0, 0, 0], extLen := 2145 }
    (let s := clusterCmd d
     Serves s d [] ∧ byteAt d.inl 6 = 1 ∧ (keyGen (popAdm s []) 0).2 = false) ∧
    (let s := { clusterCmd d with rng := { linked.rng with priv := [(0, { inst := true, fresh := true })] } }
     Serves s d [] ∧ (keyGen (popAdm s []) 0).2 = true ∧ heldFor s .pf0 = false) := by
  unfold Serves; decide
theorem witness_bad_member : ¬ (fld (le 2 4096) 0 2 ≤ 4095) ∧ byteAt (cut ([5] ++ List.replicate 97 0) 0 97) 0 ≠ 4 := by decide
theorem witness_bind_none : let d : Adm := { code := 0x1A3, inlen := 9, inl := onPlot1 (le 4 0 ++ [1]) }
    let s := serving d bound
    Serves s d [] ∧ byteAt d.inl 8 = 1 ∧ (BitVec.ofNat 32 (fld d.inl 4 4) : W32) = 0 := by
  unfold Serves; decide
theorem witness_pair_answers : (let d : Adm := { code := 0x1A4, inlen := 8, inl := [0, 0, 0, 0, 2, 0, 1, 0] }
     let s := official d (plot1 .opened (node1 upSess))
     Serves s d [] ∧ pairOk (popAdm s []) 2 = true ∧ allAbsent (popAdm s []) = false) ∧
    (let d : Adm := { code := 0x1A4, inlen := 8, inl := [0, 0, 0, 0, 2, 0, 0, 0] }
     Serves (clusterCmd d) d [] ∧ byteAt d.inl 6 = 0 ∧ pairOk (popAdm (clusterCmd d) []) 2 = true) ∧
    (let d : Adm := { code := 0x1A6, inlen := 4, inl := [0, 0, 0, 0] }
     let s := clusterCmd d upSess fun c => { c with role := 1, peer := 2, suspect := true }
     Serves s d [] ∧ s.clu.role = 1 ∧ s.clu.suspect = true ∧ s.lcs.change = .none) := by
  unfold Serves; decide
/-- PAIR_STATE asks (1), agrees (2), refuses or ends (0), with the running firmware and engine settings of this module or others. -/
theorem witness_pair_state : (let s := node1 upSess fun c => { c with peer := 2, pairAdm := some {} }
     FrameIn s from2 ∧ (frameTaken s from2 false).clu.peer = 2 ∧ (frameTaken s from2 false).clu.pairAdm = some {}) ∧
    (let s := node1 upSess fun c => { c with role := 1, peer := 2 }
     FrameIn s from2 ∧ (frameTaken s from2 false).clu.pairAdm = none ∧ (frameTaken s from2 false).clu.role ≠ 0) ∧
    pairAlike up { role := 2, fw := runningFw up, pke := engineCfg up, swapBuf := true, plots := [] } = true ∧
    pairAlike up { role := 2, fw := runningFw up, pke := [], swapBuf := true, plots := [] } = false := by
  unfold FrameIn; refine ⟨by decide, by decide, ?_, ?_⟩
  · unfold pairAlike; simp
  · rfl
theorem witness_stream : let s := node1 upSess fun c => { c with role := 2, peer := 2, stream := [.pairStream
      { seq := 4, plot := 0, hopper := 0, desc := [1], staged := [] }] }
    FrameIn s from2 ∧ (frameTaken s from2 false).clu.stream.any (isDispatch 4) = true ∧
      fwdYoke (frameTaken s from2 false) 4 = none := by
  unfold FrameIn; decide
theorem witness_diverged : let s := node1 upSess fun c => { c with role := 1, peer := 2 }
    FrameIn s from2 ∧ (frameTaken s from2 false).clu.role = 1 ∧ batchDigest (frameTaken s from2 false) 0 1 ≠ some [] ∧
      batchDigest (frameTaken s from2 false) 0 0 = some (Config.hash 1 []) := by
  unfold FrameIn; exact ⟨by decide, by decide, by decide, rfl⟩
theorem witness_ack_suspect : let s := node1 upSess fun c => { c with role := 1, peer := 2, suspect := true }
    FrameIn s from2 ∧ (frameTaken s from2 false).clu.suspect = true := by unfold FrameIn; decide
theorem witness_packed : (List.replicate 16 Msg.pairSwap).length ≤ 16 ∧ FrameIn (node1 upSess) from2 ∧
    2 ≤ ((frameTaken (node1 upSess) from2 false).sess 2).ver.toNat := by unfold FrameIn; decide
theorem witness_takeover_held : let s := node1 upSess fun c => { c with role := 2, hold := true }
    s.clu.role = 2 ∧ s.clu.hold = true := by decide
theorem witness_swap_turns : (let n := node1 upSess fun c => { c with role := 1, peer := 2, suspect := true }
     let s : State := { n with lcs := { n.lcs with change := .swap {} } }
     s.clu.role = 1 ∧ s.clu.suspect = true ∧ s.lcs.change = .swap {}) ∧
    (let n := plot1 .opened (node1 upSess fun c => { c with role := 1, peer := 2 })
     allStopped n = false) ∧
    (let s := node1 upSess fun c => { c with role := 1, peer := 2, seq := 1 }
     allStopped s = true ∧ allAcked s = false) := by decide

/-! ### Witnesses: the checks of a lane job, one by one -/

/-- A cipher job on the two-key TDES key. -/
def dCipher : Bytes := jobDesc 0x10 0 0 0 hT 0 16 0 16 [1, 1]
theorem lane_tag_fails (s : State) : badTag s (laneTx dCipher) dCipher (.tagFail 0) = some 0 := by
  have one : heldHandle (laneTx dCipher) (fld dCipher 8 4) = some (handle3 0) := by decide
  have two : fld dCipher 12 4 = 0 ∧ fld dCipher 8 4 ≠ 0 := by decide
  unfold badTag
  dsimp only
  rw [one, two.1]
  simp [two.2]; rfl
theorem witness_check_static : laneStatic { sin := true } dCipher = false ∧
    laneStatic {} (jobDesc 0x11 0 0 0 0 0 16 0 32 [1, 0]) = true ∧
    laneStatic { k1 := true } dCipher = true := by decide
theorem witness_check_handles : none ∈ namedHandles (laneTx (jobDesc 0x10 0 0 0 0x83000009 0 16 0 16 [1, 1]))
      (jobDesc 0x10 0 0 0 0x83000009 0 16 0 16 [1, 1]) ∧ none ∉ namedHandles (laneTx dCipher) dCipher := by decide
theorem witness_check_tags (b : Mem) : badTag (laneUp dCipher b) (laneTx dCipher) dCipher .ok = none ∧
    badTag (laneUp dCipher b) (laneTx dCipher) dCipher (.tagFail 0) = some 0 :=
  ⟨lane_tags _ _ _ _ (fun _ h => by cases h), lane_tag_fails _⟩
theorem witness_check_expiry : let old : State := { laneUp dCipher with kpr := { up.kpr with opmin := 9 } }
    let s : State := { old with kp := { old.kp with slots := tmod Slot.zero 0 (fun x => { x with expiry := 1 }) old.kp.slots } }
    expired s (laneKeys s (laneTx dCipher) dCipher 0).1.expiry = true ∧ expired s 10 = false ∧ expired s 9 = true ∧
      expired (laneUp dCipher) (laneKeys (laneUp dCipher) (laneTx dCipher) dCipher 0).1.expiry = false := by decide
theorem witness_check_policy : isTdes (laneKeys (laneUp dCipher) (laneTx dCipher) dCipher 0).1.alg = true ∧
    bit (polAlg (List.replicate 512 0)) 0 = false ∧ bit (polAlg openPolicy) 0 = true ∧
      bit (polAlg openPolicy) 1 = true := by decide
/-- Room in the recorder, and none: every place holds a record that is not exported. -/
theorem witness_check_use : ({ use := fun _ _ _ => false } : LaneSpec).use {} {} {} = false ∧
    ({ pin := false } : LaneSpec).pin = false ∧
    ({ record := true } : LaneSpec).record = true ∧ auditRoom up = true := by decide
theorem witness_lane_ends : (laneUp dCipher).tx 0 = some (laneTx dCipher) ∧ (laneTx dCipher).job 0 = some (laneJob dCipher) ∧
    twf Yoke.zero (laneUp dCipher).yokes = true ∧ twf LaneCtx.zero (laneUp dCipher).lan.ctx = true ∧
    ((laneUp dCipher).ctx 0).job = some (0, 0) ∧ ((laneUp dCipher).ctx 0).bound = .tx 0 ∧
    nextSeal ((laneTx dCipher).setJob 0 (some { laneJob dCipher with st := .ended, status := stOK })) = none := by
  refine ⟨rfl, rfl, by decide, by decide, rfl, rfl, rfl⟩

/-! ### Witnesses: what a lane or an engine job meets -/

theorem witness_engine_events : invFails .ok [1, 4] = none ∧ invFails (.invFail 4) [1, 4] = some 4 ∧
    invFails (.invFail 0) [0, 2] = some 0 ∧
    invFails .eccCorr [2] = none ∧ readsBench (engDesc 0x02 0x102) = false ∧
    readsBench (le 2 2 ++ List.replicate 14 0 ++ [0, 2, 1, 0] ++ List.replicate 44 0) = true := by decide
/-- A job that reads the bench and meets an uncorrectable error there. -/
theorem witness_engine_error : let d := le 2 0x01 ++ [0, 0] ++ le 2 0x102 ++ List.replicate 10 0 ++ [0, 2, 1, 0] ++ List.replicate 44 0
    let s := withTx {} [] (fun t => t.setJob 0 (some { engine := true, st := .running, desc := d })) up
    ∃ q, EngPast s 0 0 0x01 q ∧ readsBench q.d = true := ⟨_, rfl, by decide⟩
theorem witness_window_input (q : EJ) : inputReasons 0x02 q.ps q.body q.curve [] [] ≠ [] := by
  unfold inputReasons; exact List.cons_ne_nil _ _
/-- A derived secret of zeros, and one that is not. -/
theorem witness_secret : (∀ b ∈ fit 32 ([] : Bytes), b = 0) ∧ ∃ b ∈ fit 32 [(1 : Byte)], b ≠ 0 := by decide
theorem witness_generate_learns : let s := (engJob 0x13 0x201).setPlot 0 { active := defaultPolicy, drill := { inst := true }, acr := {
      kitQuota := 1, kcQuota := 1, vltQuota := 1 } }
    ∃ q v, EngPast s 0 0 0x13 q ∧ txRandom (engAt s 0 .ok q) 0 0 64 = some v ∧ (v.1.plot q.t.plot).acr.vltQuota ≠ 0 :=
  ⟨_, _, rfl, rfl, by decide⟩
theorem witness_lane_faults : faultKind .encFail = 0 ∧ faultKind .decFail = 1 ∧ faultKind .derFail = 2 ∧
    (∃ st out sl inv, compOpen (laneUp dCipher) (lanePast (laneUp dCipher) dCipher .decFail) = .fin (laneUp dCipher) st out sl inv) := by
  refine ⟨rfl, rfl, rfl, ?_⟩
  unfold compOpen
  split <;> try split
  all_goals exact ⟨_, _, _, _, rfl⟩
/-- What no key block says is refused; the usages a wrapped key has. -/
theorem witness_wrap_row : (wrapRow { alg := 0x12, attr := 0x30, key := List.replicate 32 1 }).isSome = true := by decide
theorem witness_rings : pcQ (BitVec.ofNat 64 (0x0A * 2 ^ 56 + 2 ^ 55)) = true ∧ pcQ (BitVec.ofNat 64 (0x0A * 2 ^ 56)) = false ∧
    pcOp (BitVec.ofNat 64 (0x0A * 2 ^ 56 + 2 ^ 55)) = 0x0A := by decide
theorem witness_halve : (7 : Nat) % 2 = 1 ∧ 6 < 7 ∧ halveMod 7 2 6 < 7 ∧ halveMod 7 2 6 * 2 ^ 2 % 7 = 6 := by decide
theorem witness_curve_slots : curveHeader ([15, 0] ++ le 2 192 ++ [1] ++ List.replicate 483 0) = true ∧
    curveHeader ([15, 0] ++ le 2 640 ++ [1] ++ List.replicate 483 0) = true ∧ curveHeader ([16, 0] ++ le 2 640 ++ [1]) = false ∧
    (let s : State := { up with rng := { up.rng with priv := [(0, { inst := true })], keyGot := curveDraws / 64 - 1 } }
     (privDraws s 0 (curveDraws / 64 - s.rng.keyGot)).2 = 0) ∧
       (privDraws up 0 (curveDraws / 64 - up.rng.keyGot)).2 ≠ 0 := by decide


end Sys2Proof.Tests
end

/-! SUPPORT. What a register write comes to, said once for each kind of word: the doorbells (R58, R59, R74), the sizes of R573,
the registers of a hopper (R49, R51), the MSI-X table (R39) and the W1C flags of Window M (R11). -/

section
namespace Sys2Proof.Machine

variable {s : State} {w : Writer} {off : Nat}

/-! ### Words and half registers -/

/-- A doorbell takes the low 32 bits of the value on the bus. -/
theorem toNat_lowWord (v : W64) : (v.extractLsb' 0 32).toNat = v.toNat % 2 ^ 32 := by
  rw [BitVec.extractLsb'_toNat, Nat.shiftRight_zero]

@[simp] theorem setHalf_low (old : W64) (v : W32) : setHalf old false v = old.extractLsb' 32 32 ++ v := rfl
@[simp] theorem setHalf_high (old : W64) (v : W32) : setHalf old true v = v ++ old.extractLsb' 0 32 := rfl

/-! ### Writes outside the doorbells (R573) -/

theorem registerWrite_word (d : doorbellAt w off = none) (a : off % 4 = 0) (v : W64) :
    exec (.registerWrite w off 4 v) s = .next (write32 w off (v.extractLsb' 0 32) s) := by
  simp [exec_registerWrite, execRegisterWrite, d, a]

theorem registerWrite_double (d : doorbellAt w off = none) (a : off % 8 = 0) (v : W64) :
    exec (.registerWrite w off 8 v) s =
      .next (write32 w (off + 4) (v.extractLsb' 32 32) (write32 w off (v.extractLsb' 0 32) s)) := by
  simp [exec_registerWrite, execRegisterWrite, d, a]

theorem registerWrite_no_effect (d : doorbellAt w off = none) {n : Nat} (h4 : ¬ (n = 4 ∧ off % 4 = 0))
    (h8 : ¬ (n = 8 ∧ off % 8 = 0)) (v : W64) : exec (.registerWrite w off n v) s = .next s := by
  rw [exec_registerWrite, execRegisterWrite, d]
  simp only [if_neg h4, if_neg h8]

/-! ### Writes to the doorbells (R58, R59, R74) -/

theorem registerWrite_tail {r : HopRef} (d : doorbellAt w off = some (r, true)) (a : off % 4 = 0) (v : W64) :
    exec (.registerWrite w off 4 v) s = exec (.hopTailDb r (v.extractLsb' 0 32) true) s := by
  simp only [exec_registerWrite, execRegisterWrite, d, a, and_self, if_true, exec_hopTailDb, execHopTailDb, toNat_lowWord]

theorem registerWrite_head {r : HopRef} (d : doorbellAt w off = some (r, false)) (a : off % 4 = 0) (v : W64) :
    exec (.registerWrite w off 4 v) s = exec (.hopHeadDb r (v.extractLsb' 0 32) true) s := by
  simp only [exec_registerWrite, execRegisterWrite, d, a, and_self, if_true, Bool.false_eq_true, if_false,
    exec_hopHeadDb, execHopHeadDb, toNat_lowWord]

theorem registerWrite_bad_doorbell {r : HopRef} {tail : Bool} (d : doorbellAt w off = some (r, tail)) {n : Nat}
    (b : ¬ (n = 4 ∧ off % 4 = 0)) (v : W64) : exec (.registerWrite w off n v) s = .next (tailDb s r 0 false) := by
  rw [exec_registerWrite, execRegisterWrite, d]
  simp only [if_neg b]

/-- The arrival of a doorbell changes neither which plots there are nor what they are granted. -/
@[simp] theorem hopDropped_doorbell (s : State) (r : HopRef) : hopDropped (doorbell s) r = hopDropped s r := by
  cases r <;> rfl

/-- A doorbell of a size or alignment that R59 refuses is counted, and nothing else. -/
theorem tailDb_misaligned {r : HopRef} (hr : reach s (hopFn r) = true) (hd : hopDropped s r = false) (v : Nat) :
    tailDb s r v false = (doorbell s).modHop r fun x => { x with dbrCnt := bump x.dbrCnt } := by
  simp [tailDb, hr, hd]

/-- The doorbells of hopper h of a plot: the tail at 8h, the head four bytes above. -/
theorem doorbellAt_driver (p : PlotId) (h : Fin 16) {o : Nat} (l : o < 8) :
    doorbellAt (.driver p) (8 * h.val + o) = some (.vf p h, o == 0) := by
  have inside : 8 * h.val + o < 0x80 := by omega
  have hop : Fin.ofNat 16 ((8 * h.val + o) / 8) = h := Fin.ext (by simp only [Fin.val_ofNat]; omega)
  have place : (8 * h.val + o) % 8 = o := by omega
  exact (if_pos inside).trans (by rw [hop, place])

/-- Above its two doorbells Window D holds none. -/
theorem doorbellAt_managerD (h : 8 ≤ off) : doorbellAt .managerD off = none := if_neg (by omega)

/-! ### The registers of a hopper that takes writes (R49, R51) -/

section
variable {r : HopRef} (hr : reach s (hopFn r) = true) (hd : hopDropped s r = false) (v : W32)
include hr hd

theorem writeHop_sqBase_low (e : (s.hop r).en = false) : writeHop s r 0x00 v =
    s.setHop r { s.hop r with sqBase := pageAddr ((s.hop r).sqBase.extractLsb' 32 32 ++ v) } := by
  simp [writeHop, hr, hd, e]

theorem writeHop_sqBase_high (e : (s.hop r).en = false) : writeHop s r 0x04 v =
    s.setHop r { s.hop r with sqBase := pageAddr (v ++ (s.hop r).sqBase.extractLsb' 0 32) } := by
  simp [writeHop, hr, hd, e]

theorem writeHop_cqBase_enabled (e : (s.hop r).en = true) : writeHop s r 0x08 v = s := by
  simp [writeHop, hr, hd, e]

theorem writeHop_coal : writeHop s r 0x14 v =
    s.setHop r { s.hop r with coalTime := v.extractLsb' 16 10, coalCount := v.extractLsb' 0 8 } := by
  simp [writeHop, hr, hd]

theorem writeHop_stat : writeHop s r 0x18 v = s.setHop r { s.hop r with
    dbRefused := (s.hop r).dbRefused && !v.getLsbD 0, cfgErr := (s.hop r).cfgErr && !v.getLsbD 1,
    fetchErr := (s.hop r).fetchErr && !v.getLsbD 2, headErr := (s.hop r).headErr && !v.getLsbD 3 } := by
  simp [writeHop, hr, hd]

end

/-! ### The words of an MSI-X table that the host reaches (R39) -/

section
variable {f : Fn} {k : Nat} (ht : tableReach s f = true) (hv : hasVector f k = true) (hk : k < 17) (v : W32)
include ht hv hk

theorem writeMsix_addrHigh : writeMsix s f k 1 v =
    s.setMsix f { s.msixOf f with addr := tmod 0 k (fun a => v ++ a.extractLsb' 0 32) (s.msixOf f).addr } := by
  simp [writeMsix, ht, hv, hk]

theorem writeMsix_data : writeMsix s f k 2 v =
    s.setMsix f { s.msixOf f with data := tset 0 k v (s.msixOf f).data } := by
  simp [writeMsix, ht, hv, hk]

/-- Bit 0 of the vector control is the Mask bit: MSIX_MASK where it is 1, MSIX_UNMASK where it is 0. -/
theorem writeMsix_control : writeMsix s f k 3 v = msixGate s f (.vector ⟨k, hk⟩) (!v.getLsbD 0) := by
  have vec : Fin.ofNat 17 k = ⟨k, hk⟩ := Fin.ext (Nat.mod_eq_of_lt hk)
  rw [← vec]
  simp [writeMsix, ht, hv, hk]

end

/-! ### The windows -/

/-- A word of the admin hopper's block in Window D. -/
theorem registerWrite_admin_hopper {reg : Nat} {v : W64} {t : State} (l : reg < 0x40) (a : reg % 4 = 0)
    (e : writeHop s .admin reg (v.extractLsb' 0 32) = t) : exec (.registerWrite .managerD (0x100 + reg) 4 v) s = .next t := by
  rw [registerWrite_word (doorbellAt_managerD (by omega)) (by omega), write32, writeD, if_pos (by omega),
    Nat.add_sub_cancel_left, e]

/-- Word j of entry k of PF0's MSI-X table in Window D. -/
theorem registerWrite_pf0_msix {k j : Fin 4} {v : W64} {t : State}
    (e : writeMsix s .pf0 k j (v.extractLsb' 0 32) = t) :
    exec (.registerWrite .managerD (0x800 + 4 * j.val + 16 * k.val) 4 v) s = .next t := by
  have entry : (0x800 + 4 * j.val + 16 * k.val - 0x800) / 16 = k.val := by omega
  have word : (0x800 + 4 * j.val + 16 * k.val) % 16 / 4 = j.val := by omega
  rw [registerWrite_word (doorbellAt_managerD (by omega)) (by omega), write32, writeD, if_neg (by omega),
    if_pos (by omega), entry, word, e]

/-- Window M has no doorbell. -/
theorem registerWrite_managerM (a : off % 4 = 0) (v : W64) :
    exec (.registerWrite .managerM off 4 v) s = .next (writeM s off (v.extractLsb' 0 32)) :=
  registerWrite_word rfl a v

/-- A write to Device Control takes Enable Relaxed Ordering and keeps the function's power state (R70). -/
theorem writeConfig_deviceControl {f : Fn} (h : cfgReach s f = true) (v : W32) :
    ∃ c : FnCfg, c.relaxed = v.getLsbD 4 ∧ c.d3hot = (s.fnCfg f).d3hot ∧ writeConfig s f 0 v = s.setFnCfg f c := by
  simp only [writeConfig, h, Bool.not_true, Bool.false_eq_true, if_false, if_true]
  refine ⟨_, ?_, ?_, rfl⟩ <;> rfl

/-- RNG_STAT.UNDERRUN is write-1-to-clear (R407). -/
theorem writeRngPort_stat (h : s.pwr.good = true) (v : W32) :
    writeRngPort s 4 v = { s with stw := { s.stw with underrun := s.stw.underrun && !v.getLsbD 1 } } := by
  simp [writeRngPort, h]

/-! ### The obligation on register writes, clause by clause -/

/-- The sizes and alignments of R573, outside the doorbells. -/
theorem registerWrite_sizes (s : State) (w : Writer) (off : Nat) (v : W64) (d : doorbellAt w off = none) :
    (off % 4 = 0 → exec (.registerWrite w off 4 v) s = .next (write32 w off (v.extractLsb' 0 32) s)) ∧
    (off % 8 = 0 → exec (.registerWrite w off 8 v) s =
      .next (write32 w (off + 4) (v.extractLsb' 32 32) (write32 w off (v.extractLsb' 0 32) s))) ∧
    (∀ n, n ≠ 4 → n ≠ 8 → exec (.registerWrite w off n v) s = .next s) ∧
    (off % 4 ≠ 0 → exec (.registerWrite w off 4 v) s = .next s) ∧
    (off % 8 ≠ 0 → exec (.registerWrite w off 8 v) s = .next s) :=
  ⟨fun a => registerWrite_word d a v, fun a => registerWrite_double d a v,
    fun _ h4 h8 => registerWrite_no_effect d (by simp [h4]) (by simp [h8]) v,
    fun a => registerWrite_no_effect d (by simp [a]) (by simp) v,
    fun a => registerWrite_no_effect d (by simp) (by simp [a]) v⟩

/-- The doorbells of a plot's driver (R58, R59, R74). -/
theorem registerWrite_driver_doorbells (s : State) (p : PlotId) (h : Fin 16) (v : W64) :
    exec (.registerWrite (.driver p) (8 * h.val) 4 v) s = exec (.hopTailDb (.vf p h) (v.extractLsb' 0 32) true) s ∧
    exec (.registerWrite (.driver p) (8 * h.val + 4) 4 v) s = exec (.hopHeadDb (.vf p h) (v.extractLsb' 0 32) true) s ∧
    (∀ o n, o < 8 → ¬ (n = 4 ∧ o % 4 = 0) → reach s (.vf p) = true → hopDropped s (.vf p h) = false →
      exec (.registerWrite (.driver p) (8 * h.val + o) n v) s =
        .next ((doorbell s).modHop (.vf p h) fun x => { x with dbrCnt := bump x.dbrCnt })) := by
  refine ⟨?tail, ?head, ?refused⟩
  case tail => exact registerWrite_tail (doorbellAt_driver p h (o := 0) (by omega)) (by omega) v
  case head => exact registerWrite_head (doorbellAt_driver p h (o := 4) (by omega)) (by omega) v
  case refused =>
    intro o n l b hr hd
    rw [registerWrite_bad_doorbell (doorbellAt_driver p h l) (by omega), tailDb_misaligned (r := .vf p h) hr hd]

/-- The flags of Window M that clear where a 1 is written, and CLU_HOLD (R11). -/
theorem registerWrite_windowM_flags (s : State) (v : W64) (hr : reach s .pf0 = true) :
    let w := v.extractLsb' 0 32
    exec (.registerWrite .managerM 0x50008 4 v) s =
      .next { s with lan := { s.lan with event := w1c s.lan.event w } } ∧
    exec (.registerWrite .managerM 0x60008 4 v) s =
      .next { s with pke := { s.pke with event := w1c s.pke.event w } } ∧
    exec (.registerWrite .managerM 0x70004 4 v) s =
      .next { s with rng := { s.rng with event := w1c s.rng.event w } } ∧
    exec (.registerWrite .managerM 0x90030 4 v) s =
      .next { s with evr := { s.evr with event := w1c s.evr.event w } } ∧
    exec (.registerWrite .managerM 0xC0030 4 v) s =
      .next { s with kpr := { s.kpr with event := w1c s.kpr.event w } } ∧
    exec (.registerWrite .managerM 0xB0010 4 v) s =
      .next { s with yreg := { s.yreg with event := w1c s.yreg.event w } } ∧
    exec (.registerWrite .managerM 0xA0080 4 v) s = .next { s with clu := { s.clu with hold := w.getLsbD 0 } } := by
  intro w
  refine ⟨?_, ?_, ?_, ?_, ?_, ?_, ?_⟩ <;> rw [registerWrite_managerM (by decide)] <;> simp [writeM, hr, w]

/-- The registers of the admin hopper (R49, R51, R11). -/
theorem registerWrite_admin_registers (s : State) (v : W64) (hr : reach s .pf0 = true) :
    let x := s.adm.hop
    let w := v.extractLsb' 0 32
    (x.en = false → exec (.registerWrite .managerD 0x100 4 v) s = .next (s.setHop .admin { x with
      sqBase := pageAddr (x.sqBase.extractLsb' 32 32 ++ w) })) ∧
    (x.en = false → exec (.registerWrite .managerD 0x104 4 v) s = .next (s.setHop .admin { x with
      sqBase := pageAddr (w ++ x.sqBase.extractLsb' 0 32) })) ∧
    (x.en = true → exec (.registerWrite .managerD 0x108 4 v) s = .next s) ∧
    exec (.registerWrite .managerD 0x114 4 v) s = .next (s.setHop .admin { x with
      coalTime := w.extractLsb' 16 10, coalCount := w.extractLsb' 0 8 }) ∧
    exec (.registerWrite .managerD 0x118 4 v) s = .next (s.setHop .admin { x with
      dbRefused := x.dbRefused && !w.getLsbD 0, cfgErr := x.cfgErr && !w.getLsbD 1,
      fetchErr := x.fetchErr && !w.getLsbD 2, headErr := x.headErr && !w.getLsbD 3 }) := by
  intro x w
  refine ⟨fun e => ?_, fun e => ?_, fun e => ?_, ?_, ?_⟩
  · exact registerWrite_admin_hopper (reg := 0x00) (by decide) (by decide) (writeHop_sqBase_low (r := .admin) hr rfl w e)
  · exact registerWrite_admin_hopper (reg := 0x04) (by decide) (by decide) (writeHop_sqBase_high (r := .admin) hr rfl w e)
  · exact registerWrite_admin_hopper (reg := 0x08) (by decide) (by decide) (writeHop_cqBase_enabled (r := .admin) hr rfl w e)
  · exact registerWrite_admin_hopper (reg := 0x14) (by decide) (by decide) (writeHop_coal (r := .admin) hr rfl w)
  · exact registerWrite_admin_hopper (reg := 0x18) (by decide) (by decide) (writeHop_stat (r := .admin) hr rfl w)

/-- The entries of PF0's MSI-X table (R39). -/
theorem registerWrite_msix_entry (s : State) (k : Fin 4) (v : W64) (ht : tableReach s .pf0 = true) :
    let m := s.msixOf .pf0
    let w := v.extractLsb' 0 32
    exec (.registerWrite .managerD (0x808 + 16 * k.val) 4 v) s =
      .next (s.setMsix .pf0 { m with data := tset 0 k.val w m.data }) ∧
    exec (.registerWrite .managerD (0x804 + 16 * k.val) 4 v) s =
      .next (s.setMsix .pf0 { m with addr := tmod 0 k.val (fun a => w ++ a.extractLsb' 0 32) m.addr }) ∧
    (w.getLsbD 0 = true → exec (.registerWrite .managerD (0x80C + 16 * k.val) 4 v) s =
      exec (.msixMask .pf0 (.vector ⟨k.val, by omega⟩)) s) ∧
    (w.getLsbD 0 = false → exec (.registerWrite .managerD (0x80C + 16 * k.val) 4 v) s =
      exec (.msixUnmask .pf0 (.vector ⟨k.val, by omega⟩)) s) := by
  intro m w
  have hv : hasVector .pf0 k = true := decide_eq_true k.isLt
  have hk : k.val < 17 := by omega
  have control : exec (.registerWrite .managerD (0x80C + 16 * k.val) 4 v) s =
      .next (msixGate s .pf0 (.vector ⟨k, hk⟩) (!w.getLsbD 0)) :=
    registerWrite_pf0_msix (j := 3) (writeMsix_control ht hv hk w)
  refine ⟨?data, ?addr, fun b => ?mask, fun b => ?unmask⟩
  case data => exact registerWrite_pf0_msix (j := 2) (writeMsix_data ht hv hk w)
  case addr => exact registerWrite_pf0_msix (j := 1) (writeMsix_addrHigh ht hv hk w)
  case mask => rw [control, b]; rfl
  case unmask => rw [control, b]; rfl

/-- RNG_STAT on the steward's RNG port, and Device Control in configuration space (R407, R70). -/
theorem registerWrite_rngStat_and_deviceControl (s : State) (f : Fn) (v : W64) :
    (s.pwr.good = true → exec (.registerWrite .rngPort 4 4 v) s =
      .next { s with stw := { s.stw with underrun := s.stw.underrun && !v.getLsbD 1 } }) ∧
    (cfgReach s f = true → ∃ c : FnCfg, c.relaxed = v.getLsbD 4 ∧ c.d3hot = (s.fnCfg f).d3hot ∧
      exec (.registerWrite (.config f) 0 4 v) s = .next (s.setFnCfg f c)) := by
  have bit {i : Nat} (l : i < 32) : (v.extractLsb' 0 32).getLsbD i = v.getLsbD i := by simp [l]
  refine ⟨fun g => ?rngStat, fun h => ?deviceControl⟩
  case rngStat =>
    rw [registerWrite_word rfl rfl, write32, writeRngPort_stat g, bit (by decide)]
  case deviceControl =>
    obtain ⟨c, relaxed, power, e⟩ := writeConfig_deviceControl h (v.extractLsb' 0 32)
    exact ⟨c, relaxed.trans (bit (by decide)), power, by rw [registerWrite_word rfl rfl, write32, e]⟩

/-- Settles O27: each clause is the rule of its window and register, and the two doorbells of the admin hopper are those of
Window D. The split of 64 bits and the refused doorbell sizes are the model's reading (log 26), the places in Device Control and
in an MSI-X entry PCIe's (log 118). -/
theorem registerWrites : Obligations.RegisterWrites :=
  ⟨⟨registerWrite_sizes, registerWrite_driver_doorbells,
      fun _ v => ⟨registerWrite_tail rfl rfl v, registerWrite_head rfl rfl v⟩⟩,
    registerWrite_windowM_flags, registerWrite_admin_registers, fun s k v => registerWrite_msix_entry s k v,
    registerWrite_rngStat_and_deviceControl⟩

end Sys2Proof.Machine
end

/-! SUPPORT. The key plane's own work, said once for each operation: the rehash and its sweep (R282 to R285), the walk
token (R279), and the admin commands of the vault, the curves and the public keys past their gates (R309, R310, R378 to R381). -/

section
namespace Sys2Proof.Machine

variable {s : State}

/-! ### The position of the sweep -/

@[simp] theorem kitPut_sweep (k : KeyPlane) (i : Nat) (e : KitEntry) : (kitPut k i e).sweep = k.sweep := by
  unfold kitPut; split <;> rfl

@[simp] theorem freeSlotIfDone_sweep (s : State) (i : Nat) : (freeSlotIfDone s i).kp.sweep = s.kp.sweep := by
  unfold freeSlotIfDone
  dsimp only
  split <;> rfl

/-- An entry that goes does not move the sweep. -/
@[simp] theorem dropEntry_sweep (s : State) (i : Nat) : (dropEntry s i).kp.sweep = s.kp.sweep := by
  unfold dropEntry
  dsimp only
  split
  · rfl
  · exact (freeSlotIfDone_sweep _ _).trans (kitPut_sweep ..)

/-! ### The start of a rehash (R282, R404) -/

theorem startRehash_running (h : s.kp.run = true) : startRehash s = s := if_pos h

theorem startRehash_idle (h : s.kp.run = false) :
    startRehash s = beginRehash { s with kp := { s.kp with rehash := true } } := if_neg (by rw [h]; decide)

theorem beginRehash_served (asked : s.kp.rehash = true) (ready : privReady s 0 = true) :
    beginRehash s =
      let r := newSecret (privGen s 0) 32
      { r.1 with kp := { r.1.kp with rehash := false, oldSeed := s.kp.seed, seed := r.2, run := true, sweep := 0 } } :=
  if_pos (by rw [asked, ready]; rfl)

theorem beginRehash_unserved (waits : privReady s 0 = false) : beginRehash s = s :=
  if_neg (by rw [waits, Bool.and_false]; decide)

/-! ### The sweep of a bucket (R284) -/

/-- The entries of the bucket that the sweep has come to. -/
def sweptEntries (s : State) : List KitEntry := ((waysOf s.kp.sweep).map (kitAt s.kp)).filter (·.valid)

/-- The state in which they look for their places: their bucket is cleared and the sweep is past it. -/
def bucketCleared (s : State) : State :=
  { s with kp := { (waysOf s.kp.sweep).foldl (fun k i => kitPut k i KitEntry.zero) s.kp with sweep := s.kp.sweep + 1 } }

/-- Where no entry of the bucket needs the walk token and the sweep does not come to the end, the entries move and no more. -/
theorem sweepBucket_moves (run : s.kp.run = true)
    (noWalk : (sweptEntries s).any (moveWalks (bucketCleared s)) = false)
    (inside : ((sweptEntries s).foldl moveEntry (bucketCleared s)).kp.sweep < kitBuckets) :
    sweepBucket s = (sweptEntries s).foldl moveEntry (bucketCleared s) := by
  unfold sweepBucket
  rw [run]
  change (if (_ && (sweptEntries s).any (moveWalks (bucketCleared s))) = true then s else
    if kitBuckets ≤ ((sweptEntries s).foldl moveEntry (bucketCleared s)).kp.sweep then _ else
      (sweptEntries s).foldl moveEntry (bucketCleared s)) = _
  rw [noWalk, Bool.and_false, if_neg Bool.false_ne_true, if_neg (Nat.not_le.mpr inside)]

/-- An entry moves to the free or dead way that its candidates have. -/
theorem moveEntry_freeWay {e : KitEntry} {i : Nat} (free : freeWay s (cands s.kp e.plot e.name) = some i) :
    moveEntry s e = { dropEntry s i with kp := kitPut (dropEntry s i).kp i e } := by
  unfold moveEntry
  simp only [free]

theorem moveWalks_freeWay {e : KitEntry} {i : Nat} (free : freeWay s (cands s.kp e.plot e.name) = some i) :
    moveWalks s e = false := by
  simp [moveWalks, free]

theorem sweepBucket_empty (run : s.kp.run = true) (inside : s.kp.sweep + 1 < kitBuckets) (bare : sweptEntries s = []) :
    sweepBucket s = bucketCleared s := by
  rw [sweepBucket_moves run] <;> rw [bare]
  · rfl
  · rfl
  · exact inside

theorem sweepBucket_lone {e : KitEntry} {i : Nat} (run : s.kp.run = true) (inside : s.kp.sweep + 1 < kitBuckets)
    (one : sweptEntries s = [e]) (free : freeWay (bucketCleared s) (cands (bucketCleared s).kp e.plot e.name) = some i) :
    sweepBucket s =
      { dropEntry (bucketCleared s) i with kp := kitPut (dropEntry (bucketCleared s) i).kp i e } := by
  have moved := moveEntry_freeWay free
  have past : (moveEntry (bucketCleared s) e).kp.sweep = s.kp.sweep + 1 := by
    rw [moved]; simp only [kitPut_sweep, dropEntry_sweep]; rfl
  rw [sweepBucket_moves run] <;> rw [one]
  · exact moved
  · simp [moveWalks_freeWay free]
  · simpa [past] using inside

/-! ### The sweeper (R288, R299) -/

theorem sweeperVisit_kit (s : State) :
    (∀ b, exec (.sweeperVisit (.kitBucket b)) s = .next (sweepKit s (waysOf b.val))) ∧
    exec (.sweeperVisit .kitOverflow) s = .next (sweepKit s (ovfPlaces s.kp)) := ⟨fun _ => rfl, rfl⟩

theorem sweeperVisit_rpl (s : State) :
    (∀ b, exec (.sweeperVisit (.rplBucket b)) s = .next (sweepRpl s (waysOf b.val))) ∧
    exec (.sweeperVisit .rplOverflow) s = .next (sweepRpl s (s.rpl.ovf.map fun x => rplWays + x.1)) := ⟨fun _ => rfl, rfl⟩

/-! ### The walk token (R277, R279) -/

/-- The insertion at the head of the waiting ones, where it can go on, takes the token and ends. -/
theorem walkToken_first {l : Learn} {w : Learner} {rest : List (Learn × Learner)} (q : s.kp.walkq = (l, w) :: rest)
    (awake : l.parked = false) (can : plainLearner w = true ∨ vaultWaits s l = false) :
    let t : State := { s with kp := { s.kp with walkq := rest } }
    let r := if plainLearner w then learnWalk t l else learnKeyWalk t l
    exec .walkTokenTaken s = .next (learned r.1 l w r.2) := by
  have go : canGo s (l, w) = true := by
    rcases can with plain | ready
    · simp [canGo, plain]
    · simp [canGo, ready]
  have first : s.kp.walkq.find? (canGo s) = some (l, w) := by rw [q, List.find?_cons_of_pos go]
  have left : s.kp.walkq.erase (l, w) = rest := by rw [q, List.erase_cons_head]
  simp only [exec_walkTokenTaken, execWalkTokenTaken, first, left, walked, awake, Bool.false_eq_true, if_false]

/-! ### Admin commands with external data (R57, R92) -/

/-- The steward's queue has no part in what reaches the host or the vault. -/
theorem heldFor_popAdm (s : State) (rest : List Adm) (f : Fn) : heldFor (popAdm s rest) f = heldFor s f := rfl
theorem vaultUp_popAdm (s : State) (rest : List Adm) : vaultUp (popAdm s rest) = vaultUp s := rfl

/-- The read goes out and its data come. -/
theorem admRead_data {d : Adm} {n : Nat} (out : heldFor s .pf0 = false) (nonzero : n ≠ 0) (b : Bytes)
    (run : State → Bytes → State) : admRead s d n (.data b) run = run (emit s (.read d.extAddr n)) (fit n b) := by
  unfold admRead issueRead
  simp only [nonzero, out, if_false, Bool.false_eq_true, readData]

/-- Every parameter set of PKE_PUBKEY_LOAD has a public key of some length (R364). -/
theorem pubBytes_ne_zero {ps : Nat} (h : ps ∈ pubkeySets) (p : Nat) : pubBytes s p ps ≠ 0 := by
  simp only [pubkeySets, List.mem_cons, List.not_mem_nil, or_false] at h
  rcases h with rfl | rfl | rfl | rfl | rfl | rfl | rfl | rfl | rfl | rfl <;> exact Nat.succ_ne_zero _

theorem pubArgs_extLen {d : Adm} (h : pubArgs s d = true) : d.extLen ≠ 0 := by
  simp only [pubArgs, Bool.and_eq_true, beq_iff_eq, List.contains_iff_mem] at h
  obtain ⟨⟨⟨⟨⟨_, _⟩, listed⟩, _⟩, _⟩, len⟩ := h
  rw [len]
  exact pubBytes_ne_zero listed _

/-! ### What the commands do past their gates -/

/-- VAULT_SAVE with the vault in reach (R309). -/
theorem runSave_reached (up : vaultUp s = true) (d : Adm) :
    runSave s d =
      let mark := fld d.inl 4 8
      let v := saveFailures s d.pid mark
      forwardAdmin (admResult (freeTombstones v d.pid mark) d
        (packRecords (rootKey v d.pid) d.resLen (savedRecords v d.pid mark))) d :=
  if_neg (by rw [up]; decide)

/-- VAULT_LOAD of an image with the vault in reach (R310). -/
theorem runLoad_data {d : Adm} (up : vaultUp s = true) (out : heldFor s .pf0 = false) (nonzero : d.extLen ≠ 0) (b : Bytes) :
    runLoad (.data b) s d =
      let x := loadRecs d.pid 512 (fit d.extLen b) (emit s (.read d.extAddr d.extLen)) 0 0
      forwardData (admEnd x.1 d stOK (le 4 x.2.1 ++ le 4 x.2.2)) d (fit d.extLen b) := by
  simp only [runLoad, up, Bool.not_true, Bool.false_eq_true, if_false, nonzero, admRead_data out nonzero]

/-- A curve record that meets every check of R380 is kept. -/
theorem loadCurve_kept {d : Adm} {c : Bytes} :
    let slot := byteAt c 0
    let g := privDraws s 0 (curveDraws / 64 - s.rng.keyGot)
    let h := drawn (keyServed g.1) curveDraws
    curveHeader c = true → curveOf s d.pid (curvePset slot) = [] → g.2 = 0 → curveCheck c g.1.free = none →
    auditRoom h = true → loadCurve s d c = keepCurve h d c := by
  intro slot g h header empty served checks room
  unfold loadCurve
  dsimp only
  rw [header, empty, if_neg (by decide), if_neg (by decide), if_neg (not_not_intro served)]
  simp only [g] at checks
  simp only [checks]
  exact if_neg (by rw [room]; decide)

/-- A public key that suits its parameter set and use is learned: its command ends with the learning, or waits
for it (R363, R378). -/
theorem loadPubkey_learns {d : Adm} {key : Bytes} (ok : pubkeyOk (pubSet d) [] key = true) (suits : pubSuits d = true)
    (quota : (s.plot d.pid).acr.vltQuota ≠ 0) (room : auditRoom s = true) :
    let g := learnFor (reserve s) (pubLearn d key) (.admin d)
    (∀ st, g.2 = some st → loadPubkey s d key = pubkeyDone g.1 d (pubLearn d key) st) ∧
    (g.2 = none → loadPubkey s d key = g.1) := by
  unfold loadPubkey
  rw [ok, suits, room, if_neg (by decide), if_neg quota, if_neg (by decide)]
  dsimp only
  obtain ⟨t, ends⟩ := learnFor (reserve s) (pubLearn d key) (.admin d)
  cases ends with
  | some st => exact ⟨by rintro _ ⟨⟩; rfl, nofun⟩
  | none => exact ⟨nofun, fun _ => rfl⟩

theorem pubkeyDone_learned {d : Adm} {l : Learn} {st : BitVec 16} (h : st = stOK ∨ st = stExisting) :
    pubkeyDone s d l st = forwardData (admEnd (writeReserved s 0x1032 d.pid (le 8 (pubName d).toNat ++ le 2 (pubSet d))) d st)
      d l.slot.body := if_pos h

/-- A curve slot that no key uses is cleared (R381). -/
theorem runCurveClear_unused {d : Adm} :
    let slot := byteAt d.inl 4
    curveUsed s d.pid (curvePset slot) = false → auditRoom s = true →
    runCurveClear s d = forwardAdmin (admOk (writeReserved (saveRecord ((reserve s).modPlot d.pid fun pl =>
      { pl with curves := tset [] slot [] pl.curves }) d.pid) 0x1031 d.pid (curvePayload slot)) d) d := by
  intro slot unused room
  unfold runCurveClear
  dsimp only
  rw [unused, room, if_neg (by decide), if_neg (by decide)]

/-! ### The obligation on the key plane's work, clause by clause -/

/-- KIT_REHASH (R282, R404). -/
theorem kitRehash_begins (s : State) (idle : s.kp.run = false) :
    let w : State := { s with kp := { s.kp with rehash := true } }
    let r := newSecret (privGen w 0) 32
    (privReady s 0 = true → exec .kitRehash s = .next { r.1 with kp := { r.1.kp with
      rehash := false, oldSeed := s.kp.seed, seed := r.2, run := true, sweep := 0 } }) ∧
    (privReady s 0 = false → exec .kitRehash s = .next w) := by
  intro w r
  have start : exec .kitRehash s = .next (beginRehash w) := by
    rw [exec_kitRehash, execKitRehash, startRehash_idle idle]
  refine ⟨fun ready => ?served, fun waits => ?unserved⟩
  case served => exact start.trans (congrArg _ (beginRehash_served (s := w) rfl ready))
  case unserved => exact start.trans (congrArg _ (beginRehash_unserved (s := w) waits))

theorem kitRehash_running (s : State) (run : s.kp.run = true) : exec .kitRehash s = .next s := by
  rw [exec_kitRehash, execKitRehash, startRehash_running run]

section
variable {d : Adm} {rest : List Adm} (serves : Serves s d rest) (named : plotNamed d = true)
  (st : (s.plot d.pid).st ∈ createdToStopped)
include serves named st

theorem vaultSave_runs (code : d.code = 0x130) (inlen : d.inlen = 12) (res : 128 ≤ d.resLen) :
    exec .vaultSave s = .next (runSave (popAdm s rest) d) := by
  rw [exec_vaultSave, execVaultSave]
  exact plotCmd_run serves code named (by simp [inlenIs, inlen, res]) st rfl

theorem vaultLoad_runs (r : HostRead) (code : d.code = 0x131) (inlen : d.inlen = 4) (whole : d.extLen % 128 = 0) :
    exec (.vaultLoad r) s = .next (runLoad r (popAdm s rest) d) := by
  rw [exec_vaultLoad, execVaultLoad]
  exact plotCmd_run serves code named (by simp [inlenIs, inlen, whole]) st rfl

theorem pkeCurveLoad_runs (r : HostRead) (code : d.code = 0x140) (inlen : d.inlen = 4) (len : d.extLen = 488) :
    exec (.pkeCurveLoad r) s = .next (runCurveLoad r (popAdm s rest) d) := by
  rw [exec_pkeCurveLoad, execPkeCurveLoad]
  exact plotCmd_run serves code named (by simp [inlenIs, inlen, len]) st rfl

theorem pkeCurveClear_runs (code : d.code = 0x141) (inlen : d.inlen = 5) (slot : byteAt d.inl 4 ≤ 15) :
    exec .pkeCurveClear s = .next (runCurveClear (popAdm s rest) d) := by
  rw [exec_pkeCurveClear, execPkeCurveClear]
  exact plotCmd_run serves code named (by simp [inlenIs, inlen, slot]) st rfl

theorem pkePubkeyLoad_runs (r : HostRead) (code : d.code = 0x142) (args : pubArgs (popAdm s rest) d = true) :
    exec (.pkePubkeyLoad r) s = .next (runPubkeyLoad r (popAdm s rest) d) := by
  rw [exec_pkePubkeyLoad, execPkePubkeyLoad]
  exact plotCmd_run serves code named args st rfl

/-- VAULT_LOAD (R310). -/
theorem vaultLoad_loads (out : heldFor s .pf0 = false) (b : Bytes) (code : d.code = 0x131) (inlen : d.inlen = 4)
    (whole : d.extLen % 128 = 0) (nonzero : d.extLen ≠ 0) (up : vaultUp s = true) :
    let x := loadRecs d.pid 512 (fit d.extLen b) (emit (popAdm s rest) (.read d.extAddr d.extLen)) 0 0
    exec (.vaultLoad (.data b)) s = .next (forwardData (admEnd x.1 d stOK (le 4 x.2.1 ++ le 4 x.2.2)) d (fit d.extLen b)) := by
  intro x
  rw [vaultLoad_runs serves named st _ code inlen whole,
    runLoad_data ((vaultUp_popAdm ..).trans up) ((heldFor_popAdm ..).trans out) nonzero]

/-- PKE_CURVE_LOAD (R380). -/
theorem pkeCurveLoad_loads (out : heldFor s .pf0 = false) (b : Bytes) (code : d.code = 0x140) (inlen : d.inlen = 4)
    (len : d.extLen = 488) :
    let u := popAdm s rest
    let r := emit { u with rng := { u.rng with keyWait := none } } (.read d.extAddr 488)
    let c := fit 488 b
    let g := privDraws r 0 (curveDraws / 64 - s.rng.keyGot)
    let h := drawn (keyServed g.1) curveDraws
    curveHeader c = true → curveOf u d.pid (curvePset (byteAt c 0)) = [] → g.2 = 0 → curveCheck c g.1.free = none →
    auditRoom h = true → exec (.pkeCurveLoad (.data b)) s = .next (keepCurve h d c) := by
  intro u r c g h header empty served checks room
  rw [pkeCurveLoad_runs serves named st _ code inlen len, runCurveLoad]
  rw [admRead_data (s := { u with rng := { u.rng with keyWait := none } }) out (by decide)]
  exact congrArg _ (loadCurve_kept (s := r) header empty served checks room)

/-- PKE_PUBKEY_LOAD (R363, R378). -/
theorem pkePubkeyLoad_learns (out : heldFor s .pf0 = false) (b : Bytes) (code : d.code = 0x142)
    (args : pubArgs (popAdm s rest) d = true) (room : auditRoom (popAdm s rest) = true)
    (quota : (s.plot d.pid).acr.vltQuota ≠ 0) :
    let key := fit d.extLen b
    let g := learnFor (reserve (emit (popAdm s rest) (.read d.extAddr d.extLen))) (pubLearn d key) (.admin d)
    pubkeyOk (pubSet d) [] key = true → pubSuits d = true →
    (∀ st', g.2 = some st' → (st' = stOK ∨ st' = stExisting) →
      exec (.pkePubkeyLoad (.data b)) s = .next (forwardData (admEnd (writeReserved g.1 0x1032 d.pid
        (le 8 (pubName d).toNat ++ le 2 (pubSet d))) d st') d (pubLearn d key).slot.body)) ∧
    (g.2 = none → exec (.pkePubkeyLoad (.data b)) s = .next g.1) := by
  intro key g ok suits
  have course : exec (.pkePubkeyLoad (.data b)) s =
      .next (loadPubkey (emit (popAdm s rest) (.read d.extAddr d.extLen)) d key) := by
    rw [pkePubkeyLoad_runs serves named st _ code args, runPubkeyLoad,
      admRead_data ((heldFor_popAdm ..).trans out) (pubArgs_extLen args)]
  obtain ⟨ended, waiting⟩ := loadPubkey_learns (s := emit (popAdm s rest) (.read d.extAddr d.extLen)) ok suits quota room
  refine ⟨fun st' ends good => ?ends, fun unended => ?waits⟩
  case ends => rw [course, ended st' ends, pubkeyDone_learned good]
  case waits => rw [course, waiting unended]

end

/-- Settles O34, clause by clause. That a rehash waits for P0 is the model's reading (log 32), as is the number of requests of a
curve load (log 55). -/
theorem keyPlaneWork : Obligations.KeyPlaneWork := by
  unfold Obligations.KeyPlaneWork
  refine ⟨fun s => ⟨kitRehash_begins s, kitRehash_running s, fun run inside => ⟨?empty, fun e i => ?lone⟩,
      sweeperVisit_kit s, sweeperVisit_rpl s, fun l w rest => walkToken_first⟩,
    fun s d rest serves named st => ⟨?save, fun out => ⟨?load, ?curveLoad, ?pubkeyLoad⟩, ?curveClear⟩⟩
  case empty => exact fun bare => by rw [exec_rehashSweep, execRehashSweep, sweepBucket_empty run inside bare]; rfl
  case lone => exact fun one free => by rw [exec_rehashSweep, execRehashSweep, sweepBucket_lone run inside one free]; rfl
  case save =>
    intro code inlen res up
    rw [vaultSave_runs serves named st code inlen res, runSave_reached ((vaultUp_popAdm ..).trans up)]
  case load => exact vaultLoad_loads serves named st out
  case curveLoad => exact pkeCurveLoad_loads serves named st out
  case pubkeyLoad => exact pkePubkeyLoad_learns serves named st out
  case curveClear =>
    intro code inlen range room _ unused
    rw [pkeCurveClear_runs serves named st code inlen range, runCurveClear_unused unused room]
    rfl

end Sys2Proof.Machine
end

/-! SUPPORT. The doorbells and the enable of a hopper, one lemma per outcome of each event (R46, R47, R50, R58, R62, R74). -/

section
namespace Sys2Proof.Machine

variable {s : State} {r : HopRef}

/-! ### A hopper read after a write -/

section
variable {α : Type} [DecidableEq α] {d : α} {i : Nat}

/-- A write below every listed key puts its entry in front. -/
theorem tset_below {t : Tbl α} {lo : Nat} (h : twfFrom d lo t = true) (l : i < lo) (v : α) :
    tset d i v t = if v = d then t else (i, v) :: t := by
  cases t with
  | nil => rfl
  | cons x t =>
    simp only [twfFrom, Bool.and_eq_true, decide_eq_true_eq] at h
    rw [tset, if_pos (by omega)]

/-- Of two writes to one key of a canonical table the second counts. -/
theorem tset_tset_from (w v : α) : ∀ {t : Tbl α} {lo : Nat}, twfFrom d lo t = true →
    tset d i v (tset d i w t) = tset d i v t
  | [], _, _ => by
    by_cases e : w = d <;> simp [tset, e]
  | (k, u) :: t, _, h => by
    simp only [twfFrom, Bool.and_eq_true, decide_eq_true_eq] at h
    obtain ⟨-, above⟩ := h
    rcases Nat.lt_trichotomy i k with below | same | beyond
    · by_cases e : w = d <;> simp [tset, below, e]
    · subst same
      by_cases e : w = d
      · simp [tset, e, tset_below above (Nat.lt_succ_self i)]
      · simp [tset, e]
    · have lt : ¬ i < k := by omega
      have ne : i ≠ k := by omega
      simp only [tset, if_neg lt, if_neg ne, tset_tset_from w v above]

theorem tset_tset_same {t : Tbl α} (h : twf d t = true) (w v : α) : tset d i v (tset d i w t) = tset d i v t :=
  tset_tset_from w v h

end

/-- The tables that hold the hopper are canonical. -/
def HopCanon (s : State) : HopRef → Prop
  | .admin => True
  | .vf p _ => twf Plot.zero s.plots = true ∧ twf Hopper.zero (s.plot p).hoppers = true

theorem setHop_hop_same (c : HopCanon s r) (x : Hopper) : (s.setHop r x).hop r = x := by
  cases r with
  | admin => rfl
  | vf p h =>
    obtain ⟨plots, hoppers⟩ := c
    simp only [State.hop, State.setHop, State.modPlot_plot_same _ plots, tget_tset_same hoppers]

theorem setHop_setHop (c : HopCanon s r) (x y : Hopper) : (s.setHop r x).setHop r y = s.setHop r y := by
  cases r with
  | admin => rfl
  | vf p h =>
    obtain ⟨plots, hoppers⟩ := c
    simp only [State.setHop, State.modPlot, State.setPlot_plot_same _ plots]
    simp only [State.setPlot, tset_tset_same plots, tset_tset_same hoppers]

/-- A hopper that was put is changed as what was put. -/
theorem setHop_modHop (c : HopCanon s r) (x : Hopper) (f : Hopper → Hopper) :
    (s.setHop r x).modHop r f = s.setHop r (f x) := by
  rw [State.modHop, setHop_hop_same c, setHop_setHop c]

@[simp] theorem heldEntries_setHop (s : State) (r q : HopRef) (x : Hopper) : heldEntries (s.setHop r x) q = heldEntries s q := by
  rw [heldEntries, State.setHop_link, heldEntries]

/-! ### What the arrival of a doorbell leaves -/

@[simp] theorem hop_doorbell (s : State) (r : HopRef) : (doorbell s).hop r = s.hop r := by cases r <;> rfl
@[simp] theorem depth_doorbell (s : State) (r : HopRef) : depth (doorbell s) r = depth s r := by cases r <;> rfl
@[simp] theorem hopOpen_doorbell (s : State) (r : HopRef) : hopOpen (doorbell s) r = hopOpen s r := by cases r <;> rfl

/-! ### The steward's next descriptor read (R40, R62) -/

/-- A function that the host reaches is under no Insecure stream. -/
theorem heldFor_of_reach {f : Fn} (h : reach s f = true) : heldFor s f = false := by
  simp only [reach, cfgReach, Bool.and_eq_true, Bool.not_eq_true'] at h
  obtain ⟨⟨⟨-, out⟩, -⟩, -⟩ := h
  exact out

theorem fetchAdmin_idle (empty : s.adm.hop.acc = []) : fetchAdmin s = s := by
  simp [fetchAdmin, empty]

/-- An enabled admin hopper that is not halted has its next descriptor read where none is on its way, one is accepted and R62
permits it. -/
theorem fetchAdmin_enabled (en : s.adm.hop.en = true) (runs : s.adm.hop.halted = false) (out : heldFor s .pf0 = false) :
    fetchAdmin s =
      let x := s.adm.hop
      if x.reads = 0 ∧ x.acc ≠ [] ∧ readRoom s .admin = true then
        issueRead (s.setHop .admin { x with reads := 1 }) .pf0 (x.sqBase + BitVec.ofNat 64 (128 * x.fetchHead)) 128
      else s := by
  have gate : readGate s .admin = readRoom s .admin := by
    rw [readGate, hopFn, out, Bool.not_false, Bool.and_true]
  simp only [fetchAdmin, en, runs, gate, Bool.not_false, Bool.and_true, Bool.true_and, Bool.and_eq_true, beq_iff_eq,
    Bool.not_eq_true', List.isEmpty_eq_false_iff, ne_eq, and_assoc]

/-! ### The tail doorbell (R58) -/

/-- The four conditions of R58: the hopper is enabled and not halted, the index lies in the ring and does not move the tail
back, and the occupancy stays within DEPTH and N − 1. -/
def TailTaken (s : State) (r : HopRef) (v : Nat) : Prop :=
  let x := s.hop r
  x.en = true ∧ x.halted = false ∧ v < x.n ∧ x.occ x.tail ≤ x.occ v ∧ x.occ v ≤ depth s r ∧ x.occ v ≤ x.n - 1

/-- The hopper with a tail doorbell accepted: the new descriptors come with the time and the plot's default deadline. -/
def tailMoved (s : State) (r : HopRef) (v : Nat) : Hopper :=
  let x := s.hop r
  { x with tail := v, acc := x.acc ++ List.replicate (x.occ v - x.occ x.tail) (s.now, defaultDeadline s r) }

/-- The condition of R74: the index lies in the circular range from the host head to CQ_TAIL. -/
def HeadTaken (s : State) (r : HopRef) (v : Nat) : Prop :=
  let x := s.hop r
  let ahead := fun (i : Nat) => (i + x.n - x.hostHead % x.n) % x.n
  v < x.n ∧ ahead v ≤ ahead x.cqTail

section
variable (hr : reach s (hopFn r) = true) (hd : hopDropped s r = false) {v : Nat}
include hr hd

theorem tailDb_accepted (ho : hopOpen s r = true) (ok : TailTaken s r v) (moves : v ≠ (s.hop r).tail) :
    tailDb s r v true = fetchNext ((doorbell s).setHop r (tailMoved s r v)) r := by
  obtain ⟨en, runs, inRing, forward, inDepth, fits⟩ := ok
  have room : ¬ min (depth s r) ((s.hop r).n - 1) < (s.hop r).occ v := by omega
  simp [tailDb, hr, hd, ho, en, runs, moves, Nat.not_le.mpr inRing, Nat.not_lt.mpr forward, room, tailMoved]

/-- A doorbell equal to the tail only arrives. -/
theorem tailDb_same (ho : hopOpen s r = true) (en : (s.hop r).en = true) (runs : (s.hop r).halted = false)
    (inRing : v < (s.hop r).n) (stays : v = (s.hop r).tail) : tailDb s r v true = doorbell s := by
  simp [tailDb, hr, hd, ho, en, runs, stays ▸ Nat.not_le.mpr inRing, stays]

theorem tailDb_refused (bad : ¬ TailTaken s r v) (moves : v ≠ (s.hop r).tail) :
    tailDb s r v true = (doorbell s).setHop r
      { s.hop r with dbRefused := true, dbrCnt := bump (s.hop r).dbrCnt } := by
  have refuse : refuseDb (doorbell s) r = (doorbell s).setHop r
      { s.hop r with dbRefused := true, dbrCnt := bump (s.hop r).dbrCnt } := by
    rw [refuseDb, State.modHop, hop_doorbell]
  rw [← refuse]
  simp only [tailDb, hr, hd, hopDropped_doorbell, hop_doorbell, depth_doorbell, Bool.not_true, Bool.false_eq_true, if_false]
  split
  · rfl
  next takes =>
    refine if_pos ?_
    simp only [Bool.or_eq_true, Bool.not_eq_true', decide_eq_true_eq, not_or, Bool.not_eq_false, Bool.not_eq_true] at takes
    obtain ⟨⟨⟨en, runs⟩, -⟩, inRing⟩ := takes
    by_contra room
    simp only [Bool.or_eq_true, decide_eq_true_eq, not_or] at room
    exact bad ⟨en, runs, by omega, by omega, by omega, by omega⟩

/-! ### The head doorbell (R74) -/

theorem headDb_accepted (ok : HeadTaken s r v) :
    headDb s r v true = fetchNext ((doorbell s).setHop r { s.hop r with hostHead := v }) r := by
  simp only [headDb, hr, hd, hopDropped_doorbell, hop_doorbell, Bool.not_true, Bool.false_eq_true, if_false]
  exact if_pos ok

theorem headDb_refused (bad : ¬ HeadTaken s r v) :
    headDb s r v true = (doorbell s).setHop r
      { s.hop r with headErr := true, headErrCnt := bump (s.hop r).headErrCnt } := by
  simp only [headDb, hr, hd, hopDropped_doorbell, hop_doorbell, Bool.not_true, Bool.false_eq_true, if_false]
  exact if_neg bad

end

/-- Settles O18: the conditions of R58 decide between a move of the tail and a refusal; on the admin hopper the steward then
reads the next descriptor. -/
theorem tailDoorbell : Obligations.TailDoorbell := by
  unfold Obligations.TailDoorbell
  intro s r v hr hd ho x s1 n occ ok accepted
  refine ⟨fun good moves => ⟨?driver, ?admin⟩, ?same, ?refused, ?misaligned⟩
  case driver =>
    rintro p h rfl
    rw [exec_hopTailDb, execHopTailDb, tailDb_accepted hr hd ho good moves]
    rfl
  case admin =>
    rintro rfl
    have ⟨en, runs, _⟩ := good
    have out : heldFor ((doorbell s).setHop .admin (tailMoved s .admin v.toNat)) .pf0 = false := heldFor_of_reach hr
    rw [exec_hopTailDb, execHopTailDb, tailDb_accepted hr hd ho good moves]
    exact congrArg _ (fetchAdmin_enabled en runs out)
  case same =>
    intro en runs inRing stays
    rw [exec_hopTailDb, execHopTailDb, tailDb_same hr hd ho en runs inRing stays]
    rfl
  case refused =>
    intro bad moves
    rw [exec_hopTailDb, execHopTailDb, tailDb_refused hr hd bad moves]
    rfl
  case misaligned =>
    rw [exec_hopTailDb, execHopTailDb, tailDb_misaligned hr hd, State.modHop, hop_doorbell]
    rfl

/-- Settles O19: the condition of R74 decides between a move of the host head and HEAD_ERR. -/
theorem headDoorbell : Obligations.HeadDoorbell := by
  unfold Obligations.HeadDoorbell
  intro s r v hr hd x s1 n dist ok
  have taken (good : ok) : exec (.hopHeadDb r v true) s = .next (fetchNext (s1.setHop r { x with hostHead := v.toNat }) r) := by
    rw [exec_hopHeadDb, execHopHeadDb, headDb_accepted hr hd good]
    rfl
  refine ⟨taken, fun good idle => ?nothingToRead, fun bad => ?refused⟩
  case nothingToRead =>
    rw [taken good]
    cases r with
    | vf p h => rfl
    | admin =>
      have empty : x.acc = [] := idle.resolve_left (fun other => other rfl)
      exact congrArg _ (fetchAdmin_idle (s := s1.setHop .admin { x with hostHead := v.toNat }) empty)
  case refused =>
    rw [exec_hopHeadDb, execHopHeadDb, headDb_refused hr hd bad]
    rfl

/-! ### HOP_CFG with EN = 1 (R46, R47) -/

theorem logOk_admin (l : Nat) : logOk .admin l = true ↔ 6 ≤ l ∧ l ≤ 12 := by simp [logOk]

theorem logOk_vf (p : PlotId) (h : Fin 16) (l : Nat) : logOk (.vf p h) l = true ↔ 6 ≤ l ∧ l ≤ 16 := by simp [logOk]

section
variable (hr : reach s (hopFn r) = true) (hd : hopDropped s r = false) {cfg : W32}
include hr hd

theorem enableHop_enables (off : (s.hop r).en = false) (opened : hopOpen s r = true)
    (log : logOk r (cfgFields (s.hop r) cfg).log2.toNat = true) (idle : (s.hop r).enabled = false) :
    enableHop s r cfg = s.setHop r
      { cfgFields (s.hop r) cfg with
        en := true, enabled := true, halted := false, fence := false, fetchHead := 0, tail := 0, cqTail := 0, hostHead := 0,
        phase := true, acc := [], reads := 0, inflight := 0, ringCq := (s.hop r).cqBase,
        ringLog2 := (cfgFields (s.hop r) cfg).log2 } := by
  have en : (cfgFields (s.hop r) cfg).en = false := off
  have enabled : (cfgFields (s.hop r) cfg).enabled = false := idle
  simp only [enableHop, hr, hd, en, enabled, opened, log, Bool.not_true, Bool.not_false, Bool.or_self, Bool.and_self,
    Bool.false_eq_true, if_false, if_true]
  rfl

theorem enableHop_refuses (off : (s.hop r).en = false)
    (bad : ¬ (hopOpen s r = true ∧ logOk r (cfgFields (s.hop r) cfg).log2.toNat = true ∧ (s.hop r).enabled = false)) :
    enableHop s r cfg = s.setHop r
      { cfgFields (s.hop r) cfg with cfgErr := true, cfgErrCnt := bump (s.hop r).cfgErrCnt } := by
  have en : (cfgFields (s.hop r) cfg).en = false := off
  simp only [enableHop, hr, hd, en, Bool.not_true, Bool.or_self, Bool.false_eq_true, if_false]
  refine if_neg fun all => bad ?_
  simp only [Bool.and_eq_true, Bool.not_eq_true', and_assoc] at all
  exact all

end

/-! ### HOP_CFG with EN = 0 (R50) -/

theorem readersOf_setHop (s : State) (r : HopRef) (x : Hopper) (p h : Nat) : readersOf (s.setHop r x) p h = readersOf s p h := by
  rw [readersOf, State.setHop_yokes, readersOf]

/-- No yoke waits for a descriptor of the hopper; the steward's own read is no yoke's. -/
def NoReader (s : State) : HopRef → Prop
  | .admin => True
  | .vf p h => readersOf s p h = []

theorem noReader_setHop (unread : NoReader s r) (x : Hopper) : NoReader (s.setHop r x) r := by
  cases r with
  | admin => trivial
  | vf p h => exact (readersOf_setHop ..).trans unread

/-- Where no yoke waits for a descriptor, abandoning the reads sets their count to 0. -/
theorem abandonReads_none (unread : NoReader s r) : abandonReads s r = s.modHop r fun x => { x with reads := 0 } := by
  cases r with
  | admin => rfl
  | vf p h =>
    have noYoke : readersOf s p h = [] := unread
    simp only [abandonReads, noYoke, List.foldl_nil]

/-- A hopper just disabled stays ENABLED while an entry is still to come (R50). -/
theorem dropEnabled_disabled (c : HopCanon s r) {x : Hopper} (off : x.en = false) (was : x.enabled = true) :
    dropEnabled (s.setHop r x) r = s.setHop r { x with enabled := decide (x.inflight ≠ 0 ∨ heldEntries s r ≠ 0) } := by
  simp only [dropEnabled, setHop_hop_same c, heldEntries_setHop]
  by_cases due : x.inflight ≠ 0 ∨ heldEntries s r ≠ 0
  · have same : { x with enabled := true } = x := by rw [← was]
    rw [decide_eq_true due, same]
    exact if_neg (by simp only [Bool.and_eq_true, decide_eq_true_eq]; omega)
  · rw [decide_eq_false due, setHop_setHop c]
    exact if_pos (by simp only [off, was, Bool.not_false, Bool.true_and, Bool.and_eq_true, decide_eq_true_eq]; omega)

/-- A hopper that HOP_CFG disables. -/
def hopOff (s : State) (r : HopRef) (cfg : W32) : Hopper :=
  { cfgFields (s.hop r) cfg with
    en := false, enabled := decide ((s.hop r).inflight ≠ 0 ∨ heldEntries s r ≠ 0), halted := false, acc := [],
    fence := false, reads := 0 }

/-- The three parts of a disable come to one write of the hopper: its reads abandoned, what was accepted dropped, and ENABLED
with it where no entry is still to come. -/
theorem disable_writes (c : HopCanon s r) (unread : NoReader s r) (was : (s.hop r).enabled = true) (cfg : W32) :
    dropEnabled ((abandonReads (s.setHop r (cfgFields (s.hop r) cfg)) r).modHop r
      fun x => { x with en := false, halted := false, acc := [], fence := false }) r = s.setHop r (hopOff s r cfg) := by
  rw [abandonReads_none (noReader_setHop unread _), setHop_modHop c, setHop_modHop c]
  exact dropEnabled_disabled c rfl was

theorem disableHop_admin (hr : reach s .pf0 = true) (on : s.adm.hop.en = true) (was : s.adm.hop.enabled = true) (cfg : W32) :
    disableHop s .admin cfg = s.setHop .admin (hopOff s .admin cfg) := by
  have en : (cfgFields (s.hop .admin) cfg).en = true := on
  simp only [disableHop, if_neg (reach_admin hr), en, Bool.not_true, Bool.false_eq_true, if_false]
  exact disable_writes (r := .admin) trivial trivial was cfg

section
variable {p : PlotId} {h : Fin 16}

/-- A plot one of whose hoppers is put. -/
theorem setHop_plot_same (plots : twf Plot.zero s.plots = true) (x : Hopper) : (s.setHop (.vf p h) x).plot p =
    { s.plot p with hoppers := tset Hopper.zero h x (s.plot p).hoppers } := State.modPlot_plot_same s plots _

theorem setHop_plot_ne {q : Nat} (n : q ≠ p) (x : Hopper) : (s.setHop (.vf p h) x).plot q = s.plot q :=
  State.modPlot_plot_ne s n _

theorem checkStopped_not_stopping {q : Nat} (n : (s.plot q).st ≠ .stopping) : checkStopped s q = s := by
  simp [checkStopped, n]

theorem disableHop_vf (hr : reach s (.vf p) = true) (hd : hopDropped s (.vf p h) = false) (c : HopCanon s (.vf p h))
    (unread : readersOf s p h = []) (n : (s.plot p).st ≠ .stopping) (on : (s.hop (.vf p h)).en = true)
    (was : (s.hop (.vf p h)).enabled = true) (cfg : W32) :
    disableHop s (.vf p h) cfg = s.setHop (.vf p h) (hopOff s (.vf p h) cfg) := by
  have en : (cfgFields (s.hop (.vf p h)) cfg).en = true := on
  simp only [disableHop, hopFn, hr, hd, en, Bool.not_true, Bool.or_self, Bool.false_eq_true, if_false]
  rw [disable_writes c unread was]
  obtain ⟨plots, -⟩ := c
  exact checkStopped_not_stopping (by rw [setHop_plot_same plots]; exact n)

end

/-- Settles O20. That the host head is set to 0 is the model's reading (log 6), as is that the count of coalescing is kept
(log 110). -/
theorem hopperEnableDisable : Obligations.HopperEnableDisable := by
  unfold Obligations.HopperEnableDisable
  intro s r cfg hr hd x f lim ok
  have log : ok ↔ hopOpen s r = true ∧ logOk r (cfgFields (s.hop r) cfg).log2.toNat = true ∧ (s.hop r).enabled = false := by
    cases r with
    | admin => rw [logOk_admin, and_assoc]; exact Iff.rfl
    | vf p h => rw [logOk_vf, and_assoc]; exact Iff.rfl
  refine ⟨fun isSet off => ⟨fun good => ?enables, fun bad => ?refuses⟩, fun clear on was => ⟨?steward, ?driver⟩⟩
  case enables =>
    obtain ⟨opened, range, idle⟩ := log.mp good
    rw [exec_hopperEnable, execHopperEnable, if_pos isSet, enableHop_enables hr hd off opened range idle]
    rfl
  case refuses =>
    rw [exec_hopperEnable, execHopperEnable, if_pos isSet, enableHop_refuses hr hd off (mt log.mpr bad)]
    rfl
  case steward =>
    rintro rfl
    rw [exec_hopperDisable, execHopperDisable, clear, if_neg (by decide), disableHop_admin hr on was]
    rfl
  case driver =>
    rintro p h rfl unread running plots hoppers
    have c : HopCanon s (.vf p h) := ⟨plots, hoppers⟩
    refine ⟨s.setHop (.vf p h) (hopOff s (.vf p h) cfg), ?_, rfl, setHop_hop_same c _, fun q n => setHop_plot_ne n _, ?_⟩
    · rw [exec_hopperDisable, execHopperDisable, clear, if_neg (by decide), disableHop_vf hr hd c unread running on was]
    · rw [setHop_plot_same plots]

end Sys2Proof.Machine
end

/-! SUPPORT. Interrupts and the secured link: a vector that is due, the gates of R78, the answers of IDE_KM and SPDM (R75 to
R78, R87 to R92). -/

section
namespace Sys2Proof.Machine

variable {s : State} {f : Fn}

/-! ### MSI-X (R75, R77, R78) -/

theorem coalescingTimer_due {r : HopRef} {t : Nat} (due : (s.hop r).coalDue = some t) :
    exec (.coalescingTimer r) s = .next (hopInterrupt (advanceTo s t) r) := by
  rw [exec_coalescingTimer, execCoalescingTimer, due]

/-- The clock does not change a hopper's vector. -/
theorem hopVec_advanceTo (s : State) (t : Nat) (r : HopRef) : hopVec (advanceTo s t) r = hopVec s r := by cases r <;> rfl

theorem msixGate_enable (h : cfgReach s f = true) (b : Bool) :
    msixGate s f .enable b = sendPending (s.setMsix f { s.msixOf f with enable := b }) f := if_pos h

theorem msixGate_fnMask (h : cfgReach s f = true) (b : Bool) :
    msixGate s f .fnMask b = sendPending (s.setMsix f { s.msixOf f with fnMask := !b }) f := if_pos h

section
variable {v : Fin 17} (ht : tableReach s f = true) (hv : hasVector f v = true)
include ht hv

theorem msixGate_unmask (masked : v.val ∉ (s.msixOf f).unmasked) : msixGate s f (.vector v) true =
    sendPending (s.setMsix f { s.msixOf f with unmasked := v.val :: (s.msixOf f).unmasked }) f := by
  simp [msixGate, ht, hv, masked]

theorem msixGate_mask : msixGate s f (.vector v) false =
    sendPending (s.setMsix f { s.msixOf f with unmasked := (s.msixOf f).unmasked.filter (· != v.val) }) f := by
  simp [msixGate, ht, hv]

end

/-- The three conditions of R78. -/
theorem msix_open_iff (m : Msix) (v : Nat) : m.open v = true ↔ m.enable = true ∧ m.fnMask = false ∧ v ∈ m.unmasked := by
  simp [Msix.open, and_assoc]

theorem raiseVec_sent {v : Nat} (out : heldFor s f = false) (opened : (s.msixOf f).open v = true) :
    raiseVec s f v = emit s (.msix f v (tget 0 (s.msixOf f).addr v) (tget 0 (s.msixOf f).data v)) := by
  simp [raiseVec, out, opened]

theorem raiseVec_pends {v : Nat} (closed : (s.msixOf f).open v = false) (new : v ∉ (s.msixOf f).pend) :
    raiseVec s f v = s.setMsix f { s.msixOf f with pend := v :: (s.msixOf f).pend } := by
  simp [raiseVec, closed, new]

/-! ### IDE_KM (R87, R90, R91) -/

/-- A state whose newest SPDM session sends a message, sealed under the session. -/
def answered (s : State) (x : SpdmSess) (rest : List SpdmSess) (body : Bytes) : State :=
  emit { s with link := { s.link with spdm := { x with sealed := x.sealed + 1 } :: rest } }
    (.doe .ok (Config.spdmSeal x.secret x.sealed body))

theorem secured_answers {x : SpdmSess} {rest : List SpdmSess} (session : s.link.spdm = x :: rest) (body : Bytes) :
    secured s body = answered s x rest body := by
  unfold secured
  rw [session]
  rfl

section
variable (up : doeUp s = true)
include up

theorem ideKm_session {x : SpdmSess} {rest : List SpdmSess} (live : s.adm.live = true) (session : s.link.spdm = x :: rest)
    (run : State → State) : ideKm s run = run s := by
  simp [ideKm, up, live, session]

theorem ideKm_busy (dead : s.adm.live = false) (run : State → State) : ideKm s run = emit s (.doe .busy []) := by
  simp [ideKm, up, dead]

/-! ### SPDM (R87 to R90, R401) -/

theorem spdm_live (live : s.adm.live = true) (run : State → State) : spdm s run = run s := by
  simp [spdm, up, live]

theorem spdm_busy (dead : s.adm.live = false) (run : State → State) : spdm s run = emit s (.doe .busy []) := by
  simp [spdm, up, dead]

end

theorem p1Draw_ready (ready : privReady s 1 = true) (run : State → State) : p1Draw s run = run (privGen s 1) := if_pos ready

theorem doeUp_of (present : s.link.perst = false) (trained : s.link.trained = true) : doeUp s = true := by
  rw [doeUp, present, trained]; rfl

/-! ### The obligation on interrupts and the secured link, clause by clause -/

/-- The end of the coalescing time (R75). -/
theorem coalescingTimer_raises (s : State) (r : HopRef) (t : Nat) (due : (s.hop r).coalDue = some t) :
    exec (.coalescingTimer r) s = .next (raiseVec (({ s with now := max s.now t } : State).modHop r fun x =>
      { x with pendCnt := 0, coalAt := none, coalDue := none }) (hopFn r) (hopVec s r)) := by
  rw [coalescingTimer_due due, hopInterrupt, hopVec_advanceTo]
  rfl

/-- The gates in configuration space (R78). -/
theorem msix_config_gates (s : State) (f : Fn) (h : cfgReach s f = true) :
    let m := s.msixOf f
    exec (.msixUnmask f .enable) s = .next (sendPending (s.setMsix f { m with enable := true }) f) ∧
    exec (.msixUnmask f .fnMask) s = .next (sendPending (s.setMsix f { m with fnMask := false }) f) ∧
    exec (.msixMask f .enable) s = .next (sendPending (s.setMsix f { m with enable := false }) f) ∧
    exec (.msixMask f .fnMask) s = .next (sendPending (s.setMsix f { m with fnMask := true }) f) :=
  ⟨congrArg _ (msixGate_enable h true), congrArg _ (msixGate_fnMask h true), congrArg _ (msixGate_enable h false),
    congrArg _ (msixGate_fnMask h false)⟩

/-- The Mask bit of a vector (R78). -/
theorem msix_vector_gate (s : State) (f : Fn) (v : Fin 17) (ht : tableReach s f = true) (hv : hasVector f v = true) :
    let m := s.msixOf f
    (v.val ∉ m.unmasked →
      exec (.msixUnmask f (.vector v)) s = .next (sendPending (s.setMsix f { m with unmasked := v.val :: m.unmasked }) f)) ∧
    exec (.msixMask f (.vector v)) s =
      .next (sendPending (s.setMsix f { m with unmasked := m.unmasked.filter (· != v.val) }) f) :=
  ⟨fun masked => congrArg _ (msixGate_unmask ht hv masked), congrArg _ (msixGate_mask ht hv)⟩

/-- A message that is due (R77, R78). -/
theorem raiseVec_due (s : State) (f : Fn) (v : Nat) (out : heldFor s f = false) :
    let m := s.msixOf f
    (m.enable = true → m.fnMask = false → v ∈ m.unmasked →
      raiseVec s f v = { s with out := s.out ++ [.msix f v (tget 0 m.addr v) (tget 0 m.data v)] }) ∧
    ((m.enable = false ∨ m.fnMask = true ∨ v ∉ m.unmasked) → v ∉ m.pend →
      raiseVec s f v = s.setMsix f { m with pend := v :: m.pend }) := by
  refine ⟨fun enable mask unmasked => ?sent, fun gate new => ?pends⟩
  case sent => exact raiseVec_sent out ((msix_open_iff ..).mpr ⟨enable, mask, unmasked⟩)
  case pends =>
    refine raiseVec_pends (Bool.eq_false_iff.mpr fun opened => ?_) new
    obtain ⟨enable, mask, unmasked⟩ := (msix_open_iff ..).mp opened
    rcases gate with h | h | h
    · exact absurd enable (by rw [h]; decide)
    · exact absurd mask (by rw [h]; decide)
    · exact h unmasked

/-- A failed check of an active stream (R92). -/
theorem ideIntegrityFailure_insecure (s : State) (k : Fin 2) (active : (s.ide k).active ≠ none)
    (secure : (s.ide k).insecure = false) :
    exec (.ideIntegrityFailure k) s = .next (modEvent (s.setIde k { s.ide k with insecure := true })) := by
  have on : (s.ide k).active.isSome = true := Option.isSome_iff_ne_none.mpr active
  simp [exec_ideIntegrityFailure, execIdeIntegrityFailure, on, secure]

/-- The messages of IDE_KM under a session (R91). -/
theorem ideKm_answers (s : State) (k : Fin 2) (x : SpdmSess) (rest : List SpdmSess) (present : s.link.perst = false)
    (trained : s.link.trained = true) (live : s.adm.live = true) (session : s.link.spdm = x :: rest) :
    exec (.ideKmQuery k) s = .next (answered s x rest (Config.doeBody k)) ∧
    (∀ (set : Fin 2) (r : IdeRids) (a : IdeAddrs),
      let i : Ide := { s.ide k with first := r.first, last := r.last, addr0 := a.block0, addr1 := a.block1 }
      exec (.ideKmKeyProg k set r a) s = .next (answered
        (s.setIde k (if set = 0 then { i with prog0 := true } else { i with prog1 := true })) x rest [])) ∧
    (∀ set : Fin 2, (if set = 0 then (s.ide k).prog0 else (s.ide k).prog1) = true → exec (.ideKmKSetGo k set) s =
      .next (releaseHeld (answered (s.setIde k { s.ide k with active := some set, insecure := false }) x rest []))) ∧
    ((s.ide k).active = some 0 → exec (.ideKmKSetStop k 0) s = .next (answered (s.setIde k { s.ide k with
      prog0 := false, active := none }) x rest [])) ∧
    ((s.ide k).active ≠ some 1 →
      exec (.ideKmKSetStop k 1) s = .next (answered (s.setIde k { s.ide k with prog1 := false }) x rest [])) := by
  have up := doeUp_of present trained
  have answer (i : Ide) : secured (s.setIde k i) [] = answered (s.setIde k i) x rest [] :=
    secured_answers (s := s.setIde k i) session []
  refine ⟨?query, fun set r a => ?keyProg, fun set programmed => ?go, fun active => ?stop0, fun other => ?stop1⟩
  case query => rw [exec_ideKmQuery, execIdeKmQuery, ideKm_session up live session, secured_answers session]
  case keyProg => rw [exec_ideKmKeyProg, execIdeKmKeyProg, ideKm_session up live session, answer]
  case go =>
    rw [exec_ideKmKSetGo, execIdeKmKSetGo, ideKm_session up live session]
    dsimp only
    rw [if_pos programmed, answer]
  case stop0 =>
    rw [exec_ideKmKSetStop, execIdeKmKSetStop, ideKm_session up live session]
    dsimp only
    rw [if_pos active, answer]
    rfl
  case stop1 =>
    rw [exec_ideKmKSetStop, execIdeKmKSetStop, ideKm_session up live session]
    dsimp only
    rw [if_neg other, answer]
    rfl

/-- The SPDM requests on a live module (R87 to R89). -/
theorem spdm_answers (s : State) (n x : Bytes) (present : s.link.perst = false) (trained : s.link.trained = true)
    (live : s.adm.live = true) (hn : n.length = 32) (hx : x.length = 96) :
    exec (.spdmGetCertificate 0) s = .next (emit s (.doe .ok Config.identityChain)) ∧
    (privReady s 1 = true →
      let u := privGen s 1
      let secret := Config.spdmSchedule (Config.dheShared x u.free) (x ++ Config.dhePublic u.free)
      exec (.spdmChallenge n) s = .next (drawn (emit u (.doe .ok (Config.attestSign n u.free))) 1) ∧
      (∀ i : Byte, 1 ≤ i.toNat → i.toNat ≤ 5 → exec (.spdmGetMeasurements i n) s =
        .next (drawn (emit u (.doe .ok (Config.hash 2 (measured s i.toNat) ++
          Config.attestSign (n ++ Config.hash 2 (measured s i.toNat)) u.free))) 1)) ∧
      exec (.spdmKeyExchange x) s = .next (drawn (emit
        { u with link := { u.link with spdm := { secret := secret } :: u.link.spdm } }
        (.doe .ok (Config.dhePublic u.free ++ Config.attestSign (x ++ Config.dhePublic u.free) (u.free + 1) ++
          Config.spdmVerify secret (x ++ Config.dhePublic u.free)))) 2)) := by
  have up := doeUp_of present trained
  refine ⟨?certificate, fun ready => ⟨?challenge, fun i above below => ?measurements, ?keyExchange⟩⟩
  case certificate => rw [exec_spdmGetCertificate, execSpdmGetCertificate, spdm_live up live, if_pos rfl]
  case challenge =>
    rw [exec_spdmChallenge, execSpdmChallenge, if_neg (not_not_intro hn), spdm_live up live, p1Draw_ready ready]
  case measurements =>
    have notCount : i ≠ 0 := by rintro rfl; exact absurd above (by decide)
    have notAll : i ≠ 0xFF := by rintro rfl; exact absurd below (by decide)
    rw [exec_spdmGetMeasurements, execSpdmGetMeasurements, if_neg (not_not_intro hn), spdm_live up live]
    dsimp only
    rw [if_neg notCount, if_neg notAll, if_pos below, if_neg (by omega), p1Draw_ready ready]
  case keyExchange =>
    rw [exec_spdmKeyExchange, execSpdmKeyExchange, if_neg (not_not_intro hx), spdm_live up live, p1Draw_ready ready]
    rfl

/-- Before the admin hopper is live (R90). -/
theorem doe_busy (s : State) (k : Fin 2) (i : Fin 8) (present : s.link.perst = false) (trained : s.link.trained = true)
    (dead : s.adm.live = false) :
    exec (.ideKmQuery k) s = .next (emit s (.doe .busy [])) ∧
    exec (.spdmGetCertificate i) s = .next (emit s (.doe .busy [])) := by
  have up := doeUp_of present trained
  exact ⟨congrArg _ (ideKm_busy up dead _), congrArg _ (spdm_busy up dead _)⟩

/-- Settles O22, clause by clause. That K_SET_STOP leaves an Insecure stream Insecure is the model's choice (log 111), and
the requests of P1 that nonces and signatures count are its reading (log 80). -/
theorem interruptsAndSecureLink : Obligations.InterruptsAndSecureLink :=
  ⟨⟨coalescingTimer_raises, msix_config_gates, msix_vector_gate, raiseVec_due⟩,
    ideIntegrityFailure_insecure, ideKm_answers, spdm_answers, doe_busy⟩

end Sys2Proof.Machine
end

/-! SUPPORT. Attached engines: the end of an attach, a squash and a detach, and the command at the front of an engine's queue
(R83, R384, R387 to R391). -/

section
namespace Sys2Proof.Machine

variable {s : State} {e : EngId}

/-! ### Attach, squash, detach (R83, R384, R390, R391) -/

theorem attach_ends (s : State) (y : YokeId) (j : JobIx) (t : Tx) (x : Job) (job : jobOf s (y.val, j.val) = some (t, x))
    (engine : x.engine = true) (running : x.st = .running) (ty : jType x.desc = 0x40) :
    exec (.attach y j) s = .next (modJob s y.val j.val fun x => { x with st := .ended, status := stOK }) := by
  rw [exec_attach, execAttach, job]
  simp [engine, running, ty]

theorem engineSquashComplete_frees (s : State) (e : EngId) (k : Fin 2)
    (squash : (s.eslot (2 * e.val + k.val)).squash = true) :
    exec (.engineSquashComplete e k) s =
      .next (pumpEng (slotFreed (s.modEslot (2 * e.val + k.val) fun _ => {}) (2 * e.val + k.val))) :=
  congrArg _ (if_pos squash)

theorem engineDetachComplete_frees (s : State) (e : EngId) (detach : (s.mac e.val).detach = true) :
    exec (.engineDetachComplete e) s = .next (pumpEng (s.modMac e.val fun _ => {})) :=
  congrArg _ (if_pos detach)

/-! ### The command at the front of the queue (R387 to R389) -/

/-- Engine e is attached and not being detached, and the queue of its commands begins with w. -/
def MacFront (s : State) (e : EngId) (w : W64) (rest : List W64) : Prop :=
  (s.mac e.val).queue = w :: rest ∧ (s.mac e.val).tx.isSome = true ∧ (s.mac e.val).detach = false

/-- The front command w has left the queue with a value of L bits in its shelf D. -/
def macDone (s : State) (e : EngId) (w : W64) (rest : List W64) (v : Nat) : State :=
  s.modMac e.val fun _ => { s.mac e.val with
    shelves := tset 0 (pcD w) (v % 2 ^ shelfLen s e.val) (s.mac e.val).shelves, queue := rest }

section
variable {w : W64} {rest : List W64} {op : Nat} (front : MacFront s e w rest)
include front

/-- The front command runs where it has the OP, and leaves the queue. -/
theorem macCmd_front (named : pcOp w = op) (run : State → Nat → Mac → W64 → State × Mac) :
    macCmd op run e s =
      .next ((run s (shelfLen s e.val) (s.mac e.val) w).1.modMac e.val fun _ =>
        { (run s (shelfLen s e.val) (s.mac e.val) w).2 with queue := rest }) := by
  obtain ⟨queue, attached, stays⟩ := front
  simp [macCmd, queue, attached, stays, named]

/-- A front command of one shelf puts its value in D. -/
theorem macPut_front (named : pcOp w = op) (f : Nat → Mac → W64 → Nat) :
    macPut op f e s = .next (macDone s e w rest (f (shelfLen s e.val) (s.mac e.val) w)) :=
  macCmd_front front named _

/-- Under a context a modular command puts its value modulo the modulus. -/
theorem modCmd_context (named : pcOp w = op) {k : Nat} (context : (s.mac e.val).modulus = some k)
    (f : Nat → Nat → Nat → Nat → Nat) : modCmd op f e s = .next (macDone s e w rest
      (f (shelfLen s e.val) k (shelf (s.mac e.val) (pcA w)) (shelf (s.mac e.val) (pcB w)))) := by
  rw [modCmd, macPut_front front named, context]

/-- Without a context it puts 0 (R389). -/
theorem modCmd_noContext (named : pcOp w = op) (bare : (s.mac e.val).modulus = none) (f : Nat → Nat → Nat → Nat → Nat) :
    modCmd op f e s = .next (macDone s e w rest 0) := by
  rw [modCmd, macPut_front front named, bare]

/-- MPREP of an odd modulus of at least 2 makes the context. -/
theorem mprep_context (named : pcOp w = 0x03) (odd : shelf (s.mac e.val) (pcM w) % 2 = 1)
    (two : 2 ≤ shelf (s.mac e.val) (pcM w)) :
    exec (.mprep e) s = .next (s.modMac e.val fun _ => { s.mac e.val with
      shelves := tset 0 (pcD w) (2 ^ (2 * shelfLen s e.val) % shelf (s.mac e.val) (pcM w) % 2 ^ shelfLen s e.val)
        (s.mac e.val).shelves,
      modulus := some (shelf (s.mac e.val) (pcM w)), queue := rest }) := by
  rw [exec_mprep, execMprep, macCmd_front front named]
  dsimp only
  rw [if_neg (by omega)]
  rfl

/-- MPREP of an even modulus, or of one below 2, sets BADMOD and leaves no context. -/
theorem mprep_badmod (named : pcOp w = 0x03)
    (bad : shelf (s.mac e.val) (pcM w) % 2 = 0 ∨ shelf (s.mac e.val) (pcM w) < 2) :
    ∃ v, exec (.mprep e) s = .next ((drawn s (shelfLen s e.val / 8)).modMac e.val fun _ => { s.mac e.val with
      shelves := tset 0 (pcD w) (v % 2 ^ shelfLen s e.val) (s.mac e.val).shelves, modulus := none, badmod := true,
      queue := rest }) := by
  refine ⟨leNat (freeBytes s.free (shelfLen s e.val / 8)), ?_⟩
  rw [exec_mprep, execMprep, macCmd_front front named]
  dsimp only
  rw [if_pos bad]
  rfl

/-- PWMUL multiplies pointwise for 8,380,417 (R388). -/
theorem pwmul_pointwise (named : pcOp w = 0x0A) (q : pcQ w = true) :
    exec (.pwmul e) s = .next (macDone s e w rest (pack w (zipCoefs (· * ·) (s.mac e.val) w))) := by
  rw [exec_pwmul, execPwmul, macPut_front front named, if_pos q]

/-- PWMUL multiplies base cases for 3,329 (R388). -/
theorem pwmul_baseCase (named : pcOp w = 0x0A) (q : pcQ w = false) :
    exec (.pwmul e) s = .next (macDone s e w rest
      (pack w (baseMul 0 (coefs w (shelf (s.mac e.val) (pcA w))) (coefs w (shelf (s.mac e.val) (pcB w)))))) := by
  rw [exec_pwmul, execPwmul, macPut_front front named, if_neg (by rw [q]; decide)]

end

/-- Settles O54, clause by clause: each command of Table 9.12 is the front command of its OP. -/
theorem attachedEngines : Obligations.AttachedEngines := by
  unfold Obligations.AttachedEngines
  refine ⟨⟨attach_ends, engineSquashComplete_frees, engineDetachComplete_frees⟩, ?commands,
    fun n l v odd below => halveMod_spec n odd l v below⟩
  case commands =>
    intro s e w rest
    dsimp only
    intro queue attached stays
    have front : MacFront s e w rest := ⟨queue, attached, stays⟩
    refine ⟨?zero, ?copy, ?mprep, ?badmod, fun k context => ⟨?mmul, ?madd, ?msub⟩,
      fun bare => ⟨?mmul0, ?madd0, ?msub0⟩, ?mac, ?ntt, ?intt, ?pointwise, ?baseCase, ?padd⟩
    case zero => exact fun op => (exec_zero ..).trans (macPut_front front op _)
    case copy => exact fun op => (exec_copy ..).trans (macPut_front front op _)
    case mprep => exact fun op odd two => mprep_context front op odd two
    case badmod => exact fun op bad => mprep_badmod front op bad
    case mmul => exact fun op => (exec_mmul ..).trans (modCmd_context front op context _)
    case madd => exact fun op => (exec_madd ..).trans (modCmd_context front op context _)
    case msub => exact fun op => (exec_msub ..).trans (modCmd_context front op context _)
    case mmul0 => exact fun op => (exec_mmul ..).trans (modCmd_noContext front op bare _)
    case madd0 => exact fun op => (exec_madd ..).trans (modCmd_noContext front op bare _)
    case msub0 => exact fun op => (exec_msub ..).trans (modCmd_noContext front op bare _)
    case mac => exact fun op => (exec_mac ..).trans (macCmd_front front op _)
    case ntt => exact fun op => (exec_ntt ..).trans (macPut_front front op _)
    case intt => exact fun op => (exec_intt ..).trans (macPut_front front op _)
    case pointwise => exact fun op q => pwmul_pointwise front op q
    case baseCase => exact fun op q => pwmul_baseCase front op q
    case padd => exact fun op => (exec_padd ..).trans (macPut_front front op _)

end Sys2Proof.Machine
end

/-! SUPPORT. What every command answers and what it does to the queue (logs 1 and 19). -/

section
namespace Sys2Proof.Machine

variable {c : Instr} {s t : State}

/-! ### The queue -/

theorem step_cons {rest : List Instr} (front : s.pending = c :: rest) : step s = exec c { s with pending := rest } := by
  simp only [step, front]

theorem step_empty (waits : s.pending = []) : step s = .next (idle s) := by
  simp only [step, waits]

/-- A command neither adds to the queue nor takes from it. -/
theorem exec_pending (run : exec c s = .next t) : t.pending = s.pending := (KeepsR.of (exec_keeps c s) run).queue

/-- The front command leaves the queue, and nothing else does. -/
theorem step_pending (run : step s = .next t) : t.pending = s.pending.drop 1 := by
  cases h : s.pending with
  | nil =>
    rw [step_empty h] at run
    cases run
    exact h
  | cons c rest =>
    rw [step_cons h] at run
    exact exec_pending run

/-- Settles O57: the rest of the queue is a part of it. That the queue is first in, first out is the model's choice (log 19). -/
theorem queueInOrder : Obligations.QueueInOrder := by
  unfold Obligations.QueueInOrder
  intro s t run
  have rest := step_pending run
  refine ⟨rest, fun ok => ?_⟩
  rw [QueueOk, List.all_eq_true] at ok ⊢
  rw [rest]
  exact fun c waits => ok c (List.mem_of_mem_drop waits)

/-! ### Completion (log 1) -/

/-- A host read of a length that the interface carries is one that the arrival of a descriptor takes. -/
theorem readOk_eq_readLen (n : Nat) (r : HostRead) : readOk n r = readLen n r := by cases r <;> rfl

theorem descriptorArrival_completes {w : ReadFor} {r : HostRead} (h : readLen 128 r = true) (s : State) :
    ∃ t, exec (.descriptorArrival w r) s = .next t := by
  have taken : ¬ (!readOk 128 r) = true := by rw [readOk_eq_readLen, h]; decide
  rw [exec_descriptorArrival, execDescriptorArrival.eq_def, if_neg taken]
  cases w with
  | admin => exact ⟨_, rfl⟩
  | yoke y => cases r <;> exact ⟨_, rfl⟩

theorem deadlineExpired_completes {d : DlTarget} (h : targetLen d = true) (s : State) :
    ∃ t, exec (.deadlineExpired d) s = .next t := by
  cases d with
  | yoke => exact ⟨_, rfl⟩
  | queued => exact ⟨_, if_pos (beq_iff_eq.mp h)⟩

/-- A command that takes byte strings of one length alone completes with one of that length. -/
theorem completes_of_length {α : Type} {b : List α} {n : Nat} (h : (b.length == n) = true) (u : State) :
    ∃ t, (if b.length ≠ n then .fault .malformed else .next u : Res) = .next t :=
  ⟨u, if_neg (not_not.mpr (beq_iff_eq.mp h))⟩

theorem vioReturn_completes (p : VioPins) (s : State) : ∃ t, exec (.vioReturn p) s = .next t := by
  by_cases good : p.pwrgd = true
  · exact ⟨_, if_neg (by rw [good]; decide)⟩
  · exact ⟨_, if_pos (by simpa using good)⟩

theorem cluSwap_completes (s : State) : ∃ t, exec .cluSwap s = .next t := by
  by_cases busy : changing s = true
  · exact ⟨_, if_pos busy⟩
  · exact ⟨_, if_neg busy⟩

/-- Every command completes but for a byte string of a length that no interface carries. -/
theorem exec_completes (c : Instr) (s : State) (h : wellFormed c = true) : ∃ t, exec c s = .next t := by
  cases c
  case descriptorArrival => exact descriptorArrival_completes h s
  case deadlineExpired => exact deadlineExpired_completes h s
  case spdmChallenge => exact completes_of_length h _
  case spdmGetMeasurements => exact completes_of_length h _
  case spdmKeyExchange => exact completes_of_length h _
  case dbgToken => exact completes_of_length h _
  case startupTestEnd => exact completes_of_length h _
  case vioReturn => exact vioReturn_completes ..
  case cluSwap => exact cluSwap_completes s
  all_goals exact ⟨_, rfl⟩

/-- Settles O56: a step runs the front command, or passes a microsecond. -/
theorem everyCommandCompletes : Obligations.EveryCommandCompletes := by
  unfold Obligations.EveryCommandCompletes
  refine ⟨exec_completes, fun s ok => ?_⟩
  rw [QueueOk, List.all_eq_true] at ok
  cases h : s.pending with
  | nil => exact ⟨_, step_empty h⟩
  | cons c rest =>
    rw [step_cons h]
    exact exec_completes c _ (ok c (by rw [h]; exact List.mem_cons_self))

end Sys2Proof.Machine
end

/-! SUPPORT. The dispatcher, the arrival of descriptors and of staged data, and the deadlines: one lemma per outcome of each event
(R40, R55, R57, R81, R82, R99, R113, R114, R151, R241, R243). -/

section
namespace Sys2Proof.Machine

variable {s : State}

/-! ### The dispatcher's step (R113, R114) -/

/-- The hopper that R114 serves is ready. -/
theorem chooseHop_ready {p c h : Nat} (chosen : chooseHop s p = some (c, h)) : h ∈ readyHops s p := by
  unfold chooseHop at chosen
  dsimp only at chosen
  split at chosen
  · cases chosen
  next c' _ =>
    split at chosen
    next h' first =>
      cases chosen
      have mem := List.mem_of_head? first
      simp only [after, List.mem_append, List.mem_filter] at mem
      rcases mem with ⟨⟨listed, -⟩, -⟩ | ⟨⟨listed, -⟩, -⟩ <;> exact listed
    · cases chosen

theorem hopReady_of_mem {p h : Nat} (ready : h ∈ readyHops s p) : hopReady s (hopRef p h) = true := by
  obtain ⟨x, -, picked⟩ := List.mem_filterMap.mp ready
  split at picked
  next both =>
    cases picked
    rw [Bool.and_eq_true] at both
    exact both.1
  · cases picked

/-- A hopper is ready only where its function is under no Insecure stream. -/
theorem heldFor_of_hopReady {p h : Nat} (ready : hopReady s (hopRef p h) = true) : heldFor s (vfOf p) = false := by
  simp only [hopReady, readGate, Bool.and_eq_true, Bool.not_eq_true'] at ready
  obtain ⟨⟨_, _, out⟩, _⟩ := ready
  exact out

theorem hopRef_val (p : PlotId) (h : Nat) : hopRef p h = .vf p (Fin.ofNat 16 h) := by
  rw [hopRef, show Fin.ofNat 1024 p.val = p from Fin.ext (Nat.mod_eq_of_lt p.isLt)]

/-- The hopper one of whose descriptors is being read. -/
def readIssued (x : Hopper) : Hopper := { x with reads := x.reads + 1 }

/-- The transaction whose descriptor is being read. -/
def readingTx (s : State) (p h : Nat) : Tx :=
  let x := s.hop (hopRef p h)
  let a := x.acc.getD x.reads (0, 0)
  let pl := s.plot p
  { plot := p, hop := h, slotIx := (x.fetchHead + x.reads) % x.n, deadline := a.1, defDl := a.2, policy := pl.active,
    version := pl.version, progs := pl.progs }

/-- The plot that is charged, its hopper with one more read on its way. -/
def chargedPlot (s : State) (p h : Nat) : State :=
  (s.setHop (hopRef p h) (readIssued (s.hop (hopRef p h)))).modPlot p fun pl => { pl with busy := pl.busy + 1 }

/-- The state with a charge made and its read not yet issued. -/
def charged (s : State) (p h y : Nat) : State :=
  let s2 := (holdImages (chargedPlot s p h) ((s.plot p).progs.map (·.2))).modYoke y fun k =>
    { k with tx := some (readingTx s p h), bench := [], core := {} }
  drawn { s2 with pwr := { s2.pwr with gatedY := s2.pwr.gatedY &&& ~~~(BitVec.ofNat 64 (2 ^ y)) } } 1

/-- Address of the descriptor that a hopper's next read fetches (R60). -/
def nextSlot (x : Hopper) : W64 := x.sqBase + BitVec.ofNat 64 (128 * ((x.fetchHead + x.reads) % x.n))

theorem charge_def (s : State) (p h y : Nat) :
    charge s p h y = issueRead (charged s p h y) (vfOf p) (nextSlot (s.hop (hopRef p h))) 128 := rfl

section
variable {p h y : Nat}

@[simp] theorem chargedPlot_yokes : (chargedPlot s p h).yokes = s.yokes := by
  rw [chargedPlot, State.modPlot_yokes, State.setHop_yokes]

@[simp] theorem charged_link : (charged s p h y).link = s.link := by
  simp only [charged, drawn_link, State.modYoke_link, holdImages, chargedPlot, State.modPlot_link, State.setHop_link]

@[simp] theorem charged_adm : (charged s p h y).adm = s.adm := by
  simp only [charged, drawn_adm, State.modYoke_adm, holdImages, chargedPlot, hopRef, State.modPlot_adm, State.setHop_vf_adm]

@[simp] theorem charged_kpr : (charged s p h y).kpr = s.kpr := by
  simp only [charged, drawn_kpr, State.modYoke_kpr, holdImages, chargedPlot, State.modPlot_kpr, State.setHop_kpr]

@[simp] theorem charged_out : (charged s p h y).out = s.out := by
  simp only [charged, drawn_out, State.modYoke_out, holdImages, chargedPlot, State.modPlot_out, State.setHop_out]

@[simp] theorem charged_plot (q : Nat) : (charged s p h y).plot q = (chargedPlot s p h).plot q := by
  simp only [State.plot, charged, drawn_plots, State.modYoke_plots, holdImages]

theorem charged_yoke_ne {z : Nat} (other : z ≠ y) : (charged s p h y).yoke z = s.yoke z := by
  simp only [State.yoke, charged, drawn_yokes, State.modYoke_yokes, holdImages, chargedPlot_yokes, tget_tset_ne other]

theorem charged_tx (yokes : twf Yoke.zero s.yokes = true) : (charged s p h y).tx y = some (readingTx s p h) := by
  simp only [State.tx, State.yoke, charged, drawn_yokes, State.modYoke_yokes, holdImages, chargedPlot_yokes, tget_tset_same yokes]

end

theorem chargedPlot_plot_ne {p : PlotId} {q : Nat} (other : q ≠ p) (h : Nat) : (chargedPlot s p h).plot q = s.plot q := by
  rw [chargedPlot, State.modPlot_plot_ne _ other, hopRef_val, setHop_plot_ne other]

theorem chargedPlot_busy {p : PlotId} (plots : twf Plot.zero s.plots = true) (h : Nat) :
    ((chargedPlot s p h).plot p).busy = (s.plot p).busy + 1 := by
  have canon : twf Plot.zero (s.setHop (hopRef p h) (readIssued (s.hop (hopRef p h)))).plots = true := by
    rw [hopRef_val]
    exact twf_tset plots _ _
  rw [chargedPlot, State.modPlot_plot_same _ canon, hopRef_val, setHop_plot_same plots]

/-- The read of a charge goes out where the function is under no Insecure stream. -/
theorem charge_issues {p h y : Nat} (out : heldFor s (vfOf p) = false) :
    charge s p h y = emit (charged s p h y) (.read (nextSlot (s.hop (hopRef p h))) 128) := by
  have out' : heldFor (charged s p h y) (vfOf p) = false := by
    rw [heldFor, charged_link]
    exact out
  rw [charge_def, issueRead, if_neg (ne_true_of_eq_false out')]

/-- The dispatcher's step with a yoke, a plot and a hopper to serve. -/
theorem dispatch_charges {s1 : State} {y p c h : Nat} (active : standby s = false) (free : pickYoke s = some y)
    (plot : choosePlot s = (s1, some p)) (hop : chooseHop s1 p = some (c, h)) :
    exec .dispatch s = .next (charge (s1.modPlot p fun pl => { pl with rr := tset 16 c h pl.rr }) p h y) := by
  simp only [exec_dispatch, execDispatch, active, dispatchStep, free, plot, hop, Bool.false_eq_true, if_false]

theorem emit_plot (s : State) (o : Out) (q : Nat) : (emit s o).plot q = s.plot q := rfl
theorem emit_yoke (s : State) (o : Out) (z : Nat) : (emit s o).yoke z = s.yoke z := rfl

theorem dispatch_step {s1 : State} {y p c h : Nat} (active : standby s = false) (free : pickYoke s = some y)
    (plot : choosePlot s = (s1, some p)) (hop : chooseHop s1 p = some (c, h)) (range : p < 1024)
    (plots : twf Plot.zero s1.plots = true) (yokes : twf Yoke.zero s1.yokes = true) :
    let s2 := s1.modPlot p fun pl => { pl with rr := tset 16 c h pl.rr }
    let x := s2.hop (hopRef p h)
    ∃ t : State, exec .dispatch s = .next t ∧
      t.out = s2.out ++ [.read (x.sqBase + BitVec.ofNat 64 (128 * ((x.fetchHead + x.reads) % x.n))) 128] ∧
      t.adm = s2.adm ∧ t.link = s2.link ∧ t.kpr = s2.kpr ∧
      (t.plot p).busy = (s2.plot p).busy + 1 ∧
      ((t.yoke y).tx.map fun u => (u.plot, u.hop, u.phase)) = some (p, h, TxPhase.reading) ∧
      (∀ z, z ≠ y → t.yoke z = s2.yoke z) ∧ (∀ q, q ≠ p → t.plot q = s1.plot q) := by
  intro s2 x
  have out : heldFor s2 (vfOf p) = false := heldFor_of_hopReady (s := s1) (hopReady_of_mem (chooseHop_ready hop))
  have canon : twf Plot.zero s2.plots = true := twf_tset plots _ _
  have sent : exec .dispatch s = .next (emit (charged s2 p h y) (.read (nextSlot x) 128)) := by
    rw [dispatch_charges active free plot hop, charge_issues out]
  obtain ⟨P, rfl⟩ : ∃ P : PlotId, P.val = p := ⟨⟨p, range⟩, rfl⟩
  refine ⟨_, sent, ?out, ?adm, ?link, ?kpr, ?busy, ?tx, fun z other => ?yokes,
    fun q other => ?others⟩
  case out => rw [emit_out, charged_out, nextSlot]
  case adm => rw [emit_adm, charged_adm]
  case link => rw [emit_link, charged_link]
  case kpr => rw [emit_kpr, charged_kpr]
  case busy => rw [emit_plot, charged_plot, chargedPlot_busy canon]
  case tx =>
    have tx := charged_tx (p := P) (h := h) (y := y) (s := s2) yokes
    rw [State.tx] at tx
    rw [emit_yoke, tx]
    rfl
  case yokes => rw [emit_yoke, charged_yoke_ne other]
  case others => rw [emit_plot, charged_plot, chargedPlot_plot_ne other, State.modPlot_plot_ne _ other]

/-! ### A descriptor of the admin hopper (R40, R55, R99, R608) -/

theorem readOk_data {n : Nat} {b : Bytes} (len : b.length = n) : readOk n (.data b) = true := beq_iff_eq.mpr len

theorem leNat_lt (b : Bytes) : leNat b < 256 ^ b.length := by
  induction b with
  | nil => exact Nat.one_pos
  | cons x b ih =>
    have byte := x.isLt
    rw [leNat, List.length_cons, Nat.pow_succ]
    omega

/-- The code of a descriptor has 16 bits (Table 2.5). -/
theorem admOf_code (b : Bytes) : (admOf b).code.toNat = fld b 0 2 := by
  have bound : fld b 0 2 < 65536 := by
    have := leNat_lt (cut b 0 2)
    rwa [show (cut b 0 2).length = 2 by simp [cut, fit]] at this
  exact (BitVec.toNat_ofNat ..).trans (Nat.mod_eq_of_lt bound)

section
variable {b : Bytes}

theorem admOf_good (ok : descOk b 2 65536 = true) (named : (admOf b).code.toNat ∈ adminCodes) : (admOf b).bad = none := by
  rw [admOf_code] at named
  simp only [admOf, admBad, ok, List.contains_iff_mem.mpr named, Bool.not_true, Bool.false_eq_true, if_false]

theorem admOf_invalid (bad : descOk b 2 65536 = false) : (admOf b).bad = some (stDescriptor, 0) := by
  simp only [admOf, admBad, bad, Bool.not_false, if_true]

theorem admOf_absent (ok : descOk b 2 65536 = true) (unknown : (admOf b).code.toNat ∉ adminCodes) :
    (admOf b).bad = some (stAbsent, 8) := by
  rw [admOf_code] at unknown
  have absent : adminCodes.contains (fld b 0 2) = false := by
    rw [← Bool.not_eq_true, List.contains_iff_mem]
    exact unknown
  simp only [admOf, admBad, ok, absent, Bool.not_true, Bool.not_false, Bool.false_eq_true, if_false, if_true]

end

/-- A queue whose front passed steps 1 and 2 of R608 stays as it is. -/
theorem endFront_good (good : ∀ q, s.adm.queue.head? = some q → q.bad = none) : endFront s = s := by
  unfold endFront
  cases queue : s.adm.queue with
  | nil => rfl
  | cons d rest =>
    have := good d (by rw [queue]; rfl)
    simp only [List.length_cons, endBad, queue, this]

/-- A lone command that failed steps 1 and 2 of R608 ends at once where no earlier one runs. -/
theorem endFront_bad {d : Adm} {st : BitVec 16} {det : Byte} (queue : s.adm.queue = [d]) (bad : d.bad = some (st, det))
    (idle : adminBusy s = false) :
    endFront s = admEntry { s with adm := { s.adm with queue := [], errTag := d.tag, errDet := det } } d st [] false := by
  simp only [endFront, queue, List.length_singleton, endBad, bad, idle, Bool.false_eq_true, if_false]

/-- The state with a descriptor of the admin hopper taken off its ring. -/
def admTaken (s : State) : State :=
  let x := s.adm.hop
  s.setHop .admin { x with fetchHead := (x.fetchHead + 1) % x.n, acc := x.acc.tail, reads := 0, inflight := x.inflight + 1 }

theorem takeAdmin_joins {d : Adm} (ok : d.bad = none) (front : ∀ q, s.adm.queue.head? = some q → q.bad = none) :
    takeAdmin s d = fetchAdmin { admTaken s with adm := { (admTaken s).adm with queue := s.adm.queue ++ [d] } } := by
  refine congrArg fetchAdmin (endFront_good fun q first => ?_)
  change (s.adm.queue ++ [d]).head? = some q at first
  cases queue : s.adm.queue with
  | nil =>
    rw [queue] at first
    cases first
    exact ok
  | cons e rest =>
    rw [queue] at first
    exact front q (by rw [queue]; exact first)

theorem takeAdmin_ends {d : Adm} {st : BitVec 16} {det : Byte} (bad : d.bad = some (st, det)) (empty : s.adm.queue = [])
    (idle : adminBusy s = false) :
    takeAdmin s d = fetchAdmin (admEntry
      { admTaken s with adm := { (admTaken s).adm with queue := [], errTag := d.tag, errDet := det } } d st [] false) :=
  congrArg fetchAdmin (endFront_bad
    (s := { admTaken s with adm := { (admTaken s).adm with queue := (admTaken s).adm.queue ++ [d] } })
    (congrArg (· ++ [d]) empty) bad idle)

theorem arriveAdmin_takes {b : Bytes} (en : s.adm.hop.en = true) (runs : s.adm.hop.halted = false) (accepted : s.adm.hop.acc ≠ [])
    (issued : s.adm.hop.reads ≠ 0) (out : heldFor s .pf0 = false) : arriveAdmin s (.data b) = takeAdmin s (admOf b) := by
  have listed : s.adm.hop.acc.isEmpty = false := List.isEmpty_eq_false_iff.mpr accepted
  have waits : (s.adm.hop.reads == 0) = false := beq_eq_false_iff_ne.mpr issued
  simp only [arriveAdmin, en, runs, listed, waits, out, Bool.not_true, Bool.or_self, Bool.false_eq_true, if_false]

theorem descriptorArrival_admin (s : State) (b : Bytes) (len : b.length = 128) :
    let x := s.adm.hop
    let d := admOf b
    x.en = true → x.halted = false → x.acc ≠ [] → x.reads ≠ 0 → heldFor s .pf0 = false →
    let s1 := s.setHop .admin { x with
      fetchHead := (x.fetchHead + 1) % x.n, acc := x.acc.tail, reads := 0, inflight := x.inflight + 1 }
    (descOk b 2 65536 = true → d.code.toNat ∈ adminCodes → (∀ q, s.adm.queue.head? = some q → q.bad = none) →
      exec (.descriptorArrival .admin (.data b)) s =
        .next (fetchAdmin { s1 with adm := { s1.adm with queue := s.adm.queue ++ [d] } })) ∧
    (s.adm.queue = [] → adminBusy s = false →
      let ended := fun (st : BitVec 16) (det : Byte) => Host.Outcome.next (fetchAdmin (admEntry
        { s1 with adm := { s1.adm with queue := [], errTag := d.tag, errDet := det } } d st [] false))
      (descOk b 2 65536 = false → exec (.descriptorArrival .admin (.data b)) s = ended stDescriptor 0) ∧
      (descOk b 2 65536 = true → d.code.toNat ∉ adminCodes →
        exec (.descriptorArrival .admin (.data b)) s = ended stAbsent 8)) := by
  intro x d en runs listed issued out s1
  have taken : exec (.descriptorArrival .admin (.data b)) s = .next (takeAdmin s d) := by
    rw [exec_descriptorArrival, execDescriptorArrival.eq_def, readOk_data len]
    exact congrArg Host.Outcome.next (arriveAdmin_takes en runs listed issued out)
  refine ⟨fun ok named front => ?joins, fun empty idle => ⟨fun bad => ?invalid, fun ok unknown => ?absent⟩⟩
  case joins => exact taken.trans (congrArg _ (takeAdmin_joins (admOf_good ok named) front))
  case invalid => exact taken.trans (congrArg _ (takeAdmin_ends (admOf_invalid bad) empty idle))
  case absent => exact taken.trans (congrArg _ (takeAdmin_ends (admOf_absent ok unknown) empty idle))

/-! ### A descriptor for a yoke (R61), and bytes that are none (log 1) -/

theorem descriptorArrival_yoke {y : YokeId} {b : Bytes} {t : Tx} (len : b.length = 128) (tx : s.tx y = some t)
    (reading : t.phase = .reading) (own : t.fwd = false) (out : heldFor s (vfOf t.plot) = false) :
    exec (.descriptorArrival (.yoke y) (.data b)) s =
      .next (takeAll 64 (s.modTx y fun t => { t with desc := b }) t.plot t.hop) := by
  rw [exec_descriptorArrival, execDescriptorArrival.eq_def, readOk_data len]
  simp only [Bool.not_true, arriveYoke, tx, reading, own, out, ne_eq, not_true_eq_false, Bool.false_eq_true, or_self, if_false]

theorem descriptorArrival_malformed {w : ReadFor} {b : Bytes} (len : b.length ≠ 128) :
    exec (.descriptorArrival w (.data b)) s = .fault .malformed := by
  have refused : readOk 128 (.data b) = false := beq_eq_false_iff_ne.mpr len
  rw [exec_descriptorArrival, execDescriptorArrival.eq_def, refused]
  rfl

/-! ### Staged data and deadlines (R57, R81, R82, R151, R241, R243) -/

section
variable {y : YokeId} {t : Tx} (tx : s.tx y = some t) (own : t.fwd = false)
include tx own

theorem staged_late (staging : t.phase = .staging) (out : heldFor s (vfOf t.plot) = false) (late : t.deadline ≤ s.now)
    (r : HostRead) : exec (.stagingReadComplete y r) s = .next (endEarly s y stDeadline) := by
  simp only [exec_stagingReadComplete, execStagingReadComplete, staged, tx, own, staging, out, late, ne_eq, not_true_eq_false,
    Bool.false_eq_true, false_and, or_self, if_false, if_true]

theorem staged_inTime (staging : t.phase = .staging) (out : heldFor s (vfOf t.plot) = false) (early : s.now < t.deadline) :
    (∀ b, exec (.stagingReadComplete y (.data b)) s =
      .next (startProgram (number s y (fit (stagedLen t.desc) b)) y (fit (stagedLen t.desc) b))) ∧
    exec (.stagingReadComplete y .failed) s = .next (endEarly s y stDataFault) := by
  have left : ¬ t.deadline ≤ s.now := Nat.not_le.mpr early
  simp only [exec_stagingReadComplete, execStagingReadComplete, staged, tx, own, staging, out, left, readData, ne_eq,
    not_true_eq_false, Bool.false_eq_true, false_and, or_self, if_false, implies_true, and_self]

theorem deadlineExpired_ends (running : t.phase = .running) : exec (.deadlineExpired (.yoke y)) s =
    .next (endWith (forwardAbort { s with now := max s.now t.deadline } y) y
      (if stalledForRandom t then stNoEntropy else stDeadline)) := by
  simp only [exec_deadlineExpired, execDeadlineExpired, expireYoke, tx, own, running, Bool.false_eq_true, if_false, advanceTo]

theorem tMarginReached_flags (running : t.phase = .running) (margin : (s.yoke y).core.tmargin ≠ 0) :
    exec (.tMarginReached y) s = .next ((advanceTo s (t.deadline - (s.yoke y).core.tmargin.toNat)).modYoke y fun k =>
      { k with core := { k.core with fl := { k.core.fl with t := true } } }) := by
  have nonzero : (s.yoke y).core.tmargin.toNat ≠ 0 := fun zero => margin (BitVec.eq_of_toNat_eq zero)
  simp only [exec_tMarginReached, execTMarginReached, tx, own, running, nonzero, ne_eq, not_false_eq_true, and_self, if_true]

end

/-- Settles O21. That bytes of another length are no descriptor is the model's choice (log 1), as is the charge before the read
(log 28). -/
theorem dispatchAndArrival : Obligations.DispatchAndArrival := by
  unfold Obligations.DispatchAndArrival
  refine ⟨fun s s1 y p c h => dispatch_step, ⟨descriptorArrival_admin, fun s y b t => descriptorArrival_yoke,
    fun s w b => descriptorArrival_malformed⟩, fun s y t tx own => ⟨staged_inTime tx own, staged_late tx own, fun running =>
      ⟨deadlineExpired_ends tx own running, tMarginReached_flags tx own running⟩⟩⟩

end Sys2Proof.Machine
end

/-! SUPPORT. The plots: the negotiated version, the admin commands past their gates, the ends of a reset and of a removal, the
drawer and the tick (R94 to R139, R290). -/

section
namespace Sys2Proof.Machine

variable {s : State}

/-! ### The negotiated version (R116, R117) -/

/-- Among values listed from the highest down, the first that passes a test is the highest that does. -/
theorem find?_descending {l : List Nat} {q : Nat → Bool} {v : Nat} (falls : l.Pairwise (· > ·)) (mem : v ∈ l)
    (passes : q v = true) (highest : ∀ w ∈ l, q w = true → w ≤ v) : l.find? q = some v := by
  induction l with
  | nil => cases mem
  | cons a l ih =>
    rw [List.pairwise_cons] at falls
    obtain ⟨below, falls⟩ := falls
    by_cases qa : q a = true
    · have le := highest a List.mem_cons_self qa
      have first : a = v := by
        rcases List.mem_cons.mp mem with same | later
        · exact same.symm
        · have gt := below v later
          omega
      rw [List.find?_cons_of_pos qa, first]
    · have m : v ∈ l := (List.mem_cons.mp mem).resolve_left fun e => qa (e ▸ passes)
      rw [List.find?_cons_of_neg qa]
      exact ih falls m fun w mw => highest w (List.mem_cons_of_mem a mw)

/-- MAXVER and VER_CAP permit a version of the module. -/
def Permitted (maxver cap : BitVec 16) (v : Nat) : Prop :=
  v ∈ [0x100, 0x101, 0x200, 0x201] ∧ v ≤ maxver.toNat ∧ (cap = 0 ∨ v ≤ cap.toNat)

theorem permitted_iff (maxver cap : BitVec 16) (v : Nat) : Permitted maxver cap v ↔
    v ∈ versions ∧ (decide (v ≤ maxver.toNat) && (cap.toNat == 0 || decide (v ≤ cap.toNat))) = true := by
  have zero : cap.toNat = 0 ↔ cap = 0 := (BitVec.toNat_eq (y := 0)).symm
  have order : v ∈ [0x100, 0x101, 0x200, 0x201] ↔ v ∈ versions := by
    simp only [versions, List.mem_cons, List.not_mem_nil, or_false]
    omega
  simp only [Permitted, order, Bool.and_eq_true, Bool.or_eq_true, decide_eq_true_eq, beq_iff_eq, zero]

theorem negotiate_highest {maxver cap : BitVec 16} {v : Nat} (ok : Permitted maxver cap v)
    (highest : ∀ w, Permitted maxver cap w → w ≤ v) : negotiate maxver.toNat cap.toNat = some v := by
  obtain ⟨mem, passes⟩ := (permitted_iff ..).mp ok
  exact find?_descending (by decide) mem passes fun w mw qw => highest w ((permitted_iff ..).mpr ⟨mw, qw⟩)

theorem negotiate_none {maxver cap : BitVec 16} (forbidden : ∀ v, ¬ Permitted maxver cap v) :
    negotiate maxver.toNat cap.toNat = none :=
  List.find?_eq_none.mpr fun v mem passes => forbidden v ((permitted_iff ..).mpr ⟨mem, passes⟩)

section
variable {p : Nat} (created : (s.plot p).st = .created) (armed : (s.plot p).armed = true) (asked : (s.plot p).openPend = true)
  (active : mirrors s = false)
include created armed asked active

theorem tryOpen_opens {v : Nat} (agreed : negotiate (s.plot p).maxver.toNat (s.plot p).verCap.toNat = some v) :
    tryOpen s p = enterState (s.setPlot p { s.plot p with openPend := false, version := BitVec.ofNat 16 v }) p .opened := by
  simp only [tryOpen, created, armed, asked, active, agreed, Bool.not_false, and_self, if_true]

theorem tryOpen_refuses (refused : negotiate (s.plot p).maxver.toNat (s.plot p).verCap.toNat = none) :
    tryOpen s p = plotEvent (s.setPlot p { s.plot p with openPend := false }) p 4 := by
  simp only [tryOpen, created, armed, asked, active, refused, Bool.not_false, and_self, if_true]

end

/-- Settles O25: the versions are tried from the highest down. -/
theorem versionNegotiation : Obligations.VersionNegotiation := by
  unfold Obligations.VersionNegotiation
  intro s p created armed asked active
  exact ⟨fun v ok highest => tryOpen_opens created armed asked active (negotiate_highest ok highest),
    fun forbidden => tryOpen_refuses created armed asked active (negotiate_none forbidden)⟩

/-! ### The life of a plot: what each command does past its gates (R94 to R96, R102, R111, R120 to R126) -/

section
variable {d : Adm}

/-- PLOT_CREATE waits for the fresh reseed of P0 or goes on with its key generation served (R404, R423). -/
theorem runCreate_passed (pools : poolFault s d.pid (acrOf d.acr) = none) (room : auditRoom s = true) :
    runCreate s d =
      let g := keyGen s 0
      if g.2 then createPlot (reserve (keyServed g.1)) d else keyHeld g.1 d 0 := by
  simp only [runCreate, pools, room, Bool.not_true, Bool.false_eq_true, if_false]

/-- PLOT_STOP of an OPEN plot: it enters STOPPING. -/
theorem runStop_opened (plots : twf Plot.zero s.plots = true) (st : (s.plot d.pid).st = .opened) :
    runStop s d = forwardAdmin (admOk (saveRecord (checkStopped (enterState
      (s.setPlot d.pid { s.plot d.pid with reopen := false, armed := false }) d.pid .stopping) d.pid) d.pid) d) d := by
  simp only [runStop, stopPlot, State.modPlot, State.setPlot_plot_same _ plots, st, or_true, if_true]

/-- PLOT_STOP of a CREATED plot: its ARMED is cleared. -/
theorem runStop_created (plots : twf Plot.zero s.plots = true) (st : (s.plot d.pid).st = .created) :
    runStop s d = forwardAdmin (admOk (saveRecord
      (s.setPlot d.pid { s.plot d.pid with reopen := false, armed := false }) d.pid) d) d := by
  simp only [runStop, stopPlot, State.modPlot, State.setPlot_plot_same _ plots, st, true_or, if_true, reduceCtorEq, if_false]

/-- PLOT_STOP of a plot that stops or has stopped: it will not open again of itself. -/
theorem runStop_stopped (plots : twf Plot.zero s.plots = true)
    (st : (s.plot d.pid).st = .stopping ∨ (s.plot d.pid).st = .stopped) :
    runStop s d = forwardAdmin (admOk (saveRecord (s.setPlot d.pid { s.plot d.pid with reopen := false }) d.pid) d) d := by
  rcases st with st | st <;>
    simp only [runStop, stopPlot, State.modPlot, State.setPlot_plot_same _ plots, st, reduceCtorEq, or_self, if_false]

/-- PLOT_RESIZE within the pools that takes nothing in use. -/
theorem runResize_passed (keeps : shrinks s d.pid (acrOf d.acr) = false) (pools : poolFault s d.pid (acrOf d.acr) = none) :
    runResize s d = forwardAdmin (admOk (saveRecord (s.setPlot d.pid { s.plot d.pid with
      acr := acrOf d.acr, deficit := min (s.plot d.pid).deficit (acrOf d.acr).weight }) d.pid) d) d := by
  simp only [runResize, keeps, pools, Bool.false_eq_true, if_false]
  rfl

theorem not_resetting {st : PlotSt} (h : st ∈ createdToStopped) : st ≠ .resetting := by
  rintro rfl
  exact absurd h (by decide)

theorem createdToStopped_subset {st : PlotSt} (h : st ∈ createdToStopped) : st ∈ createdToResetting := by
  revert h; cases st <;> decide

/-- PLOT_RESET starts the reset (R95, R122). -/
theorem runReset_starts (st : (s.plot d.pid).st ∈ createdToStopped) :
    runReset s d = saveRecord ((startReset s d.pid .resetting).modPlot d.pid fun pl => { pl with
      armed := false, resetWait := pl.resetWait ++ [d] }) d.pid := by
  simp only [runReset, if_neg (not_resetting st)]

/-- PLOT_RESET joins the reset that runs (R122). -/
theorem runReset_joins (st : (s.plot d.pid).st = .resetting) :
    runReset s d = saveRecord (s.modPlot d.pid fun pl => { pl with
      armed := false, resetWait := pl.resetWait ++ [d] }) d.pid := by
  simp only [runReset, if_pos st]

/-- PLOT_REMOVE starts the removal (R126). -/
theorem runRemove_starts (room : auditRoom s = true) (first : (s.plot d.pid).removeWait = none)
    (st : (s.plot d.pid).st ∈ createdToStopped) :
    runRemove s d = (startReset (reserve s) d.pid .removing).modPlot d.pid fun pl => { pl with removeWait := some d } := by
  simp only [runRemove, room, first, not_resetting st, Bool.not_true, Option.isSome_none, Bool.false_eq_true, if_false]

/-! ### The life of a plot: the commands -/

variable {rest : List Adm}

section
variable (serves : Serves s d rest) (named : plotNamed d = true)
include serves named

theorem plotCreate_runs (code : d.code = 0x101) (inlen : d.inlen = 68) (range : acrRange d.acr = true)
    (st : (s.plot d.pid).st = .absent) : exec .plotCreate s = .next (runCreate (popAdm s rest) d) := by
  rw [exec_plotCreate, execPlotCreate]
  exact plotCmd_run serves code named (by simp [acrArgs, inlen, range]) (by simp [st]) rfl

theorem plotOpen_runs (code : d.code = 0x102) (inlen : d.inlen = 6) (cap : fld d.inl 4 2 = 0 ∨ 0x100 ≤ fld d.inl 4 2)
    (st : (s.plot d.pid).st = .created) : exec .plotOpen s = .next (runOpen (popAdm s rest) d) := by
  rw [exec_plotOpen, execPlotOpen]
  exact plotCmd_run serves code named (by simpa [openArgs, inlen] using cap) (by simp [st]) rfl

theorem plotStop_runs (code : d.code = 0x103) (inlen : d.inlen = 4) (st : (s.plot d.pid).st ∈ createdToStopped) :
    exec .plotStop s = .next (runStop (popAdm s rest) d) := by
  rw [exec_plotStop, execPlotStop]
  exact plotCmd_run serves code named (by simp [inlenIs, inlen]) st rfl

theorem plotStart_runs (code : d.code = 0x104) (inlen : d.inlen = 4) (st : (s.plot d.pid).st = .stopped) :
    exec .plotStart s = .next (runStart (popAdm s rest) d) := by
  rw [exec_plotStart, execPlotStart]
  exact plotCmd_run serves code named (by simp [inlenIs, inlen]) (by simp [st]) rfl

theorem plotResize_runs (code : d.code = 0x105) (inlen : d.inlen = 68) (range : acrRange d.acr = true)
    (st : (s.plot d.pid).st ∈ createdToStopped) : exec .plotResize s = .next (runResize (popAdm s rest) d) := by
  rw [exec_plotResize, execPlotResize]
  exact plotCmd_run serves code named (by simp [acrArgs, inlen, range]) st rfl

theorem plotReset_runs (code : d.code = 0x106) (inlen : d.inlen = 4) (st : (s.plot d.pid).st ∈ createdToResetting) :
    exec .plotReset s = .next (runReset (popAdm s rest) d) := by
  rw [exec_plotReset, execPlotReset]
  exact plotCmd_run serves code named (by simp [inlenIs, inlen]) st rfl

end

/-- The quorum of PLOT_REMOVE: a session where the registry holds a Security Officer card (R103). -/
theorem removeQuorum_iff : removeQuorum s d = true ↔ (holdsCard s d.pid 0 = true → sessionLive s d.pid 0 = true) := by
  rw [removeQuorum, Bool.or_eq_true, Bool.not_eq_true', ← Bool.not_eq_true, ← imp_iff_not_or]

theorem plotRemove_runs (serves : Serves s d rest (tamper := true)) (named : plotNamed d = true) (code : d.code = 0x107)
    (inlen : d.inlen = 4) (st : (s.plot d.pid).st ∈ createdToResetting)
    (quorum : holdsCard (popAdm s rest) d.pid 0 = true → sessionLive (popAdm s rest) d.pid 0 = true) :
    exec .plotRemove s = .next (runRemove (popAdm s rest) d) := by
  rw [exec_plotRemove, execPlotRemove, admin_run serves code (notDecom_run serves) (by simp [inlenIs, inlen, named])
    (List.contains_iff_mem.mpr st) (removeQuorum_iff.mpr quorum), notStandby_run serves]

end

/-! ### The ends of a reset and of a removal (Tables 3.6 and 3.7) -/

/-- The end of a reset that no removal waits for. -/
theorem resetComplete_created {p : Nat} (st : (s.plot p).st = .resetting) (alone : (s.plot p).removeWait = none) :
    resetComplete s p =
      let c := (clearWindow s p).modPlot p fun x => { x with resetWait := [], resetDone := decide x.removeWait.isSome }
      (s.plot p).resetWait.foldl (fun s d => forwardAdmin (admOk s d) d) (enterState c p .created) := by
  simp only [resetComplete, st, alone, true_or, if_true, Option.isSome_none, Bool.false_eq_true, if_false]

theorem removalComplete_absent {p : Nat} {d : Adm} (st : (s.plot p).st = .removing) (done : (s.plot p).resetDone = true)
    (waits : (s.plot p).removeWait = some d) :
    removalComplete s p =
      let pl := s.plot p
      let k := dropPrograms (dropPlotKeys s p) p
      let c : State := { k.setSeed p 0 with
        rng := { k.rng with reqs := k.rng.reqs.filter (· != SeedReq.plot p) } }
      let e := (c.setRegistry p Registry.zero).setPlot p { Plot.zero with
        txcnt := pl.txcnt, squashCnt := pl.squashCnt, outAcked := pl.outAcked, outAckCnt := pl.outAckCnt }
      forwardAdmin (admOk (writeReserved (announce s (saveRecord e p)) 0x1002 p (le 4 d.tag.toNat)) d) d := by
  simp only [removalComplete, st, done, waits, and_self, if_true]

/-- Settles O23. That a PLOT_CREATE waits for P0 is log 32, that some counters survive the removal is log 34. -/
theorem plotLifeCycle : Obligations.PlotLifeCycle := by
  unfold Obligations.PlotLifeCycle
  refine ⟨fun s d rest named => ?commands, fun s p d => ⟨fun st alone => ?resetEnds, fun st done waits => ?removalEnds⟩⟩
  case commands =>
    dsimp only
    refine ⟨?creates, ?createWaits, ?opens, ?stopsOpen, ?stopsCreated, ?stopsStopped, ?starts, ?resizes, ?resets, ?joins,
      ?removes⟩
    case creates =>
      intro serves code inlen range st pools room served
      rw [plotCreate_runs serves named code inlen range st, runCreate_passed pools room]
      exact congrArg _ (if_pos served)
    case createWaits =>
      intro serves code inlen range st pools room unserved
      rw [plotCreate_runs serves named code inlen range st, runCreate_passed pools room]
      exact congrArg _ (if_neg (by rw [unserved]; decide))
    case opens =>
      intro serves code inlen cap st
      exact plotOpen_runs serves named code inlen cap st
    case stopsOpen =>
      intro serves code inlen st plots
      rw [plotStop_runs serves named code inlen (by simp [createdToStopped, st]), runStop_opened (s := popAdm s rest) plots st]
      rfl
    case stopsCreated =>
      intro serves code inlen st plots
      rw [plotStop_runs serves named code inlen (by simp [createdToStopped, st]), runStop_created (s := popAdm s rest) plots st]
      rfl
    case stopsStopped =>
      intro serves code inlen st plots
      have listed : (s.plot d.pid).st ∈ createdToStopped := by rcases st with st | st <;> simp [createdToStopped, st]
      rw [plotStop_runs serves named code inlen listed, runStop_stopped (s := popAdm s rest) plots st]
      rfl
    case starts =>
      intro serves code inlen st
      exact plotStart_runs serves named code inlen st
    case resizes =>
      intro serves code inlen range st keeps pools
      rw [plotResize_runs serves named code inlen range st, runResize_passed keeps pools]
      rfl
    case resets =>
      intro serves code inlen st
      rw [plotReset_runs serves named code inlen (createdToStopped_subset st), runReset_starts (s := popAdm s rest) st]
    case joins =>
      intro serves code inlen st
      rw [plotReset_runs serves named code inlen (by simp [createdToResetting, st]), runReset_joins (s := popAdm s rest) st]
    case removes =>
      intro serves code inlen st quorum room first
      rw [plotRemove_runs serves named code inlen (createdToStopped_subset st) quorum, runRemove_starts room first st]
  case resetEnds =>
    rw [exec_resetSequenceComplete, execResetSequenceComplete, resetComplete_created st alone]
  case removalEnds =>
    rw [exec_removalSequenceComplete, execRemovalSequenceComplete, removalComplete_absent st done waits]

/-! ### Policy sets, the acreage query and the drawer, for the manager (R104, R132, R133, R136, R138) -/

section
variable {d : Adm}

/-- PLOT_POLICY_STAGE with a set in range: it is the plot's shadow set. -/
theorem runStage_kept (out : heldFor s .pf0 = false) {b : Bytes} (ok : policyOk (fit 512 b) = true) :
    runStage (.data b) s d = forwardData (admOk (saveRecord ((emit s (.read d.extAddr 512)).setPlot d.pid
      { s.plot d.pid with shadow := fit 512 b, shadowValid := true }) d.pid) d) d (fit 512 b) := by
  rw [runStage, admRead_data out (by decide)]
  exact if_pos ok

/-- The drill of a plot stands at or past the reseed limit of the shadow set, and below that of the active set (R403). -/
abbrev ReseedLate (pl : Plot) : Prop :=
  pl.drill.inst = true ∧ pl.drill.c < polReseed pl.active ∧ polReseed pl.shadow ≤ pl.drill.c

theorem reseedLate_iff (pl : Plot) : ReseedLate pl ↔
    (pl.drill.inst && decide (pl.drill.c < polReseed pl.active) && decide (polReseed pl.shadow ≤ pl.drill.c)) = true := by
  simp only [ReseedLate, Bool.and_eq_true, decide_eq_true_eq, and_assoc]

/-- PLOT_POLICY_COMMIT with a valid shadow set: the sets swap, and the drill meets its new limit (R133, R403). -/
theorem runCommit_swaps (valid : (s.plot d.pid).shadowValid = true) (room : auditRoom s = true) :
    let pl := s.plot d.pid
    let m := (reserve s).setPlot d.pid { pl with active := pl.shadow, shadow := pl.active }
    runCommit s d = forwardAdmin (admOk (plotEvent (writeReserved (saveRecord (if ReseedLate pl then drillCheck m d.pid else m)
      d.pid) 0x1003 d.pid (le 4 d.tag.toNat ++ cut pl.shadow 508 4)) d.pid 5) d) d := by
  dsimp only
  simp only [runCommit, valid, room, Bool.not_true, Bool.false_eq_true, if_false]
  by_cases late : ReseedLate (s.plot d.pid)
  · rw [if_pos ((reseedLate_iff _).mp late), if_pos late]
  · rw [if_neg (mt (reseedLate_iff _).mpr late), if_neg late]

theorem runSend_sent (free : (s.plot d.pid).outValid = false) :
    runSend s d = admOk (plotEvent (s.setPlot d.pid
      { s.plot d.pid with drwOut := cut d.inl 4 64, outValid := true }) d.pid 1) d :=
  if_neg (by rw [free]; decide)

/-- DRAWER_RECV takes the message that waits; with none it answers no byte (R136). -/
theorem runRecv_eq : runRecv s d = if (s.plot d.pid).inBusy then
    admResult (plotEvent (s.setPlot d.pid { s.plot d.pid with inBusy := false, drwCopy := [] }) d.pid 2) d
      (fit 64 (s.plot d.pid).drwCopy)
    else admResult s d [] := rfl

variable {rest : List Adm}

theorem plotPolicyStage_runs (serves : Serves s d rest) (named : plotNamed d = true) (st : (s.plot d.pid).st ∈ createdToStopped)
    (code : d.code = 0x108) (inlen : d.inlen = 4) (len : d.extLen = 512) (r : HostRead) :
    exec (.plotPolicyStage r) s = .next (runStage r (popAdm s rest) d) := by
  rw [exec_plotPolicyStage, execPlotPolicyStage]
  exact plotCmd_run serves code named (by simp [inlen, len]) st rfl

theorem plotPolicyCommit_runs (serves : Serves s d rest) (named : plotNamed d = true) (st : (s.plot d.pid).st ∈ createdToStopped)
    (code : d.code = 0x109) (inlen : d.inlen = 4) : exec .plotPolicyCommit s = .next (runCommit (popAdm s rest) d) := by
  rw [exec_plotPolicyCommit, execPlotPolicyCommit]
  exact plotCmd_run serves code named (by simp [inlenIs, inlen]) st rfl

theorem plotIn_anyState (s : State) (d : Adm) : plotIn anyState s d = true := by
  simp only [plotIn]
  cases (s.plot d.pid).st <;> decide

/-- PLOT_QUERY is served by a tampered module and in every life-cycle state. -/
theorem plotQuery_runs (serves : Serves s d rest (tamper := true) (lim := 5)) (named : plotNamed d = true)
    (code : d.code = 0x10A) (inlen : d.inlen = 4) (res : 64 ≤ d.resLen) :
    exec .plotQuery s = .next (runQuery (popAdm s rest) d) := by
  rw [exec_plotQuery, execPlotQuery, admin_run serves code rfl (by simp [inlen, named, res]) (plotIn_anyState _ d) rfl,
    notStandby_run serves]

section
variable (serves : Serves s d rest (tamper := true)) (named : plotNamed d = true) (st : (s.plot d.pid).st ∈ createdToStopped)
include serves named st

theorem drawerSend_runs (code : d.code = 0x110) (inlen : d.inlen = 68) (msg : msgOk (cut d.inl 4 64) = true) :
    exec .drawerSend s = .next (runSend (popAdm s rest) d) := by
  rw [exec_drawerSend, execDrawerSend, admin_run serves code (notDecom_run serves) (by simp [inlen, named, msg])
    (List.contains_iff_mem.mpr st) rfl, notStandby_run serves]

theorem drawerRecv_runs (code : d.code = 0x111) (inlen : d.inlen = 4) (res : 64 ≤ d.resLen) :
    exec .drawerRecv s = .next (runRecv (popAdm s rest) d) := by
  rw [exec_drawerRecv, execDrawerRecv, admin_run serves code (notDecom_run serves) (by simp [inlen, named, res])
    (List.contains_iff_mem.mpr st) rfl, notStandby_run serves]

end

end

/-! ### The drawer, the tick and the OPEN request, for the driver (R116, R135, R137, R139, R290) -/

section
variable {p : PlotId}

theorem windowV_of (reached : reach s (vfOf p) = true) (present : (s.plot p).st ≠ .absent) : windowV s p = true := by
  rw [windowV, reached, decide_eq_true present]
  rfl

theorem plotTick_advances (present : (s.plot p).st ≠ .absent) :
    exec (.plotTick p) s = .next ((advanceTo s (s.plot p).tickDue).modPlot p fun pl => { pl with
      tick := pl.tick + 1, tickPeriod := polTick pl.active + 1, tickDue := pl.tickDue + 1000 * (polTick pl.active + 1) }) := by
  rw [exec_plotTick, execPlotTick, if_neg present]

/-- GO with a MAXVER that a version can have asks for OPEN. -/
theorem pltVopenGo_asks (reached : reach s (vfOf p) = true) {v : W32} (go : v.getLsbD 0 = true)
    (created : (s.plot p).st = .created) (named : 0x100 ≤ (v.extractLsb' 16 16).toNat) :
    exec (.pltVopenGo p v) s =
      .next (tryOpen (s.setPlot p { s.plot p with maxver := v.extractLsb' 16 16, openPend := true }) p) := by
  have inRange : ¬ (v.extractLsb' 16 16).toNat < 0x100 := by omega
  simp only [exec_pltVopenGo, execPltVopenGo, openRequest, go, reached, created, inRange, Bool.not_true, reduceCtorEq, decide_false,
    Bool.or_self, ne_eq, not_true_eq_false, Bool.false_eq_true, if_false, if_true]

section
variable (reached : reach s (vfOf p) = true) (present : (s.plot p).st ≠ .absent)
include reached present

theorem inValid_busy (busy : (s.plot p).inBusy = true) :
    exec (.inValid p) s = .next (s.setPlot p
      { s.plot p with inRefused := true, inRefCnt := bump (s.plot p).inRefCnt }) := by
  simp only [exec_inValid, execInValid, windowV_of reached present, busy, Bool.not_true, Bool.false_eq_true, if_false, if_true]

theorem inValid_taken (idle : (s.plot p).inBusy = false) (msg : msgOk (mread (s.plot p).drwIn 0 64) = true) :
    exec (.inValid p) s = .next (raiseVec (s.setPlot p
      { s.plot p with inBusy := true, drwCopy := mread (s.plot p).drwIn 0 64 }) .pf0 1) := by
  simp only [exec_inValid, execInValid, windowV_of reached present, idle, msg, Bool.not_true, Bool.false_eq_true, if_false,
    drawerVec]

theorem inValid_badVersion (idle : (s.plot p).inBusy = false) (msg : msgOk (mread (s.plot p).drwIn 0 64) = false) :
    exec (.inValid p) s = .next (s.setPlot p { s.plot p with badVer := true, badVerCnt := bump (s.plot p).badVerCnt }) := by
  simp only [exec_inValid, execInValid, windowV_of reached present, idle, msg, Bool.not_true, Bool.not_false,
    Bool.false_eq_true, if_false, if_true]

theorem outAck_clears (waits : (s.plot p).outValid = true) :
    exec (.outAck p) s = .next (raiseVec (s.setPlot p { s.plot p with
      outValid := false, drwOut := [], outAcked := true, outAckCnt := bump (s.plot p).outAckCnt }) .pf0 1) := by
  simp only [exec_outAck, execOutAck, windowV_of reached present, waits, Bool.not_true, Bool.or_self, Bool.false_eq_true,
    if_false, drawerVec]

end

end

/-- Settles O24. That a busy drawer hides a bad version is the model's choice (log 115). -/
theorem plotServices : Obligations.PlotServices := by
  unfold Obligations.PlotServices
  refine ⟨fun s d rest named => ?commands, fun s p reached present => ?driver⟩
  case commands =>
    dsimp only
    refine ⟨fun b serves code inlen len out st ok => ?stages, fun serves code inlen st valid room => ?commits,
      fun serves code inlen res => ?queries, fun serves code inlen msg st free => ?sends,
      fun serves code inlen res st => ?receives⟩
    case stages =>
      rw [plotPolicyStage_runs serves named st code inlen len]
      exact congrArg Host.Outcome.next (runStage_kept (s := popAdm s rest) out ok)
    case commits =>
      rw [plotPolicyCommit_runs serves named st code inlen]
      exact congrArg Host.Outcome.next (runCommit_swaps (s := popAdm s rest) valid room)
    case queries => exact plotQuery_runs serves named code inlen res
    case sends =>
      rw [drawerSend_runs serves named st code inlen msg]
      exact congrArg Host.Outcome.next (runSend_sent (s := popAdm s rest) free)
    case receives =>
      rw [drawerRecv_runs serves named st code inlen res]
      exact congrArg Host.Outcome.next (runRecv_eq (s := popAdm s rest))
  case driver =>
    exact ⟨inValid_busy reached present, inValid_taken reached present, inValid_badVersion reached present,
      outAck_clears reached present, plotTick_advances present, fun _ => pltVopenGo_asks reached⟩

end Sys2Proof.Machine
end

/-! SUPPORT. What every step keeps, from what every command keeps: the queue's front apart (R150; logs 1 to 4). -/

section
namespace Sys2Proof.Machine

variable {s t : State}

/-- A microsecond without a command changes the clock alone, and it goes on. -/
theorem idle_keeps (s : State) : Keeps s (idle s) :=
  (Keeps.refl s).updG rfl id (fun h k => ⟨h, k⟩) id (fun _ => Nat.le_refl _) id (Nat.le_succ _) (Nat.le_refl _)
    ⟨[], List.append_nil _⟩

/-- A step keeps what every command keeps of the state without the front of the queue. -/
theorem step_keeps (run : step s = .next t) : Keeps { s with pending := s.pending.drop 1 } t := by
  cases h : s.pending with
  | nil =>
    rw [step_empty h] at run
    cases run
    rw [List.drop_nil, ← h]
    exact idle_keeps s
  | cons c rest =>
    rw [step_cons h] at run
    exact KeepsR.of (exec_keeps c _) run

/-- Settles O58: the canonical forms do not speak of the queue, and every command keeps them. -/
theorem memoriesStayCanonical : Obligations.MemoriesStayCanonical := by
  unfold Obligations.MemoriesStayCanonical
  exact fun s t canon run => (step_keeps run).canon canon

end Sys2Proof.Machine
end

/-! SUPPORT. The stores, the stack and the control transfers, each said once past its checks: what it writes, which registers it
leaves, where PC goes (R161, R168 to R174, R181, R198 to R200, R205 to R208). -/

section
namespace Sys2Proof.Machine

variable {s t u : State} {c : CoreId} {hw : Hw} {e sub rep fmt priv : Bool} {cls n : Nat} {v : W64}

/-! ### Instructions that are let in -/

theorem Accepted.comes (h : Accepted s c hw e cls sub rep fmt priv) : Comes s c hw e := h.1

theorem Accepted.passes (h : Accepted s c hw e cls sub rep fmt priv) : checks (regsOf s c) cls sub rep fmt priv = none := h.2

/-- Only privileged mode runs 0xE0 to 0xE2. -/
theorem checks_class2 {k : Core} (h : checks k 2 sub rep fmt priv = none) : k.priv = true := by
  by_contra user
  rw [Bool.not_eq_true] at user
  simp [checks, user] at h

/-- An instruction whose minor opcode is 00 alone is let in where its operand can be read, and reads it unsigned. -/
theorem ReadsOperand.unsigned {i : Ins} {modes : List Nat} {sz3 : Bool} (h : ReadsOperand s t c i false modes sz3 false v n) :
    Accepted s c i.hw i.e 0 (i.sub == 0) true (i.modeOk (regsOf s c) modes sz3) (i.privOk (regsOf s c)) ∧
      opval (fetched s c) c (settled (regsOf s c) i.readsMac) i false = .ok t (v, n) := by
  obtain ⟨comes, passes, operand⟩ := h
  rw [Bool.false_and, Bool.or_false] at passes
  have sub0 : i.sub = 0 := beq_iff_eq.mp (checks_sub passes).1
  rw [Bool.false_or, show (i.sub == 1) = false by rw [sub0]; rfl] at operand
  exact ⟨⟨comes, passes⟩, operand⟩

/-! ### Accesses of an instruction that is let in -/

section
variable (h : Accepted s c hw e cls sub rep fmt priv)
include h

/-- A store that may be carried out at once is carried out at the boundary. -/
theorem store_accepted {a : W64} (may : MayStore s c a n) (v : W64) :
    store (fetched s c) c hw a n v = .ok (storedAt (fetched s c) c a n v) 0 := by
  rw [accepted_hw h]
  exact store_may v (mayStore_fetched may)

theorem load_accepted {a : W64} (may : MayLoad s c a n) :
    load (fetched s c) c hw a n = .ok (fetched s c) (loadedAt (fetched s c) c a n) := by
  rw [accepted_hw h]
  exact load_may (mayLoad_fetched may)

end

theorem opval_accepted {i : Ins} (h : Accepted s c i.hw e cls sub rep fmt priv) {k : Core} (signed : Bool)
    (there : OperandOpen s c k i) :
    opval (fetched s c) c k i signed = .ok (fetched s c) (operandOf (fetched s c) c k i signed) :=
  opval_open (accepted_hw h) (operandOpen_fetched there)

/-- A word is pushed where its slot takes the store. -/
theorem pushWord_ok {k : Core} (stored : store s c hw (k.sp - 8) 8 v = .ok t 0) :
    pushWord s c hw k v = .ok t { k with sp := k.sp - 8 } := by
  rw [pushWord, stored]
  rfl

/-! ### Stores and the stack (R147, R148, R198 to R200, R607) -/

section
variable {i : Ins}

/-- PUSH past its checks, its operand read and its slot written. -/
theorem push_ok (h : Accepted s c i.hw i.e 0 (i.sub == 0) true (i.modeOk (regsOf s c) allModes true) (i.privOk (regsOf s c)))
    (operand : opval (fetched s c) c (settled (regsOf s c) i.readsMac) i false = .ok t (v, n))
    (stored : store t c i.hw ((settled (regsOf s c) i.readsMac).sp - 8) 8 v = .ok u 0) :
    exec (.push c i) s = .next (retire s u c i.e
      { core := i.post { settled (regsOf s c) i.readsMac with sp := (settled (regsOf s c) i.readsMac).sp - 8 },
        cost := 1 + n }) := by
  refine congrArg Host.Outcome.next (runIns_ok h.comes ?_)
  unfold settled at operand stored ⊢
  simp only [h.passes, operand, Acc.bind, pushWord_ok stored]

/-- POP past its checks, the word at SP read. -/
theorem pop_ok (h : Accepted s c i.hw i.e 0 (i.sub == 0) (!loopReg i.rn) (i.modeOk (regsOf s c) [7] true) (i.privOk (regsOf s c)))
    (loaded : load (fetched s c) c i.hw (regsOf s c).sp 8 = .ok t v) :
    exec (.pop c i) s = .next (retire s t c i.e
      { core := ({ regsOf s c with sp := (regsOf s c).sp + 8 } : Core).setReg i.rn v,
        cost := 1 + loadCost c (regsOf s c).sp }) := by
  refine congrArg Host.Outcome.next (runIns_ok h.comes ?_)
  simp only [h.passes, loaded, Acc.bind]

/-- POP SP takes the word, whatever the increment has left there (R199). -/
theorem setReg_sp (k : Core) (w : W64) (named : i.rn = 4) :
    ({ k with sp := w } : Core).setReg i.rn v = { k with sp := v } := by
  rw [named]
  rfl

section
variable (h : Accepted s c i.hw i.e 0 (i.sub == 0) (i.mode != 7 || !loopReg i.rn) (i.modeOk (regsOf s c) storeModes false)
  (i.privOk (regsOf s c)))
include h

/-- STA waits for a multiply-accumulate. -/
theorem sta_register (register : i.mode = 7) : exec (.sta c i) s = .next (retire s (fetched s c) c i.e
    { core := (settled (regsOf s c) true).setReg i.rn (settled (regsOf s c) true).a }) :=
  (storeIns_ok (t := s) (g := (·.a)) (reads := true) h).1 register

theorem sta_memory (memory : i.mode ≠ 7)
    (stored : store (fetched s c) c i.hw (i.addr (regsOf s c)) i.bytes (regsOf s c).a = .ok t 0) :
    exec (.sta c i) s = .next (retire s t c i.e { core := i.post (settled (regsOf s c) true) }) :=
  (storeIns_ok (g := (·.a)) (reads := true) h).2 memory (by rw [settled_addr, settled_a]; exact stored)

/-- STX and STY do not. -/
theorem storeIndex_register (register : i.mode = 7) (g : Core → W64) : storeIns c i false g s =
    .next (retire s (fetched s c) c i.e { core := (regsOf s c).setReg i.rn (g (regsOf s c)) }) := by
  simpa only [settled_false] using (storeIns_ok (t := s) (g := g) (reads := false) h).1 register

theorem storeIndex_memory (memory : i.mode ≠ 7) (g : Core → W64)
    (stored : store (fetched s c) c i.hw (i.addr (regsOf s c)) i.bytes (g (regsOf s c)) = .ok t 0) :
    storeIns c i false g s = .next (retire s t c i.e { core := i.post (regsOf s c) }) := by
  have := (storeIns_ok (t := t) (g := g) (reads := false) h).2 memory
  rw [settled_false] at this
  exact this stored

end

end

/-- Settles O5: an access that may be carried out is the access that the general clause asks for. -/
theorem storesAndStack : Obligations.StoresAndStack := by
  unfold Obligations.StoresAndStack
  refine ⟨fun s c i h => ?stores, fun s c i h => ?push, fun s t u c i v n h => ?pushAny, fun s c i h => ?pop⟩
  case stores =>
    dsimp only
    exact ⟨fun register => ⟨sta_register h register, storeIndex_register h register _, storeIndex_register h register _⟩,
      fun memory may => ⟨sta_memory h memory (store_accepted h may _),
        storeIndex_memory h memory _ (store_accepted h may _), storeIndex_memory h memory _ (store_accepted h may _)⟩,
      fun memory t => ⟨sta_memory h memory, storeIndex_memory h memory _, storeIndex_memory h memory _⟩⟩
  case push =>
    exact fun there may => push_ok h (opval_accepted h false there) (store_accepted h may _)
  case pushAny =>
    obtain ⟨accepted, operand⟩ := h.unsigned
    exact push_ok accepted operand
  case pop =>
    refine ⟨fun may => ⟨?_, setReg_sp _ _⟩, fun t v => pop_ok h⟩
    rw [pop_ok h (load_accepted h may), loadCost_may may]

/-! ### Branches, calls, returns (R161, R164, R181, R205 to R207) -/

theorem bcond_ok {i : InsB} (h : Accepted s c i.hw i.e 0 true false (!i.e) true) :
    exec (.bcond c i) s = .next (retire s (fetched s c) c i.e
      (if (settled (regsOf s c) (i.cond != 0)).fl.cond i.cond.toNat then
        { core := settled (regsOf s c) (i.cond != 0), flow := .jump (target (settled (regsOf s c) (i.cond != 0)) i), cost := 2 }
      else { core := settled (regsOf s c) (i.cond != 0) })) := by
  refine congrArg Host.Outcome.next (runIns_ok h.comes ?_)
  simp only [h.passes]
  exact (apply_ite (Acc.ok (fetched s c)) _ _ _).symm

theorem call_ok {i : InsB} (h : Accepted s c i.hw i.e 0 true false (!i.e && i.cond == 0) true)
    (stored : store (fetched s c) c i.hw ((regsOf s c).sp - 8) 8 (((regsOf s c).pc + 4).setWidth 64) = .ok t 0) :
    exec (.call c i) s = .next (retire s t c i.e
      { core := { regsOf s c with sp := (regsOf s c).sp - 8 }, flow := .jump (target (regsOf s c) i), cost := 2 }) := by
  refine congrArg Host.Outcome.next (runIns_ok h.comes ?_)
  simp only [h.passes, pushWord_ok stored, Acc.bind]

section
variable {i : Ins}

theorem ret_ok (h : Accepted s c i.hw i.e 0 (i.sub == 0) false i.noOperand true)
    (loaded : load (fetched s c) c i.hw (regsOf s c).sp 8 = .ok t v) :
    exec (.ret c i) s = .next (retire s t c i.e
      { core := { regsOf s c with sp := (regsOf s c).sp + 8 }, flow := .jump (v.setWidth 32),
        cost := 2 + loadCost c (regsOf s c).sp }) := by
  refine congrArg Host.Outcome.next (runIns_ok h.comes ?_)
  simp only [h.passes, loaded, Acc.bind]

section
variable (h : Accepted s c i.hw i.e 0 (i.sub == 0) false (i.modeOk (regsOf s c) storeModes true) (i.privOk (regsOf s c)))
  (operand : opval (fetched s c) c (settled (regsOf s c) i.readsMac) i false = .ok t (v, n))
include h operand

theorem jmp_ok : exec (.jmp c i) s = .next (retire s t c i.e
    { core := i.post (settled (regsOf s c) i.readsMac), flow := .jump (v.setWidth 32), cost := 2 + n }) := by
  refine congrArg Host.Outcome.next (runIns_ok h.comes ?_)
  unfold settled at operand ⊢
  simp only [h.passes, operand, Acc.bind]

/-- CALLR past its checks, its operand read and the address after it pushed. -/
theorem callr_ok (stored : store t c i.hw ((settled (regsOf s c) i.readsMac).sp - 8) 8
      ((nextPc (settled (regsOf s c) i.readsMac) i.e).setWidth 64) = .ok u 0) :
    exec (.callr c i) s = .next (retire s u c i.e
      { core := i.post { settled (regsOf s c) i.readsMac with sp := (settled (regsOf s c) i.readsMac).sp - 8 },
        flow := .jump (v.setWidth 32), cost := 2 + n }) := by
  refine congrArg Host.Outcome.next (runIns_ok h.comes ?_)
  unfold settled at operand stored ⊢
  simp only [h.passes, operand, Acc.bind, pushWord_ok stored]

end

/-- RTE inside a handler takes FL[5:0] from SFL and leaves T. -/
theorem rte_ok (h : Accepted s c i.hw i.e 0 (i.sub == 0) false i.noOperand true) (inside : (regsOf s c).intrap = true) :
    exec (.rte c i) s = .next (retire s (fetched s c) c i.e
      { core := { regsOf s c with fl := (regsOf s c).fl.write (regsOf s c).sfl.toNat, lbase := 0, intrap := false },
        flow := .jump (regsOf s c).epc, cost := 2 }) := by
  refine congrArg Host.Outcome.next (runIns_ok h.comes ?_)
  simp only [inside, Bool.and_true, h.passes]

end

/-- Settles O6: RTE's clause names the bits of SFL that the write of FL takes. -/
theorem controlTransfers : Obligations.ControlTransfers := by
  unfold Obligations.ControlTransfers
  refine ⟨⟨fun s c i => bcond_ok, fun s c i h => ⟨fun may => call_ok h (store_accepted h may _), fun t => call_ok h⟩,
    fun s c i h => ⟨fun may => ?ret, fun t v => ret_ok h⟩,
    fun s c i h => ⟨fun there => ?there, fun t v n operand => ?read⟩⟩,
    fun s c i inside h => rte_ok h inside⟩
  case ret => rw [ret_ok h (load_accepted h may), loadCost_may may]
  case there =>
    have operand := opval_accepted h false there
    exact ⟨jmp_ok h operand, fun may => callr_ok h operand (store_accepted h may _)⟩
  case read => exact ⟨jmp_ok h operand, fun u => callr_ok h operand⟩

/-! ### Loops and repeats (R168, R169, R172, R174, R208) -/

section
variable {i : InsL} (h : Accepted s c i.hw i.e 0 true false (loopFmt (regsOf s c) i) true) (room : (regsOf s c).ldepth ≠ 3)
include h room

/-- A LOOP with a count of 0 goes on past its end. -/
theorem loop_skips (zero : loopCount (regsOf s c) i = 0) : exec (.loop c i) s = .next (retire s (fetched s c) c i.e
    { core := regsOf s c, flow := .skip ((regsOf s c).pc + BitVec.ofNat 32 (4 * i.ends.toNat)) }) := by
  refine congrArg Host.Outcome.next (runIns_ok h.comes ?_)
  simp only [h.passes, room, zero, if_false, if_true]

/-- A LOOP with another count activates a level. -/
theorem loop_activates (counts : loopCount (regsOf s c) i ≠ 0) : exec (.loop c i) s = .next (retire s (fetched s c) c i.e
    { core := { regsOf s c with
        lp := tset {} (regsOf s c).ldepth.toNat
          { ls := nextPc (regsOf s c) i.e, le := (regsOf s c).pc + BitVec.ofNat 32 (4 * i.ends.toNat),
            lc := loopCount (regsOf s c) i } (regsOf s c).lp,
        ldepth := (regsOf s c).ldepth + 1 } }) := by
  refine congrArg Host.Outcome.next (runIns_ok h.comes ?_)
  simp only [h.passes, room, counts, if_false, Core.modLvl, tmod]

end

section
variable {i : Ins} (h : Accepted s c i.hw i.e 0 (i.sub == 0) false (i.noOperand && !i.e) true)
include h

theorem lpop_cancels (active : (regsOf s c).ldepth ≠ (regsOf s c).lbase) :
    exec (.lpop c i) s = .next (retire s (fetched s c) c i.e
      { core := { regsOf s c with ldepth := (regsOf s c).ldepth - 1 } }) := by
  refine congrArg Host.Outcome.next (runIns_ok h.comes ?_)
  simp only [h.passes, active, if_false]

theorem lpop_underflow (frozen : (regsOf s c).ldepth = (regsOf s c).lbase) :
    exec (.lpop c i) s = .next (trapped s c .loopUnderflow) := by
  refine congrArg Host.Outcome.next (runIns_trap h.comes ?_)
  simp only [h.passes, frozen, if_true]

end

/-- RPT takes its count from X[7:0], where 0 stands for 256, or from N1. -/
theorem rpt_ok {i : InsP} (h : Accepted s c i.hw i.e 0 true false (!i.e && i.mbz == 0 && (!i.s || i.n1 == 0)) true) :
    exec (.rpt c i) s = .next (retire s (fetched s c) c i.e { core := regsOf s c, flow := .rep (
      if i.s then (if (regsOf s c).x.toNat % 256 = 0 then 256 else (regsOf s c).x.toNat % 256) else i.n1.toNat + 1) }) := by
  have low (x : W64) : (x.extractLsb' 0 8).toNat = x.toNat % 256 := by
    rw [BitVec.extractLsb'_toNat, Nat.shiftRight_zero]
  refine congrArg Host.Outcome.next (runIns_ok h.comes ?_)
  simp only [h.passes, low]

/-- Settles O7: each instruction past its checks, with room for a level or with one to cancel. -/
theorem loopsAndRepeats : Obligations.LoopsAndRepeats := by
  unfold Obligations.LoopsAndRepeats
  exact ⟨fun s c i h room => ⟨loop_skips h room, loop_activates h room⟩, fun s c i => lpop_cancels, fun s c i => rpt_ok⟩

/-- Settles O8: the two cases of LDEPTH against LBASE. -/
theorem loopPop : Obligations.LoopPop := by
  unfold Obligations.LoopPop
  exact fun s c i h => ⟨lpop_cancels h, lpop_underflow h⟩

end Sys2Proof.Machine
end

/-! SUPPORT. Accesses to the bench and to the fabric (R150, R157 to R159, R185, R246), and the traps that they and other
instructions take (R179, R182, R183). -/

section
namespace Sys2Proof.Machine

variable {s : State} {y : YokeId} {a v : W64} {n : Nat}

/-! ### Accesses that trap (R159) -/

/-- An address beyond the bench and its ports. -/
theorem access_beyond_bench (beyond : 0xFFFF < a.toNat) :
    load s (.tiller y) .ok a n = .trap s .benchFault ∧ store s (.tiller y) .ok a n v = .trap s .benchFault :=
  ⟨if_pos beyond, if_pos beyond⟩

/-- The command region is the bench from 0xC000 to 0xDFFF (Table 4.3). -/
theorem regionOf_eq_command (p : Nat) : regionOf p = .command ↔ 0xC000 ≤ p ∧ p < 0xE000 := by
  unfold regionOf
  split
  · simp only [reduceCtorEq, false_iff]
    omega
  · split
    · simp only [true_iff]
      omega
    · simp only [reduceCtorEq, false_iff]
      omega

/-- Below port space a store looks at its region before its alignment. -/
theorem store_below_ports (below : a.toNat < 0xF000) : store s (.tiller y) .ok a n v =
    if regionOf a.toNat = .command then .trap s .benchFault
    else if a.toNat % n ≠ 0 then .trap s .misalign else .ok (benchPut s y a.toNat (le n v.toNat)) 0 := by
  have bench : ¬ 0xFFFF < a.toNat := by omega
  have ports : ¬ 0xF000 ≤ a.toNat := by omega
  simp only [store, benchStore, if_neg bench, if_neg ports, reduceCtorEq, if_false]

theorem store_command_region (low : 0xC000 ≤ a.toNat) (high : a.toNat < 0xE000) :
    store s (.tiller y) .ok a n v = .trap s .benchFault := by
  rw [store_below_ports (by omega), if_pos ((regionOf_eq_command _).mpr ⟨low, high⟩)]

theorem load_misaligned (below : a.toNat < 0xF000) (odd : a.toNat % n ≠ 0) :
    load s (.tiller y) .ok a n = .trap s .misalign := by
  have bench : ¬ 0xFFFF < a.toNat := by omega
  have ports : ¬ 0xF000 ≤ a.toNat := by omega
  simp only [load, benchLoad, if_neg bench, if_neg ports, if_pos odd]

theorem store_misaligned (below : a.toNat < 0xF000) (odd : a.toNat % n ≠ 0) (region : a.toNat < 0xC000 ∨ 0xE000 ≤ a.toNat) :
    store s (.tiller y) .ok a n v = .trap s .misalign := by
  rw [store_below_ports below, if_neg fun e => by have := (regionOf_eq_command _).mp e; omega, if_pos odd]

/-! ### The entry of a handler (R179, R182, R183) -/

/-- What a trap comes to on a tiller, by the registers before the instruction: the state is the one before it, too. -/
theorem takeTrap_tiller (old s : State) (y : YokeId) (t : Trap) (addr : W32) : takeTrap old s (.tiller y) t addr =
    if (old.core (.tiller y)).intrap = true ∨ (old.core (.tiller y)).tv = 0 then endWith old y stTrap
    else old.setCore (.tiller y) (trapEntry (old.core (.tiller y)) t.cause addr (16 * t.cause)) := by
  simp only [takeTrap, Bool.or_eq_true, beq_iff_eq]

/-- Settles O12: outside a handler and with a handler of its own a tiller enters it, else its transaction ends. -/
theorem trapEntry_or_programTrap : Obligations.TrapEntry := by
  unfold Obligations.TrapEntry
  intro s y t
  refine ⟨fun outside handler => ?enters, fun noHandler => ?ends⟩
  case enters =>
    rw [trapped, takeTrap_tiller, if_neg]
    · rfl
    · rintro (inside | stub)
      · exact Bool.false_ne_true (outside.symm.trans inside)
      · exact handler stub
  case ends => exact (takeTrap_tiller ..).trans (if_pos noHandler)

/-! ### Instructions whose access traps -/

section
variable {c : CoreId} {i : Ins}

/-- A form that a store accepts is one that a load accepts, and it is no immediate. -/
theorem modeOk_all_of_store {k : Core} {sz3 : Bool} (h : i.modeOk k storeModes sz3 = true) :
    i.modeOk k allModes sz3 = true ∧ i.mode ≠ 0 := by
  simp only [Ins.modeOk, Bool.and_eq_true, List.contains_iff_mem] at h ⊢
  obtain ⟨⟨listed, size⟩, form⟩ := h
  refine ⟨⟨⟨?_, size⟩, form⟩, fun immediate => ?_⟩
  · simp only [storeModes, allModes, List.mem_cons] at listed ⊢
    exact .inr listed
  · rw [immediate] at listed
    exact absurd listed (by decide)

/-- An operand in memory is what the load at its address brings. -/
theorem opval_memory (s : State) (c : CoreId) (k : Core) (signed : Bool) (immediate : i.mode ≠ 0) (register : i.mode ≠ 7) :
    opval s c k i signed = (load s c i.hw (i.addr k) i.bytes).bind fun s v =>
      .ok s (fitVal i.bytes signed v, loadCost c (i.addr k)) := by
  unfold opval
  split
  next e => exact absurd (BitVec.eq_of_toNat_eq e) immediate
  next e => exact absurd (BitVec.eq_of_toNat_eq e) register
  next => rfl

variable {t : Trap}
  (h : Accepted s c i.hw i.e 0 (i.sub == 0) true (i.modeOk (regsOf s c) storeModes false) (i.privOk (regsOf s c)))
  (memory : i.mode ≠ 7)
include h memory

theorem lda_traps (traps : load (fetched s c) c .ok (i.addr (regsOf s c)) i.bytes = .trap (fetched s c) t) :
    exec (.lda c i) s = .next (trapped s c t) := by
  obtain ⟨sub, form, priv⟩ := checks_sub h.passes
  obtain ⟨loads, immediate⟩ := modeOk_all_of_store form
  have passes := h.passes
  rw [sub, form, priv] at passes
  refine congrArg Host.Outcome.next (runIns_trap h.comes ?_)
  simp only [sub, loads, priv, Bool.true_or, passes]
  rw [opval_memory _ _ _ _ immediate memory, ← settled, settled_addr, accepted_hw h, traps]
  rfl

theorem sta_traps (traps : store (fetched s c) c .ok (i.addr (regsOf s c)) i.bytes (regsOf s c).a = .trap (fetched s c) t) :
    exec (.sta c i) s = .next (trapped s c t) := by
  refine congrArg Host.Outcome.next (runIns_trap h.comes ?_)
  have carried : (i.mode != 7 || !loopReg i.rn) = true := by rw [bne_iff_ne.mpr memory, Bool.true_or]
  simp only [carried, h.passes, if_neg memory]
  rw [← settled, settled_addr, settled_a, accepted_hw h, traps]
  rfl

end

/-- Settles O11: a trapping access leaves the state as it was, so what the trap comes to is that of the state before it. -/
theorem benchAccessTraps : Obligations.BenchAccessTraps := by
  unfold Obligations.BenchAccessTraps
  refine ⟨fun s y a v n _ => ⟨access_beyond_bench, store_command_region, fun below odd =>
    ⟨load_misaligned below odd, store_misaligned below odd⟩⟩, fun s y i t h => ?instructions⟩
  case instructions =>
    have entry := takeTrap_tiller (fetched s (.tiller y)) (fetched s (.tiller y)) y t (regsOf s (.tiller y)).pc
    exact fun memory => ⟨fun traps => (lda_traps h memory traps).trans (congrArg _ entry),
      fun traps => (sta_traps h memory traps).trans (congrArg _ entry)⟩

/-! ### Accesses that are allowed (R150, R152, R157, R185, R246) -/

/-- A store on the bench leaves its bytes there, what the jobs that read them may still meet, and all else as it was. -/
theorem benchPut_frame (s : State) (y p : Nat) (b : Bytes) :
    benchPut s y p b = { s with yokes := (benchPut s y p b).yokes, free := (benchPut s y p b).free } ∧
    (∀ z, z ≠ y → (benchPut s y p b).yoke z = s.yoke z) ∧
    (Canon s → { (benchPut s y p b).yoke y with bench := (s.yoke y).bench, tx := s.tx y } = s.yoke y ∧
      ((benchPut s y p b).tx y).map (fun x => { x with jobs := [] }) = (s.tx y).map (fun x => { x with jobs := [] }) ∧
      (∀ x, s.tx y = some x → x.jobs = [] → (benchPut s y p b).tx y = some x) ∧
      ((benchPut s y p b).yoke y).bench = mwrite (s.yoke y).bench p b) := by
  obtain ⟨frame, others, noted⟩ := noteBytes_noted y p (List.range b.length) s
  rw [benchPut]
  generalize (List.range b.length).foldl (fun s i => noteByte s y (p + i)) s = u at frame others noted ⊢
  refine ⟨?_, fun z other => (State.modYoke_yoke_ne _ other _).trans (others z other), fun canon => ?_⟩
  · rw [frame]
    rfl
  · obtain ⟨form, same, jobs, kept⟩ := noted canon.2.1
    have yoke := State.modYoke_yoke_same u (y := y) form fun k => { k with bench := mwrite k.bench p b }
    have bench : (u.yoke y).bench = (s.yoke y).bench := by rw [← same]
    have tx : (u.modYoke y fun k => { k with bench := mwrite k.bench p b }).tx y = u.tx y := by
      rw [State.tx, yoke]
      rfl
    rw [yoke, tx]
    exact ⟨by rw [← same], jobs, kept, by rw [bench]⟩

/-- What a write leaves in a canonical memory: its bytes, and every other byte as before. -/
theorem mwrite_le {m : Mem} (h : Memory.wf m = true) (p n v : Nat) :
    mread (mwrite m p (le n v)) p n = le n v ∧ ∀ b, b < p ∨ p + n ≤ b → mget (mwrite m p (le n v)) b = mget m b := by
  have same := mread_mwrite_same (le n v) m p h
  have outside := mget_mwrite_outside (le n v) m p
  rw [le_length] at same outside
  exact ⟨same, outside⟩

theorem benchPut_bytes (canon : Canon s) (y p n v : Nat) :
    mread ((benchPut s y p (le n v)).yoke y).bench p n = le n v ∧
      ∀ b, b < p ∨ p + n ≤ b → mget ((benchPut s y p (le n v)).yoke y).bench b = mget (s.yoke y).bench b := by
  obtain ⟨-, -, left⟩ := benchPut_frame s y p (le n v)
  obtain ⟨-, -, -, bench⟩ := left canon
  rw [bench]
  exact mwrite_le (canon.2.2.2 y) p n v

/-! ### Operands and addresses (R157, R158; 05, opval) -/

/-- An address is an index register plus a displacement without wrap; a sum outside 64 bits is an address that every access
refuses, of at least 2^63 (log 41). -/
theorem indexed_toNat (b d : W64) :
    (0 ≤ (b.toNat : Int) + d.toInt → (b.toNat : Int) + d.toInt < 2 ^ 64 → ((indexed b d).toNat : Int) = b.toNat + d.toInt) ∧
    ((b.toNat : Int) + d.toInt < 0 ∨ 2 ^ 64 ≤ (b.toNat : Int) + d.toInt → 2 ^ 63 ≤ (indexed b d).toNat) := by
  have hb := b.isLt
  have hd := d.isLt
  have sum := BitVec.toNat_add b d
  have value := BitVec.toInt_eq_toNat_cond d
  unfold indexed
  split
  next high =>
    rw [BitVec.toNat_allOnes]
    exact ⟨fun _ below => absurd high (by omega), fun _ => by decide⟩
  next =>
    split at value
    · exact ⟨fun _ _ => by omega, fun _ => by omega⟩
    · exact ⟨fun _ _ => by omega, fun _ => by omega⟩

theorem bytes_of_size (z : BitVec 2) : 2 ^ z.toNat = if z = 0 then 1 else if z = 1 then 2 else if z = 2 then 4 else 8 := by
  revert z
  decide

section
variable (c : CoreId) (k : Core) (i : Ins)

theorem opval_immediate (signed : Bool) (m : i.mode = 0) : opval s c k i signed = .ok s (fitVal i.bytes signed i.disp, 0) := by
  simp [opval, m]

theorem opval_register (signed : Bool) (m : i.mode = 7) : opval s c k i signed = .ok s (k.reg i.rn, 0) := by
  simp [opval, m]

/-- The address of each memory mode. -/
theorem addr_of_mode :
    (i.mode = 1 → i.addr k = if i.e then i.ext.setWidth 64 else i.f16.setWidth 64) ∧
    (i.mode = 2 → i.addr k = indexed k.x i.disp) ∧ (i.mode = 3 → i.addr k = indexed k.y i.disp) ∧
    (i.mode = 6 → i.addr k = indexed k.sp i.disp) ∧ (i.mode = 4 → i.addr k = k.x) ∧ (i.mode = 5 → i.addr k = k.y) := by
  refine ⟨fun m => ?_, fun m => ?_, fun m => ?_, fun m => ?_, fun m => ?_, fun m => ?_⟩ <;> simp [Ins.addr, Ins.ea, m]

/-- What LEAX and LEAY leave: the low 64 bits of the sum (log 41). -/
theorem ea_of_mode :
    (i.mode = 2 → i.ea k = k.x + i.disp) ∧ (i.mode = 3 → i.ea k = k.y + i.disp) ∧ (i.mode = 6 → i.ea k = k.sp + i.disp) := by
  refine ⟨fun m => ?_, fun m => ?_, fun m => ?_⟩ <;> simp [Ins.ea, m]

/-- Modes 4 and 5 alone increment their register. -/
theorem post_of_mode :
    (i.mode = 4 → i.post k = { k with x := k.x + BitVec.ofNat 64 i.bytes }) ∧
    (i.mode = 5 → i.post k = { k with y := k.y + BitVec.ofNat 64 i.bytes }) ∧
    (i.mode ≠ 4 → i.mode ≠ 5 → i.post k = k) := by
  refine ⟨fun m => by simp [Ins.post, m], fun m => by simp [Ins.post, m], fun x y => ?_⟩
  unfold Ins.post
  split
  next e => exact absurd (BitVec.eq_of_toNat_eq e) x
  next e => exact absurd (BitVec.eq_of_toNat_eq e) y
  next => rfl

end

/-- Settles O10. What a sum outside 64 bits is as an address is the model's choice (log 41). -/
theorem benchAndOperands : Obligations.BenchAndOperands := by
  unfold Obligations.BenchAndOperands
  refine ⟨⟨fun s y a v n _ below aligned => ⟨?load, fun region => ?store⟩, fun s c a v n _ => ⟨load_may, store_may v⟩,
    fun s a v n _ canon => ?fabric⟩, fun s c k i signed => ?operand, indexed_toNat, fun i => bytes_of_size i.sz,
    fun s c k i signed => opval_open⟩
  case load => exact load_may (c := .tiller y) ⟨below, aligned⟩
  case store =>
    obtain ⟨frame, others, left⟩ := benchPut_frame s y a.toNat (le n v.toNat)
    refine ⟨_, store_may (c := .tiller y) v ⟨below, region, aligned⟩, frame, others, fun canon => ?_⟩
    obtain ⟨same, jobs, kept, -⟩ := left canon
    exact ⟨same, jobs, kept, benchPut_bytes canon y a.toNat n v.toNat⟩
  case fabric => exact ⟨rfl, mwrite_le canon.2.2.1 a.toNat n v.toNat⟩
  case operand =>
    obtain ⟨absolute, onX, onY, onSp, atX, atY⟩ := addr_of_mode k i
    obtain ⟨eaX, eaY, eaSp⟩ := ea_of_mode k i
    obtain ⟨postX, postY, none⟩ := post_of_mode k i
    dsimp only
    refine ⟨fun m => ?_, opval_register c k i signed, fun immediate register t v loaded => ?_, absolute, onX, onY, onSp,
      eaX, eaY, eaSp, fun m => ⟨atX m, postX m⟩, fun m => ⟨atY m, postY m⟩, none⟩
    · rw [opval_immediate c k i signed m, fitVal_eq]
      rfl
    · rw [opval_memory s c k signed immediate register, loaded, ← fitVal_eq]
      rfl

end Sys2Proof.Machine
end

/-! SUPPORT. The steward: its instructions, its events and its watchdog, and the end of a yoke's reset (R179, R186, R187, R225,
R469, R493, R501). -/

section
namespace Sys2Proof.Machine

variable {s : State}

/-! ### Events (R186, R225) -/

/-- The lowest pending event comes first. -/
theorem pendingEvents_head {e : Nat} (inRange : e < 16) (pending : s.stw.events.getLsbD e = true)
    (lowest : ∀ j, j < e → s.stw.events.getLsbD j = false) : (pendingEvents s).head? = some e := by
  rw [pendingEvents, List.head?_filter, List.find?_range_eq_some]
  exact ⟨pending, List.mem_range.mpr inRange, fun j below => by rw [lowest j below]; rfl⟩

/-- A steward that may take an event takes the first that is pending. -/
theorem pumpEvents_head {e : Nat} (head : (pendingEvents s).head? = some e) : pumpEvents s =
    if s.stw.core.ie = true ∧ s.stw.core.intrap = false then takeEvent s e else s := by
  simp only [pumpEvents, head, Bool.and_eq_true, Bool.not_eq_true']

theorem pumpEvents_none (none : s.stw.events = 0) : pumpEvents s = s := by
  have empty : pendingEvents s = [] := by simp [pendingEvents, none]
  rw [pumpEvents, empty]
  rfl

/-- With IE = 0, or inside a handler, the steward takes no event. -/
theorem pumpEvents_masked (masked : s.stw.core.ie = false ∨ s.stw.core.intrap = true) : pumpEvents s = s := by
  unfold pumpEvents
  split
  · rw [if_neg]
    rcases masked with off | inside
    · simp [off]
    · simp [inside]
  · rfl

/-- An event that comes while the steward's core is powered: it is pending, and a steward that is neither halted nor dead may
take it. -/
theorem stewardEvent_comes (k : Fin 16) (phase : s.lcs.phase = .starting ∨ s.lcs.phase = .live ∨ s.lcs.phase = .full) :
    let t := { s with stw := { s.stw with events := s.stw.events ||| BitVec.ofNat 16 (2 ^ k.val) } }
    exec (.stewardEvent k) s = .next (if s.stw.halted = true ∨ s.stw.dead = true then t else pumpEvents t) := by
  have powered : ¬ (s.lcs.phase = .off ∨ s.lcs.phase = .reset ∨ s.lcs.phase = .inert) := by
    rcases phase with e | e | e <;> simp [e]
  intro t
  simp only [exec_stewardEvent, execStewardEvent, if_neg powered, Bool.or_eq_true]
  rfl

/-! ### Instructions of privileged mode (R225) -/

section
variable {i : Ins}

section
variable (h : Accepted s .steward i.hw i.e 2 (i.sub == 0) true i.noOperand true)
include h

theorem fence_ok : exec (.fence .steward i) s = .next (retire s s .steward i.e { core := regsOf s .steward }) := by
  refine congrArg Host.Outcome.next (runIns_ok h.comes ?_)
  simp only [h.passes]
  rfl

theorem wait_ok : exec (.wait .steward i) s =
    .next (retire s { s with stw := { s.stw with waiting := true } } .steward i.e { core := regsOf s .steward }) := by
  refine congrArg Host.Outcome.next (runIns_ok h.comes ?_)
  simp only [h.passes, checks_class2 h.passes]
  rfl

end

theorem evack_ok (h : Accepted s .steward i.hw i.e 2 (i.sub == 0) true
      (i.modeOk (regsOf s .steward) [0] false && decide (evackNo i ≤ 15)) true) :
    exec (.evack .steward i) s = .next (retire s { s with stw := { s.stw with
      events := s.stw.events &&& ~~~BitVec.ofNat 16 (2 ^ evackNo i) } } .steward i.e { core := regsOf s .steward }) := by
  refine congrArg Host.Outcome.next (runIns_ok h.comes ?_)
  simp only [h.passes]
  rfl

end

/-! ### Resets of cores (R187, R469, R493, R501) -/

theorem yokeResetComplete_returns {y : YokeId} (faulted : (s.yoke y).faulted = true) :
    exec (.yokeResetComplete y) s = .next (s.modYoke y fun k => { k with faulted := false, bench := [], core := {} }) :=
  congrArg _ (if_pos faulted)

/-- The watchdog runs while the module has its power and no debugger holds the steward. -/
theorem stewardWatchdog_runs (good : s.pwr.good = true) (warm : s.pwr.shutdown = false) (runs : s.stw.halted = false) :
    (s.lcs.phase = .full → exec .stewardWatchdog s = .next (restart s 2 true 7)) ∧
    (s.lcs.phase = .starting → exec .stewardWatchdog s = .next (startFail s 5 0 true)) := by
  have live : ¬ (!s.pwr.good || s.pwr.shutdown || s.stw.halted) = true := by rw [good, warm, runs]; decide
  refine ⟨fun phase => ?_, fun phase => ?_⟩
  all_goals
    rw [exec_stewardWatchdog, execStewardWatchdog, stewardDog, if_neg live, phase]

/-- Settles O9. That the lowest pending event comes first is the model's reading (log 142). -/
theorem stewardAndCoreResets : Obligations.StewardAndCoreResets := by
  unfold Obligations.StewardAndCoreResets
  refine ⟨⟨fun s i h => ⟨fence_ok h, wait_ok h⟩, fun s i => evack_ok, fun s k phase => ⟨fun blocked => ?kept,
    fun _ _ runs alive => ?taken⟩, fun s e inRange pending lowest => ?lowest, fun s => pumpEvents_none⟩,
    fun s y => yokeResetComplete_returns, fun s => stewardWatchdog_runs⟩
  case kept =>
    rw [stewardEvent_comes k phase]
    split
    · rfl
    next alive =>
      refine congrArg _ (pumpEvents_masked ?_)
      rcases blocked with off | inside | halted | dead
      · exact .inl off
      · exact .inr inside
      · exact absurd (.inl halted) alive
      · exact absurd (.inr dead) alive
  case taken =>
    rw [stewardEvent_comes k phase, if_neg]
    simp [runs, alive]
  case lowest => exact pumpEvents_head (pendingEvents_head inRange pending lowest)

end Sys2Proof.Machine
end

/-! SUPPORT. The engine jobs, each outcome said once: how a job starts on its engine, how its window closes, what a draw, an
invariant and a learning come to (R146, R364 to R366, R372 to R375, R382). -/

section
namespace Sys2Proof.Machine

variable {s : State} {y : YokeId} {j : JobIx} {ev : EngEv} {q : EJ}

/-! ### The start on an engine (R146, R382) -/

/-- A job whose input has no uncorrectable bit error runs with its operands in the shelves. -/
theorem engStart_runs (yoke : q.y = y.val) (clean : ¬ (ev = .benchUnc ∧ readsBench q.d = true)) (run : State → State) :
    engStart s q ev run = run (engAt s y ev q) := by
  rw [engStart, if_neg clean, engAt, yoke]

theorem engStart_faults (unc : ev = .benchUnc ∧ readsBench q.d = true) (run : State → State) :
    engStart s q ev run = yokeFault s q.y 2 := if_pos unc

theorem EngPast.yoke {ty : Nat} (past : EngPast s y j ty q) : q.y = y.val := (engReady_fields past).1

/-- A job with a window on its engine: the window runs, or its yoke is at fault. -/
theorem openWindow_past {ty : Nat} (past : EngPast s y j ty q) :
    (¬ (ev = .benchUnc ∧ readsBench q.d = true) → openWindow ty y j ev s =
      .next (modJob (q.use (engAt s y ev q)) y.val j.val fun x => { x with st := .windowed, ev := ev })) ∧
    (ev = .benchUnc → readsBench q.d = true → openWindow ty y j ev s = .next (yokeFault s y.val 2)) := by
  rw [openWindow, past]
  dsimp only
  refine ⟨fun clean => ?_, fun unc reads => ?_⟩
  · rw [engStart_runs past.yoke clean]
  · rw [engStart_faults ⟨unc, reads⟩, past.yoke]

section
variable {ty : Nat} (past : EngPast s y j ty q) (run : State → EJ → State)
include past

theorem engRow_runs (clean : ¬ (ev = .benchUnc ∧ readsBench q.d = true)) :
    engRow ty y j ev s run = .next (run (engAt s y ev q) q) := by
  rw [engRow, past]
  exact congrArg _ (engStart_runs past.yoke clean _)

theorem engRow_faults (unc : ev = .benchUnc ∧ readsBench q.d = true) :
    engRow ty y j ev s run = .next (yokeFault s q.y 2) := by
  rw [engRow, past]
  exact congrArg _ (engStart_faults unc _)

end

/-! ### Invariants, draws, learnings (R364 to R366, R375) -/

theorem invGate_broken {kinds : List Nat} {i : Nat} (fails : invFails ev kinds = some i) (k : State → State) :
    invGate s q ev kinds k = invariantFault s q.y q.j q.e i q.t.plot q.ty := by
  rw [invGate, fails]

theorem invGate_holds {kinds : List Nat} (holds : invFails ev kinds = none) (k : State → State) :
    invGate s q ev kinds k = k s := by
  rw [invGate, holds]

/-- No invariant fails where none is checked. -/
@[simp] theorem invFails_nil (ev : EngEv) : invFails ev [] = none := by cases ev <;> rfl

theorem withDraw_drawn {v : State × Bytes} (draw : txRandom s q.y q.j 64 = some v) (k : State → Bytes → State) :
    withDraw s q k = k v.1 v.2 := by
  rw [withDraw, draw]

theorem withDraw_waits (empty : txRandom s q.y q.j 64 = none) (k : State → Bytes → State) :
    withDraw s q k = modJob s q.y q.j fun x => { x with noRand := true } := by
  rw [withDraw, empty]

/-- What answers `r` where the learning `l` of job `q` begins in state `w`: the job ends with the learning's status and its
output, or waits for the learning. -/
def LearnsAs (r : Res) (w : State) (q : EJ) (l : Learn) (out : Bytes) : Prop :=
  let g := learnFor w l (.engineJob q.y q.j)
  (∀ st, g.2 = some st → r = .next (engEnd g.1 q.y q.j st out)) ∧
  (g.2 = none → r = .next (modJob g.1 q.y q.j fun x =>
    { x with st := .learning, out := out, noRand := (plotGen w l.plot).isNone }))

theorem engLearn_learns (s : State) (q : EJ) (l : Learn) (out : Bytes) : LearnsAs (.next (engLearn s q l out)) s q l out := by
  refine ⟨fun st ended => congrArg _ (engLearn_refused (Prod.ext rfl ended)), fun waits => congrArg _ ?_⟩
  have parked : learnFor s l (.engineJob q.y q.j) = ((learnFor s l (.engineJob q.y q.j)).1, none) := Prod.ext rfl waits
  rw [engLearn, parked]

/-- What answers `r` where job `q` releases a signature of `n` bytes in state `u`, or an invariant of the listed kinds fails. -/
def SignsAs (r : Res) (u : State) (q : EJ) (ev : EngEv) (kinds : List Nat) (n : Nat) (rnd : Bytes) : Prop :=
  (invFails ev kinds = none → r = .next (engEnd u q.y q.j stOK (engResult u q n rnd))) ∧
  (∀ i, invFails ev kinds = some i → r = .next (invariantFault u q.y q.j q.e i q.t.plot q.ty))

theorem signEnd_signs (s : State) (q : EJ) (ev : EngEv) (kinds : List Nat) (n : Nat) (rnd : Bytes) :
    SignsAs (.next (signEnd s q ev kinds n rnd)) (q.use s) q ev kinds n rnd :=
  ⟨fun holds => congrArg _ (invGate_holds holds _), fun _ fails => congrArg _ (invGate_broken fails _)⟩

/-! ### The end of a validation window (R365, R373 to R375) -/

theorem validationWindowEnd_closes {t : Tx} {x : Job} (job : jobOf s (y.val, j.val) = some (t, x))
    (ready : engReady s y.val j.val (jType x.desc) .windowed = some q) :
    exec (.validationWindowEnd y j) s = .next (closeWindow s q x.ev) := by
  simp only [exec_validationWindowEnd, execValidationWindowEnd, windowed, job, ready, Option.map_some]

theorem closeWindow_rejects {r : Nat} (bad : inputReason q.ty q.ps q.body q.curve (q.inp s) (q.inp2 s) = some r) :
    closeWindow s q ev = reject s q.y q.j q.e r := by
  rw [closeWindow, bad]

section
variable (good : inputReason q.ty q.ps q.body q.curve (q.inp s) (q.inp2 s) = none)
include good

theorem closeWindow_verifies (ty : q.ty = 0x02 ∨ q.ty = 0x11 ∨ q.ty = 0x15 ∨ q.ty = 0x23) :
    closeWindow s q ev = verifyEnd s q := by
  rw [closeWindow, good]
  rcases ty with e | e | e | e <;> simp only [e]

theorem closeWindow_decrypts (ty : q.ty = 0x03) : closeWindow s q ev = rsaOpen s q ev := by
  rw [closeWindow, good]
  simp only [ty]

/-- The two agreements, each with the length of its secret and the invariants checked. -/
theorem closeWindow_agrees {n : Nat} {kinds : List Nat}
    (ty : (q.ty = 0x12 ∧ n = fieldBytes s q.t.plot q.ps ∧ kinds = [1, 4]) ∨
      (q.ty = 0x16 ∧ n = uBytes q.ps ∧ kinds = [4])) :
    closeWindow s q ev = agreeKey s q ev kinds (engResult s q n []) := by
  rw [closeWindow, good]
  rcases ty with ⟨e, rfl, rfl⟩ | ⟨e, rfl, rfl⟩ <;> simp only [e]

end

/-- A signature that holds ends the job; one that does not is rejected with reason 8 (R374). -/
theorem verifyEnd_outcome (s : State) (q : EJ) :
    (Config.pkeVerify q.ps q.body (q.inp s) (q.inp2 s) q.par = true → verifyEnd s q = engEnd s q.y q.j stOK []) ∧
    (Config.pkeVerify q.ps q.body (q.inp s) (q.inp2 s) q.par = false → verifyEnd s q = reject s q.y q.j q.e 8) :=
  ⟨fun holds => if_pos holds, fun fails => if_neg (by rw [fails]; decide)⟩

section
variable {m : Bytes}

theorem rsaOpen_undecodable (bad : Config.oaepDecode q.body (q.inp s) = none) : rsaOpen s q ev = reject s q.y q.j q.e 7 := by
  rw [rsaOpen, bad]

variable (decoded : Config.oaepDecode q.body (q.inp s) = some m)
include decoded

theorem rsaOpen_wrongLength (length : m.length ≠ learnLen q) : rsaOpen s q ev = reject s q.y q.j q.e 7 := by
  rw [rsaOpen, decoded]
  exact if_pos length

theorem rsaOpen_key (length : m.length = learnLen q) : rsaOpen s q ev =
    invGate s q ev [0] fun s => engLearn s q (symLearn q m) (kcvSym (byteAt (jParam q.d) 9) m) := by
  rw [rsaOpen, decoded]
  exact if_neg (not_not.mpr length)

end

section
variable {kinds : List Nat} {z : Bytes}

theorem agreeKey_zero (zero : ∀ b ∈ z, b = 0) :
    agreeKey s q ev kinds z = invariantFault s q.y q.j q.e 4 q.t.plot q.ty :=
  if_pos (List.all_eq_true.mpr fun b mem => beq_iff_eq.mpr (zero b mem))

theorem agreeKey_nonzero (secret : ∃ b ∈ z, b ≠ 0) : agreeKey s q ev kinds z =
    invGate s q ev kinds fun s => engLearn s q (symLearn q (kdf q z)) (kcvSym (byteAt (jParam q.d) 9) (kdf q z)) := by
  obtain ⟨b, mem, nonzero⟩ := secret
  exact if_neg fun zero => nonzero (beq_iff_eq.mp (List.all_eq_true.mp zero b mem))

end

/-- Settles O52: the window of each type opens the same way, and each outcome of its end is said above. -/
theorem engineWindows : Obligations.EngineWindows := by
  unfold Obligations.EngineWindows
  refine ⟨fun s y j ev q => ⟨openWindow_past, openWindow_past, openWindow_past, openWindow_past, openWindow_past,
    openWindow_past, openWindow_past⟩, fun s y j t x q job ready => ?closes⟩
  case closes =>
    obtain ⟨yoke, ix, -, t', x', job', -, desc, -, -⟩ := engReady_fields ready
    have sameJob : x' = x := congrArg Prod.snd (Option.some.inj (job'.symm.trans job))
    rw [validationWindowEnd_closes job ready, ← sameJob, ← desc, ← yoke, ← ix, sameJob]
    dsimp only
    refine ⟨fun r bad => congrArg _ (closeWindow_rejects bad), fun good => ⟨fun ty => ?verify, fun ty => ?decrypt,
      fun n kinds ty => ?agree⟩⟩
    case verify =>
      rw [closeWindow_verifies good ty]
      obtain ⟨holds, fails⟩ := verifyEnd_outcome s q
      exact ⟨fun h => congrArg _ (holds h), fun h => congrArg _ (fails h)⟩
    case decrypt =>
      rw [closeWindow_decrypts good ty]
      refine ⟨fun bad => congrArg _ (rsaOpen_undecodable bad), fun m decoded =>
        ⟨fun length => congrArg _ (rsaOpen_wrongLength decoded length), fun length => ?_⟩⟩
      rw [rsaOpen_key decoded length]
      refine ⟨fun i fails => congrArg _ (invGate_broken fails _), fun holds => ?_⟩
      rw [invGate_holds holds]
      exact engLearn_learns ..
    case agree =>
      rw [closeWindow_agrees good ty]
      refine ⟨fun zero => congrArg _ (agreeKey_zero zero), fun secret => ?_⟩
      rw [agreeKey_nonzero (z := engResult s q n []) secret]
      refine ⟨fun i fails => congrArg _ (invGate_broken fails _), fun holds => ?_⟩
      rw [invGate_holds holds]
      exact engLearn_learns ..

/-! ### Jobs without a window (R364 to R366, R372) -/

section
variable {ty : Nat} (past : EngPast s y j ty q)
include past

/-- A job without a window that draws: the draw is made, or waited for. -/
theorem engRow_draws (run : State → EJ → Bytes → State) (clean : ¬ (ev = .benchUnc ∧ readsBench q.d = true)) :
    let r : Res := engRow ty y j ev s fun s q => withDraw s q fun s rnd => run s q rnd
    (∀ v, txRandom (engAt s y ev q) q.y q.j 64 = some v → r = .next (run v.1 q v.2)) ∧
    (txRandom (engAt s y ev q) q.y q.j 64 = none →
      r = .next (modJob (engAt s y ev q) q.y q.j fun x => { x with noRand := true })) := by
  intro r
  have runs : r = .next (withDraw (engAt s y ev q) q fun s rnd => run s q rnd) := engRow_runs past _ clean
  rw [runs]
  exact ⟨fun v draw => congrArg _ (withDraw_drawn draw _), fun empty => congrArg _ (withDraw_waits empty _)⟩

/-- A signature without a draw: RSA_SIGN and EDDSA_SIGN. -/
theorem signRow_past (kinds : List Nat) (n : EJ → Nat) :
    let r : Res := engRow ty y j ev s fun s q => signEnd s q ev kinds (n q) []
    (¬ (ev = .benchUnc ∧ readsBench q.d = true) → SignsAs r (q.use (engAt s y ev q)) q ev kinds (n q) []) ∧
    (ev = .benchUnc → readsBench q.d = true → r = .next (yokeFault s q.y 2)) := by
  intro r
  refine ⟨fun clean => ?_, fun unc reads => engRow_faults past _ ⟨unc, reads⟩⟩
  rw [show r = _ from engRow_runs past _ clean]
  exact signEnd_signs ..

/-- A signature with a draw: ECDSA_SIGN and MLDSA_SIGN. -/
theorem drawnSignRow_past (kinds : List Nat) (n : State → EJ → Nat) :
    let r : Res := engRow ty y j ev s fun s q => withDraw s q fun s rnd => signEnd s q ev kinds (n s q) rnd
    (¬ (ev = .benchUnc ∧ readsBench q.d = true) →
      (∀ v, txRandom (engAt s y ev q) q.y q.j 64 = some v → SignsAs r (q.use v.1) q ev kinds (n v.1 q) v.2) ∧
      (txRandom (engAt s y ev q) q.y q.j 64 = none →
        r = .next (modJob (engAt s y ev q) q.y q.j fun x => { x with noRand := true }))) ∧
    (ev = .benchUnc → readsBench q.d = true → r = .next (yokeFault s q.y 2)) := by
  intro r
  refine ⟨fun clean => ?_, fun unc reads => engRow_faults past _ ⟨unc, reads⟩⟩
  obtain ⟨signs, waits⟩ := engRow_draws past (fun s q rnd => signEnd s q ev kinds (n s q) rnd) clean
  refine ⟨fun v draw => ?_, waits⟩
  rw [show r = _ from signs v draw]
  exact signEnd_signs ..

end

/-- The key that a key pair's generation learns. -/
def pairLearn (q : EJ) (rnd : Bytes) : Learn :=
  { plot := q.t.plot, name := BitVec.ofNat 64 (fld (jParam q.d) 0 8), age := BitVec.ofNat 3 (byteAt (jParam q.d) 8),
    pinned := bit (byteAt (jParam q.d) 9) 0,
    slot := asymSlot q.ps (Config.pkeGenerate q.ps q.curve rnd) (fld (jParam q.d) 12 4) 0 }

/-- A generation without vault quota ends with KEY_QUOTA; else its key is learned and the public key comes out. -/
theorem keyPair_outcome (s : State) (q : EJ) (rnd : Bytes) :
    ((s.plot q.t.plot).acr.vltQuota = 0 → keyPair s q rnd = engEnd s q.y q.j stQuota []) ∧
    ((s.plot q.t.plot).acr.vltQuota ≠ 0 → LearnsAs (.next (keyPair s q rnd)) s q (pairLearn q rnd)
      (fit (pubBytes s q.t.plot q.ps) (Config.pkePublic q.ps q.curve (Config.pkeGenerate q.ps q.curve rnd)))) := by
  refine ⟨fun empty => if_pos empty, fun quota => ?_⟩
  rw [keyPair, if_neg quota]
  exact engLearn_learns ..

/-- Settles O53: the signatures are the two shapes of row, the generation is its gate and its learning, and ML-KEM checks no
invariant before its learning. -/
theorem signaturesAndKeyGeneration : Obligations.SignaturesAndKeyGeneration := by
  unfold Obligations.SignaturesAndKeyGeneration
  refine ⟨fun s y j ev q => ⟨fun past => ?rsa, fun past => ?eddsa, fun past => ?ecdsa, fun past => ?mldsa⟩,
    fun s y j ev q => ⟨fun unc => ?faulty, fun clean => ⟨fun past => ?pair, fun past => ?encapsulate,
      fun past => ?decapsulate⟩⟩⟩
  case rsa => exact signRow_past past [0, 2] fun q => modBytes q.ps
  case eddsa => exact signRow_past past [2] fun q => sigBytes q.ps
  case ecdsa => exact drawnSignRow_past past [1, 2] fun s q => 2 * orderBytes s q.t.plot q.ps
  case mldsa => exact drawnSignRow_past past [2] fun _ q => sigBytes q.ps
  case faulty =>
    refine ⟨fun past => ?_, fun past => ?_, fun past => ?_⟩ <;> rw [← past.yoke] <;> exact engRow_faults past _ unc
  case pair =>
    refine ⟨fun v draw => ?_, (engRow_draws past _ clean).2⟩
    rw [show exec (.ecKeyPairGeneration y j ev) s = _ from (engRow_draws past _ clean).1 v draw]
    refine ⟨fun i fails => congrArg _ (invGate_broken fails _), fun holds => ?_⟩
    rw [invGate_holds holds]
    obtain ⟨quota, learns⟩ := keyPair_outcome v.1 q v.2
    exact ⟨fun empty => congrArg _ (quota empty), learns⟩
  case encapsulate =>
    refine ⟨fun v draw => ?_, (engRow_draws past _ clean).2⟩
    rw [show exec (.mlkemEncapsulate y j ev) s = _ from (engRow_draws past _ clean).1 v draw, invGate_holds (invFails_nil ev)]
    exact engLearn_learns ..
  case decapsulate =>
    rw [show exec (.mlkemDecapsulate y j ev) s = _ from engRow_runs past _ clean, invGate_holds (invFails_nil ev)]
    exact engLearn_learns ..

end Sys2Proof.Machine
end

/-! SUPPORT. The instructions on A with an operand or without one, past their checks: the result and the flags of each said in words
(R197, R202, R204, Tables 4.9 and 5.3), and the loads (R198, R201, R607). -/

section
namespace Sys2Proof.Machine

/-! ### Shapes -/

section
variable {s t : State} {c : CoreId} {i : Ins}

/-- An instruction whose operand is read retires with the effect on the settled registers and its mode's post-increment. -/
theorem operandIns_reads {signed : Bool} {modes : List Nat} {sz3 reads : Bool} {v : W64} {n : Nat}
    (h : ReadsOperand s t c i signed modes sz3 reads v n) (cost : Nat) (f : Core → W64 → Core) :
    operandIns c i signed modes sz3 reads cost f s = .next (retire s t c i.e
      { core := i.post (f (settled (regsOf s c) (reads || i.readsMac)) v), cost := cost + n }) := by
  obtain ⟨comes, passes, operand⟩ := h
  exact operandIns_ok comes passes operand

/-- An instruction on A without an operand, in a form it accepts. -/
theorem plainIns_accepted (sub : i.sub = 0) (h : Accepted s c i.hw i.e 0 true true true true) {fmt : Bool} (form : fmt = true)
    (reads : Bool) (f : Core → Core) : plainIns c i fmt true reads 1 f s =
      .next (retire s (fetched s c) c i.e { core := f (settled (regsOf s c) reads) }) := by
  refine plainIns_ok h.comes ?_
  rw [sub, form]
  exact h.passes

end

/-! ### Addition, subtraction and logic (R197, Table 5.3) -/

/-- An addition in words: the carry in is 0 or 1, and the flags are those of the exact sum. -/
theorem setA_add (k : Core) (v : W64) (b : Bool) :
    let x := if b then 1 else 0
    let r := k.a + v + BitVec.ofNat 64 x
    setA k (addFlags k.fl k.a v b) = { k with a := r, fl := { k.fl with
      z := r == 0, n := r.msb, c := decide (2 ^ 64 ≤ k.a.toNat + v.toNat + x), v := k.a.msb == v.msb && r.msb != k.a.msb } } := by
  have sum (x : Nat) : BitVec.ofNat 64 (k.a.toNat + v.toNat + x) = k.a + v + BitVec.ofNat 64 x := by
    simp only [BitVec.ofNat_add, ofNat_of_toNat]
  simp only [setA, addFlags, Flags.zn, sum]

/-- A subtraction in words: C is the borrow. -/
theorem setA_sub (k : Core) (v : W64) (b : Bool) :
    let x := if b then 1 else 0
    let r := k.a - v - BitVec.ofNat 64 x
    setA k (subFlags k.fl k.a v b) = { k with a := r, fl := { k.fl with
      z := r == 0, n := r.msb, c := decide (k.a.toNat < v.toNat + x), v := k.a.msb != v.msb && r.msb != k.a.msb } } := by
  have difference (x : Nat) : k.a - BitVec.ofNat 64 (v.toNat + x) = k.a - v - BitVec.ofNat 64 x := by
    rw [BitVec.ofNat_add, ofNat_of_toNat, sub_add_eq_sub_sub]
  simp only [setA, subFlags, Flags.zn, difference]

/-- Settles O1: each instruction reads its operand; the sums and differences in words give the flags. -/
theorem arithmeticAndLogic : Obligations.ArithmeticAndLogic := by
  unfold Obligations.ArithmeticAndLogic
  intro s t c i v n h
  have run := operandIns_reads h 1
  have add (b : Bool) := setA_add (settled (regsOf s c) true) v b
  have sub (b : Bool) := setA_sub (settled (regsOf s c) true) v b
  refine ⟨?add, ?adc, ?sub, ?sbc, ?cmp, ?and, ?or, ?xor, ?tst⟩
  case add => change execAdd c i s = _; rw [execAdd, run, Bool.true_or, add]; rfl
  case adc => change execAdc c i s = _; rw [execAdc, run, Bool.true_or, add]
  case sub => change execSub c i s = _; rw [execSub, run, Bool.true_or, sub]; rfl
  case sbc => change execSbc c i s = _; rw [execSbc, run, Bool.true_or, sub]
  case cmp =>
    have flags := congrArg Core.fl (sub false)
    change execCmp c i s = _
    dsimp only [setA] at flags
    rw [execCmp, run, Bool.true_or, flags]
    rfl
  case and => change execAnd c i s = _; exact run _
  case or => change execOr c i s = _; exact run _
  case xor => change execXor c i s = _; exact run _
  case tst => change execTst c i s = _; exact run _

/-! ### Shifts, rotates and bits (R204, Table 4.9) -/

/-- The count is the low byte of the operand. -/
theorem shiftCount_eq (v : W64) : shiftCount v = v.toNat % 256 := by
  rw [shiftCount, BitVec.extractLsb'_toNat, Nat.shiftRight_zero]

theorem bitNo_eq (v : W64) : bitNo v = v.toNat % 64 := by
  rw [bitNo, BitVec.extractLsb'_toNat, Nat.shiftRight_zero]

section
variable (f : Flags) (a : W64) (m : Nat)

/-- The last bit that SHL moves out of the top, if any. -/
theorem shlFlags_eq : shlFlags f a m = (a <<< m, { f with
    z := a <<< m == 0, n := (a <<< m).msb, c := if m = 0 then f.c else decide (m ≤ 64) && a.getLsbD (64 - m) }) := by
  have carry : (if m ≤ 64 then a.getLsbD (64 - m) else false) = (decide (m ≤ 64) && a.getLsbD (64 - m)) := by
    by_cases inside : m ≤ 64 <;> simp [inside]
  rw [shlFlags, carry]
  rfl

/-- A bit beyond the word reads 0. -/
theorem shrFlags_eq : shrFlags f a m = (a >>> m, { f with
    z := a >>> m == 0, n := (a >>> m).msb, c := if m = 0 then f.c else a.getLsbD (m - 1) }) := by
  have carry : (if m ≤ 64 then a.getLsbD (m - 1) else false) = a.getLsbD (m - 1) := by
    split
    · rfl
    · exact (BitVec.getLsbD_of_ge a _ (by omega)).symm
  rw [shrFlags, carry]
  rfl

/-- From a count of 64 on it is the sign that goes out. -/
theorem sarFlags_eq : sarFlags f a m = (a.sshiftRight m, { f with
    z := a.sshiftRight m == 0, n := (a.sshiftRight m).msb, c := if m = 0 then f.c else a.getLsbD (min m 64 - 1) }) := by
  have carry : (if m < 64 then a.getLsbD (m - 1) else a.msb) = a.getLsbD (min m 64 - 1) := by
    split
    next small => rw [Nat.min_eq_left (by omega)]
    next large => rw [Nat.min_eq_right (by omega), BitVec.msb_eq_getLsbD_last]
  rw [sarFlags, carry]
  rfl

theorem rolFlags_eq : rolFlags f a m = (a.rotateLeft m, { f with
    z := a.rotateLeft m == 0, n := (a.rotateLeft m).msb,
    c := if m % 64 = 0 then f.c else (a.rotateLeft m).getLsbD 0 }) := by
  simp only [rolFlags, Flags.zn, BitVec.rotateLeft_mod_eq_rotateLeft]

theorem rorFlags_eq : rorFlags f a m = (a.rotateRight m, { f with
    z := a.rotateRight m == 0, n := (a.rotateRight m).msb,
    c := if m % 64 = 0 then f.c else (a.rotateRight m).msb }) := by
  simp only [rorFlags, Flags.zn, BitVec.rotateRight_mod_eq_rotateRight]

end

/-- The word with bit b alone. -/
theorem bitMask_getLsbD {b j : Nat} (inside : j < 64) : (bitMask b).getLsbD j = decide (j = b) := by
  have value : bitMask b = BitVec.ofNat 64 (2 ^ b) := by rw [← Nat.one_shiftLeft]; rfl
  rw [value, BitVec.getLsbD_ofNat, decide_eq_true inside, Bool.true_and, Nat.testBit_two_pow, decide_eq_decide]
  exact eq_comm

/-- NEG: C says that A was not 0, and V that it was the least number. -/
theorem setA_neg (k : Core) : setA k (subFlags k.fl 0 k.a false) = { k with a := -k.a, fl := { k.fl with
    z := k.a == 0, n := (-k.a).msb, c := k.a != 0, v := k.a.msb && (-k.a).msb } } := by
  have negated : (0 : W64) - BitVec.ofNat 64 k.a.toNat = -k.a := by rw [ofNat_of_toNat, zero_sub]
  have zero : (-k.a == 0) = (k.a == 0) := by rw [Bool.eq_iff_iff, beq_iff_eq, beq_iff_eq, neg_eq_zero]
  have borrow : decide ((0 : W64).toNat < k.a.toNat) = (k.a != 0) := by
    rw [Bool.eq_iff_iff, decide_eq_true_iff, bne_iff_ne, Ne, BitVec.toNat_eq]
    exact Nat.pos_iff_ne_zero
  have positive : (0 : W64).msb = false := rfl
  simp only [setA, subFlags, Flags.zn, Bool.false_eq_true, if_false, Nat.add_zero, negated, zero, borrow, positive,
    Bool.false_bne, Bool.bne_false]

/-- A count of some of the 64 bits fits a word. -/
theorem toNat_ofNat_countP (p : Nat → Bool) : (BitVec.ofNat 64 ((List.range 64).countP p)).toNat = (List.range 64).countP p := by
  have most : (List.range 64).countP p ≤ 64 := by simpa using List.countP_le_length (p := p) (l := List.range 64)
  rw [BitVec.toNat_ofNat, Nat.mod_eq_of_lt (by omega)]

theorem leadingZeros_eq (a : W64) : leadingZeros a =
    (List.range 64).countP fun j => (List.range 64).all fun m => !(decide (63 - j ≤ m) && a.getLsbD m) :=
  (clz_count a 64 (Nat.le_refl _)).symm

/-- Operand sizes above 8 bits, in bytes. -/
theorem bytes_of_multibyte {i : Ins} (wide : i.sz ≠ 0) : i.bytes = 2 ∨ i.bytes = 4 ∨ i.bytes = 8 := by
  unfold Ins.bytes
  generalize i.sz = z at wide ⊢
  revert z
  decide

section
variable {s t : State} {c : CoreId} {i : Ins} {v : W64} {n : Nat}
  (h : ReadsOperand s t c i false allModes false true v n)
include h

/-- A shift or rotate by the operand's count, given what it makes of A and C. -/
theorem shiftIns_reads (g : Flags → W64 → Nat → W64 × Flags) {r : W64} {cf : Bool}
    (shifted : g (settled (regsOf s c) true).fl (settled (regsOf s c) true).a (v.toNat % 256) =
      (r, { (settled (regsOf s c) true).fl with z := r == 0, n := r.msb, c := cf })) :
    operandIns c i false allModes false true 1 (fun k v => setA k (g k.fl k.a (shiftCount v))) s =
      .next (retire s t c i.e { core := i.post { settled (regsOf s c) true with
        a := r, fl := { (settled (regsOf s c) true).fl with z := r == 0, n := r.msb, c := cf } }, cost := 1 + n }) := by
  rw [operandIns_reads h, Bool.true_or, shiftCount_eq, shifted]
  rfl

end

/-- Settles O2: the carries, the bits and the counts of the three kinds of instruction. -/
theorem shiftsBitsAndUnary : Obligations.ShiftsBitsAndUnary := by
  unfold Obligations.ShiftsBitsAndUnary
  refine ⟨fun s t c i v n h => ⟨?shl, ?shr, ?sar, ?rol, ?ror⟩, fun s t c i v n h => ?bits,
    fun s c i sub mode f16 => ⟨fun sz h => ?unary, fun sz h => ?bswp⟩⟩
  case shl => change execShl c i s = _; exact shiftIns_reads h shlFlags (shlFlags_eq ..)
  case shr => change execShr c i s = _; exact shiftIns_reads h shrFlags (shrFlags_eq ..)
  case sar => change execSar c i s = _; exact shiftIns_reads h sarFlags (sarFlags_eq ..)
  case rol => change execRol c i s = _; exact shiftIns_reads h rolFlags (rolFlags_eq ..)
  case ror => change execRor c i s = _; exact shiftIns_reads h rorFlags (rorFlags_eq ..)
  case bits =>
    have run := operandIns_reads h 1
    intro k b
    refine ⟨k.a ||| bitMask b, k.a &&& ~~~bitMask b, fun j inside => ⟨?set, ?cleared⟩, ?bset, ?bclr, ?btst⟩
    case set => rw [BitVec.getLsbD_or, bitMask_getLsbD inside]
    case cleared =>
      rw [BitVec.getLsbD_and, BitVec.getLsbD_not, bitMask_getLsbD inside, decide_eq_true inside, Bool.true_and, decide_not]
    case bset => change execBset c i s = _; rw [execBset, run, bitNo_eq]; rfl
    case bclr => change execBclr c i s = _; rw [execBclr, run, bitNo_eq]; rfl
    case btst => change execBtst c i s = _; rw [execBtst, run, bitNo_eq]; rfl
  case unary =>
    have none : i.noOperand = true := by rw [Ins.noOperand, mode, sz, f16]; rfl
    have run := plainIns_accepted sub h none
    refine ⟨?neg, ?not, ⟨BitVec.ofNat 64 (leadingZeros (settled (regsOf s c) true).a), ?zeros, ?clz⟩,
      ⟨BitVec.ofNat 64 (ones (settled (regsOf s c) true).a), ?ones, ?popc⟩, ?clrm⟩
    case zeros => rw [leadingZeros_eq, toNat_ofNat_countP]
    case neg => change execNeg c i s = _; rw [execNeg, run, setA_neg]
    case not => change execNot c i s = _; exact run true _
    case clz => change execClz c i s = _; exact run true _
    case ones => rw [ones_count, toNat_ofNat_countP]
    case popc => change execPopc c i s = _; exact run true _
    case clrm => change execClrm c i s = _; rw [execClrm, run, settled_false]
  case bswp =>
    have form : (i.mode == 0 && i.f16 == 0 && i.sz != 0) = true := by rw [mode, f16, bne_iff_ne.mpr sz]; rfl
    refine ⟨_, byteSwap_getLsbD i.bytes _ (bytes_of_multibyte sz), ?_⟩
    change execBswp c i s = _
    exact plainIns_accepted sub h form true _

/-! ### Loads and addresses (R198, R201, R607) -/

section
variable {s t : State} {c : CoreId} {i : Ins}

/-- A load of X or Y leaves out the post-increment of the register it loads (R607). -/
theorem loadIndex_reads {v : W64} {n : Nat} (h : ReadsOperand s t c i true allModes false false v n) (own : BitVec 3)
    (f : Core → W64 → Core) : loadIndex c i own.toNat f s = .next (retire s t c i.e
      { core := if i.mode = own then f (settled (regsOf s c) i.readsMac) v else f (i.post (settled (regsOf s c) i.readsMac)) v,
        cost := 1 + n }) := by
  obtain ⟨comes, passes, operand⟩ := h
  rw [Bool.true_and] at passes
  rw [Bool.false_or] at operand
  refine congrArg Host.Outcome.next (runIns_ok comes ?_)
  unfold settled at operand ⊢
  simp only [passes, operand, Acc.bind, BitVec.toNat_inj]

/-- LEAX and LEAY past their checks: the effective address, the state as it was. -/
theorem leaIns_accepted (h : Accepted s c i.hw i.e 0 (i.sub == 0) true (i.modeOk (regsOf s c) [1, 2, 3, 6] false) true)
    (f : Core → W64 → Core) : leaIns c i f s =
      .next (retire s (fetched s c) c i.e { core := f (regsOf s c) (i.ea (regsOf s c)) }) := by
  refine congrArg Host.Outcome.next (runIns_ok h.comes ?_)
  simp only [h.passes]

end

/-- Settles O4: LDA and LDSP increment after the load, LDX and LDY before it and never their own register. -/
theorem loadsAndAddresses : Obligations.LoadsAndAddresses := by
  unfold Obligations.LoadsAndAddresses
  refine ⟨fun s t c i v n h => ⟨?lda, ?ldsp, ?ldx, ?ldy⟩, fun s c i h => ⟨?leax, ?leay⟩⟩
  case lda => change execLda c i s = _; exact operandIns_reads h 1 _
  case ldsp => change execLdsp c i s = _; exact operandIns_reads h 1 _
  case ldx => change execLdx c i s = _; exact loadIndex_reads h 4 _
  case ldy => change execLdy c i s = _; exact loadIndex_reads h 5 _
  case leax => change execLeax c i s = _; exact leaIns_accepted h _
  case leay => change execLeay c i s = _; exact leaIns_accepted h _

end Sys2Proof.Machine
end

/-! SUPPORT. Multiplies, divides and multiply-accumulates, past their checks: the exact results in words (R203,
Tables 5.5 and 5.6). -/

section
namespace Sys2Proof.Machine

/-! ### Products and quotients -/

/-- MULS in words: C says that the low word alone is not the product. -/
theorem mulsFlags_eq (f : Flags) (a v : W64) :
    let q := a.toInt * v.toInt
    let r : BitVec 128 := BitVec.ofInt 128 q
    mulsFlags f a v = (r.extractLsb' 64 64, r.extractLsb' 0 64,
      { f with z := r == 0, n := r.msb, c := q != (r.extractLsb' 0 64).toInt }) := by
  intro q r
  have product : sgn 64 a.toNat * sgn 64 v.toNat = q := by rw [sgn_toInt 64 (by decide), sgn_toInt 64 (by decide)]
  have wrapped : wrap 128 q = r.toNat := (BitVec.toNat_ofInt ..).symm
  have high : BitVec.ofNat 64 (r.toNat / 2 ^ 64) = r.extractLsb' 64 64 := by
    apply BitVec.eq_of_toNat_eq
    rw [BitVec.toNat_ofNat, BitVec.extractLsb'_toNat, Nat.shiftRight_eq_div_pow]
  have low : BitVec.ofNat 64 r.toNat = r.extractLsb' 0 64 := by
    apply BitVec.eq_of_toNat_eq
    rw [BitVec.toNat_ofNat, BitVec.extractLsb'_toNat, Nat.shiftRight_zero]
  have lowSigned : sgn 64 (r.toNat % 2 ^ 64) = (r.extractLsb' 0 64).toInt := by
    rw [← sgn_toInt 64 (by decide), BitVec.extractLsb'_toNat, Nat.shiftRight_zero]
  have zero : (r.toNat == 0) = (r == 0) := by
    rw [Bool.eq_iff_iff, beq_iff_eq, beq_iff_eq, BitVec.toNat_eq]
    rfl
  have sign : bit r.toNat 127 = r.msb := by rw [bit, BitVec.testBit_toNat, BitVec.msb_eq_getLsbD_last]
  simp only [mulsFlags, Flags.zn128, product, wrapped, high, low, lowSigned, zero, sign]

/-- The signed quotient is out of range only for the least number by -1. -/
theorem tdiv_overflows (a v : W64) :
    (Int.tdiv a.toInt v.toInt == 2 ^ 63) = (a == BitVec.intMin 64 && v == BitVec.allOnes 64) := by
  have least : (BitVec.intMin 64).toInt = -2 ^ 63 := by decide
  have minusOne : (BitVec.allOnes 64).toInt = -1 := by decide
  rw [Bool.eq_iff_iff, Bool.and_eq_true, beq_iff_eq, beq_iff_eq, beq_iff_eq, ← BitVec.toInt_inj, ← BitVec.toInt_inj, least,
    minusOne]
  refine ⟨fun quotient => ?_, fun ⟨dividend, divisor⟩ => by rw [dividend, divisor]; decide⟩
  have low := BitVec.le_toInt a
  have high := BitVec.toInt_lt (x := a)
  have whole := Int.mul_tdiv_add_tmod a.toInt v.toInt
  have divisor : v.toInt ≠ 0 := fun zero => by
    rw [zero, Int.tdiv_zero] at quotient
    exact absurd quotient (by decide)
  have rest := Nat.mod_lt a.toInt.natAbs (Int.natAbs_pos.mpr divisor)
  rw [← Int.natAbs_tmod] at rest
  rw [quotient] at whole
  omega
theorem ofInt_tdiv (a v : W64) : BitVec.ofInt 64 (Int.tdiv a.toInt v.toInt) = a.sdiv v := by
  apply BitVec.eq_of_toInt_eq
  rw [BitVec.toInt_ofInt, BitVec.toInt_sdiv]

theorem ofInt_tmod (a v : W64) : BitVec.ofInt 64 (Int.tmod a.toInt v.toInt) = a.srem v := by
  rw [← BitVec.toInt_srem, BitVec.ofInt_toInt]

/-- DIVU and DIVS by a number that is not 0. -/
theorem divFlags_nonzero (f : Flags) (a : W64) {v : W64} (nonzero : v ≠ 0) :
    divFlags f false a v = (a / v, a % v, { f with z := a / v == 0, n := (a / v).msb, v := false, dz := false }) ∧
    divFlags f true a v = (a.sdiv v, a.srem v, { f with
      z := a.sdiv v == 0, n := (a.sdiv v).msb, v := a == BitVec.intMin 64 && v == BitVec.allOnes 64, dz := false }) := by
  have signed (x : W64) : sgn 64 x.toNat = x.toInt := sgn_toInt 64 (by decide) x
  refine ⟨by simp only [divFlags, if_neg nonzero, Bool.false_eq_true, if_false, Flags.zn], ?_⟩
  simp only [divFlags, if_neg nonzero, if_true, Flags.zn, signed, ofNat_wrap, ofInt_tdiv, ofInt_tmod, tdiv_overflows]

section
variable {s t : State} {c : CoreId} {i : Ins} {v : W64} {n : Nat} (h : ReadsOperand s t c i false allModes false true v n)
include h

/-- A divide that does not trap retires with what it makes of A. -/
theorem divIns_retires {signed : Bool} (goes : v ≠ 0 ∨ (settled (regsOf s c) true).dztrap = false) {q r : W64} {o dz : Bool}
    (divides : divFlags (settled (regsOf s c) true).fl signed (settled (regsOf s c) true).a v =
      (q, r, { (settled (regsOf s c) true).fl with z := q == 0, n := q.msb, v := o, dz := dz })) :
    divIns c i signed s = .next (retire s t c i.e
      { core := i.post { settled (regsOf s c) true with
          a := q, ah := r, fl := { (settled (regsOf s c) true).fl with z := q == 0, n := q.msb, v := o, dz := dz } },
        cost := 34 + (if n ≤ 1 then 0 else n + 1) }) := by
  have noTrap : ¬ (v = 0 ∧ (settled (regsOf s c) true).dztrap = true) := by
    rintro ⟨zero, traps⟩
    rcases goes with nonzero | off
    · exact nonzero zero
    · rw [off] at traps
      exact absurd traps (by decide)
  rw [divIns_ok h]
  dsimp only
  rw [if_neg noTrap, divides]

theorem divIns_traps {signed : Bool} (zero : v = 0) (traps : (settled (regsOf s c) true).dztrap = true) :
    divIns c i signed s = .next (takeTrap (fetched s c) t c .divZero (regsOf s c).pc) := by
  rw [divIns_ok h]
  dsimp only
  rw [if_pos ⟨zero, traps⟩]

end

/-! ### Paired operands (R203, Table 5.6) -/

/-- The 8 bytes of an aligned word below port space lie in one region. -/
theorem rangeIn_word {l : List Region} {p : Nat} (below : p < 0xF000) (aligned : p % 8 = 0) (region : regionOf p ∈ l) :
    rangeIn l p 8 = true := by
  have low : p + 7 < 0xC000 ↔ p < 0xC000 := by omega
  have middle : p + 7 < 0xE000 ↔ p < 0xE000 := by omega
  have same : regionOf (p + 7) = regionOf p := by simp only [regionOf, low, middle]
  have last : p + max 8 1 - 1 = p + 7 := by omega
  have inside : p + 7 < 0xF000 := by omega
  simp only [rangeIn, last, same, inside, decide_true, beq_self_eq_true, Bool.true_and, List.contains_iff_mem, region]

theorem regionOf_readable (p : Nat) : regionOf p ∈ readable := by
  cases regionOf p <;> decide

section
variable {s : State} {c : CoreId} {a : W64}

theorem pairedOk_load (may : MayLoad s c a 8) : pairedOk c readable a = none := by
  cases c with
  | steward => rfl
  | tiller y =>
    obtain ⟨below, aligned⟩ := may
    simp [pairedOk, rangeIn_word below aligned (regionOf_readable _), aligned]

theorem pairedOk_store (may : MayStore s c a 8) : pairedOk c writable a = none := by
  cases c with
  | steward => rfl
  | tiller y =>
    obtain ⟨below, region, aligned⟩ := may
    have outside : regionOf a.toNat ≠ .command := fun e => by
      rw [regionOf_eq_command] at e
      omega
    have writes : regionOf a.toNat ∈ writable := by
      cases e : regionOf a.toNat with
      | command => exact absurd e outside
      | scratch | result => decide
    simp [pairedOk, rangeIn_word below aligned writes, aligned]

end

/-- MACD on AH:A. -/
theorem setAcc_macd_words (k : Core) (p q : Nat) :
    let r := k.ah.toNat * 2 ^ 64 + k.a.toNat + p * q
    setAcc k (macdFlags k.fl (accOf k) p q) = { k with
      ah := BitVec.ofNat 64 (r / 2 ^ 64), a := BitVec.ofNat 64 r,
      fl := { k.fl with z := BitVec.ofNat 128 r == 0, n := (BitVec.ofNat 128 r).msb, c := decide (2 ^ 128 ≤ r) } } :=
  setAcc_macd k (k.ah.toNat * 2 ^ 64 + k.a.toNat) p q

/-- MACS on AH:A. -/
theorem setAcc_macs_words (k : Core) (p q : W64) :
    let r := (BitVec.ofNat 128 (k.ah.toNat * 2 ^ 64 + k.a.toNat)).toInt + p.toInt * q.toInt
    let v : BitVec 128 := BitVec.ofInt 128 r
    setAcc k (macsFlags k.fl (accOf k) p.toNat q.toNat) = { k with
      ah := v.extractLsb' 64 64, a := v.extractLsb' 0 64,
      fl := { k.fl with z := v == 0, n := v.msb, v := r != v.toInt } } :=
  (congrArg (setAcc k) (macsFlags_eq k p q)).trans (setAcc_toNat k _ _)

section
variable {s : State} {c : CoreId} {i : Ins}
  (h : Accepted s c i.hw i.e 0 (i.sub == 0) true ((i.mode == 2 || (i.mode == 4 && i.f16 == 0)) && i.sz == 3 && !i.e) true)
  (first : MayLoad s c (pairedAddr (regsOf s c) i).1 8) (second : MayLoad s c (pairedAddr (regsOf s c) i).2 8)
include h first second

/-- A form that stores nothing, with both words there. -/
theorem macIns_accepted (f : Core → Nat → Nat → Core × W64) : macIns c i false f s = .next (retire s (fetched s c) c i.e
    { core := pairedPost (f { regsOf s c with macAt := some (regsOf s c).cyc }
        (loadedAt (fetched s c) c (pairedAddr (regsOf s c) i).1 8).toNat
        (loadedAt (fetched s c) c (pairedAddr (regsOf s c) i).2 8).toNat).1 i }) :=
  macIns_ok h (pairedOk_load first) (pairedOk_load second) (load_accepted h first) (load_accepted h second)

/-- MACD past its checks. -/
theorem macd_accepted :
    let k : Core := { regsOf s c with macAt := some (regsOf s c).cyc }
    let p := loadedAt (fetched s c) c (pairedAddr (regsOf s c) i).1 8
    let q := loadedAt (fetched s c) c (pairedAddr (regsOf s c) i).2 8
    let r := k.ah.toNat * 2 ^ 64 + k.a.toNat + p.toNat * q.toNat
    execMacd c i s = .next (retire s (fetched s c) c i.e { core := pairedPost { k with
      ah := BitVec.ofNat 64 (r / 2 ^ 64), a := BitVec.ofNat 64 r,
      fl := { k.fl with z := BitVec.ofNat 128 r == 0, n := (BitVec.ofNat 128 r).msb, c := decide (2 ^ 128 ≤ r) } } i }) :=
  (macIns_accepted h first second _).trans (congrArg
    (fun k => Host.Outcome.next (retire s (fetched s c) c i.e { core := pairedPost k i })) (setAcc_macd_words _ _ _))

/-- MACS past its checks. -/
theorem macs_accepted :
    let k : Core := { regsOf s c with macAt := some (regsOf s c).cyc }
    let p := loadedAt (fetched s c) c (pairedAddr (regsOf s c) i).1 8
    let q := loadedAt (fetched s c) c (pairedAddr (regsOf s c) i).2 8
    let r := (BitVec.ofNat 128 (k.ah.toNat * 2 ^ 64 + k.a.toNat)).toInt + p.toInt * q.toInt
    let v : BitVec 128 := BitVec.ofInt 128 r
    execMacs c i s = .next (retire s (fetched s c) c i.e { core := pairedPost { k with
      ah := v.extractLsb' 64 64, a := v.extractLsb' 0 64,
      fl := { k.fl with z := v == 0, n := v.msb, v := r != v.toInt } } i }) :=
  (macIns_accepted h first second _).trans (congrArg
    (fun k => Host.Outcome.next (retire s (fetched s c) c i.e { core := pairedPost k i })) (setAcc_macs_words _ _ _))

/-- MACC too stores its second word. -/
theorem maccIns_accepted (stores : MayStore s c (pairedAddr (regsOf s c) i).2 8) (f : Core → Nat → Nat → Core × W64) :
    let r := f { regsOf s c with macAt := some (regsOf s c).cyc }
      (loadedAt (fetched s c) c (pairedAddr (regsOf s c) i).1 8).toNat
      (loadedAt (fetched s c) c (pairedAddr (regsOf s c) i).2 8).toNat
    macIns c i true f s = .next (retire s (storedAt (fetched s c) c (pairedAddr (regsOf s c) i).2 8 r.2) c i.e
      { core := pairedPost r.1 i }) :=
  maccIns_ok h (pairedOk_load first) (pairedOk_store stores) (load_accepted h first) (load_accepted h second)
    (store_accepted h stores _)

end

theorem pairedAddr_fst (k : Core) (i : Ins) : (pairedAddr k i).1 =
    if i.mode = 4 then k.x else indexed k.x (8 * (i.f16.extractLsb' 8 8).signExtend 64) := by
  unfold pairedAddr
  split <;> rfl

theorem pairedAddr_snd (k : Core) (i : Ins) : (pairedAddr k i).2 =
    if i.mode = 4 then k.y else indexed k.y (8 * (i.f16.extractLsb' 0 8).signExtend 64) := by
  unfold pairedAddr
  split <;> rfl

/-- Settles O3: the exact products and quotients in words, and the two words of a paired form. -/
theorem multiplyAndDivide : Obligations.MultiplyAndDivide := by
  unfold Obligations.MultiplyAndDivide
  refine ⟨fun s t c i v n h => ⟨?mul, ?muls⟩, fun s t c i v n h => ⟨fun nonzero => ⟨?divu, ?divs⟩,
    fun zero off => ⟨?divuZero, ?divsZero⟩, fun zero traps => ⟨?divuTraps, ?divsTraps⟩⟩, fun s c i h => ?paired⟩
  case mul => change execMul c i s = _; exact operandIns_reads h 1 _
  case muls => change execMuls c i s = _; rw [execMuls, operandIns_reads h, Bool.true_or, mulsFlags_eq]; rfl
  case divu => change execDivu c i s = _; exact divIns_retires h (.inl nonzero) (divFlags_nonzero _ _ nonzero).1
  case divs => change execDivs c i s = _; exact divIns_retires h (.inl nonzero) (divFlags_nonzero _ _ nonzero).2
  case divuZero => change execDivu c i s = _; exact divIns_retires h (.inr off) (if_pos zero)
  case divsZero => change execDivs c i s = _; exact divIns_retires h (.inr off) (if_pos zero)
  case divuTraps => change execDivu c i s = _; exact divIns_traps h zero traps
  case divsTraps => change execDivs c i s = _; exact divIns_traps h zero traps
  case paired =>
    dsimp only
    rw [← pairedAddr_fst, ← pairedAddr_snd]
    intro first second
    refine ⟨?macd, ?macs, fun stores => ?macc⟩
    case macd => change execMacd c i s = _; exact macd_accepted h first second
    case macs => change execMacs c i s = _; exact macs_accepted h first second
    case macc => change execMacc c i s = _; exact maccIns_accepted h first second stores _

end Sys2Proof.Machine
end

/-! SUPPORT. Jobs handed to a lane or an engine and collected (R110, R214 to R216, R317, R368, R369): what the tables hold after a
job is entered, and the three instructions past their checks. -/

section
namespace Sys2Proof.Machine

/-! ### Entries of a table, canonical or not -/

/-- What is not the default is read back. -/
theorem tget_tset_listed {α : Type} [DecidableEq α] {d v : α} (listed : v ≠ d) (i : Nat) :
    ∀ t : Tbl α, tget d (tset d i v t) i = v
  | [] => by rw [tset, if_neg listed, tget, if_pos rfl]
  | (k, w) :: t => by
    rw [tset, if_neg listed, if_neg listed]
    split_ifs with before here
    · rw [tget, if_pos rfl]
    · rw [tget, if_pos rfl]
    · rw [tget, if_neg (fun e => here e.symm), tget_tset_listed listed i t]

/-- What a table holds beside its default is listed. -/
theorem mem_of_tget {α : Type} {d v : α} {i : Nat} (listed : v ≠ d) : ∀ {t : Tbl α}, tget d t i = v → (i, v) ∈ t
  | [], e => absurd e.symm listed
  | (k, w) :: t, e => by
    rw [tget] at e
    split at e
    next key => rw [key, e]; exact List.mem_cons_self
    next => exact List.mem_cons_of_mem _ (mem_of_tget listed e)

/-- A write lists no more than its own entry. -/
theorem mem_of_mem_tset {α : Type} [DecidableEq α] {d v : α} {i : Nat} {x : Nat × α} :
    ∀ {t : Tbl α}, x ∈ tset d i v t → x = (i, v) ∨ x ∈ t
  | [], m => by
    rw [tset] at m
    split at m
    · exact .inr m
    · exact .inl (List.mem_singleton.mp m)
  | (k, w) :: t, m => by
    rw [tset] at m
    split_ifs at m
    · exact .inr m
    · exact List.mem_cons.mp m
    · exact .inr (List.mem_cons_of_mem _ m)
    · exact (List.mem_cons.mp m).imp_right (List.mem_cons_of_mem _)
    · rcases List.mem_cons.mp m with rfl | m
      · exact .inr List.mem_cons_self
      · exact (mem_of_mem_tset m).imp_right (List.mem_cons_of_mem _)

/-! ### Jobs of a transaction -/

variable {s : State} {y : YokeId} {t : Tx} {k : Core}

/-- A yoke that is charged with a transaction holds the changed one after a change. -/
theorem modTx_tx {y : Nat} (tx : s.tx y = some t) (f : Tx → Tx) : (s.modTx y f).tx y = some (f t) := by
  have changed : ({ s.yoke y with tx := (s.yoke y).tx.map f } : Yoke).tx = some (f t) := by
    rw [show (s.yoke y).tx = some t from tx]
    rfl
  have listed : ({ s.yoke y with tx := (s.yoke y).tx.map f } : Yoke) ≠ Yoke.zero := fun e => by
    rw [e] at changed
    cases changed
  exact (congrArg Yoke.tx (tget_tset_listed listed y s.yokes)).trans changed

theorem setJob_job (t : Tx) (j : Nat) (x : Job) : (t.setJob j (some x)).job j = some x :=
  tget_tset_listed (Option.some_ne_none x) j t.jobs

/-- The next SEAL job is one of the transaction's and has not ended. -/
theorem nextSeal_open {j : Nat} (next : nextSeal t = some j) : ∃ x, (j, some x) ∈ t.jobs ∧ sealOpen x = true := by
  obtain ⟨b, best, rfl⟩ := Option.map_eq_some_iff.mp next
  clear next
  revert b
  refine List.foldlRecOn
    (motive := fun best => ∀ b : Nat × Nat, best = some b → ∃ x, (b.1, some x) ∈ t.jobs ∧ sealOpen x = true) t.jobs _
    (fun _ e => nomatch e) fun best found l mem b e => ?_
  obtain ⟨l, _ | x⟩ := l
  · exact found b e
  · dsimp only at e
    split_ifs at e with opened
    · split at e
      · split_ifs at e
        · cases e
          exact ⟨x, mem, opened⟩
        · exact found b e
      · cases e
        exact ⟨x, mem, opened⟩
    · exact found b e

/-- Nothing ends where the TYPE of the SEAL job that is next names a job. -/
theorem endUnknown_named {y : Nat} (tx : s.tx y = some t)
    (named : ∀ j x, nextSeal t = some j → t.job j = some x → laneType x.desc = true) (n : Nat) : endUnknown n s y = s := by
  cases n with
  | zero => rfl
  | succ n =>
    rw [endUnknown, tx, Option.bind_some]
    split
    next j x found =>
      obtain ⟨l, next, job⟩ := Option.bind_eq_some_iff.mp found
      obtain ⟨z, job, pair⟩ := Option.map_eq_some_iff.mp job
      cases pair
      exact if_pos (named _ _ next job)
    next => rfl

/-- No job of the transaction is a SEAL job on its context. -/
def NoSeal (t : Tx) : Prop := ∀ l x, (l, some x) ∈ t.jobs → x.engine = true ∨ (jFlags x.desc).testBit 0 = false

/-- The state in which a lane job has its number and context c. -/
def laneEntered (s : State) (y : Nat) (j : Nat) (d : Bytes) (c : Nat) : State :=
  giveCtx (s.modTx y fun t => { (t.setJob j (some
    { engine := false, desc := d, st := .running, unit := c, order := t.jobSeq })) with jobSeq := t.jobSeq + 1 }) y j c

/-- The only SEAL job of a transaction is next, and its TYPE names a job. -/
theorem endUnknown_first {y j : Nat} {d : Bytes} {c : Nat} (tx : s.tx y = some t) (alone : NoSeal t)
    (named : laneType d = true) (n : Nat) : endUnknown n (laneEntered s y j d c) y = laneEntered s y j d c := by
  refine endUnknown_named (s := laneEntered s y j d c) (modTx_tx tx _) (fun l x next job => ?_) n
  obtain ⟨z, mem, opened⟩ := nextSeal_open next
  have entered := setJob_job t j { engine := false, desc := d, st := .running, unit := c, order := t.jobSeq }
  rcases mem_of_mem_tset mem with own | other
  · obtain ⟨rfl, -⟩ := Prod.mk.inj own
    cases entered.symm.trans job
    exact named
  · simp only [sealOpen, Bool.and_eq_true, Bool.not_eq_true'] at opened
    obtain ⟨⟨lane, sealing⟩, -⟩ := opened
    rcases alone l z other with engine | plain
    · exact absurd (lane.symm.trans engine) (by decide)
    · exact absurd (sealing.symm.trans plain) (by decide)

/-- LJOB with a context: the job is entered. `t` is the transaction as the instruction found it. -/
theorem startLane_enters {y : Nat} {cur : Tx} {d : Bytes} (c : Nat) (tx : s.tx y = some cur) (jobs : cur.jobs = t.jobs)
    (idle : t.wait = .none) (named : laneType d = true) (alone : (jFlags d).testBit 0 = true → NoSeal t) :
    startLane s y t k d c = .ok (laneEntered s y (freeJob t) d c) { core := issued k (freeJob t), cost := 12 } := by
  have ends : (if bit (jFlags d) 0 then endUnknown 8 (laneEntered s y (freeJob t) d c) y
      else if laneType d then laneEntered s y (freeJob t) d c
      else laneEnd (laneEntered s y (freeJob t) d c) y (freeJob t) stPolicy []) = laneEntered s y (freeJob t) d c := by
    by_cases sealing : bit (jFlags d) 0 = true
    · rw [if_pos sealing]
      exact endUnknown_first tx (fun l x m => alone sealing l x (jobs ▸ m)) named 8
    · rw [if_neg sealing, if_pos named]
  unfold startLane
  dsimp only
  rw [if_pos idle]
  exact congrArg (fun u => Acc.ok u _) ends

/-- A job that is there is outstanding. -/
theorem outstanding_ne_zero {j : Nat} {x : Job} (job : t.job j = some x) : outstanding t ≠ 0 := by
  have mem : (j, some x) ∈ t.jobs.filter fun x => x.2.isSome :=
    List.mem_filter.mpr ⟨mem_of_tget (Option.some_ne_none x) job, rfl⟩
  exact Nat.ne_of_gt (List.length_pos_of_mem mem)

/-- WJOB ANY takes the lowest-numbered job that has ended. -/
theorem anyEnded_lowest {j : Nat} {x : Job} (inRange : j < 8) (job : t.job j = some x) (ended : x.st = .ended)
    (lowest : ∀ l z, l < j → t.job l = some z → z.st ≠ .ended) : anyEnded t = some (j, x) := by
  obtain ⟨n, size⟩ : ∃ n, 8 = j + (n + 1) := ⟨7 - j, by omega⟩
  rw [anyEnded, size, List.range_add, List.range_succ_eq_map]
  refine List.findSome?_eq_some_iff.mpr ⟨List.range j, j, _, by rw [List.map_cons, Nat.add_zero], ?_, fun l mem => ?_⟩
  · simp only [job, ended, if_true]
  · cases below : t.job l with
    | none => rfl
    | some z => exact if_neg (lowest l z (List.mem_range.mp mem) below)

/-! ### The course of an instruction of 0x70 to 0x78 -/

/-- What an instruction's effect comes to at its boundary. -/
def concluded (s : State) (y : YokeId) (i : Ins) : Acc Done → State
  | .ok u d => retire s u (.tiller y) i.e d
  | .trap u t => takeTrap (fetched s (.tiller y)) u (.tiller y) t (regsOf s (.tiller y)).pc
  | .stop u => u

/-- The job descriptor that an instruction names (R211, R214). -/
def namedDesc (s : State) (y : YokeId) (i : Ins) : Bytes :=
  benchRecord (fetched s (.tiller y)) y (i.addr (regsOf s (.tiller y))) 64

section
variable {i : Ins} {sub fmt : Bool}
  (h : Accepted s (.tiller y) i.hw i.e 1 sub false fmt (i.privOk (regsOf s (.tiller y))))
include h

theorem keyIns_concludes (tx : (fetched s (.tiller y)).tx y = some t) (fin reads : Bool)
    (body : State → Nat → Tx → Core → Acc Done) : keyIns (.tiller y) i sub fmt fin reads body s =
      .next (concluded s y i (body (fetched s (.tiller y)) y t (settled (regsOf s (.tiller y)) reads))) := by
  rw [keyIns_body h.comes h.passes tx]
  cases body (fetched s (.tiller y)) y t (settled (regsOf s (.tiller y)) reads) <;> rfl

/-- The leader and the follower agree. -/
theorem agree_accepted (u : State) (y : Nat) (kind : Nat) (run : State → Acc Done) : agree u y i.hw kind run = run u := by
  rw [accepted_hw h]
  rfl

theorem descriptor_accepted (may : MayDescribe (fetched s (.tiller y)) y (i.addr (regsOf s (.tiller y)))) :
    descriptor (fetched s (.tiller y)) y i.hw (i.addr (regsOf s (.tiller y))) = .ok (fetched s (.tiller y)) (namedDesc s y i) := by
  rw [accepted_hw h]
  exact descriptor_may may

end

/-- OK leaves A 0 and K clear. -/
theorem issued_eq (k : Core) (j : Nat) :
    issued k j = { k with a := 0, ah := BitVec.ofNat 64 j, fl := { k.fl with k := false } } := rfl

theorem setStatus_policy (k : Core) :
    setStatus k stPolicy = { k with a := stPolicy.setWidth 64, fl := { k.fl with k := true } } := rfl

theorem setStatus_eq (k : Core) (st : BitVec 16) : setStatus k st =
    { k with a := st.setWidth 64, fl := { k.fl with k := decide (st ≠ stOK ∧ st ≠ stExisting) } } := by
  rw [setStatus, Bool.decide_and, decide_not, decide_not]
  rfl

/-! ### LJOB (R214 to R216, R249, R317) -/

/-- Context c is bound to the transaction of yoke y (R249). -/
def ctxBound (s : State) (y : YokeId) (c : Nat) : State :=
  (s.modCtx c fun x => { x with bound := .tx y }).modTx y fun t => { t with ctx := some c }

section
variable {i : Ins}
  (h : Accepted s (.tiller y) i.hw i.e 1 (i.sub == 0) false (i.modeOk (s.core (.tiller y)) recordModes true)
    (i.privOk (regsOf s (.tiller y))))
  (tx : (fetched s (.tiller y)).tx y = some t)
  (may : MayDescribe (fetched s (.tiller y)) y (i.addr (regsOf s (.tiller y))))
include h tx may

/-- With 8 jobs outstanding there is no room for another. -/
theorem ljob_full (full : 8 ≤ outstanding t) : exec (.ljob (.tiller y) i) s =
    .next (retire s (fetched s (.tiller y)) (.tiller y) i.e { core := setStatus (regsOf s (.tiller y)) stPolicy, cost := 12 }) := by
  change execLjob (.tiller y) i s = _
  refine (keyIns_concludes h tx ..).trans (congrArg Host.Outcome.next ?_)
  simp only [agree_accepted h, settled_false, descriptor_accepted h may, if_pos full]
  rfl

/-- Without a free context the program waits. -/
theorem ljob_waits (room : outstanding t < 8) (taken : allocCtx (fetched s (.tiller y)) = none)
    (needs : (jFlags (namedDesc s y i)).testBit 0 = false ∨ t.ctx = none) :
    exec (.ljob (.tiller y) i) s = .next ((fetched s (.tiller y)).modTx y fun t => { t with wait := .unit }) := by
  change execLjob (.tiller y) i s = _
  refine (keyIns_concludes h tx ..).trans (congrArg Host.Outcome.next ?_)
  simp only [agree_accepted h, settled_false, descriptor_accepted h may, if_neg (Nat.not_le.mpr room), taken, bit]
  rcases needs with plain | unbound
  · simp only [plain, Bool.false_eq_true, if_false]
    rfl
  · simp only [unbound, ite_self]
    rfl

section
variable (room : outstanding t < 8) (idle : t.wait = .none) (named : laneType (namedDesc s y i) = true) {c : Nat}
include room idle named

/-- A job without SEAL takes a free context. -/
theorem ljob_plain (free : allocCtx (fetched s (.tiller y)) = some c)
    (plain : (jFlags (namedDesc s y i)).testBit 0 = false) :
    exec (.ljob (.tiller y) i) s = .next (retire s
      (laneEntered (fetched s (.tiller y)) y (freeJob t) (namedDesc s y i) c) (.tiller y) i.e
      { core := issued (regsOf s (.tiller y)) (freeJob t), cost := 12 }) := by
  change execLjob (.tiller y) i s = _
  refine (keyIns_concludes h tx ..).trans (congrArg Host.Outcome.next ?_)
  simp only [agree_accepted h, settled_false, descriptor_accepted h may, if_neg (Nat.not_le.mpr room), free, bit, plain,
    Bool.false_eq_true, if_false,
    startLane_enters c tx rfl idle named fun sealing => absurd (sealing.symm.trans plain) (by decide)]
  rfl

section
variable (sealing : (jFlags (namedDesc s y i)).testBit 0 = true) (alone : NoSeal t)
include sealing alone

/-- A SEAL job takes the context that the transaction has bound. -/
theorem ljob_bound (bound : t.ctx = some c) :
    exec (.ljob (.tiller y) i) s = .next (retire s
      (laneEntered (fetched s (.tiller y)) y (freeJob t) (namedDesc s y i) c) (.tiller y) i.e
      { core := issued (regsOf s (.tiller y)) (freeJob t), cost := 12 }) := by
  change execLjob (.tiller y) i s = _
  refine (keyIns_concludes h tx ..).trans (congrArg Host.Outcome.next ?_)
  simp only [agree_accepted h, settled_false, descriptor_accepted h may, if_neg (Nat.not_le.mpr room), bit, sealing, bound,
    if_true, startLane_enters c tx rfl idle named fun _ => alone]
  rfl

/-- The first SEAL job of a transaction binds a free context. -/
theorem ljob_binds (unbound : t.ctx = none) (free : allocCtx (fetched s (.tiller y)) = some c) :
    exec (.ljob (.tiller y) i) s = .next (retire s
      (laneEntered (ctxBound (fetched s (.tiller y)) y c) y (freeJob t) (namedDesc s y i) c) (.tiller y) i.e
      { core := issued (regsOf s (.tiller y)) (freeJob t), cost := 12 }) := by
  have binds : (ctxBound (fetched s (.tiller y)) y c).tx y = some { t with ctx := some c } := modTx_tx tx _
  change execLjob (.tiller y) i s = _
  refine (keyIns_concludes h tx ..).trans (congrArg Host.Outcome.next ?_)
  simp only [agree_accepted h, settled_false, descriptor_accepted h may, if_neg (Nat.not_le.mpr room), bit, sealing, unbound,
    free, if_true]
  exact congrArg (concluded s y i) (startLane_enters c binds rfl idle named fun _ => alone)

end
end
end

/-! ### PJOB (R110, R214 to R216, R368, R369) -/

/-- The state once the arbiter has seen a job that passed its checks. -/
def arbitrated (s : State) (y : Nat) (t : Tx) (d : Bytes) : State :=
  let w := (engCheck s t d false).1.modTx y fun x => { (x.setJob (freeJob t) (some
    { engine := true, desc := d, st := .waiting, order := t.jobSeq })) with jobSeq := x.jobSeq + 1 }
  pumpEng { w with pke := { w.pke with waitq := w.pke.waitq ++ [(y, freeJob t)] } }

/-- The state in which a job that failed its checks has ended with their status. -/
def refusedJob (s : State) (y : Nat) (t : Tx) (d : Bytes) (st : BitVec 16) : State :=
  (engCheck s t d false).1.modTx y fun x => { (x.setJob (freeJob t) (some
    { engine := true, desc := d, st := .ended, status := st, order := t.jobSeq })) with jobSeq := x.jobSeq + 1 }

section
variable {d : Bytes}

theorem startEngine_fails {y : Nat} {st : BitVec 16} (fails : (engCheck s t d false).2 = some st) :
    startEngine s y t k d .ok = .ok (refusedJob s y t d st) { core := issued k (freeJob t), cost := 12 } := by
  unfold startEngine
  simp only [show (Hw.ok == Hw.tagFail) = false from rfl, fails]
  rfl

/-- A job that passes its checks has a slot, or the instruction waits for it. -/
theorem startEngine_passes {y : Nat} {q : Tx × Job} (passes : (engCheck s t d false).2 = none)
    (there : jobOf (arbitrated s y t d) (y, freeJob t) = some q) : startEngine s y t k d .ok =
    if q.2.st = .waiting then waitFor (arbitrated s y t d) y (.engine (freeJob t))
    else .ok (arbitrated s y t d) { core := issued k (freeJob t), cost := 12 } := by
  unfold arbitrated at there
  unfold startEngine
  simp only [show (Hw.ok == Hw.tagFail) = false from rfl, passes, there]
  rfl

end

section
variable {i : Ins}
  (h : Accepted s (.tiller y) i.hw i.e 1 (i.sub == 0) false (i.modeOk (s.core (.tiller y)) recordModes true)
    (i.privOk (regsOf s (.tiller y))))
  (tx : (fetched s (.tiller y)).tx y = some t)
include h tx

/-- A PJOB that has not been waiting enters its job, where the transaction may have one. -/
theorem pjob_fresh (fresh : ∀ n, t.wait ≠ .engine n)
    (may : MayDescribe (fetched s (.tiller y)) y (i.addr (regsOf s (.tiller y)))) :
    exec (.pjob (.tiller y) i) s = .next (concluded s y i (
      if 8 ≤ outstanding t || ((fetched s (.tiller y)).plot t.plot).acr.pkeWeight = 0 then
        .ok (fetched s (.tiller y)) { core := setStatus (regsOf s (.tiller y)) stPolicy, cost := 12 }
      else startEngine (fetched s (.tiller y)) y t (regsOf s (.tiller y)) (namedDesc s y i) .ok)) := by
  change execPjob (.tiller y) i s = _
  refine (keyIns_concludes h tx ..).trans (congrArg (fun a => Host.Outcome.next (concluded s y i a)) ?_)
  split
  next n waits => exact absurd waits (fresh n)
  next =>
    simp only [agree_accepted h, settled_false, descriptor_accepted h may]
    rw [accepted_hw h]

section
variable (fresh : ∀ n, t.wait ≠ .engine n) (may : MayDescribe (fetched s (.tiller y)) y (i.addr (regsOf s (.tiller y))))
include fresh may

/-- With 8 jobs outstanding, or no share of the engines, there is no engine job. -/
theorem pjob_denied (denied : 8 ≤ outstanding t ∨ ((fetched s (.tiller y)).plot t.plot).acr.pkeWeight = 0) :
    exec (.pjob (.tiller y) i) s = .next (retire s (fetched s (.tiller y)) (.tiller y) i.e
      { core := setStatus (regsOf s (.tiller y)) stPolicy, cost := 12 }) := by
  have run := pjob_fresh h tx fresh may
  rw [if_pos (by rwa [Bool.or_eq_true, decide_eq_true_iff, decide_eq_true_iff])] at run
  exact run

section
variable (room : outstanding t < 8) (weight : ((fetched s (.tiller y)).plot t.plot).acr.pkeWeight ≠ 0)
include room weight

/-- Else its job is entered. -/
theorem pjob_enters : exec (.pjob (.tiller y) i) s = .next (concluded s y i
    (startEngine (fetched s (.tiller y)) y t (regsOf s (.tiller y)) (namedDesc s y i) .ok)) := by
  have run := pjob_fresh h tx fresh may
  rw [if_neg (by simp [Nat.not_le.mpr room, weight])] at run
  exact run

/-- The job fails its checks. -/
theorem pjob_fails {st : BitVec 16}
    (fails : (engCheck (fetched s (.tiller y)) t (namedDesc s y i) false).2 = some st) :
    exec (.pjob (.tiller y) i) s = .next (retire s (refusedJob (fetched s (.tiller y)) y t (namedDesc s y i) st) (.tiller y) i.e
      { core := issued (regsOf s (.tiller y)) (freeJob t), cost := 12 }) := by
  rw [pjob_enters h tx fresh may room weight, startEngine_fails fails]
  rfl

section
variable {w : State} {q : Tx × Job} (passes : (engCheck (fetched s (.tiller y)) t (namedDesc s y i) false).2 = none)
  (left : arbitrated (fetched s (.tiller y)) y t (namedDesc s y i) = w) (there : jobOf w (y, freeJob t) = some q)
include passes left there

/-- The job has a slot at once. -/
theorem pjob_starts (slot : q.2.st ≠ .waiting) : exec (.pjob (.tiller y) i) s = .next (retire s w (.tiller y) i.e
    { core := issued (regsOf s (.tiller y)) (freeJob t), cost := 12 }) := by
  subst left
  rw [pjob_enters h tx fresh may room weight, startEngine_passes passes there, if_neg slot]
  rfl

/-- The job waits for its slot, and the instruction with it. -/
theorem pjob_waits (noSlot : q.2.st = .waiting) : exec (.pjob (.tiller y) i) s =
    .next (w.modTx y fun x => { x with wait := .engine (freeJob t) }) := by
  subst left
  rw [pjob_enters h tx fresh may room weight, startEngine_passes passes there, if_pos noSlot]
  rfl

end

end
end

/-- A PJOB whose job has got its slot completes. -/
theorem pjob_resumed {n : Nat} {x : Job} (waits : t.wait = .engine n) (job : t.job n = some x) (slot : x.st ≠ .waiting) :
    exec (.pjob (.tiller y) i) s = .next (retire s (drawn (fetched s (.tiller y)) 1) (.tiller y) i.e
      { core := issued (regsOf s (.tiller y)) n, cost := 12 + (Config.freeWord (fetched s (.tiller y)).free).toNat % 2 ^ 32 }) := by
  change execPjob (.tiller y) i s = _
  refine (keyIns_concludes h tx ..).trans (congrArg Host.Outcome.next ?_)
  simp only [settled_false, waits, job, if_neg slot]
  rfl

end

/-! ### WJOB (R215, R216) -/

/-- What an ended job gives. -/
def jobOutput (x : Job) : Bytes := if x.status = stOK ∨ x.status = stExisting then x.out.take (jOut x.desc).2 else []

/-- The state in which the output of job j has reached the bench and its number is free. -/
def collected (s : State) (y : Nat) (j : Nat) (x : Job) : State :=
  (benchPut s y (jOut x.desc).1 (jobOutput x)).modTx y fun t =>
    { (t.setJob j none) with plastJob := j, plastLen := (jobOutput x).length }

/-- How a WJOB ends that collects job j. -/
def collectDone (s : State) (y : Nat) (k : Core) (j : Nat) (x : Job) : Done :=
  { core := { k with a := x.status.setWidth 64, ah := BitVec.ofNat 64 j,
                     fl := { k.fl with k := decide (x.status ≠ stOK ∧ x.status ≠ stExisting) } },
    cost := 2 + ((jobOutput x).length + 7) / 8 + (Config.freeWord (collected s y j x).free).toNat % 2 ^ 32 }

theorem collect_ok (s : State) (y : Nat) (k : Core) (j : Nat) (x : Job) :
    collect s y .ok k j x = .ok (drawn (collected s y j x) 1) (collectDone s y k j x) := by
  have status := setStatus_eq { k with ah := BitVec.ofNat 64 j } x.status
  unfold collectDone
  rw [← status]
  rfl

theorem waitJob_job {y : Nat} {j : Nat} {x : Job} (inRange : j < 8) (job : t.job j = some x) : waitJob s y .ok t k j =
    if x.st = .ended then .ok (drawn (collected s y j x) 1) (collectDone s y k j x) else waitFor s y (.job j) := by
  rw [waitJob, if_pos inRange, job, ← collect_ok]

theorem mread_length (m : Mem) (a n : Nat) : (mread m a n).length = n := by
  induction n generalizing a with
  | zero => rfl
  | succ n ih => rw [mread, List.length_cons, ih]

/-- Eight bytes are a word as they stand. -/
theorem fitVal_loaded {s : State} {y : YokeId} {a : W64} : (fitVal 8 false (loadedAt s (.tiller y) a 8)).toNat =
    leNat (benchRecord s y a 8) := by
  have fits := leNat_lt (mread (s.yoke y).bench a.toNat 8)
  rw [mread_length] at fits
  simp only [fitVal, loadedAt, coreMem, benchRecord, Bool.false_eq_true, if_false, BitVec.toNat_ofNat]
  omega

/-- The form of a WJOB with an operand has 8 bytes of it. -/
theorem bytes_of_wjobFmt {i : Ins} {k : Core} (sub : i.sub = 0) (form : wjobFmt i k = true) : i.bytes = 8 := by
  rw [wjobFmt, if_neg (by rw [sub]; decide), Ins.modeOk] at form
  simp only [Bool.and_eq_true, Bool.not_true, Bool.false_or, beq_iff_eq] at form
  obtain ⟨⟨-, size⟩, -⟩ := form
  rw [Ins.bytes, size]
  rfl

section
variable {i : Ins} {j : Nat} {x : Job}
  (h : Accepted s (.tiller y) i.hw i.e 1 (i.sub == 0 || i.sub == 1) false (wjobFmt i (s.core (.tiller y)))
    (i.privOk (regsOf s (.tiller y))))
  (tx : (fetched s (.tiller y)).tx y = some t)
include h tx

/-- A WJOB with an operand is one on the job that it names. -/
theorem wjob_named (sub : i.sub = 0)
    (named : (operandOf (fetched s (.tiller y)) (.tiller y) (settled (regsOf s (.tiller y)) i.readsMac) i false).1.toNat = j)
    (there : i.mode = 0 ∨ i.mode = 7 ∨ MayRecord (i.addr (settled (regsOf s (.tiller y)) i.readsMac)) 8 8 readable) :
    exec (.wjob (.tiller y) i) s = .next (concluded s y i
      (waitJob (fetched s (.tiller y)) y .ok t (settled (regsOf s (.tiller y)) i.readsMac) j)) := by
  obtain ⟨-, form, -⟩ := checks_sub h.passes
  have size := bytes_of_wjobFmt sub form
  change execWjob (.tiller y) i s = _
  refine (keyIns_concludes h tx ..).trans (congrArg (fun a => Host.Outcome.next (concluded s y i a)) ?_)
  rw [operandOf, size] at named
  rw [if_neg (show ¬ i.sub = 1 by rw [sub]; decide), accepted_hw h]
  split_ifs at named ⊢ with immediate register
  · rw [named]
  · rw [named]
  · rcases there with m | m | record
    · exact absurd m immediate
    · exact absurd m register
    · rw [fitVal_loaded] at named
      rw [record_may record]
      dsimp only
      rw [named]

/-- A WJOB with SUB 01 collects the lowest-numbered job that has ended. -/
theorem wjob_any (sub : i.sub = 1) (inRange : j < 8) (job : t.job j = some x) (ended : x.st = .ended)
    (lowest : ∀ l z, l < j → t.job l = some z → z.st ≠ .ended) :
    exec (.wjob (.tiller y) i) s = .next (concluded s y i
      (collect (fetched s (.tiller y)) y .ok (settled (regsOf s (.tiller y)) i.readsMac) j x)) := by
  change execWjob (.tiller y) i s = _
  refine (keyIns_concludes h tx ..).trans (congrArg (fun a => Host.Outcome.next (concluded s y i a)) ?_)
  simp only [if_pos sub, if_neg (outstanding_ne_zero job), anyEnded_lowest inRange job ended lowest, accepted_hw h]

end

/-- Settles O15: each way through the three instructions, by the job that it enters or finds. -/
theorem jobsIssuedAndCollected : Obligations.JobsIssuedAndCollected := by
  unfold Obligations.JobsIssuedAndCollected
  refine ⟨fun s y i t h => ?ljob, fun s y i t h => ?pjob, fun s y i t j x h => ?wjob⟩
  case ljob =>
    intro f k d isSeal j entered ended tx may
    refine ⟨fun room low high => ?_, ljob_full h tx may⟩
    have named : laneType d = true := by rw [laneType, decide_eq_true low, decide_eq_true high]; rfl
    exact ⟨fun idle plain c free => ljob_plain h tx may room idle named free plain,
      fun idle sealing alone => ⟨fun c => ljob_bound h tx may room idle named sealing alone,
        fun unbound c => ljob_binds h tx may room idle named sealing alone unbound⟩,
      ljob_waits h tx may room⟩
  case pjob =>
    intro f k d j r entered waiting u started issue tx
    refine ⟨fun fresh may => ?_, fun n x => pjob_resumed h tx⟩
    have left : arbitrated (fetched s (.tiller y)) y t (namedDesc s y i) = u := by rfl
    refine ⟨fun room weight => ⟨fun passes slot => ?_, fun passes slot => ?_,
      fun st => pjob_fails h tx fresh may room weight⟩, pjob_denied h tx fresh may⟩
    · obtain ⟨q, there, has⟩ := Option.map_eq_some_iff.mp slot
      exact pjob_starts h tx fresh may room weight passes left there (of_decide_eq_true has)
    · obtain ⟨q, there, lacks⟩ := Option.map_eq_some_iff.mp slot
      exact pjob_waits h tx fresh may room weight passes left there (not_not.mp (of_decide_eq_false lacks))
  case wjob =>
    intro f k out u tx inRange job named lowest
    obtain ⟨minor, -, -⟩ := checks_sub h.passes
    refine ⟨fun ended => ?_, fun runs sub => ?_⟩
    · rw [Bool.or_eq_true, beq_iff_eq, beq_iff_eq] at minor
      rcases minor with sub | sub
      · obtain ⟨value, there⟩ := named sub
        refine (wjob_named h tx sub value there).trans ?_
        rw [waitJob_job inRange job, if_pos ended]
        rfl
      · refine (wjob_any h tx sub inRange job ended (lowest sub ended)).trans ?_
        rw [collect_ok]
        rfl
    · obtain ⟨value, there⟩ := named sub
      refine (wjob_named h tx sub value there).trans ?_
      rw [waitJob_job inRange job, if_neg runs]
      rfl

end Sys2Proof.Machine
end

/-! SUPPORT. The program commands past their gates (R233 to R240): each command that a live Security Officer session lets through,
and what its act, its record and its forwarding come to. -/

section
namespace Sys2Proof.Machine

variable {s : State} {d : Adm}

/-! ### Recorded acts (R102, R496, R520) -/

/-- An act for which the recorder has room is done, with its record and the plot's record in flash. -/
theorem recorded_room (room : auditRoom s = true) (code : BitVec 16) (payload data : Bytes) (act : State → State) :
    recorded s d code payload data act =
      forwardData (admOk (writeReserved (saveRecord (act (reserve s)) d.pid) code d.pid payload) d) d data :=
  if_neg (by rw [room]; decide)

/-- A read that goes out takes no room in the recorder. -/
theorem auditRoom_emit (s : State) (o : Out) : auditRoom (emit s o) = auditRoom s := rfl

/-! ### Signers and images past their gates (R234 to R239) -/

theorem runSignerAdd_added (out : heldFor s .pf0 = false) {b : Bytes} (point : byteAt (fit 97 b) 0 = 4)
    (few : (s.plot d.pid).signers.length < 4)
    (new : ∀ x ∈ (s.plot d.pid).signers, x.1 ≠ signerId d) :
    runSignerAdd (.data b) s d = addSigner (emit s (.read d.extAddr 97)) d (fit 97 b) := by
  have unlisted : ¬ ((s.plot d.pid).signers.any fun x => x.1 == signerId d) = true := by
    simp only [List.any_eq_true, beq_iff_eq, not_exists, not_and]
    exact new
  rw [runSignerAdd, admRead_data out (by decide), if_neg (not_not_intro point),
    if_neg (not_or_intro (Nat.not_le.mpr few) unlisted)]

theorem runSignerRemove_removed (room : auditRoom s = true) (listed : ∃ x ∈ (s.plot d.pid).signers, x.1 = signerId d) :
    runSignerRemove s d = forwardData (admOk (writeReserved (saveRecord ((reserve s).modPlot d.pid fun pl =>
      { pl with signers := pl.signers.filter fun x => x.1 != signerId d }) d.pid) 0x1021 d.pid
        (le 8 (signerId d).toNat)) d) d [] := by
  have there : ((s.plot d.pid).signers.any fun x => x.1 == signerId d) = true := by simpa using listed
  rw [runSignerRemove, there, if_neg (by decide), recorded_room room]

/-- An image that passes every check of Table 6.5, in a table that has an entry to spare, is placed. -/
theorem install_placed {b : Bytes} {k : W64 × Bytes} {g : Nat} (room : auditRoom s = true) (ok : imgOk b = true)
    (level : byteAt b 5 ≤ isaEmul) (slot : (s.plot d.pid).progs.length < (s.plot d.pid).acr.progSlots)
    (signer : (s.plot d.pid).signers.find? (fun x => x.1 == imgSigner b) = some k)
    (signed : Config.sigVerify 1 k.2 (cut b 0 (64 + imgCode b)) (cut b (64 + imgCode b) 96) = true)
    (free : findGranules s (granules (imgCode b)) = some g) :
    install s d b = forwardData (admOk (writeReserved (saveRecord (placeImage (reserve s) d.pid b g) d.pid) 0x1022 d.pid
      (le 2 (imgId b) ++ le 4 (imgVersion b).toNat)) d) d b := by
  have fits : ¬ ((progEntry (s.plot d.pid) (imgId b)).isNone = true ∧
      (s.plot d.pid).acr.progSlots ≤ (s.plot d.pid).progs.length) := fun full => Nat.not_le.mpr slot full.2
  unfold install
  simp only [ok, Nat.not_lt.mpr level, fits, signer, signed, free, recorded_room room, progPayload, Bool.not_true,
    Bool.false_eq_true, if_false]

theorem runInstall_data (out : heldFor s .pf0 = false) (nonzero : d.extLen ≠ 0) (b : Bytes) :
    runInstall (.data b) s d = install (emit s (.read d.extAddr d.extLen)) d (fit d.extLen b) := by
  rw [runInstall, if_neg nonzero, admRead_data out nonzero]

theorem runProgRemove_removed {i : Nat} (room : auditRoom s = true) (entry : progEntry (s.plot d.pid) (fld d.inl 4 2) = some i) :
    runProgRemove s d = forwardData (admOk (writeReserved (saveRecord
      (({ reserve s with prog := { (reserve s).prog with images := unname (reserve s).prog.images i } } : State).modPlot d.pid
        fun pl => { pl with progs := pl.progs.filter fun x => x.1 != fld d.inl 4 2 }) d.pid) 0x1023 d.pid
      (le 2 (fld d.inl 4 2) ++ le 4 (tget Image.zero s.prog.images i).version.toNat)) d) d [] := by
  unfold runProgRemove
  simp only [entry, recorded_room room, progPayload]

/-! ### The commands -/

section
variable {rest : List Adm} (serves : Serves s d rest) (named : plotNamed d = true) (st : (s.plot d.pid).st ∈ createdToStopped)
  (card : holdsCard (popAdm s rest) d.pid 0 = true) (session : sessionLive (popAdm s rest) d.pid 0 = true)
include serves named st card session

/-- A program command of a plot with a live Security Officer session (R235). -/
theorem progCmd_runs {code : BitVec 16} {args : State → Adm → Bool} {run : State → Adm → State} (is : d.code = code)
    (ok : args (popAdm s rest) d = true) : progCmd code args run s = .next (run (popAdm s rest) d) :=
  plotCmd_run serves is named ok st (by rw [plotSO, card, session]; rfl)

theorem progSignerAdd_runs (r : HostRead) (code : d.code = 0x120) (inlen : d.inlen = 12) (nonzero : signerId d ≠ 0)
    (len : d.extLen = 97) : exec (.progSignerAdd r) s = .next (runSignerAdd r (popAdm s rest) d) :=
  progCmd_runs serves named st card session code (by simpa [inlenIs, inlen, len] using nonzero)

theorem progSignerRemove_runs (code : d.code = 0x121) (inlen : d.inlen = 12) :
    exec .progSignerRemove s = .next (runSignerRemove (popAdm s rest) d) :=
  progCmd_runs serves named st card session code (by simp [inlenIs, inlen])

theorem progInstall_runs (r : HostRead) (code : d.code = 0x122) (inlen : d.inlen = 4) :
    exec (.progInstall r) s = .next (runInstall r (popAdm s rest) d) :=
  progCmd_runs serves named st card session code (by simp [inlenIs, inlen])

theorem progRemove_runs (code : d.code = 0x123) (inlen : d.inlen = 6) (low : 0x400 ≤ fld d.inl 4 2)
    (high : fld d.inl 4 2 ≤ 0xFFF) : exec .progRemove s = .next (runProgRemove (popAdm s rest) d) :=
  progCmd_runs serves named st card session code (by simp [inlenIs, inlen, low, high])

end

/-- PROG_LIST is served by a tampered module and in every life-cycle state, for every plot that is there. -/
theorem progList_runs {rest : List Adm} (serves : Serves s d rest (tamper := true) (lim := 5)) (named : plotNamed d = true)
    (code : d.code = 0x124) (inlen : d.inlen = 4) (res : 1024 ≤ d.resLen) (there : (s.plot d.pid).st ≠ .absent) :
    exec .progList s = .next (runProgList (popAdm s rest) d) := by
  have st : plotIn [.created, .opened, .stopping, .stopped, .resetting, .removing] (popAdm s rest) d = true := by
    change List.contains _ (s.plot d.pid).st = true
    revert there
    cases (s.plot d.pid).st <;> decide
  rw [exec_progList, execProgList, admin_run serves code rfl (by simp [inlenIs, inlen, named, res]) st rfl,
    notStandby_run serves]

/-- Settles O26, clause by clause. That an image takes the lowest run of free granules is the model's reading (log 56). -/
theorem programCommands : Obligations.ProgramCommands := by
  unfold Obligations.ProgramCommands
  intro s d rest named
  refine ⟨fun serves st card session room => ⟨?addsSigner, ?removesSigner, ?installs, ?removes⟩, ?lists⟩
  case addsSigner =>
    intro b out code inlen nonzero len point few new
    rw [progSignerAdd_runs serves named st card session _ code inlen nonzero len,
      runSignerAdd_added (s := popAdm s rest) out point few new, addSigner,
      recorded_room ((auditRoom_emit ..).trans room)]
    rfl
  case removesSigner =>
    intro code inlen listed
    rw [progSignerRemove_runs serves named st card session code inlen,
      runSignerRemove_removed (s := popAdm s rest) room listed]
    rfl
  case installs =>
    intro b k g out code inlen nonzero img t ok level _ slot signer signed free
    rw [progInstall_runs serves named st card session _ code inlen,
      runInstall_data (s := popAdm s rest) out nonzero,
      install_placed (s := t) ((auditRoom_emit ..).trans room) ok level slot signer signed free]
  case removes =>
    intro i code inlen low high entry
    rw [progRemove_runs serves named st card session code inlen low high,
      runProgRemove_removed (s := popAdm s rest) room (Option.map_eq_some_iff.mpr ⟨_, entry, rfl⟩)]
    rfl
  case lists => exact fun serves code inlen res there => progList_runs serves named code inlen res there

end Sys2Proof.Machine
end

/-! SUPPORT. The PIN jobs and CVV past their checks (R251, R330 to R340): how the input side opens a block, how the output side
seals one, how a verdict ends its job. -/

section
namespace Sys2Proof.Machine

/-! ### The input side (R331, R332) -/

/-- The length of a PIN is one that the transaction's policy admits (R332). -/
abbrev PinFits (t : Tx) (pin : List Nat) : Prop := polPinMin t.policy ≤ pin.length ∧ pin.length ≤ polPinMax t.policy

/-- The clear PIN field of a job's input block. -/
def inputField (s : State) (q : LJ) (fmt ofs : Nat) : List Nat :=
  pinField fmt q.k1.key (q.inp s) (panDigits (jParam q.d) ofs)

section
variable {s : State} {q : LJ} {fmt ofs : Nat} {pin : List Nat}

theorem openPin_undecoded (bad : decodePin fmt (inputField s q fmt ofs) = none) : openPin s q fmt ofs = .error stPinBlock := by
  unfold inputField at bad
  simp only [openPin, bad]

theorem openPin_decoded (good : decodePin fmt (inputField s q fmt ofs) = some pin) :
    openPin s q fmt ofs = if PinFits q.t pin then .ok pin else .error stPolicy := by
  unfold inputField at good
  simp only [openPin, good, PinFits, ← Nat.not_le, ← not_and_or, ite_not]

theorem openPin_fits (good : decodePin fmt (inputField s q fmt ofs) = some pin) (fits : PinFits q.t pin) :
    openPin s q fmt ofs = .ok pin := (openPin_decoded good).trans (if_pos fits)

theorem openPin_refused (good : decodePin fmt (inputField s q fmt ofs) = some pin) (outside : ¬ PinFits q.t pin) :
    openPin s q fmt ofs = .error stPolicy := (openPin_decoded good).trans (if_neg outside)

end

/-! ### The output side (R333, R334) -/

/-- What a job comes to that seals a PIN in a block of format `b` under a key. -/
def sealComp (s : State) (q : LJ) (b : Nat) (key : Bytes) (pin : List Nat) (inv : List LaneEv) : Comp :=
  (sealPin s q b key pin).elim .wait fun r => .fin r.1 stOK r.2 none inv

/-- How such a job ends: with the block, its fill drawn where the format needs one, or it waits for the drill in state `w`. -/
def EndsInBlock (u w : State) (y j b : Nat) (key : Bytes) (pin pan : List Nat) (r : Host.Outcome State Fault Refusal) : Prop :=
  (pinRandom b = false → r = .next (laneEnd u y j stOK (encodePin b key pin pan []))) ∧
  (pinRandom b = true → ∀ v, txRandom u y j 16 = some v → r = .next (laneEnd v.1 y j stOK (encodePin b key pin pan v.2))) ∧
  (pinRandom b = true → txRandom u y j 16 = none → r = .next (modJob w y j fun k => { k with noRand := true }))

/-! ### What the computations come to -/

section
variable {s : State} {q : LJ} {pin : List Nat} {st : BitVec 16}

theorem compXlate_opened (opened : openPin s q (byteAt (jParam q.d) 0) 2 = .ok pin) :
    compXlate s q = sealComp s q (byteAt (jParam q.d) 1) q.k2.key pin [.encFail, .decFail] := by
  simp only [compXlate, opened, sealComp]
  cases sealPin s q (byteAt (jParam q.d) 1) q.k2.key pin <;> rfl

theorem compXlate_failed (failed : openPin s q (byteAt (jParam q.d) 0) 2 = .error st) :
    compXlate s q = .fin s st [] none [] := by
  simp only [compXlate, failed]

theorem compReseal_seals :
    compReseal s q = sealComp s q (byteAt (jParam q.d) 1) q.k2.key (pinOf q.sin) [.encFail] := by
  simp only [compReseal, sealComp]
  cases sealPin s q (byteAt (jParam q.d) 1) q.k2.key (pinOf q.sin) <;> rfl

theorem compOpen_opened (opened : openPin s q (byteAt (jParam q.d) 0) 2 = .ok pin) : compOpen s q =
    .fin s stOK [] (some { tag := .pin pin.length, val := pin.map (BitVec.ofNat 8) }) [.decFail] := by
  simp only [compOpen, opened]

theorem compOpen_failed (failed : openPin s q (byteAt (jParam q.d) 0) 2 = .error st) :
    compOpen s q = .fin s st [] none [] := by
  simp only [compOpen, failed]

/-- The natural PIN plus the offset, digit by digit (R337). -/
def naturalDigit (s : State) (q : LJ) (i : Nat) : Nat :=
  ((nibbles (cut (jParam q.d) 14 8)).getD ((nibbles (tdesEnc q.k2.key (q.inp2 s))).getD i 0) 0 +
    (nibbles (cut (jParam q.d) 22 6)).getD i 0) % 10

theorem comp3624_verified (opened : verifyPin s q = .ok pin) : comp3624 s q =
    verdict s q (decide (byteAt (jParam q.d) 1 ≤ pin.length ∧ ∀ i < byteAt (jParam q.d) 1, pin.getD i 0 = naturalDigit s q i))
      stPinMismatch := by
  simp only [comp3624, opened]
  congr 1
  rw [Bool.eq_iff_iff]
  simp [naturalDigit]

theorem comp3624_failed (failed : verifyPin s q = .error st) : comp3624 s q = .fin s st [] none [] := by
  simp only [comp3624, failed]

theorem compPvv_verified (opened : verifyPin s q = .ok pin) : compPvv s q =
    verdict s q (decide (scanDigits 4 (tdesEnc q.k2.key (ofNibbles
      (((panDigits (jParam q.d) 2).drop ((panDigits (jParam q.d) 2).length - 12)).take 11 ++ [byteAt (jParam q.d) 1] ++
        pin.take 4))) = nibbles (cut (jParam q.d) 14 2))) stPinMismatch := by
  simp only [compPvv, opened, beq_eq_decide]

theorem compPvv_failed (failed : verifyPin s q = .error st) : compPvv s q = .fin s st [] none [] := by
  simp only [compPvv, failed]

theorem compCvv_gives (gives : jVerify q.d = false) :
    compCvv s q = .fin s stOK (ofNibbles (cvvDigits q.k1.key q.k1.alg (jParam q.d))) none [] :=
  if_neg (by rw [gives]; decide)

theorem compCvv_verifies (verifies : jVerify q.d = true) : compCvv s q = .fin s
    (if cvvDigits q.k1.key q.k1.alg (jParam q.d) = (nibbles (cut (jParam q.d) 16 2)).take 3 then stOK else stCvv) [] none [] := by
  simp only [compCvv, verifies, if_true, beq_iff_eq]

end

/-! ### The ends of the jobs -/

section
variable {s u : State} {y : YokeId} {j : JobIx} {ev : LaneEv} {ty : Nat} {spec : State → Bytes → Tx → Bytes → Nat → LaneSpec}
  {t : Tx} {x : Job} {q : LJ} {comp : State → LJ → Comp} {st : BitVec 16} {inv : List LaneEv} {pin : List Nat}
  (h : LanePast s y j ev ty spec t x q)
include h

/-- The block of a job past its checks is the range that its descriptor names, its PAN that of its PARAM. -/
theorem past_inputField (fmt ofs : Nat) : inputField u q fmt ofs =
    pinField fmt q.k1.key (benchRange u y.val j.val (jIn x.desc)) (panDigits (jParam x.desc) ofs) := by
  obtain ⟨hy, hj, -, hd, -, -⟩ := past_fields h
  rw [inputField, LJ.inp, hy, hj, hd]

/-- A computation without output or sealed value ends its job with its status, whichever that is. -/
theorem runStatus (ends : comp (laneAt s y ev x q) q = .fin u st [] none inv) (checks : inv.contains ev = false) :
    laneRow ty spec comp y j ev s = .next (laneEnd u y.val j.val st []) := by
  by_cases ok : st = stOK
  · subst ok
    exact runFin h ends checks
  · exact runBad h ends checks ok

/-- A computation that waits for the drill leaves its job running, with its input read (R333). -/
theorem runWait (waits : comp (laneAt s y ev x q) q = .wait) :
    laneRow ty spec comp y j ev s = .next (modJob (laneIn s y ev x) y.val j.val fun k => { k with noRand := true }) := by
  obtain ⟨hy, hj, -⟩ := past_fields h
  rw [runLane_past h, waits, laneFinish, hy, hj]

theorem runSeal {b : Nat} (seals : comp (laneAt s y ev x q) q = sealComp (laneAt s y ev x q) q b q.k2.key pin inv)
    (checks : inv.contains ev = false) : EndsInBlock (laneAt s y ev x q) (laneIn s y ev x) y.val j.val b q.k2.key pin
      (panDigits (jParam x.desc) 2) (laneRow ty spec comp y j ev s) := by
  obtain ⟨hy, hj, -, hd, -, -⟩ := past_fields h
  rw [sealComp, sealPin, hy, hj, hd] at seals
  refine ⟨fun plain => ?plain, fun fill v drawn => ?filled, fun fill empty => ?waits⟩
  case plain =>
    rw [if_neg (by rw [plain]; decide)] at seals
    exact runFin h seals checks
  case filled =>
    rw [if_pos fill, drawn] at seals
    exact runFin h seals checks
  case waits =>
    rw [if_pos fill, empty] at seals
    exact runWait h seals

/-- A verdict ends its job; the inverse check applies where the PIN came from a block (R322, R339). -/
theorem runVerdict {good : Prop} [Decidable good] {bad : BitVec 16}
    (rules : comp (laneAt s y ev x q) q = verdict (laneAt s y ev x q) q (decide good) bad)
    (check : byteAt x.desc 4 = 0 → ev ≠ .decFail) :
    (good → laneRow ty spec comp y j ev s = .next (laneEnd (laneAt s y ev x q) y.val j.val stOK [])) ∧
    (¬ good → laneRow ty spec comp y j ev s = .next (laneEnd (laneAt s y ev x q) y.val j.val bad [])) := by
  have unmet : (if byteAt q.d 4 = 0 then [LaneEv.decFail] else []).contains ev = false := by
    obtain ⟨-, -, -, hd, -, -⟩ := past_fields h
    rw [hd]
    split_ifs with block
    · exact ne_contains1 (check block)
    · rfl
  refine ⟨fun yes => ?_, fun no => ?_⟩
  · rw [decide_eq_true yes] at rules
    exact runStatus h rules unmet
  · rw [decide_eq_false no] at rules
    exact runStatus h rules unmet

end

/-! ### The obligation on the PIN jobs, clause by clause -/

section
variable {s : State} {y : YokeId} {j : JobIx} {ev : LaneEv} {t : Tx} {x : Job} {q : LJ}

theorem pinXlate_ends (h : LanePast s y j ev 0x01 specXlate t x q) :
    let u := laneAt s y ev x q
    let a := byteAt (jParam x.desc) 0
    (∀ pin, decodePin a (inputField u q a 2) = some pin → PinFits t pin → ev ≠ .encFail → ev ≠ .decFail →
      EndsInBlock u (laneIn s y ev x) y.val j.val (byteAt (jParam x.desc) 1) q.k2.key pin (panDigits (jParam x.desc) 2)
        (exec (.pinXlate y j ev) s)) ∧
    (decodePin a (inputField u q a 2) = none → exec (.pinXlate y j ev) s = .next (laneEnd u y.val j.val stPinBlock [])) ∧
    (∀ pin, decodePin a (inputField u q a 2) = some pin → ¬ PinFits t pin →
      exec (.pinXlate y j ev) s = .next (laneEnd u y.val j.val stPolicy [])) := by
  obtain ⟨-, -, ht, hd, -, -⟩ := past_fields h
  rw [exec_pinXlate, execPinXlate, ← ht, ← hd]
  refine ⟨fun pin good fits enc dec => ?_, fun bad => ?_, fun pin good outside => ?_⟩
  · have block := runSeal h (compXlate_opened (openPin_fits good fits)) (ne_contains2 enc dec)
    rwa [← hd] at block
  · exact runStatus h (compXlate_failed (openPin_undecoded bad)) rfl
  · exact runStatus h (compXlate_failed (openPin_refused good outside)) rfl

theorem pinOpen_ends (h : LanePast s y j ev 0x02 specOpen t x q) :
    let u := laneAt s y ev x q
    let a := byteAt (jParam x.desc) 0
    (∀ pin, decodePin a (inputField u q a 2) = some pin → PinFits t pin → ev ≠ .decFail →
      exec (.pinOpen y j ev) s = .next (laneEnd (u.modCtx x.unit fun c => { c with
        seals := tset {} (byteAt x.desc 5 - 0x80) { tag := .pin pin.length, val := pin.map (BitVec.ofNat 8) } c.seals })
        y.val j.val stOK [])) ∧
    (decodePin a (inputField u q a 2) = none → exec (.pinOpen y j ev) s = .next (laneEnd u y.val j.val stPinBlock [])) ∧
    (∀ pin, decodePin a (inputField u q a 2) = some pin → ¬ PinFits t pin →
      exec (.pinOpen y j ev) s = .next (laneEnd u y.val j.val stPolicy [])) := by
  obtain ⟨-, -, ht, hd, hu, -⟩ := past_fields h
  rw [exec_pinOpen, execPinOpen, ← ht, ← hd, ← hu]
  refine ⟨fun pin good fits dec => ?_, fun bad => ?_, fun pin good outside => ?_⟩
  · exact runFin h (compOpen_opened (openPin_fits good fits)) (ne_contains1 dec)
  · exact runStatus h (compOpen_failed (openPin_undecoded bad)) rfl
  · exact runStatus h (compOpen_failed (openPin_refused good outside)) rfl

theorem pinReseal_ends (h : LanePast s y j ev 0x03 specReseal t x q) (enc : ev ≠ .encFail) :
    EndsInBlock (laneAt s y ev x q) (laneIn s y ev x) y.val j.val (byteAt (jParam x.desc) 1) q.k2.key (pinOf q.sin)
      (panDigits (jParam x.desc) 2) (exec (.pinReseal y j ev) s) := by
  obtain ⟨-, -, -, hd, -, -⟩ := past_fields h
  have block := runSeal h compReseal_seals (ne_contains1 enc)
  rwa [hd] at block

theorem cvv_ends (h : LanePast s y j ev 0x06 specCvv t x q) :
    let u := laneAt s y ev x q
    let p := jParam x.desc
    let v := cvvDigits q.k1.key q.k1.alg p
    (jVerify x.desc = false → exec (.cvv y j ev) s = .next (laneEnd u y.val j.val stOK (ofNibbles v))) ∧
    (jVerify x.desc = true → v = (nibbles (cut p 16 2)).take 3 → exec (.cvv y j ev) s = .next (laneEnd u y.val j.val stOK [])) ∧
    (jVerify x.desc = true → v ≠ (nibbles (cut p 16 2)).take 3 →
      exec (.cvv y j ev) s = .next (laneEnd u y.val j.val stCvv [])) := by
  obtain ⟨-, -, -, hd, -, -⟩ := past_fields h
  rw [exec_cvv, execCvv, ← hd]
  refine ⟨fun gives => ?gives, fun verifies same => ?same, fun verifies other => ?other⟩
  case gives => exact runFin h (compCvv_gives gives) rfl
  case same => rw [runStatus h (compCvv_verifies verifies) rfl, if_pos same]
  case other => rw [runStatus h (compCvv_verifies verifies) rfl, if_neg other]

end

/-- Settles O48, job by job: a PIN is opened or refused, sealed or waiting, and a verdict is the agreement of the digits. -/
theorem pinJobs : Obligations.PinJobs := by
  unfold Obligations.PinJobs
  refine ⟨fun s y j ev t x q => ⟨fun h => ?xlate, fun h => ?opens, fun h enc => pinReseal_ends h enc⟩,
    fun s y j ev t x q => ⟨fun pin opened check => ⟨fun h => ?natural, fun h => ?pvv⟩,
      fun st failed => ⟨fun h => ?noPin3624, fun h => ?noPinPvv⟩, fun h => cvv_ends h⟩⟩
  case xlate =>
    have ends := pinXlate_ends h
    simp only [past_inputField h] at ends
    exact ends
  case opens =>
    have ends := pinOpen_ends h
    simp only [past_inputField h] at ends
    exact ends
  case natural =>
    obtain ⟨hy, hj, -, hd, -, -⟩ := past_fields h
    have ends := runVerdict h (comp3624_verified opened) check
    simp only [naturalDigit, LJ.inp2, hy, hj, hd] at ends
    exact ends
  case pvv =>
    obtain ⟨-, -, -, hd, -, -⟩ := past_fields h
    have ends := runVerdict h (compPvv_verified opened) check
    rw [hd] at ends
    exact ends
  case noPin3624 => exact runStatus h (comp3624_failed failed) rfl
  case noPinPvv => exact runStatus h (compPvv_failed failed) rfl

end Sys2Proof.Machine
end

/-! SUPPORT. ARQC_ARPC and DUKPT_DERIVE past their checks (R292 to R295, R342 to R345): how a job ends that learns derived keys, and
what each outcome of its lookups and derivations comes to. -/

section
namespace Sys2Proof.Machine

theorem pair_of_snd {α β : Type} {p : α × β} {b : β} (h : p.2 = b) : p = (p.1, b) := Prod.ext rfl h

/-! ### The ends of a job that derives keys (R293 to R295) -/

section
variable {s w : State} {y : YokeId} {j : JobIx} {ev : LaneEv} {ty : Nat} {spec : State → Bytes → Tx → Bytes → Nat → LaneSpec}
  {t : Tx} {x : Job} {q : LJ} {comp : State → LJ → Comp} {st : BitVec 16} {out : Bytes} {sl : Option Sealed} {ls : List Learn}
  (h : LanePast s y j ev ty spec t x q)
include h

theorem laneConflict_past :
    laneConflict w q = laneEnd (noteLaneFault w (x.unit / 8) 3 t.plot ty) y.val j.val stConflict [] := by
  obtain ⟨hy, hj, ht, hd, hu, -⟩ := past_fields h
  rw [laneConflict, hy, hj, ht, hd, hu, laneReady_type h.2.2.1]

/-- A conflict met by a derivation ends the job, once the keys derived before it are learned. -/
theorem runConflict (comes : comp (laneAt s y ev x q) q = .conflict w ls) : laneRow ty spec comp y j ev s =
    .next (laneEnd (noteLaneFault (learnAll (x.unit / 8) ty ls w).1 (x.unit / 8) 3 t.plot ty) y.val j.val stConflict []) := by
  obtain ⟨-, -, -, hd, hu, -⟩ := past_fields h
  rw [runLane_past h, comes, laneFinish, hd, hu, laneReady_type h.2.2.1, laneConflict_past h]

theorem runConflict_first (comes : comp (laneAt s y ev x q) q = .conflict w []) : laneRow ty spec comp y j ev s =
    .next (laneEnd (noteLaneFault w (x.unit / 8) 3 t.plot ty) y.val j.val stConflict []) := by
  have ends := runConflict h comes
  rwa [learnAll] at ends

/-- A job whose inverse check does not fail learns its keys, then ends by its status or by a conflict. -/
theorem runDerived (comes : comp (laneAt s y ev x q) q = .derived w st out sl ls) (check : ls ≠ [] → ev ≠ .derFail) :
    laneRow ty spec comp y j ev s = .next
      (if (learnAll (x.unit / 8) ty ls w).2 = true then
        (if st = stOK then laneEnd (writeSeal (learnAll (x.unit / 8) ty ls w).1 q sl) y.val j.val st out
          else laneEnd (learnAll (x.unit / 8) ty ls w).1 y.val j.val st [])
      else laneConflict (learnAll (x.unit / 8) ty ls w).1 q) := by
  obtain ⟨hy, hj, -, hd, hu, hev⟩ := past_fields h
  have unmet : ¬ (!ls.isEmpty && ev == .derFail) = true := by
    simpa using check
  rw [runLane_past h, comes, laneFinish, hy, hj, hd, hu, hev, laneReady_type h.2.2.1, if_neg unmet]
  rcases learnAll (x.unit / 8) ty ls w with ⟨_, _ | _⟩ <;> rfl

theorem runDerived_ok (comes : comp (laneAt s y ev x q) q = .derived w stOK out sl ls) (check : ls ≠ [] → ev ≠ .derFail)
    (learned : (learnAll (x.unit / 8) ty ls w).2 = true) : laneRow ty spec comp y j ev s =
      .next (laneEnd (writeSeal (learnAll (x.unit / 8) ty ls w).1 q sl) y.val j.val stOK out) := by
  rw [runDerived h comes check, if_pos learned, if_pos rfl]

theorem runDerived_status (comes : comp (laneAt s y ev x q) q = .derived w st [] none ls) (check : ls ≠ [] → ev ≠ .derFail)
    (learned : (learnAll (x.unit / 8) ty ls w).2 = true) :
    laneRow ty spec comp y j ev s = .next (laneEnd (learnAll (x.unit / 8) ty ls w).1 y.val j.val st []) := by
  rw [runDerived h comes check, if_pos learned]
  exact congrArg _ (ite_self _)

theorem runDerived_conflict (comes : comp (laneAt s y ev x q) q = .derived w st out sl ls) (check : ls ≠ [] → ev ≠ .derFail)
    (refused : (learnAll (x.unit / 8) ty ls w).2 = false) : laneRow ty spec comp y j ev s =
      .next (laneEnd (noteLaneFault (learnAll (x.unit / 8) ty ls w).1 (x.unit / 8) 3 t.plot ty) y.val j.val stConflict []) := by
  rw [runDerived h comes check, if_neg (by rw [refused]; decide), laneConflict_past h]

end

/-! ### The keys of a card (R342) -/

/-- The derived name of a card's master key, from the PAN and PSN of PARAM. -/
def cardMasterName (q : LJ) (p : Bytes) : W64 :=
  derivedName 3 (identity q.k1.name q.k1.kcv ++ ofNibbles (panDigits p 2) ++ cut p 14 1)

/-- The master key of a card: found or derived. -/
def cardMaster (s : State) (q : LJ) (p : Bytes) : State × DKey :=
  deriveKey s q 0 (cardMasterName q p) 0x800 (Config.emvMaster (isAes q.k1.alg) q.k1.key (ofNibbles (emvDigits p)))

/-- The session key under a master key: found or derived. -/
def cardSession (s : State) (q : LJ) (p mk : Bytes) : State × DKey :=
  deriveKey s q 1 (derivedName 4 (identity (cardMasterName q p) (kcvSym q.k1.alg mk) ++ cut p 16 2)) 0x30
    (Config.emvSession (isAes q.k1.alg) mk (cut p 16 2))

section
variable {s w v : State} {q : LJ} {st : BitVec 16} {mk sk : Bytes} {l1 l2 ls : List Learn}

theorem compArqc_masterFails (master : cardMaster s q (jParam q.d) = (w, .fail st)) : compArqc s q = .fin w st [] none [] := by
  unfold cardMaster cardMasterName at master
  simp only [compArqc, master]

theorem compArqc_masterConflicts (master : cardMaster s q (jParam q.d) = (w, .conflict)) : compArqc s q = .conflict w [] := by
  unfold cardMaster cardMasterName at master
  simp only [compArqc, master]

section
variable (master : cardMaster s q (jParam q.d) = (w, .got mk l1))
include master

theorem compArqc_sessionFails (session : cardSession w q (jParam q.d) mk = (v, .fail st)) :
    compArqc s q = .derived v st [] none l1 := by
  unfold cardMaster cardMasterName at master
  unfold cardSession cardMasterName at session
  simp only [compArqc, master, session]

theorem compArqc_sessionConflicts (session : cardSession w q (jParam q.d) mk = (v, .conflict)) :
    compArqc s q = .conflict v l1 := by
  unfold cardMaster cardMasterName at master
  unfold cardSession cardMasterName at session
  simp only [compArqc, master, session]

theorem compArqc_session (session : cardSession w q (jParam q.d) mk = (v, .got sk l2)) :
    compArqc s q = arpc v q (isAes q.k1.alg) sk (l1 ++ l2) := by
  unfold cardMaster cardMasterName at master
  unfold cardSession cardMasterName at session
  simp only [compArqc, master, session]

end

theorem arpc_differs {aes : Bool} (differs : emvMac aes sk (q.inp s) ≠ q.inp2 s) :
    arpc s q aes sk ls = .derived s stCryptogram [] none ls := by
  simp only [arpc, bne_iff_ne, ne_eq, differs, not_false_eq_true, if_true]

/-- The ARPC of METHOD 1 is the cryptogram with the response code under the session key, that of METHOD 2 a MAC. -/
theorem arpc_matches {aes : Bool} (same : emvMac aes sk (q.inp s) = q.inp2 s) : arpc s q aes sk ls = .derived s stOK
    (if byteAt (jParam q.d) 0 = 1 then
      (if aes then (Config.aesEnc sk (xorBytes (q.inp2 s) (cut (jParam q.d) 18 2 ++ List.replicate 6 0) ++
          List.replicate 8 0)).take 8
        else tdesEnc sk (xorBytes (q.inp2 s) (cut (jParam q.d) 18 2 ++ List.replicate 6 0)))
      else (emvMac aes sk (q.inp2 s ++ cut (jParam q.d) 20 4 ++ cut (jParam q.d) 24 (byteAt (jParam q.d) 1))).take 4) none ls := by
  simp only [arpc, same, bne_self_eq_false, Bool.false_eq_true, if_false]

end

/-! ### The keys of a terminal (R343 to R345) -/

/-- The derived name of the working key of a KSN. -/
def workingName (q : LJ) (p : Bytes) : W64 := derivedName 2 (identity q.k1.name q.k1.kcv ++ ksn p)

/-- A PIN working key is looked up; any other is not. -/
def workingFound (s : State) (q : LJ) (p : Bytes) : State × DLook :=
  if byteAt p 0 = 0 then derivedLook s q 1 (workingName q p) else (s, .miss)

/-- The initial key of a KSN under a base derivation key: found or derived. -/
def initialKey (s : State) (q : LJ) (p : Bytes) : State × DKey :=
  deriveKey s q 0 (derivedName 1 (identity q.k1.name q.k1.kcv ++ ksnId p)) 0x80000
    (Config.dukptInitial (isAes q.k1.alg) q.k1.key (ksnId p))

/-- The working key that an initial key gives. -/
def workingOf (q : LJ) (p ik : Bytes) : Bytes := Config.dukptWorking (isAes q.k1.alg) ik (ksn p) (byteAt p 0)

/-- What is learned: a PIN working key, after the initial key where that was derived. -/
def workingLearns (plot : Nat) (q : LJ) (p ik : Bytes) (ls : List Learn) : List Learn :=
  if byteAt p 0 = 0 then ls ++ [derivedOf plot (workingName q p) q.k1.alg 0x80 (workingOf q p ik)] else ls

section
variable {s w v : State} {q : LJ} {st : BitVec 16} {ik wk : Bytes} {ls : List Learn}

theorem compDukpt_found (found : workingFound s q (jParam q.d) = (w, .key wk)) :
    compDukpt s q = .fin w stOK [] (some (workingKey q wk)) [] := by
  unfold workingFound workingName at found
  simp only [compDukpt, found]

theorem compDukpt_fails (found : workingFound s q (jParam q.d) = (w, .fail st)) : compDukpt s q = .fin w st [] none [] := by
  unfold workingFound workingName at found
  simp only [compDukpt, found]

section
variable (found : workingFound s q (jParam q.d) = (w, .miss))
include found

/-- A key that is no base derivation key is the initial key itself. -/
theorem compDukpt_initial (initial : hasAttr q.k1.attr 10 = false) :
    compDukpt s q = dukptFrom w q q.k1.key (workingName q (jParam q.d)) [] := by
  unfold workingFound workingName at found
  simp only [compDukpt, found, initial, Bool.false_eq_true, if_false, workingName]

section
variable (base : hasAttr q.k1.attr 10 = true)
include base

theorem compDukpt_initialFails (derived : initialKey w q (jParam q.d) = (v, .fail st)) :
    compDukpt s q = .fin v st [] none [] := by
  unfold workingFound workingName at found
  unfold initialKey at derived
  simp only [compDukpt, found, base, if_true, derived]

theorem compDukpt_initialConflicts (derived : initialKey w q (jParam q.d) = (v, .conflict)) :
    compDukpt s q = .conflict v [] := by
  unfold workingFound workingName at found
  unfold initialKey at derived
  simp only [compDukpt, found, base, if_true, derived]

theorem compDukpt_base (derived : initialKey w q (jParam q.d) = (v, .got ik ls)) :
    compDukpt s q = dukptFrom v q ik (workingName q (jParam q.d)) ls := by
  unfold workingFound workingName at found
  unfold initialKey at derived
  simp only [compDukpt, found, base, if_true, derived, workingName]

end
end

theorem dukptFrom_raced (pin : byteAt (jParam q.d) 0 = 0) (raced : q.ev = .race true) :
    dukptFrom w q ik (workingName q (jParam q.d)) ls = .conflict w ls := by
  simp only [dukptFrom, pin, raced, if_true]

theorem dukptFrom_learns (alone : q.ev ≠ .race true) (learns : workingLearns q.t.plot q (jParam q.d) ik ls ≠ []) :
    dukptFrom w q ik (workingName q (jParam q.d)) ls =
      .derived w stOK [] (some (workingKey q (workingOf q (jParam q.d) ik))) (workingLearns q.t.plot q (jParam q.d) ik ls) := by
  unfold workingLearns at learns ⊢
  by_cases pin : byteAt (jParam q.d) 0 = 0
  · simp only [dukptFrom, workingOf, pin, alone, if_true, if_false]
  · rw [if_neg pin] at learns
    simp only [dukptFrom, workingOf, pin, List.isEmpty_iff, learns, if_false]

theorem dukptFrom_plain (nothing : workingLearns q.t.plot q (jParam q.d) ik ls = []) :
    dukptFrom w q ik (workingName q (jParam q.d)) ls =
      .fin w stOK [] (some (workingKey q (workingOf q (jParam q.d) ik))) [.derFail] := by
  unfold workingLearns at nothing
  by_cases pin : byteAt (jParam q.d) 0 = 0
  · simp [pin] at nothing
  · rw [if_neg pin] at nothing
    simp only [dukptFrom, workingOf, pin, nothing, List.isEmpty_nil, if_true, if_false]

end

/-! ### The obligation on card and terminal keys, clause by clause -/

section
variable {s w v : State} {y : YokeId} {j : JobIx} {ev : LaneEv} {t : Tx} {x : Job} {q : LJ} {st : BitVec 16}

/-- Where a job ends whose derivation of type `ty` met a conflict, from the state with its keys learned (R295, R324). -/
abbrev conflictEnd (w : State) (y : YokeId) (j : JobIx) (t : Tx) (x : Job) (ty : Nat) : State :=
  laneEnd (noteLaneFault w (x.unit / 8) 3 t.plot ty) y.val j.val stConflict []

section
variable {mk sk : Bytes} {l1 l2 : List Learn} (h : LanePast s y j ev 0x07 specArqc t x q)
include h

theorem arqcArpc_masterFails (master : cardMaster (laneAt s y ev x q) q (jParam x.desc) = (w, .fail st)) :
    exec (.arqcArpc y j ev) s = .next (laneEnd w y.val j.val st []) := by
  obtain ⟨-, -, -, hd, -, -⟩ := past_fields h
  rw [← hd] at master
  rw [exec_arqcArpc, execArqcArpc]
  exact runStatus h (compArqc_masterFails master) rfl

theorem arqcArpc_masterConflicts (master : cardMaster (laneAt s y ev x q) q (jParam x.desc) = (w, .conflict)) :
    exec (.arqcArpc y j ev) s = .next (conflictEnd w y j t x 0x07) := by
  obtain ⟨-, -, -, hd, -, -⟩ := past_fields h
  rw [← hd] at master
  rw [exec_arqcArpc, execArqcArpc]
  exact runConflict_first h (compArqc_masterConflicts master)

section
variable (master : cardMaster (laneAt s y ev x q) q (jParam x.desc) = (w, .got mk l1))
include master

theorem arqcArpc_sessionConflicts (session : cardSession w q (jParam x.desc) mk = (v, .conflict)) :
    exec (.arqcArpc y j ev) s = .next (conflictEnd (learnAll (x.unit / 8) 0x07 l1 v).1 y j t x 0x07) := by
  obtain ⟨-, -, -, hd, -, -⟩ := past_fields h
  rw [← hd] at master session
  rw [exec_arqcArpc, execArqcArpc]
  exact runConflict h (compArqc_sessionConflicts master session)

theorem arqcArpc_sessionFails (session : cardSession w q (jParam x.desc) mk = (v, .fail st)) (check : l1 ≠ [] → ev ≠ .derFail)
    (learned : (learnAll (x.unit / 8) 0x07 l1 v).2 = true) :
    exec (.arqcArpc y j ev) s = .next (laneEnd (learnAll (x.unit / 8) 0x07 l1 v).1 y.val j.val st []) := by
  obtain ⟨-, -, -, hd, -, -⟩ := past_fields h
  rw [← hd] at master session
  rw [exec_arqcArpc, execArqcArpc]
  exact runDerived_status h (compArqc_sessionFails master session) check learned

/-- The verdict under a session key that is had: the derived keys are learned whether the cryptogram matches or not. -/
theorem arqcArpc_verdict (session : cardSession w q (jParam x.desc) mk = (v, .got sk l2))
    (check : l1 ++ l2 ≠ [] → ev ≠ .derFail) :
    let p := jParam x.desc
    let aes := isAes q.k1.alg
    let z := learnAll (x.unit / 8) 0x07 (l1 ++ l2) v
    let arqc := benchRange v y.val j.val (jIn2 x.desc)
    let mac := emvMac aes sk (benchRange v y.val j.val (jIn x.desc))
    let coded := xorBytes arqc (cut p 18 2 ++ List.replicate 6 0)
    (z.2 = false → exec (.arqcArpc y j ev) s = .next (conflictEnd z.1 y j t x 0x07)) ∧
    (z.2 = true →
      (mac ≠ arqc → exec (.arqcArpc y j ev) s = .next (laneEnd z.1 y.val j.val stCryptogram [])) ∧
      (mac = arqc → byteAt p 0 = 1 → exec (.arqcArpc y j ev) s = .next (laneEnd z.1 y.val j.val stOK
        (if aes then (Config.aesEnc sk (coded ++ List.replicate 8 0)).take 8 else tdesEnc sk coded))) ∧
      (mac = arqc → byteAt p 0 ≠ 1 → exec (.arqcArpc y j ev) s = .next (laneEnd z.1 y.val j.val stOK
        ((emvMac aes sk (arqc ++ cut p 20 4 ++ cut p 24 (byteAt p 1))).take 4)))) := by
  obtain ⟨hy, hj, -, hd, -, -⟩ := past_fields h
  rw [← hd] at master session
  have comes := compArqc_session master session
  have input : q.inp v = benchRange v y.val j.val (jIn x.desc) := by rw [LJ.inp, hy, hj, hd]
  have input2 : q.inp2 v = benchRange v y.val j.val (jIn2 x.desc) := by rw [LJ.inp2, hy, hj, hd]
  rw [exec_arqcArpc, execArqcArpc]
  intro p aes z arqc mac coded
  by_cases same : mac = arqc
  · have ends := comes.trans (arpc_matches (by rwa [input, input2]))
    rw [input2, hd] at ends
    refine ⟨runDerived_conflict h ends check, fun learned => ⟨fun other => absurd same other, fun _ one => ?_, fun _ two => ?_⟩⟩
    · rw [if_pos one] at ends
      exact runDerived_ok h ends check learned
    · rw [if_neg two] at ends
      exact runDerived_ok h ends check learned
  · have ends := comes.trans (arpc_differs (by rwa [input, input2]))
    exact ⟨runDerived_conflict h ends check, fun learned => ⟨fun _ => runDerived_status h ends check learned,
      fun yes => absurd yes same, fun yes => absurd yes same⟩⟩

end
end

/-- The state with a working key in the sealed register that the job's descriptor names, tagged for its usage (R251, R343). -/
def sealWorking (w : State) (x : Job) (q : LJ) (wk : Bytes) : State := w.modCtx x.unit fun c => { c with
  seals := tset {} (byteAt x.desc 5 - 0x80)
    { tag := .key (BitVec.ofNat 8 q.k1.alg) (usageAttr (byteAt (jParam x.desc) 0)) q.k1.expiry, val := wk } c.seals }

/-- How a DUKPT_DERIVE ends that has the initial key `ik` in state `w`, with `ls` to be learned before the working key: in a
conflict over a PIN working key, or with the keys learned and the working key in its sealed register (R345). -/
def EndsInWorkingKey (s : State) (y : YokeId) (j : JobIx) (ev : LaneEv) (t : Tx) (x : Job) (q : LJ) (w : State) (ik : Bytes)
    (ls : List Learn) : Prop :=
  let all := workingLearns t.plot q (jParam x.desc) ik ls
  let z := learnAll (x.unit / 8) 0x08 all w
  (byteAt (jParam x.desc) 0 = 0 → ev = .race true →
    exec (.dukptDerive y j ev) s = .next (conflictEnd (learnAll (x.unit / 8) 0x08 ls w).1 y j t x 0x08)) ∧
  (ev ≠ .derFail → ev ≠ .race true →
    (z.2 = true → exec (.dukptDerive y j ev) s = .next
      (laneEnd (sealWorking z.1 x q (workingOf q (jParam x.desc) ik)) y.val j.val stOK [])) ∧
    (z.2 = false → exec (.dukptDerive y j ev) s = .next (conflictEnd z.1 y j t x 0x08)))

section
variable {ik wk : Bytes} {ls : List Learn} (h : LanePast s y j ev 0x08 specDukpt t x q)
include h

theorem writeSeal_working (wk : Bytes) : writeSeal w q (some (workingKey q wk)) = sealWorking w x q wk := by
  obtain ⟨-, -, -, hd, hu, -⟩ := past_fields h
  rw [writeSeal, workingKey, sealWorking, hd, hu]

theorem dukptDerive_found (found : workingFound (laneAt s y ev x q) q (jParam x.desc) = (w, .key wk)) :
    exec (.dukptDerive y j ev) s = .next (laneEnd (sealWorking w x q wk) y.val j.val stOK []) := by
  obtain ⟨-, -, -, hd, -, -⟩ := past_fields h
  rw [← hd] at found
  rw [exec_dukptDerive, execDukptDerive, ← writeSeal_working h]
  exact runFin h (compDukpt_found found) rfl

theorem dukptDerive_fails (found : workingFound (laneAt s y ev x q) q (jParam x.desc) = (w, .fail st)) :
    exec (.dukptDerive y j ev) s = .next (laneEnd w y.val j.val st []) := by
  obtain ⟨-, -, -, hd, -, -⟩ := past_fields h
  rw [← hd] at found
  rw [exec_dukptDerive, execDukptDerive]
  exact runStatus h (compDukpt_fails found) rfl

/-- From the initial key on, the working key is learned where it is a PIN key, and goes to the sealed register. -/
theorem dukptDerive_onward (comes : compDukpt (laneAt s y ev x q) q = dukptFrom w q ik (workingName q (jParam q.d)) ls) :
    EndsInWorkingKey s y j ev t x q w ik ls := by
  obtain ⟨-, -, rfl, hd, -, hev⟩ := past_fields h
  unfold EndsInWorkingKey
  rw [exec_dukptDerive, execDukptDerive, ← hd]
  intro all z
  rw [← writeSeal_working h]
  refine ⟨fun pin raced => runConflict h (comes.trans (dukptFrom_raced pin (hev.trans raced))), fun holds alone => ?_⟩
  by_cases nothing : all = []
  · have ends := comes.trans (dukptFrom_plain nothing)
    have same : z = (w, true) := congrArg (learnAll (x.unit / 8) 0x08 · w) nothing
    rw [same]
    exact ⟨fun _ => runFin h ends (ne_contains1 holds), fun refused => Bool.noConfusion refused⟩
  · have ends := comes.trans (dukptFrom_learns (by rwa [hev]) nothing)
    have check : all ≠ [] → ev ≠ .derFail := fun _ => holds
    exact ⟨runDerived_ok h ends check, runDerived_conflict h ends check⟩

section
variable (found : workingFound (laneAt s y ev x q) q (jParam x.desc) = (w, .miss))
include found

theorem dukptDerive_initial (initial : hasAttr q.k1.attr 10 = false) : EndsInWorkingKey s y j ev t x q w q.k1.key [] := by
  obtain ⟨-, -, -, hd, -, -⟩ := past_fields h
  rw [← hd] at found
  exact dukptDerive_onward h (compDukpt_initial found initial)

section
variable (base : hasAttr q.k1.attr 10 = true)
include base

theorem dukptDerive_initialFails (derived : initialKey w q (jParam x.desc) = (v, .fail st)) :
    exec (.dukptDerive y j ev) s = .next (laneEnd v y.val j.val st []) := by
  obtain ⟨-, -, -, hd, -, -⟩ := past_fields h
  rw [← hd] at found derived
  rw [exec_dukptDerive, execDukptDerive]
  exact runStatus h (compDukpt_initialFails found base derived) rfl

theorem dukptDerive_initialConflicts (derived : initialKey w q (jParam x.desc) = (v, .conflict)) :
    exec (.dukptDerive y j ev) s = .next (conflictEnd v y j t x 0x08) := by
  obtain ⟨-, -, -, hd, -, -⟩ := past_fields h
  rw [← hd] at found derived
  rw [exec_dukptDerive, execDukptDerive]
  exact runConflict_first h (compDukpt_initialConflicts found base derived)

theorem dukptDerive_base (derived : initialKey w q (jParam x.desc) = (v, .got ik ls)) :
    EndsInWorkingKey s y j ev t x q v ik ls := by
  obtain ⟨-, -, -, hd, -, -⟩ := past_fields h
  rw [← hd] at found derived
  exact dukptDerive_onward h (compDukpt_base found base derived)

end
end
end

end

/-- Settles O49, key by key of each derivation. That an ARQC which does not match has learned its derived keys all the same is the
model's reading (log 139). -/
theorem cardAndTerminalKeys : Obligations.CardAndTerminalKeys := by
  unfold Obligations.CardAndTerminalKeys
  intro s y j ev t x q u p aes lane
  refine ⟨fun h => ⟨fun st fails => ?masterFails, fun conflicts => ?masterConflicts, fun mk l1 master =>
      ⟨fun conflicts => ?sessionConflicts, fun st fails check learned => ?sessionFails, fun sk l2 session check => ?verdict⟩⟩,
    fun h => ⟨fun wk found => ?found, fun st fails => ?fails, fun miss => ⟨fun initial => ?initial, fun base =>
      ⟨fun st fails => ?baseFails, fun conflicts => ?baseConflicts, fun ik ls derived => ?base⟩⟩⟩⟩
  case masterFails => exact arqcArpc_masterFails h (pair_of_snd fails)
  case masterConflicts => exact arqcArpc_masterConflicts h (pair_of_snd conflicts)
  case sessionConflicts => exact arqcArpc_sessionConflicts h (pair_of_snd master) (pair_of_snd conflicts)
  case sessionFails => exact arqcArpc_sessionFails h (pair_of_snd master) (pair_of_snd fails) check learned
  case verdict => exact arqcArpc_verdict h (pair_of_snd master) (pair_of_snd session) check
  case found => exact dukptDerive_found h (pair_of_snd found)
  case fails => exact dukptDerive_fails h (pair_of_snd fails)
  case initial => exact dukptDerive_initial h (pair_of_snd miss) initial
  case baseFails => exact dukptDerive_initialFails h (pair_of_snd miss) base (pair_of_snd fails)
  case baseConflicts => exact dukptDerive_initialConflicts h (pair_of_snd miss) base (pair_of_snd conflicts)
  case base => exact dukptDerive_base h (pair_of_snd miss) base (pair_of_snd derived)

end Sys2Proof.Machine
end

/-! SUPPORT. KB_UNWRAP and KB_WRAP past their checks (R259 to R268, R346, R347): what an authentic block without optional blocks
comes to, how its learning begins and ends, and how the wrapping of a key ends. -/

section
namespace Sys2Proof.Machine

/-! ### The wrapping of a key (R268, R347) -/

section
variable {s w : State} {y : YokeId} {j : JobIx} {ev : LaneEv} {ty : Nat} {spec : State → Bytes → Tx → Bytes → Nat → LaneSpec}
  {t : Tx} {x : Job} {q : LJ} {comp : State → LJ → Comp} {out pay : Bytes} {r : UsageRow}

/-- A wrapping whose inverse check holds writes its record and gives the block. -/
theorem runExported (h : LanePast s y j ev ty spec t x q) (comes : comp (laneAt s y ev x q) q = .exported w out pay)
    (check : ev ≠ .encFail) : laneRow ty spec comp y j ev s =
      .next (laneEnd (writeReserved (reserve w) 0x1011 t.plot pay) y.val j.val stOK out) := by
  obtain ⟨hy, hj, ht, -, -, hev⟩ := past_fields h
  rw [runLane_past h, comes, laneFinish, hy, hj, ht, hev, if_neg check]

theorem compWrap_exports (row : wrapRow q.k1 = some r) : compWrap s q = .exported (drawn s 32)
    (fit (wrapLen q.k1 r) (Config.kbSeal q.k2.key (wrapHeader s q.k1 r) (wrapData q.k1) (s.free + 16)))
    (le 8 q.k1.name.toNat ++ le 1 q.k1.alg ++ le 4 q.k1.attr.toNat ++ fit 3 q.k1.kcv) := by
  simp only [compWrap, row]

end

/-! ### The learning of an import (R277, R346, R520) -/

section
variable {s w : State} {l : Learn} {y j : Nat} {st : BitVec 16} {q : LJ}

theorem importDone_refused (notOk : st ≠ stOK) (notExisting : st ≠ stExisting) :
    importDone s y j l st = laneEnd (unreserve s) y j st [] := by
  rw [importDone, if_neg (not_or.mpr ⟨notOk, notExisting⟩)]

section
variable (unshared : l.shared = false)
include unshared

theorem sharedOk_unshared : sharedOk s l = true := by
  rw [sharedOk, unshared]
  rfl

theorem sharedLearn_unshared : sharedLearn s l = (s, l) := by
  rw [sharedLearn, unshared, if_neg Bool.false_ne_true]

theorem shareOut_unshared : shareOut s l = s := by
  rw [shareOut, unshared]
  rfl

/-- The record of an import is written where its key is learned, or stands already. -/
theorem importDone_learned (good : st = stOK ∨ st = stExisting) :
    importDone s y j l st = laneEnd (writeReserved s 0x1010 l.plot (keyPayload l.name l.slot)) y j st l.slot.kcv := by
  rw [importDone, if_pos good, shareOut_unshared unshared, ite_self]

section
variable (symmetric : l.slot.asym = false)
include symmetric

theorem importStart_ends (learned : learnFor (reserve s) l (.laneJob q.y q.j) = (w, some st)) :
    importStart s q l = importDone w q.y q.j l st := by
  simp only [importStart, sharedOk_unshared unshared, sharedLearn_unshared unshared, symmetric, learned, Bool.not_true,
    Bool.false_and, Bool.false_eq_true, if_false]

theorem importStart_waits (waits : learnFor (reserve s) l (.laneJob q.y q.j) = (w, none)) :
    importStart s q l = modJob w q.y q.j fun k =>
      { k with st := .learning, reserved := true, noRand := vaultWaits s l && (plotGen s l.plot).isNone } := by
  simp only [importStart, sharedOk_unshared unshared, sharedLearn_unshared unshared, symmetric, waits, Bool.not_true,
    Bool.false_and, Bool.false_eq_true, if_false]

end
end
end

/-! ### What an import comes to (R259 to R267) -/

/-- An authentic block whose header Table 7.3 gives as a symmetric key's, without optional blocks: `base` are the attributes of its
usage and mode, `a` the ALG of its key. -/
structure PlainBlock (b clear : Bytes) (base a : Nat) (key : Bytes) : Prop where
  header    : headerOk b = true
  optional  : decAt b 12 2 = some 0
  usage     : usageBits (two (chr b 5) (chr b 6)) (chr b 7) (chr b 8) = some base
  versionB  : chr b 0 = 66 → chr b 7 = cT
  notRsa    : chr b 7 ≠ cR
  notEc     : chr b 7 ≠ cE
  bits      : beNat (clear.take 2) = 8 * key.length
  material  : (clear.drop 2).take key.length = key
  algorithm : symAlg (chr b 7) key.length = some a

/-- The header D0016D0AB00E0000 over a key of 16 bytes is one such block. -/
theorem witness_plainBlock : PlainBlock [68, 48, 48, 49, 54, 68, 48, 65, 66, 48, 48, 69, 48, 48, 48, 48]
    (be 2 128 ++ List.replicate 16 1) 0x3 0x10 (List.replicate 16 1) := by
  constructor <;> decide

/-- The slot of such a key: the mask of its header, no expiry. -/
def importSlot (b : Bytes) (base a : Nat) (key : Bytes) : Slot :=
  symSlot a key (importMask (two (chr b 5) (chr b 6)) (chr b 7) base (chr b 11) none) 0

/-- The usages B0 and B1, under which a policy set must allow derivation (R267). -/
def derivesKeys (b : Bytes) : Bool := chr b 5 == 66 && (chr b 6 == 48 || chr b 6 == 49)

/-- What an import that PARAM does not ask to share learns. -/
def importLearn (plot : Nat) (p : Bytes) (sl : Slot) : Learn :=
  { plot := plot, name := BitVec.ofNat 64 (fld p 0 8), slot := sl, age := BitVec.ofNat 3 (byteAt p 8), pinned := bit (byteAt p 9) 0 }

/-- A version that is known and suits the key's algorithm passes the two checks of causes 0 and 1. -/
theorem version_suits {v : Nat} {aes : Bool} (version : v = 68 ∨ v = 66) (suits : v = 68 ↔ aes = true) :
    ¬ (v ≠ 68 ∧ v ≠ 66) ∧ ¬ ((v == 68) != aes) = true := by
  refine ⟨fun unknown => version.elim unknown.1 unknown.2, ?_⟩
  rw [bne_iff_ne, not_not, Bool.eq_iff_iff, beq_iff_eq, suits]

section
variable {s : State} {q : LJ} {clear key : Bytes} {base a mask : Nat}

section
variable (version : chr (q.inp s) 0 = 68 ∨ chr (q.inp s) 0 = 66) (suits : chr (q.inp s) 0 = 68 ↔ isAes q.k1.alg = true)
include version suits

/-- A block whose version is known and suits the key is decided by its authentication. -/
theorem compUnwrap_unauthentic (opened : Config.kbOpen (chr (q.inp s) 0 == 68) q.k1.key (q.inp s) = none) :
    compUnwrap s q = rejectBlock s 2 stBlock := by
  obtain ⟨known, fits⟩ := version_suits version suits
  simp only [compUnwrap, if_neg known, if_neg fits, opened]

theorem compUnwrap_plain (opened : Config.kbOpen (chr (q.inp s) 0 == 68) q.k1.key (q.inp s) = some clear)
    (plain : PlainBlock (q.inp s) clear base a key) :
    compUnwrap s q = importKey s q (q.inp s)
      (importMask (two (chr (q.inp s) 5) (chr (q.inp s) 6)) (chr (q.inp s) 7) base (chr (q.inp s) 11) none) {} clear := by
  obtain ⟨known, fits⟩ := version_suits version suits
  have tdes : ¬ (chr (q.inp s) 0 = 66 ∧ chr (q.inp s) 7 ≠ cT) := fun no => no.2 (plain.versionB no.1)
  simp only [compUnwrap, if_neg known, if_neg fits, opened, plain.header, plain.usage, if_neg tdes, plain.optional,
    Option.getD_some, optBlocks, Bool.not_true, Bool.false_eq_true, if_false, Option.isSome_none, Bool.false_and]

end

/-- The key of such a block is learned where it is not weak and the plot's active policy set admits it. -/
theorem importKey_plain {b : Bytes} (plain : PlainBlock b clear base a key) (strong : weakSlot (symSlot a key mask 0) = false)
    (admitted : policyAdmits (s.plot q.t.plot).active a (derivesKeys b) 0 = true) (unshared : byteAt (jParam q.d) 9 < 2) :
    importKey s q b mask {} clear = .learn s (importLearn q.t.plot (jParam q.d) (symSlot a key mask 0)) [.decFail] := by
  have whole : beNat (clear.take 2) % 8 = 0 := by rw [plain.bits]; exact Nat.mul_mod_right 8 _
  have length : beNat (clear.take 2) / 8 = key.length := by rw [plain.bits]; exact Nat.mul_div_right _ (by decide)
  have symmetric : ¬ (chr b 7 = cR ∨ chr b 7 = cE) := not_or.mpr ⟨plain.notRsa, plain.notEc⟩
  have unset : bit (byteAt (jParam q.d) 9) 1 = false := Nat.testBit_lt_two_pow unshared
  unfold derivesKeys at admitted
  rw [BitVec.ofNat_eq_ofNat] at strong
  simp [importKey, whole, length, plain.material, symmetric, plain.algorithm, strong, admitted, unset, importLearn]

end

/-! ### The obligation on key-block jobs, clause by clause -/

section
variable {s w : State} {y : YokeId} {j : JobIx} {ev : LaneEv} {t : Tx} {x : Job} {q : LJ} {st : BitVec 16}

theorem kbWrap_exports {r : UsageRow} (h : LanePast s y j ev 0x0A specWrap t x q) (check : ev ≠ .encFail)
    (row : wrapRow q.k1 = some r) :
    let u := laneAt s y ev x q
    exec (.kbWrap y j ev) s = .next (laneEnd (writeReserved (reserve (drawn u 32)) 0x1011 t.plot
      (le 8 q.k1.name.toNat ++ le 1 q.k1.alg ++ le 4 q.k1.attr.toNat ++ fit 3 q.k1.kcv)) y.val j.val stOK
      (fit (wrapLen q.k1 r) (Config.kbSeal q.k2.key (wrapHeader u q.k1 r) (wrapData q.k1) (u.free + 16)))) := by
  rw [exec_kbWrap, execKbWrap]
  exact runExported h (compWrap_exports row) check

section
variable {clear key : Bytes} {base a : Nat} (h : LanePast s y j ev 0x09 specUnwrap t x q)
include h

theorem past_block : q.inp w = benchRange w y.val j.val (jIn x.desc) := by
  obtain ⟨hy, hj, -, hd, -, -⟩ := past_fields h
  rw [LJ.inp, hy, hj, hd]

theorem kbUnwrap_unauthentic {b : Bytes} (block : b = q.inp (laneAt s y ev x q)) (version : chr b 0 = 68 ∨ chr b 0 = 66)
    (suits : chr b 0 = 68 ↔ isAes q.k1.alg = true) (opened : Config.kbOpen (chr b 0 == 68) q.k1.key b = none) :
    let u := laneAt s y ev x q
    exec (.kbUnwrap y j ev) s =
      .next (laneEnd { u with kp := { u.kp with kbRej := bumpAt u.kp.kbRej 2 } } y.val j.val stBlock []) := by
  subst block
  rw [exec_kbUnwrap, execKbUnwrap]
  exact runStatus h (compUnwrap_unauthentic version suits opened) rfl

/-- An authentic plain block begins the import of its key. -/
theorem kbUnwrap_plain {b : Bytes} (block : b = q.inp (laneAt s y ev x q)) (version : chr b 0 = 68 ∨ chr b 0 = 66)
    (suits : chr b 0 = 68 ↔ isAes q.k1.alg = true) (opened : Config.kbOpen (chr b 0 == 68) q.k1.key b = some clear)
    (plain : PlainBlock b clear base a key) (check : ev ≠ .decFail) (strong : weakSlot (importSlot b base a key) = false)
    (admitted : policyAdmits ((laneAt s y ev x q).plot t.plot).active a (derivesKeys b) 0 = true)
    (unshared : byteAt (jParam x.desc) 9 < 2) :
    exec (.kbUnwrap y j ev) s = .next (importStart (laneAt s y ev x q) q
      (importLearn t.plot (jParam x.desc) (importSlot b base a key))) := by
  subst block
  obtain ⟨-, -, rfl, hd, -, -⟩ := past_fields h
  rw [← hd] at unshared ⊢
  rw [exec_kbUnwrap, execKbUnwrap]
  exact runLearn h ((compUnwrap_plain version suits opened plain).trans (importKey_plain plain strong admitted unshared))
    (ne_contains1 check)

end
end

/-- Settles O51: a plain block is imported by what its learning answers. That the plot's active policy set decides as the key is
learned is the model's choice (log 114). -/
theorem keyBlockJobs : Obligations.KeyBlockJobs := by
  unfold Obligations.KeyBlockJobs
  intro s y j ev t x q u p b
  refine ⟨fun h version suits => ⟨fun opened => ?unauthentic, ?authentic⟩, fun h check r row => ?wrap⟩
  case unauthentic => exact kbUnwrap_unauthentic h (past_block h).symm version suits opened
  case authentic =>
    intro clear base a key opened header optional usage versionB notRsa notEc bits material algorithm check sl derives strong
      admitted unshared l g
    obtain ⟨hy, hj, -⟩ := past_fields h
    have imports := kbUnwrap_plain h (past_block h).symm version suits opened
      ⟨header, optional, usage, versionB, notRsa, notEc, bits, material, algorithm⟩ check strong admitted unshared
    have ended {st : BitVec 16} (learned : g.2 = some st) : importStart u q l = importDone g.1 y.val j.val l st := by
      rw [importStart_ends (l := l) rfl rfl (by rw [hy, hj]; exact pair_of_snd learned), hy, hj]
    refine ⟨fun st learned good => ?learned, fun st learned notOk notExisting => ?refused, fun waits => ?waits⟩
    case learned => exact imports.trans (congrArg _ ((ended learned).trans (importDone_learned rfl good)))
    case refused => exact imports.trans (congrArg _ ((ended learned).trans (importDone_refused notOk notExisting)))
    case waits =>
      have begun := importStart_waits (s := u) (q := q) (l := l) rfl rfl (by rw [hy, hj]; exact pair_of_snd waits)
      rw [hy, hj] at begun
      exact imports.trans (congrArg _ begun)
  case wrap => exact kbWrap_exports h check row

end Sys2Proof.Machine
end

/-! SUPPORT. The common course of a lane job (R249, R321 to R323): the checks of Table 8.1 in their order, what the end of a job
leaves to its transaction and its context, and the fault of an inverse check that fails. -/

section
namespace Sys2Proof.Machine

/-! ### The checks of Table 8.1 -/

theorem any_missing {t : Tx} {d : Bytes} : (namedHandles t d).any (·.isNone) = true ↔ none ∈ namedHandles t d := by
  simp [List.any_eq_true]

/-- The TDES and DUKPT policy of a transaction admits a job. -/
abbrev TdesAdmitted (t : Tx) (sp : LaneSpec) : Prop :=
  bit (polAlg t.policy) 0 = true ∧ (sp.dukpt = true → bit (polAlg t.policy) 1 = true)

section
variable {s : State} {y j u : Nat} {t : Tx} {d : Bytes} {ev : LaneEv} {sp : LaneSpec}

theorem laneGate_malformed (malformed : laneStatic sp d = false) : laneGate s y j t d u ev sp = (s, .error stPolicy) :=
  if_pos (by rw [malformed]; rfl)

section
variable (static : laneStatic sp d = true)
include static

theorem laneGate_missing (missing : none ∈ namedHandles t d) :
    laneGate s y j t d u ev sp = (s, .error stKeyNotFound) := by
  rw [laneGate, if_neg (by rw [static]; decide), if_pos (any_missing.mpr missing)]

section
variable (held : none ∉ namedHandles t d)
include held

theorem laneGate_untagged {i : Nat} (bad : badTag s t d ev = some i) :
    laneGate s y j t d u ev sp = (tagFailure s i, .error stUsage) := by
  rw [laneGate, if_neg (by rw [static]; decide), if_neg (mt any_missing.mp held), bad]

/-- Steps 5 to 9: with its keys fetched, a job is decided by their expiry and attributes, the policy of its transaction and the
room in the recorder. -/
theorem laneGate_fetched (tags : badTag s t d ev = none) :
    let ks := laneKeys s t d u
    let sin := if byteAt d 4 = 0 then {} else sealReg s u (byteAt d 4)
    let tdes := (sp.k1 && isTdes ks.1.alg) || (sp.k2 && isTdes ks.2.alg)
    laneGate s y j t d u ev sp =
      if (sp.k1 = true ∧ expired s ks.1.expiry = true) ∨ (sp.k2 = true ∧ expired s ks.2.expiry = true) then
        (s, .error stExpired)
      else if sp.use ks.1 ks.2 sin = false then (s, .error stUsage)
      else if tdes = true ∧ ¬ TdesAdmitted t sp then (s, .error stPolicy)
      else if sp.pin = false then (s, .error stPinFormat)
      else if sp.record = true ∧ auditRoom s = false then (s, .error stAudit)
      else (s, .ok { y := y, j := j, t := t, d := d, u := u, k1 := ks.1, k2 := ks.2, sin := sin, ev := ev }) := by
  intro ks sin tdes
  have policy : (bit (polAlg t.policy) 0 = false ∨ sp.dukpt = true ∧ bit (polAlg t.policy) 1 = false) ↔
      ¬ TdesAdmitted t sp := by
    simp [TdesAdmitted, imp_iff_not_or]
  rw [laneGate, if_neg (by rw [static]; decide), if_neg (mt any_missing.mp held), tags]
  simp only [Bool.or_eq_true, Bool.and_eq_true, Bool.not_eq_true', policy, ks, sin, tdes]

end
end
end

/-! ### The end of a lane job (R249) -/

/-- A job as it has ended with a status. -/
def endedJob (x : Job) (st : BitVec 16) (out : Bytes) : Job :=
  { x with st := .ended, status := st, noRand := false, reserved := false,
           out := if st = stOK ∨ st = stExisting then out else [] }

/-- A context as job (y, j) leaves it to the transaction. -/
def passedOn (y j : Nat) (t : Tx) (c : LaneCtx) : LaneCtx :=
  if c.job = some (y, j) then { c with job := if c.bound = .tx y then (nextSeal t).map fun n => (y, n) else none } else c

section
variable {c : LaneCtx} {t : Tx} {y j : Nat}

theorem passedOn_bound : (passedOn y j t c).bound = c.bound := by
  unfold passedOn
  split_ifs <;> rfl

theorem passedOn_next (own : c.job = some (y, j)) (bound : c.bound = .tx y) :
    (passedOn y j t c).job = (nextSeal t).map fun n => (y, n) := by
  rw [passedOn, if_pos own, if_pos bound]

theorem passedOn_free (own : c.job = some (y, j)) (unbound : c.bound ≠ .tx y) : (passedOn y j t c).job = none := by
  rw [passedOn, if_pos own, if_neg unbound]

end

/-- A context that was changed, in a canonical table. -/
theorem State.modCtx_ctx_same {s : State} {i : Nat} (h : twf LaneCtx.zero s.lan.ctx = true) (f : LaneCtx → LaneCtx) :
    (s.modCtx i f).ctx i = f (s.ctx i) := tget_tset_same h

section
variable {s : State} {y j : Nat} {t : Tx} {x : Job} {st : BitVec 16} {out : Bytes} (tx : s.tx y = some t)
  (job : t.job j = some x)
include tx job

/-- Besides the count of jobs, the end of a job changes its transaction and its context. -/
theorem laneEnd1_parts :
    let t1 := t.setJob j (some (endedJob x st out))
    (laneEnd1 s y j st out).yokes = (s.modYoke y fun k => { k with tx := some t1 }).yokes ∧
    (laneEnd1 s y j st out).lan.ctx = (s.modCtx x.unit (passedOn y j t1)).lan.ctx := by
  simp only [laneEnd1, tx, job]
  cases laneType x.desc <;> exact ⟨rfl, rfl⟩

theorem laneEnd1_tx (canonical : twf Yoke.zero s.yokes = true) :
    (laneEnd1 s y j st out).tx y = some (t.setJob j (some (endedJob x st out))) := by
  obtain ⟨yokes, -⟩ := laneEnd1_parts (st := st) (out := out) tx job
  rw [State.tx, State.yoke, yokes]
  exact congrArg Yoke.tx (State.modYoke_yoke_same s canonical _)

theorem laneEnd1_ctx (canonical : twf LaneCtx.zero s.lan.ctx = true) :
    (laneEnd1 s y j st out).ctx x.unit = passedOn y j (t.setJob j (some (endedJob x st out))) (s.ctx x.unit) := by
  obtain ⟨-, ctx⟩ := laneEnd1_parts (st := st) (out := out) tx job
  rw [State.ctx, ctx]
  exact State.modCtx_ctx_same canonical _

end

/-! ### The inverse checks (R322, R323) -/

/-- A computation whose inverse checks include the one that the event fails; `r` is the state that it leaves. -/
def FailsCheck (result : Comp) (ev : LaneEv) (r : State) : Prop :=
  (∃ st out sl inv, result = .fin r st out sl inv ∧ ev ∈ inv) ∨
  (∃ st out sl ls, result = .derived r st out sl ls ∧ ls ≠ [] ∧ ev = .derFail) ∨
  (∃ out pay, result = .exported r out pay ∧ ev = .encFail) ∨
  (∃ l inv, result = .learn r l inv ∧ ev ∈ inv)

/-- Whatever it would release or learn, such a computation ends in the lane fault. -/
theorem laneFinish_faults {s r : State} {q : LJ} {ev : LaneEv} {result : Comp} (met : q.ev = ev)
    (fails : FailsCheck result ev r) :
    laneFinish s q result = laneFault r q.y (q.u / 8) (faultKind ev) q.t.plot (jType q.d) := by
  subst met
  rcases fails with ⟨st, out, sl, inv, rfl, check⟩ | ⟨st, out, sl, ls, rfl, learns, check⟩ | ⟨out, pay, rfl, check⟩ |
    ⟨l, inv, rfl, check⟩
  · exact if_pos (List.contains_iff_mem.mpr check)
  · exact if_pos (by simp [learns, check])
  · exact if_pos check
  · exact if_pos (List.contains_iff_mem.mpr check)

theorem laneRow_faults {s r : State} {y : YokeId} {j : JobIx} {ev : LaneEv} {ty : Nat}
    {spec : State → Bytes → Tx → Bytes → Nat → LaneSpec} {comp : State → LJ → Comp} {t : Tx} {x : Job} {q : LJ}
    (h : LanePast s y j ev ty spec t x q) (fails : FailsCheck (comp (laneAt s y ev x q) q) ev r) :
    laneRow ty spec comp y j ev s = .next (laneFault r y.val (x.unit / 8) (faultKind ev) t.plot ty) := by
  obtain ⟨hy, -, ht, hd, hu, hev⟩ := past_fields h
  rw [runLane_past h, laneFinish_faults hev fails, hy, ht, hd, hu, laneReady_type h.2.2.1]

/-- A lane job by its command, its TYPE, its specification and its computation. -/
abbrev JobRow : Type :=
  (YokeId → JobIx → LaneEv → Instr) × Nat × (State → Bytes → Tx → Bytes → Nat → LaneSpec) × (State → LJ → Comp)

/-- The lane jobs to which an inverse check can apply (R322). -/
def checkedRows : List JobRow :=
  [(.pinXlate, 0x01, specXlate, compXlate), (.pinOpen, 0x02, specOpen, compOpen), (.pinReseal, 0x03, specReseal, compReseal),
   (.pinVer3624, 0x04, spec3624, comp3624), (.pinVerPvv, 0x05, specPvv, compPvv), (.arqcArpc, 0x07, specArqc, compArqc),
   (.dukptDerive, 0x08, specDukpt, compDukpt), (.kbUnwrap, 0x09, specUnwrap, compUnwrap), (.kbWrap, 0x0A, specWrap, compWrap)]

theorem checkedRows_exec (y : YokeId) (j : JobIx) (ev : LaneEv) (s : State) :
    ∀ row ∈ checkedRows, exec (row.1 y j ev) s = laneRow row.2.1 row.2.2.1 row.2.2.2 y j ev s := by
  simp only [checkedRows, List.forall_mem_cons, List.not_mem_nil, false_imp_iff, implies_true, and_true]
  refine ⟨?_, ?_, ?_, ?_, ?_, ?_, ?_, ?_, ?_⟩ <;> rfl

/-! ### The obligation, part by part -/

/-- The first check that fails decides; a job that passes them all goes on with its keys and its sealed input. -/
theorem laneGate_checks (s : State) (y j u : Nat) (t : Tx) (d : Bytes) (ev : LaneEv) (sp : LaneSpec) :
    let gate := laneGate s y j t d u ev sp
    let ks := laneKeys s t d u
    let sin := if byteAt d 4 = 0 then {} else sealReg s u (byteAt d 4)
    let tdes := (sp.k1 && isTdes ks.1.alg) || (sp.k2 && isTdes ks.2.alg)
    let late := (sp.k1 = true ∧ expired s ks.1.expiry = true) ∨ (sp.k2 = true ∧ expired s ks.2.expiry = true)
    (laneStatic sp d = false → gate = (s, .error stPolicy)) ∧
    (laneStatic sp d = true → none ∈ namedHandles t d → gate = (s, .error stKeyNotFound)) ∧
    (laneStatic sp d = true → none ∉ namedHandles t d → ∀ i, badTag s t d ev = some i →
      gate = (tagFailure s i, .error stUsage)) ∧
    (laneStatic sp d = true → none ∉ namedHandles t d → badTag s t d ev = none →
      (late → gate = (s, .error stExpired)) ∧
      (¬ late →
        (sp.use ks.1 ks.2 sin = false → gate = (s, .error stUsage)) ∧
        (sp.use ks.1 ks.2 sin = true →
          (tdes = true ∧ ¬ TdesAdmitted t sp → gate = (s, .error stPolicy)) ∧
          (¬(tdes = true ∧ ¬ TdesAdmitted t sp) →
            (sp.pin = false → gate = (s, .error stPinFormat)) ∧
            (sp.pin = true → sp.record = true → auditRoom s = false → gate = (s, .error stAudit)) ∧
            (sp.pin = true → (sp.record = true → auditRoom s = true) →
              gate = (s, .ok { y := y, j := j, t := t, d := d, u := u, k1 := ks.1, k2 := ks.2, sin := sin, ev := ev })))))) := by
  intro gate ks sin tdes late
  refine ⟨laneGate_malformed, laneGate_missing, fun static held i => laneGate_untagged static held, fun static held tags => ?_⟩
  have fetched := laneGate_fetched (s := s) (y := y) (j := j) (u := u) static held tags
  refine ⟨fun past => ?expiry, fun inTime => ⟨fun unfit => ?attributes, fun fits => ⟨fun barred => ?policy, fun admitted =>
    ⟨fun format => ?pin, fun format records full => ?audit, fun format room => ?passes⟩⟩⟩⟩
  case expiry => exact fetched.trans (if_pos past)
  all_goals replace fetched := fetched.trans (if_neg inTime)
  case attributes => exact fetched.trans (if_pos unfit)
  all_goals replace fetched := fetched.trans (if_neg (Bool.eq_false_iff.not.mpr (not_not.mpr fits)))
  case policy => exact fetched.trans (if_pos barred)
  all_goals replace fetched := fetched.trans (if_neg admitted)
  case pin => exact fetched.trans (if_pos format)
  all_goals replace fetched := fetched.trans (if_neg (Bool.eq_false_iff.not.mpr (not_not.mpr format)))
  case audit => exact fetched.trans (if_pos ⟨records, full⟩)
  case passes => exact fetched.trans (if_neg fun full => absurd (room full.1) (by rw [full.2]; decide))

/-- Settles O47: the checks in their order, the ended job and its context, and the one fault of every inverse check. That the
requests which the job made of the drill stay made is the model's reading (log 57). -/
theorem laneChecksAndFaults : Obligations.LaneChecksAndFaults := by
  unfold Obligations.LaneChecksAndFaults
  refine ⟨⟨fun s y j u t d ev sp => laneGate_checks s y j u t d ev sp, fun s y j t x st out yokes contexts tx job => ?ends⟩,
    fun c ty spec comp row s y j ev t x q h r fails => ?faults⟩
  case ends =>
    intro u t1
    have ended : u.tx y = some t1 := laneEnd1_tx tx job yokes
    have ctx : u.ctx x.unit = passedOn y j t1 (s.ctx x.unit) := laneEnd1_ctx tx job contexts
    rw [ctx]
    exact ⟨ended, passedOn_bound, passedOn_next, passedOn_free, fun named => endUnknown_named ended named 8⟩
  case faults => exact (checkedRows_exec y j ev s _ row).trans (laneRow_faults h fails)

end Sys2Proof.Machine
end

/-! SUPPORT. The MAC, hash and cipher jobs past their checks (R348 to R352): what each computation comes to and how its job
ends. -/

section
namespace Sys2Proof.Machine

/-! ### Jobs in parts (R348, R349) -/

/-- The message of a job in parts: what the earlier parts supplied, and the job's own input. -/
def partsMessage (s : State) (q : LJ) (at' : Nat) : Bytes :=
  (if byteAt (jParam q.d) at' = 2 ∨ byteAt (jParam q.d) at' = 3 then q.sin.parts else []) ++ q.inp s

/-- The sealed register after a first or middle part. -/
def runningState (ty : Nat) (k : KeyV) (param msg : Bytes) : Sealed :=
  { tag := .state ty k.ref k.id param, parts := msg, val := fit 32 (Config.runState ty k.key param msg) }

section
variable {s : State} {q : LJ} {ty at' len : Nat} {f : LJ → Bytes → Bytes}

theorem compParts_continues (more : byteAt (jParam q.d) at' = 1 ∨ byteAt (jParam q.d) at' = 2) :
    compParts ty at' len f s q =
      .fin s stOK [] (some (runningState ty q.k1 ((jParam q.d).set at' 0) (partsMessage s q at'))) [] :=
  if_pos more

section
variable (last : ¬ (byteAt (jParam q.d) at' = 1 ∨ byteAt (jParam q.d) at' = 2))
include last

theorem compParts_gives (gives : jVerify q.d = false) :
    compParts ty at' len f s q = .fin s stOK ((f q (partsMessage s q at')).take len) none [] :=
  (if_neg last).trans (if_neg (by rw [gives]; decide))

section
variable (verifies : jVerify q.d = true)
include verifies

theorem compParts_agrees (same : (f q (partsMessage s q at')).take len = q.inp2 s) :
    compParts ty at' len f s q = .fin s stOK [] none [] :=
  (if_neg last).trans ((if_pos verifies).trans (congrArg (Comp.fin s · [] none []) (if_pos (beq_iff_eq.mpr same))))

theorem compParts_differs (other : (f q (partsMessage s q at')).take len ≠ q.inp2 s) :
    compParts ty at' len f s q = .fin s stMac [] none [] :=
  (if_neg last).trans ((if_pos verifies).trans (congrArg (Comp.fin s · [] none []) (if_neg (mt beq_iff_eq.mp other))))

end
end
end

/-- How a job in parts ends: with the running state in its sealed register, with its value, or with its verdict. -/
def EndsPart (u : State) (y j : Nat) (x : Job) (q : LJ) (ty at' len : Nat) (f : Bytes → Bytes)
    (r : Host.Outcome State Fault Refusal) : Prop :=
  let part := byteAt (jParam x.desc) at'
  let msg := (if part = 2 ∨ part = 3 then q.sin.parts else []) ++ benchRange u y j (jIn x.desc)
  let v := (f msg).take len
  (part = 1 ∨ part = 2 → r = .next (laneEnd (u.modCtx x.unit fun c => { c with
    seals := tset {} (byteAt x.desc 5 - 0x80) (runningState ty q.k1 ((jParam x.desc).set at' 0) msg) c.seals }) y j stOK [])) ∧
  (part ≠ 1 → part ≠ 2 →
    (jVerify x.desc = false → r = .next (laneEnd u y j stOK v)) ∧
    (jVerify x.desc = true → v = benchRange u y j (jIn2 x.desc) → r = .next (laneEnd u y j stOK [])) ∧
    (jVerify x.desc = true → v ≠ benchRange u y j (jIn2 x.desc) → r = .next (laneEnd u y j stMac [])))

/-- A job past its checks whose computation is that of a job in parts ends as such a job. (`(… :)` elaborates a proof apart from
its goal, so that the two are compared only when both are known.) -/
theorem runParts {s : State} {y : YokeId} {j : JobIx} {ev : LaneEv} {ty : Nat}
    {spec : State → Bytes → Tx → Bytes → Nat → LaneSpec} {comp : State → LJ → Comp} {t : Tx} {x : Job} {q : LJ}
    {at' len : Nat} {f : LJ → Bytes → Bytes} {r : Host.Outcome State Fault Refusal}
    (h : LanePast s y j ev ty spec t x q) (runs : r = laneRow ty spec comp y j ev s)
    (comes : comp (laneAt s y ev x q) q = compParts ty at' len f (laneAt s y ev x q) q) :
    EndsPart (laneAt s y ev x q) y.val j.val x q ty at' len (f q) r := by
  subst runs
  obtain ⟨_, _, _, _, _, k1, k2, sin, _⟩ := q
  obtain ⟨rfl, rfl, rfl, rfl, rfl, rfl⟩ := past_fields h
  refine ⟨fun more => ?running, fun notFirst notMiddle => ⟨fun gives => ?value, fun verifies same => ?agrees,
    fun verifies other => ?differs⟩⟩
  case running => exact (runFin h (comes.trans (compParts_continues more)) rfl :)
  all_goals have last := not_or.mpr ⟨notFirst, notMiddle⟩
  case value => exact (runFin h (comes.trans (compParts_gives last gives)) rfl :)
  case agrees => exact (runStatus h (comes.trans (compParts_agrees last verifies same)) rfl :)
  case differs => exact (runStatus h (comes.trans (compParts_differs last verifies other)) rfl :)

/-! ### GCM_DEC, FF1 and CIPHER (R350 to R352) -/

section
variable {s : State} {q : LJ}

/-- What opening the ciphertext of a GCM_DEC job under its tag comes to. -/
def gcmOpened (s : State) (q : LJ) : Option Bytes :=
  Config.gcmOpen q.k1.key (cut (jParam q.d) 0 12) ((q.inp s).take (fld (jParam q.d) 12 2))
    ((q.inp s).drop (fld (jParam q.d) 12 2)) (q.inp2 s)

theorem compGcm_opened {pt : Bytes} (opened : gcmOpened s q = some pt) :
    compGcm s q = .fin s stOK (fit ((q.inp s).length - fld (jParam q.d) 12 2) pt) none [] := by
  unfold gcmOpened at opened
  simp only [compGcm, opened]

theorem compGcm_unauthentic (unauthentic : gcmOpened s q = none) : compGcm s q = .fin s stMac [] none [] := by
  unfold gcmOpened at unauthentic
  simp only [compGcm, unauthentic]

theorem compFf1_gives : compFf1 s q = .fin s stOK (fit (jIn q.d).2 (Config.ff1 (byteAt (jParam q.d) 1 == 1) q.k1.key
    (byteAt (jParam q.d) 0) (cut (jParam q.d) 4 (byteAt (jParam q.d) 2)) (q.inp s))) none [] := rfl

/-- The blocks that a CIPHER job gives in a MODE and a direction (R352). -/
def cipherOut (s : State) (q : LJ) (mode dir : Nat) : List Bytes :=
  let aes := isAes q.k1.alg
  let bl := blocks (blockLen aes) (q.inp s)
  let iv := cut (jParam q.d) 16 (blockLen aes)
  match mode with
  | 0 => bl.map (if dir == 1 then blockDec aes q.k1.key else blockEnc aes q.k1.key)
  | 1 => if dir == 1 then cbcDec aes q.k1.key iv bl else cbcEnc aes q.k1.key iv bl
  | _ => ctr aes q.k1.key (beNat iv) bl

theorem compCipher_gives : compCipher s q =
    .fin s stOK (fit (jIn q.d).2 (cipherOut s q (byteAt (jParam q.d) 0) (byteAt (jParam q.d) 1)).flatten) none [] := rfl

end

/-! ### The obligation on MAC, hash and cipher jobs -/

section
variable {s : State} {y : YokeId} {j : JobIx} {ev : LaneEv} {t : Tx} {x : Job} {q : LJ}

theorem gcmDec_ends (h : LanePast s y j ev 0x0E specGcm t x q) :
    let u := laneAt s y ev x q
    (∀ pt, gcmOpened u q = some pt → exec (.gcmDec y j ev) s =
      .next (laneEnd u y.val j.val stOK (fit ((q.inp u).length - fld (jParam q.d) 12 2) pt))) ∧
    (gcmOpened u q = none → exec (.gcmDec y j ev) s = .next (laneEnd u y.val j.val stMac [])) := by
  rw [exec_gcmDec, execGcmDec]
  exact ⟨fun pt opened => (runFin h (compGcm_opened opened) rfl :), fun no => (runStatus h (compGcm_unauthentic no) rfl :)⟩

theorem ff1_ends (h : LanePast s y j ev 0x0F specFf1 t x q) :
    let u := laneAt s y ev x q
    let p := jParam q.d
    exec (.ff1 y j ev) s = .next (laneEnd u y.val j.val stOK (fit (jIn q.d).2
      (Config.ff1 (byteAt p 1 == 1) q.k1.key (byteAt p 0) (cut p 4 (byteAt p 2)) (q.inp u)))) := by
  rw [exec_ff1, execFf1]
  exact (runFin h compFf1_gives rfl :)

theorem cipher_ends (h : LanePast s y j ev 0x10 specCipher t x q) {mode dir : Nat} (hmode : byteAt (jParam q.d) 0 = mode)
    (hdir : byteAt (jParam q.d) 1 = dir) : exec (.cipher y j ev) s = .next
      (laneEnd (laneAt s y ev x q) y.val j.val stOK (fit (jIn q.d).2 (cipherOut (laneAt s y ev x q) q mode dir).flatten)) := by
  subst hmode hdir
  rw [exec_cipher, execCipher]
  exact (runFin h compCipher_gives rfl :)

end

/-- Settles O50, type by type: the four jobs in parts end alike, by the value of each over its message. That the running state
stands in the sealed register is the model's choice (log 58), that CTR counts one big-endian number its reading (log 49). -/
theorem macHashAndCipherJobs : Obligations.MacHashAndCipherJobs := by
  unfold Obligations.MacHashAndCipherJobs
  refine ⟨fun s y j ev t x q => ⟨fun h => ?cmac, fun h => ?mac9797, fun h => ?hmac, fun h => ?hash⟩,
    fun s y j ev t x q => ⟨fun h => ?gcm, fun h => ?ff1, fun h => ?cipher⟩⟩
  all_goals
    obtain ⟨_, _, _, _, _, k1, k2, sin, _⟩ := q
    obtain ⟨rfl, rfl, rfl, rfl, rfl, rfl⟩ := past_fields h
  case cmac => exact (runParts h (exec_cmac s y j _) rfl :)
  case mac9797 => exact (runParts h (exec_mac9797 s y j _) rfl :)
  case hmac => exact (runParts h (exec_hmac s y j _) rfl :)
  case hash => exact (runParts h (exec_hash s y j _) rfl :)
  case gcm => exact gcmDec_ends h
  case ff1 => exact ff1_ends h
  case cipher =>
    exact ⟨fun mode dir => (cipher_ends h mode dir :), fun mode dir => (cipher_ends h mode dir :),
      fun mode dir => (cipher_ends h mode dir :), fun mode dir => (cipher_ends h mode dir :),
      fun mode => (cipher_ends h mode rfl :)⟩

end Sys2Proof.Machine
end

/-! SUPPORT. The noise sources, the claim and the conditioner, the steward's random port and raw-sample mode: one lemma per outcome
of each event (R395 to R399, R405 to R414, Tables 10.1, 10.3 and 10.7). -/

section
namespace Sys2Proof.Machine

variable {s : State}

/-! ### The two conditions of the claim (R399, Table 10.1) -/

theorem srcRate_by_kind (i : Nat) : srcRate i = if i < 8 then 50 else if i < 16 then 40 else 45 := by
  unfold srcRate srcSample srcEntropy
  by_cases ring : i < 8
  · simp only [ring, if_true]
  · by_cases latch : i < 16 <;> simp only [ring, latch, if_true, if_false]

theorem srcKind_ring {i : Nat} : srcKind i = 0 ↔ i < 8 := by grind [srcKind]
theorem srcKind_latch {i : Nat} : srcKind i = 1 ↔ 8 ≤ i ∧ i < 16 := by grind [srcKind]
theorem srcKind_comparator {i : Nat} : srcKind i = 2 ↔ 16 ≤ i := by grind [srcKind]

/-- Some LIVE source is of kind `k`. -/
def liveKind (s : State) (k : Nat) : Bool := (liveSrcs s).any fun i => srcKind i == k

theorem liveKind_iff {k : Nat} : liveKind s k = true ↔ ∃ i, (i < 20 ∧ (s.src i).st = .live) ∧ srcKind i = k := by
  simp only [liveKind, liveSrcs, List.any_eq_true, List.mem_filter, List.mem_range, decide_eq_true_eq, beq_iff_eq]

/-- Two kinds of source are LIVE where two of the three are. -/
theorem two_le_srcKinds : 2 ≤ srcKinds s ↔ (liveKind s 0 = true ∧ liveKind s 1 = true) ∨
    (liveKind s 0 = true ∧ liveKind s 2 = true) ∨ (liveKind s 1 = true ∧ liveKind s 2 = true) := by
  change 2 ≤ ([0, 1, 2].filter (liveKind s)).length ↔ _
  simp only [List.filter_cons, List.filter_nil]
  cases liveKind s 0 <;> cases liveKind s 1 <;> cases liveKind s 2 <;> decide

/-- Settles O33: the sum is the one of Table 10.1, and the kinds are two where two of the three are LIVE. -/
theorem claimCondition : Obligations.ClaimCondition := by
  unfold Obligations.ClaimCondition
  intro s live rate ring latch comparator
  have sum : srcRates s = rate := by
    simp only [srcRates, srcRate_by_kind]
    rfl
  have isRing : liveKind s 0 = true ↔ ring := by simp only [liveKind_iff, srcKind_ring]; rfl
  have isLatch : liveKind s 1 = true ↔ latch := by simp only [liveKind_iff, srcKind_latch]; rfl
  have isComparator : liveKind s 2 = true ↔ comparator := by simp only [liveKind_iff, srcKind_comparator]; rfl
  rw [claimMet, Bool.and_eq_true, decide_eq_true_iff, decide_eq_true_iff, sum, two_le_srcKinds, isRing, isLatch, isComparator]

/-! ### The sources' tests (R395, R396, Table 10.3) -/

section
variable (power : s.pwr.good = true) {i : Fin 20} {b : List Bool}
include power

theorem healthTestFailure_excludes (live : (s.src i.val).st = .live) (fails : testFail s i.val b ≠ 0) :
    exec (.healthTestFailure i b) s = .next (evalClaim (event (rngEvent (s.setSrc i.val { s.src i.val with
      st := .excluded, lastTest := testFail s i.val b, failCnt := bump (s.src i.val).failCnt }) 0) 0x0020 modScope
        (le 1 i.val ++ le 1 (testFail s i.val b).toNat))) := by
  rw [exec_healthTestFailure, execHealthTestFailure, if_pos (by rw [power, live, bne_iff_ne.mpr fails]; rfl)]

theorem sourceRetestStart_restarts (excluded : (s.src i.val).st = .excluded) :
    exec (.sourceRetestStart i) s = .next (s.setSrc i.val { s.src i.val with st := .starting }) := by
  rw [exec_sourceRetestStart, execSourceRetestStart, if_pos (by simp [power, excluded])]

variable (starting : (s.src i.val).st = .starting) (len : b.length = 1024)
include starting len

theorem startupTestEnd_passes (passes : testFail s i.val b = 0) :
    exec (.startupTestEnd i b) s = .next (evalClaim (s.setSrc i.val { s.src i.val with st := .live, retests := 0 })) := by
  rw [exec_startupTestEnd, execStartupTestEnd, if_neg (not_not_intro len)]
  simp [power, starting, passes]

/-- A source whose start-up test fails for the `n`th time as a retest: 0 for its first test, which is none. -/
theorem startupTestEnd_fails (fails : testFail s i.val b ≠ 0) {n : Nat}
    (count : n = if (s.src i.val).lastTest = 0 then 0 else (s.src i.val).retests + 1) :
    exec (.startupTestEnd i b) s = .next (s.setSrc i.val { s.src i.val with
      st := if 16 ≤ n then .dead else .excluded, retests := n, lastTest := 1 }) := by
  rw [exec_startupTestEnd, execStartupTestEnd, if_neg (not_not_intro len), count]
  simp only [power, starting, fails, Bool.not_true, bne_self_eq_false, Bool.or_self, Bool.false_eq_true, if_false]

end

/-! ### The claim and the conditioner (R398, R399, R410) -/

theorem evalClaim_lost (claim : s.rng.claim = true) (unmet : claimMet s = false) :
    evalClaim s = (let d := rngEvent { s with rng := { s.rng with claim := false, halves := [] } } 1
      event d 0x0021 modScope (le 4 (condStat d))) := by
  rw [evalClaim, claim, unmet]
  exact if_pos rfl

theorem conditionerBlock_delivers (power : s.pwr.good = true) (claim : s.rng.claim = true) (cooked : s.rng.raw = false) :
    exec .conditionerBlock s = .next (fallowEpoch (grantOn (hsPump (stageRandom (finishRestore (pump (condBlock s))))))) := by
  rw [exec_conditionerBlock, execConditionerBlock, if_pos (by simp [power, claim, cooked])]

theorem claimStartTimeout_fails (starting : s.lcs.phase = .starting) (normal : s.lcs.fallow = false)
    (unmet : s.rng.claim = false) : exec .claimStartTimeout s = .next (startFail s 0x03 0xE0 true) := by
  rw [exec_claimStartTimeout, execClaimStartTimeout, if_pos (by simp [starting, normal, unmet])]

/-! ### The steward's port and the mask keys (R405, R407) -/

theorem rngDataRead_full (full : 8 ≤ s.stw.buf.length) : exec .rngDataRead s = .next (stageRandom { s with
    stw := { s.stw with rngOut := BitVec.ofNat 64 (fld s.stw.buf 0 8), buf := s.stw.buf.drop 8 } }) := by
  rw [exec_rngDataRead, execRngDataRead, if_pos full]

theorem rngDataRead_empty (empty : s.stw.buf.length < 8) : exec .rngDataRead s = .next { s with
    stw := { s.stw with rngOut := 0, underrun := true, underrunCnt := bump s.stw.underrunCnt } } := by
  rw [exec_rngDataRead, execRngDataRead, if_neg (Nat.not_le.mpr empty)]

theorem maskKeyRefresh_served (ready : privReady s 3 = true) :
    let r := newSecret (privGen s 3) 32
    (∀ l : LaneId, exec (.maskKeyRefresh (.lane l)) s = .next { r.1 with lan := { r.1.lan with
      maskNo := tset 0 l.val r.2 r.1.lan.maskNo } }) ∧
    (∀ e : EngId, exec (.maskKeyRefresh (.engine e)) s = .next { r.1 with pke := { r.1.pke with
      maskNo := tset 0 e.val r.2 r.1.pke.maskNo } }) :=
  ⟨fun _ => congrArg Host.Outcome.next (if_pos ready), fun _ => congrArg Host.Outcome.next (if_pos ready)⟩

theorem maskKeyRefresh_stale (stalled : privReady s 3 = false) :
    (∀ l, exec (.maskKeyRefresh (.lane l)) s = .next (rngEvent s 3)) ∧
    (∀ e, exec (.maskKeyRefresh (.engine e)) s = .next (rngEvent s 3)) :=
  have unready : ¬ privReady s 3 = true := ne_true_of_eq_false stalled
  ⟨fun _ => congrArg Host.Outcome.next (if_neg unready), fun _ => congrArg Host.Outcome.next (if_neg unready)⟩

/-! ### The bound of a waiting key generation and raw-sample mode (R411, R413, R414) -/

theorem adminBoundExpired_ends {d q : Adm} {rest : List Adm} (waits : s.rng.keyWait = some d) (queue : s.adm.queue = q :: rest) :
    exec .adminBoundExpired s = .next (admFail (keyServed (popAdm s rest)) d stNoEntropy 0) := by
  simp only [exec_adminBoundExpired, execAdminBoundExpired, waits, queue, popAdm]

theorem rawCaptureEnd_completes {n : Nat} {d : Adm} (capture : s.rng.capture = some (n, d)) (b : List Bool) :
    exec (.rawCaptureEnd b) s = .next (admResult (markAll { s with rng := { s.rng with raw := false, capture := none } }) d
      (fit d.resLen (packBits b))) := by
  simp only [exec_rawCaptureEnd, execRawCaptureEnd, capture]

/-- RNG_RAW_CAPTURE needs a Security Officer session in CUSTODY and OPERATIONAL alone. -/
theorem rawQuorum_of {d : Adm} (officer : s.lcs.state = 2 ∨ s.lcs.state = 3 → sessionLive s modScope 0 = true) :
    rawQuorum s d = true := by
  by_cases custody : s.lcs.state = 2 ∨ s.lcs.state = 3
  · rw [rawQuorum, managerSO, officer custody, Bool.or_true]
  · obtain ⟨notCustody, notOperational⟩ := not_or.mp custody
    rw [rawQuorum, bne_iff_ne.mpr notCustody, bne_iff_ne.mpr notOperational]
    rfl

theorem rngRawCapture_runs {d : Adm} {rest : List Adm} (serves : Serves s d rest (standby := true) (lim := 5))
    (plain : noPlot d = true) (code : d.code = 0x150) (cooked : s.rng.raw = false) (inlen : d.inlen = 5)
    (src : byteAt d.inl 4 ≤ 19) (nonempty : 1 ≤ d.resLen) (fits : d.resLen ≤ 65536)
    (officer : s.lcs.state = 2 ∨ s.lcs.state = 3 → sessionLive (popAdm s rest) modScope 0 = true) :
    exec .rngRawCapture s = .next (runRaw (popAdm s rest) d) := by
  rw [exec_rngRawCapture, execRngRawCapture, if_neg (by rw [cooked]; decide),
    admin_run serves code rfl (by simp [inlen, plain, src, nonempty, fits]) rfl (rawQuorum_of officer)]

/-! ### The obligation -/

/-- Settles O32, event by event. That a first failed start-up test is no retest is the model's reading (log 76), and so are the
port's refill and SEL's end of a waiting PR (log 77) and what the end of a capture writes and marks (log 78). -/
theorem noiseAndRandomPort : Obligations.NoiseAndRandomPort := by
  unfold Obligations.NoiseAndRandomPort
  refine ⟨⟨?sources, fun s => conditionerBlock_delivers, fun s => claimStartTimeout_fails, fun s => evalClaim_lost⟩,
    fun s => ⟨rfl, fun sel => rfl, rngDataRead_full, rngDataRead_empty, maskKeyRefresh_served, maskKeyRefresh_stale,
      fun d q rest => adminBoundExpired_ends, fun b n d capture => rawCaptureEnd_completes capture b⟩,
    fun s d rest => rngRawCapture_runs⟩
  case sources =>
    intro s i b power x t
    refine ⟨healthTestFailure_excludes power, sourceRetestStart_restarts power, fun starting len =>
      ⟨startupTestEnd_passes power starting len, fun fails first => ?first, fun fails again few => ?excluded,
        fun fails again many => ?dead⟩⟩
    case first => exact startupTestEnd_fails power starting len fails (if_pos first).symm
    case excluded => rw [startupTestEnd_fails power starting len fails (if_neg again).symm,
      if_neg (Nat.not_le.mpr (Nat.succ_lt_succ few))]
    case dead => rw [startupTestEnd_fails power starting len fails (if_neg again).symm,
      if_pos (Nat.succ_le_succ many)]

end Sys2Proof.Machine
end

/-! SUPPORT. The module start (Table 13.2): what each of its events comes to, from main power to full service, the watchdog and the end
of a stop-change-restart. -/

section
namespace Sys2Proof.Machine

variable {s : State}

/-! ### Queued seedings leave the life-cycle registers alone -/

theorem wantSeed_lcs (s : State) (r : SeedReq) : (wantSeed s r).lcs = s.lcs := by
  obtain ⟨_, _, _, only⟩ := wantSeed_only s r
  rw [only]

theorem seedPlots_lcs (s : State) : (seedPlots s).lcs = s.lcs := by
  unfold seedPlots
  generalize s.flash.plots = plots
  induction plots generalizing s with
  | nil => rfl
  | cons x rest ih => rw [List.foldl_cons, ih, wantSeed_lcs, State.modDrill_lcs]

/-! ### MAIN_POWER_GOOD (R491, R591) -/

theorem mainPowerGood_starts {p : PowerPins} (off : s.pwr.good = false) (cool : s.pwr.shutdown = false)
    (vio : s.pwr.vio = true) (keeper : s.kpr.powered = true) (serves : s.lcs.phase ≠ .inert) (trim : s.lcs.trimBlown = false)
    (low : 10800 ≤ p.vinMv.toNat) (high : p.vinMv.toNat ≤ 13200) :
    exec (.mainPowerGood p) s = .next (bootRng { s with
      pwr := { s.pwr with good := true, pwrgd := true, conLvl := p.conLvl, vin := p.vinMv.toNat },
      lcs := { s.lcs with phase := .reset, cause := 0, since := s.now },
      kpr := { s.kpr with pwrcyc := s.kpr.pwrcyc + 1 },
      link := { s.link with trained := !s.link.perst } }) := by
  rw [exec_mainPowerGood, execMainPowerGood, if_neg]
  simp [off, cool, vio, keeper, serves, trim, low, high]

theorem mainPowerGood_out_of_range {p : PowerPins} (out : p.vinMv.toNat < 10800 ∨ 13200 < p.vinMv.toNat) :
    exec (.mainPowerGood p) s = .next s := by
  rw [exec_mainPowerGood, execMainPowerGood, if_pos]
  rcases out with low | high
  · simp [low]
  · simp [high]

/-! ### MODULE_START (R488, R490 to R492, R497 to R503) -/

/-- The state on which a module start decides, past the fuses: counted, with the state that the fuses give. -/
def startCounted (s : State) : State :=
  { countStart s with lcs := { (countStart s).lcs with state := BitVec.ofNat 4 (decodeFuses s.lcs.fuses) } }

theorem startCounted_state (serves : decodeFuses s.lcs.fuses < 5) :
    (startCounted s).lcs.state.toNat = decodeFuses s.lcs.fuses :=
  Nat.mod_eq_of_lt (Nat.lt_trans serves (by decide))

/-- The bank whose firmware a start runs, the preferred one where no bank's image verifies. -/
def startBank (u : State) (env : StartEnv) : Bool := (chooseBank u env.imageOk).getD u.lcs.pref

/-- The state in which a start that no test ends asks for its plot drills. -/
def startRestoring (u : State) (env : StartEnv) : State :=
  seedPlots { u with lcs := { u.lcs with bank := startBank u env, phase := .starting, restoring := true } }

/-- How a normal start of a module whose fuses say `n` goes on from `u`: it fails on the first fault there is, else it waits for the
privileged drills and then for those of the plots. -/
def normalStart (u : State) (env : StartEnv) (n : Nat) : State :=
  match startFault u env n with
  | some (reason, test, ran) =>
    startFail (if ran then { u with lcs := { u.lcs with bank := startBank u env } } else u) reason test ran
  | none => if !u.rng.started then u else finishRestore (startRestoring u env)

section
variable (phase : s.lcs.phase = .reset) (power : s.pwr.good = true) (cool : s.pwr.shutdown = false)
include phase power cool

theorem moduleStart_lost (trim : s.lcs.trimBlown = false) (lost : decodeFuses s.lcs.fuses = 6) (env : StartEnv) :
    moduleStart s env = inert s 6 := by
  simp [moduleStart, phase, power, cool, trim, lost]

theorem moduleStart_trimmed (trim : s.lcs.trimBlown = true) (known : decodeFuses s.lcs.fuses ≠ 6) (env : StartEnv) :
    moduleStart s env = inert s 5 := by
  simp [moduleStart, phase, power, cool, trim, known]

theorem moduleStart_scraps (trim : s.lcs.trimBlown = false) (scrapped : decodeFuses s.lcs.fuses = 5) (env : StartEnv) :
    moduleStart s env = scrap s := by
  simp [moduleStart, phase, power, cool, trim, scrapped]

variable (trim : s.lcs.trimBlown = false) (serves : decodeFuses s.lcs.fuses < 5) {env : StartEnv}
include trim serves

/-- Past the fuses the counters decide between a fallow and a normal start. -/
theorem moduleStart_counted : moduleStart s env = if fallowStart (startCounted s) then fallowEnter (startCounted s)
    else normalStart (startCounted s) env (decodeFuses s.lcs.fuses) := by
  have comes : ¬ (decide (s.lcs.phase ≠ .reset) || !s.pwr.good || s.pwr.shutdown) = true := by simp [phase, power, cool]
  have alive : ¬ (s.lcs.trimBlown || decide (decodeFuses s.lcs.fuses = 6)) = true := by
    rw [trim, Bool.false_or, decide_eq_true_iff]
    omega
  have kept : ¬ decodeFuses s.lcs.fuses = 5 := by omega
  exact (if_neg comes).trans ((if_neg alive).trans (if_neg kept))

end

/-! ### The plot drills of a start (R409) -/

theorem finishRestore_seeded (restoring : s.lcs.restoring = true) (starting : s.lcs.phase = .starting)
    (there : plotsSeeded s = true) : finishRestore s = firmware s s.lcs.state.toNat := by
  rw [finishRestore, if_pos (by simp [restoring, starting, there])]

theorem finishRestore_waits (missing : plotsSeeded s = false) : finishRestore s = s := by
  rw [finishRestore, if_neg (by simp [missing])]

section
variable {u : State} {env : StartEnv} {n : Nat}

theorem normalStart_fails_before {r t : Byte} (fault : startFault u env n = some (r, t, false)) :
    normalStart u env n = startFail u r t false := by
  rw [normalStart, fault]
  exact congrArg (startFail · r t false) (if_neg (by decide))

theorem normalStart_fails_running {r t : Byte} (fault : startFault u env n = some (r, t, true)) :
    normalStart u env n = startFail { u with lcs := { u.lcs with bank := startBank u env } } r t true := by
  rw [normalStart, fault]
  exact congrArg (startFail · r t true) (if_pos rfl)

theorem normalStart_unstarted (pass : startFault u env n = none) (waits : u.rng.started = false) : normalStart u env n = u := by
  rw [normalStart, pass]
  exact if_pos (by rw [waits]; rfl)

theorem startRestoring_lcs (u : State) (env : StartEnv) : (startRestoring u env).lcs =
    { u.lcs with bank := startBank u env, phase := .starting, restoring := true } := seedPlots_lcs _

theorem normalStart_started (pass : startFault u env n = none) (started : u.rng.started = true) :
    normalStart u env n = finishRestore (startRestoring u env) := by
  rw [normalStart, pass]
  exact if_neg (by rw [started]; decide)

theorem normalStart_seeded (pass : startFault u env n = none) (started : u.rng.started = true)
    (there : plotsSeeded (startRestoring u env) = true) (fused : u.lcs.state.toNat = n) :
    normalStart u env n = firmware (startRestoring u env) n := by
  have lcs := startRestoring_lcs u env
  rw [normalStart_started pass started, finishRestore_seeded (by rw [lcs]) (by rw [lcs]) there, lcs, fused]

theorem normalStart_unseeded (pass : startFault u env n = none) (started : u.rng.started = true)
    (missing : plotsSeeded (startRestoring u env) = false) : normalStart u env n = startRestoring u env := by
  rw [normalStart_started pass started, finishRestore_waits missing]

end

/-! ### The hold-up store and full service (R498, R501, R594) -/

theorem holdupStoreCharged_goesLive (starting : s.lcs.phase = .starting) (restored : s.lcs.restoring = false)
    (power : s.pwr.good = true) : exec .holdupStoreCharged s = .next { s with
      pwr := { s.pwr with charged := true }, lcs := { s.lcs with phase := .live }, adm := { s.adm with live := true } } := by
  rw [exec_holdupStoreCharged, execHoldupStoreCharged, if_pos power, goLive, if_pos ⟨starting, rfl, by simp [restored]⟩]

section
variable (live : s.lcs.phase = .live) (normal : s.lcs.fallow = false) (claim : s.rng.claim = true) {tests : InstanceTests}
include live normal claim

theorem fullService_few_engines (few : ones tests.lanes < 28 ∨ ones tests.engines < 16) :
    exec (.fullService tests) s = .next (startFail s 0x03 0 true) := by
  rw [exec_fullService, execFullService, if_neg (by simp [live, normal, claim]), if_pos (by simpa using few)]

variable (lanes : 28 ≤ ones tests.lanes) (engines : 16 ≤ ones tests.engines)
include lanes engines

theorem fullService_few_yokes (few : ones tests.yokes < 56 ∨ 3 ≤ tests.faults) :
    exec (.fullService tests) s = .next (startFail s 0x06 0 true) := by
  rw [exec_fullService, execFullService, if_neg (by simp [live, normal, claim]), if_neg (by simp [lanes, engines]),
    if_pos (by simpa using few)]

theorem fullService_serves (yokes : 56 ≤ ones tests.yokes) (faults : tests.faults < 3) :
    exec (.fullService tests) s = .next (serve s tests) := by
  rw [exec_fullService, execFullService, if_neg (by simp [live, normal, claim]), if_neg (by simp [lanes, engines]),
    if_neg (by simp [yokes, faults])]

end

/-! ### The steward's watchdog (R469, R493, R501) -/

section
variable (power : s.pwr.good = true) (cool : s.pwr.shutdown = false) (runs : s.stw.halted = false)
include power cool runs

theorem stewardDog_full (full : s.lcs.phase = .full) : stewardDog s = restart s 2 true 7 := by
  simp [stewardDog, power, cool, runs, full]

theorem stewardDog_starting (starting : s.lcs.phase = .starting) : stewardDog s = startFail s 0x05 0 true := by
  simp [stewardDog, power, cool, runs, starting]

theorem stewardDog_live (live : s.lcs.phase = .live) (normal : s.lcs.fallow = false) :
    stewardDog s = startFail s 0x05 0 true := by
  simp [stewardDog, power, cool, runs, live, normal]

end

/-! ### The end of a stop-change-restart (R508, R509) -/

theorem stopChangeRestartApply_reconfig {d : Adm} {m : BitVec 3} (stopped : allStopped s = true)
    (change : s.lcs.change = .reconfig d m) :
    let ports := if m.getLsbD 1 then applyPorts s else s
    let engines := if m.getLsbD 2 then applyEngines ports else ports
    exec .stopChangeRestartApply s =
      .next (admOk (reopenPlots { engines with lcs := { engines.lcs with change := .none } }) d) := by
  simp [exec_stopChangeRestartApply, execStopChangeRestartApply, change, stopped]

theorem stopChangeRestartApply_activate {d : Adm} {b : Bool} (stopped : allStopped s = true)
    (change : s.lcs.change = .activate d b) : exec .stopChangeRestartApply s =
      .next (restart { s with lcs := { s.lcs with pref := b } } 3 true 7) := by
  simp [exec_stopChangeRestartApply, execStopChangeRestartApply, change, stopped]

/-! ### The obligation -/

/-- Settles O30, event by event. The order of the tests and the wait for the drills are the model's reading (log 84), and so are the
reasons of a start with too few units (log 85). -/
theorem moduleStarts : Obligations.ModuleStarts := by
  unfold Obligations.ModuleStarts
  refine ⟨fun s p off cool vio keeper serves trim =>
      ⟨mainPowerGood_starts off cool vio keeper serves trim, mainPowerGood_out_of_range⟩,
    fun s env phase power cool => ⟨?scraps, ?lost, ?trimmed, ?served⟩,
    fun s => holdupStoreCharged_goesLive,
    fun s tests live normal claim =>
      ⟨fun lanes engines => ⟨fullService_serves live normal claim lanes engines,
          fullService_few_yokes live normal claim lanes engines⟩,
        fullService_few_engines live normal claim⟩,
    fun s power cool runs => ?watchdog,
    fun s d stopped => ⟨fun m => stopChangeRestartApply_reconfig stopped, fun b => stopChangeRestartApply_activate stopped⟩⟩
  case scraps => exact fun trim scrapped => congrArg Host.Outcome.next (moduleStart_scraps phase power cool trim scrapped env)
  case lost => exact fun trim lost => congrArg Host.Outcome.next (moduleStart_lost phase power cool trim lost env)
  case trimmed => exact fun trim known => congrArg Host.Outcome.next (moduleStart_trimmed phase power cool trim known env)
  case served =>
    intro trim serves n c u bank
    have course := moduleStart_counted phase power cool trim serves (env := env)
    refine ⟨fun fallow => congrArg Host.Outcome.next (course.trans (if_pos fallow)), fun normal => ?_⟩
    have goesOn := course.trans (if_neg (ne_true_of_eq_false normal))
    have fused : u.lcs.state.toNat = n := startCounted_state serves
    exact ⟨fun r t fault => congrArg Host.Outcome.next (goesOn.trans (normalStart_fails_before fault)),
      fun r t fault => congrArg Host.Outcome.next (goesOn.trans (normalStart_fails_running fault)),
      fun pass waits => congrArg Host.Outcome.next (goesOn.trans (normalStart_unstarted pass waits)),
      fun pass started =>
        ⟨fun there => congrArg Host.Outcome.next (goesOn.trans (normalStart_seeded pass started there fused)),
          fun missing => congrArg Host.Outcome.next (goesOn.trans (normalStart_unseeded pass started missing))⟩⟩
  case watchdog =>
    exact ⟨fun full => congrArg Host.Outcome.next (stewardDog_full power cool runs full),
      fun starting => congrArg Host.Outcome.next (stewardDog_starting power cool runs starting),
      fun live normal => congrArg Host.Outcome.next (stewardDog_live power cool runs live normal)⟩

end Sys2Proof.Machine
end

/-! SUPPORT. The module right after the power-on of its keeper: what the empty tables of that state read as (R427, R437, Tables 16.1
and 16.2). -/

section
namespace Sys2Proof.Machine

/-! ### Entries that no table lists -/

theorem reset_hop (r : HopRef) : State.reset.hop r = Hopper.zero := by
  cases r with
  | admin => rfl
  | vf p h => rfl

theorem reset_msixOf (f : Fn) : State.reset.msixOf f = Msix.zero := rfl
theorem reset_heldFor (f : Fn) : heldFor State.reset f = false := rfl
theorem reset_plot (p : Nat) : State.reset.plot p = Plot.zero := rfl
theorem reset_yoke (y : Nat) : State.reset.yoke y = Yoke.zero := rfl

/-- PKE_CFG with nothing stored (R358). -/
theorem reset_pkeCfg (e : Nat) : pkeCfg State.reset e = 0x50 := rfl

/-- A vector is masked until the host unmasks it. -/
theorem msixZero_masked (v : Nat) : Msix.zero.open v = false := rfl

/-! ### The invariants that a run begins with -/

theorem reset_queueOk : QueueOk State.reset := rfl

theorem reset_canon : Canon State.reset :=
  ⟨twf_nil Plot.zero, twf_nil Yoke.zero, twf_nil 0, fun y => by rw [reset_yoke]; exact twf_nil 0⟩

/-! ### The obligation -/

/-- Settles O55, part by part. The model chooses that main power is absent (logs 5 and 18), that every vector is masked (log 5) and
that every unit is gated (log 9). -/
theorem stateAfterReset : Obligations.StateAfterReset := by
  unfold Obligations.StateAfterReset
  refine ⟨rfl, rfl, rfl, rfl, fun r => ?hopper, fun f v => ?interrupts, fun e => ?engine, fun p => ?plot, fun y => ?yoke,
    rfl, rfl, rfl, rfl, rfl, reset_queueOk, reset_canon, step_empty rfl⟩
  case hopper => rw [reset_hop]; exact ⟨rfl, rfl, rfl, rfl, rfl, rfl, rfl⟩
  case interrupts => exact ⟨congrArg Msix.enable (reset_msixOf f), msixZero_masked v, reset_heldFor f⟩
  case engine => rw [shelfLen, macMode, reset_pkeCfg]; decide
  case plot => rw [reset_plot]; rfl
  case yoke => rw [State.tx, reset_yoke]; rfl

end Sys2Proof.Machine
end

/-! SUPPORT. The keeper: its own events, the tamper response, its SMBus target and its admin commands, one lemma per outcome of each
(11, Tables 11.6 and 11.10). -/

section
namespace Sys2Proof.Machine

variable {s : State}

/-! ### Sensors (R432, R448) -/

/-- The state in which a sensor's TMP_LIVE bit is set. -/
def tripSeen (s : State) (c : Fin 15) : State :=
  { s with kpr := { s.kpr with live := s.kpr.live ||| BitVec.ofNat 16 (2 ^ c.val) } }

section
variable {c : Fin 15}

theorem trip_insensible (deaf : senses s c.val = false) (t : BitVec 8) : trip s c.val t = s :=
  if_pos (by rw [deaf]; rfl)

theorem trip_inTest (hears : senses s c.val = true) (test : s.kpr.lcs = 0) (t : BitVec 8) :
    trip s c.val t = logTrip (tripSeen s c) (BitVec.ofNat 16 (2 ^ c.val)) t true := by
  rw [trip, if_neg (by rw [hears]; decide)]
  exact if_pos test

theorem trip_responds (hears : senses s c.val = true) (service : s.kpr.lcs ≠ 0) (t : BitVec 8) :
    trip s c.val t = tamperResponse (tripSeen s c) (BitVec.ofNat 16 (2 ^ c.val)) t := by
  rw [trip, if_neg (by rw [hears]; decide)]
  exact if_neg service

end

/-! ### Supply, battery and counters (R417, R419, R426, R427, R437, R447, R606) -/

/-- The keeper right after its power-on: every field at its power-on value but the measured ones (Table 16.3). -/
def poweredOn (k : Keeper) : Keeper :=
  { kvbat := k.kvbat, temp := k.temp, ksrc := k.ksrc, batLow := decide (k.kvbat < 2400) }

theorem keeperPowerOn_resets (off : s.kpr.powered = false) :
    exec .keeperPowerOn s = .next { s with kpr := poweredOn s.kpr } := by
  rw [exec_keeperPowerOn, execKeeperPowerOn, if_neg (by rw [off]; decide)]
  rfl

/-- The keeper without supply: nothing but what is measured is left. -/
def unpowered (k : Keeper) : Keeper :=
  { powered := false, kvbat := k.kvbat, temp := k.temp, ksrc := k.ksrc, tampered := false, kpor := false, cause := 0, loopCfg := 0 }

theorem keeperSupplyLoss_erases (alone : s.pwr.good = false) (on : s.kpr.powered = true) :
    exec .keeperSupplyLoss s = .next { zeroCabinet s with kpr := unpowered s.kpr } := by
  rw [exec_keeperSupplyLoss, execKeeperSupplyLoss, if_neg (by rw [alone, on]; decide)]
  rfl

/-- A KPR_EVENT flag and its counter stand on the main die: with main power they are set, without it nothing is. -/
theorem kprEvent_power (power : s.pwr.good = true) (b : Nat) :
    kprEvent s b =
      { s with kpr := { s.kpr with event := s.kpr.event ||| BitVec.ofNat 3 (2 ^ b), eventCnt := bumpAt s.kpr.eventCnt b } } :=
  if_pos power
theorem kprEvent_noPower (dark : s.pwr.good = false) (b : Nat) : kprEvent s b = s := if_neg (by rw [dark]; decide)

/-- The state in which BAT_LOW stands (R419). -/
def batteryLow (s : State) : State := { s with kpr := { s.kpr with batLow := true } }

section
variable (on : s.kpr.powered = true)
include on

theorem batLow_flags : exec .batLow s = .next (kprEvent (batteryLow s) 1) := congrArg Host.Outcome.next (if_pos on)

theorem batLow_raises (power : s.pwr.good = true) : exec .batLow s = .next { s with kpr := { s.kpr with
    batLow := true, event := s.kpr.event ||| 2, eventCnt := bumpAt s.kpr.eventCnt 1 } } :=
  (batLow_flags on).trans (congrArg _ (kprEvent_power (s := batteryLow s) power 1))

theorem batLow_dark (dark : s.pwr.good = false) : exec .batLow s = .next (batteryLow s) :=
  (batLow_flags on).trans (congrArg _ (kprEvent_noPower (s := batteryLow s) dark 1))

theorem kprVoltUpdate_measures (v t : BitVec 16) :
    exec (.kprVoltUpdate v t) s = .next { s with kpr := { s.kpr with kvbat := v.toNat, temp := t } } :=
  congrArg Host.Outcome.next (if_pos on)

theorem operatingMinute_counts (power : s.pwr.good = true) (within : (s.kpr.opmin + 1).toNat % 60 ≠ 0) :
    exec .operatingMinute s = .next { s with kpr := { s.kpr with opmin := s.kpr.opmin + 1 } } := by
  rw [exec_operatingMinute, execOperatingMinute, if_pos (by rw [on, power]; rfl)]
  exact congrArg _ (if_neg within)

theorem operatingMinute_saves (power : s.pwr.good = true) (hour : (s.kpr.opmin + 1).toNat % 60 = 0) :
    exec .operatingMinute s = .next { s with
      kpr := { s.kpr with opmin := s.kpr.opmin + 1 }, flash := { s.flash with opmin := s.kpr.opmin + 1 } } := by
  rw [exec_operatingMinute, execOperatingMinute, if_pos (by rw [on, power]; rfl)]
  exact congrArg _ (if_pos hour)

end

/-! ### The tamper response (Table 11.6, R424, R433) -/

/-- The state in which the cabinet is zeroised, the latch and the cause bit are set. -/
def tamperLatched (s : State) (bit : BitVec 16) : State :=
  zeroCabinet { s with kpr := { s.kpr with tampered := true, cause := s.kpr.cause ||| bit } }

theorem tamperResponse_restarts (power : s.pwr.good = true) (cool : s.pwr.shutdown = false) (serves : s.lcs.phase ≠ .inert)
    (bit : BitVec 16) (t : BitVec 8) :
    let l := logTrip (tamperLatched s bit) bit t false
    tamperResponse s bit t = restart (modEvent (kprEvent { l with pwr := { l.pwr with modOk := false } } 0)) 5 true 6 := by
  rw [tamperResponse, if_neg serves, if_pos ⟨power, by rw [cool]; rfl⟩]
  rfl

/-! ### The obligation on the keeper's events -/

/-- Settles O35, event by event. That the mirror value 0xF gives the full response is the model's reading (log 81), and so is it that
every fall of the battery sets its event (log 82). -/
theorem keeperEventsAndTamper : Obligations.KeeperEventsAndTamper := by
  unfold Obligations.KeeperEventsAndTamper
  refine ⟨fun s => ⟨fun c t hears => ?trips, fun c t deaf => ?insensible, fun c => rfl, rfl, fun off => ?comes,
      fun alone on => ?goes, fun b => rfl, fun on => ⟨batLow_raises on, batLow_dark on⟩, rfl,
      fun on power => ⟨operatingMinute_counts on power, operatingMinute_saves on power⟩, kprVoltUpdate_measures⟩,
    fun s bit t power cool serves => ⟨rfl, rfl, rfl, tamperResponse_restarts power cool serves bit t⟩⟩
  case trips =>
    exact ⟨fun test => congrArg Host.Outcome.next (trip_inTest hears test t),
      fun service => congrArg Host.Outcome.next (trip_responds hears service t)⟩
  case insensible => exact congrArg Host.Outcome.next (trip_insensible deaf t)
  case comes => exact ⟨keeperPowerOn_resets off, rfl, rfl, rfl, rfl, rfl, rfl⟩
  case goes => exact ⟨_, keeperSupplyLoss_erases alone on, rfl, rfl, rfl, rfl, rfl⟩

/-! ### Block Reads of the SMBus target (R444 to R447) -/

section
variable (vio : s.pwr.vio = true) (on : s.kpr.powered = true) (serves : s.lcs.phase ≠ .inert)
include vio on serves

theorem smbusUp_of : smbusUp s = true := by
  simp [smbusUp, vio, on, serves]

theorem smbRead_answers (code : Nat) (b : Bytes) :
    smbRead code b s = .next (emit s (.smbus (smbAddr s) (some (b, smbPec s code b)))) :=
  congrArg Host.Outcome.next (if_pos (smbusUp_of vio on serves))

theorem smbusWrite_nacks : exec .smbusWrite s = .next (emit s (.smbus (smbAddr s) none)) :=
  congrArg Host.Outcome.next (if_pos (smbusUp_of vio on serves))

end

/-! ### The gates of the keeper's admin commands (R438 to R440) -/

/-- A command that TEST serves to anyone and every other state to a Security Officer of the manager function. -/
theorem officer_passes (d : Adm) (h : s.lcs.state = 0 ∨ sessionLive s modScope 0 = true) :
    (s.lcs.state == 0 || managerSO s d) = true := by
  rcases h with test | officer
  · rw [test]; rfl
  · rw [managerSO, officer, Bool.or_true]

/-- A command that anyone may give until the manager's registry holds a card in the role, and then only a live session. -/
theorem cardQuorum_passes {role : Nat} (h : holdsCard s modScope role = true → sessionLive s modScope role = true) :
    (!holdsCard s modScope role || sessionLive s modScope role) = true := by
  cases card : holdsCard s modScope role with
  | false => rfl
  | true => rw [h card]; rfl

section
variable {d : Adm} {rest : List Adm} (plain : noPlot d = true)
include plain

theorem tmpLoopSet_runs (serves : Serves s d rest (tamper := true) (standby := true)) (code : d.code = 0x160)
    (inlen : d.inlen = 5) (mask : byteAt d.inl 4 < 16)
    (officer : holdsCard (popAdm s rest) modScope 0 = true → sessionLive (popAdm s rest) modScope 0 = true) :
    exec .tmpLoopSet s = .next (runLoopSet (popAdm s rest) d) := by
  rw [exec_tmpLoopSet, execTmpLoopSet,
    admin_run serves code (notDecom_run serves) (by simp [inlen, plain, mask]) rfl (cardQuorum_passes officer)]

theorem tmpRearm_runs (serves : Serves s d rest (tamper := true) (standby := true) (lim := 5)) (code : d.code = 0x161)
    (inlen : d.inlen = 4) (officer : s.lcs.state = 0 ∨ sessionLive (popAdm s rest) modScope 0 = true) :
    exec .tmpRearm s = .next (runRearm (popAdm s rest) d) := by
  rw [exec_tmpRearm, execTmpRearm,
    admin_run serves code rfl (by simp [inlen, plain]) rfl (officer_passes (s := popAdm s rest) d officer)]

end

/-! ### The conditions of TMP_REARM, in their order (R440) -/

section
variable {d : Adm}

theorem runRearm_untampered (clear : s.kpr.tampered = false) : runRearm s d = admFail s d stPolicy 0x50 :=
  if_pos (by rw [clear]; rfl)

section
variable (latched : s.kpr.tampered = true)
include latched

theorem runRearm_plotsLeft (left : ∃ x ∈ s.plots, x.2.st ≠ .absent) : runRearm s d = admFail s d stPolicy 0x51 := by
  have some : (s.plots.any fun x => x.2.st != .absent) = true := by simpa using left
  rw [runRearm, if_neg (by rw [latched]; decide), if_pos some]

variable (gone : ∀ x ∈ s.plots, x.2.st = .absent)
include gone

/-- With the latch set and every plot gone, the live conditions and the life-cycle state decide. -/
theorem runRearm_noPlots : runRearm s d =
    if s.kpr.live ≠ 0 then admFail s d stPolicy 0x52
    else if s.lcs.state = 4 then admFail s d stPolicy 0x53
    else
      let g := keyGens s 0 (4 - s.rng.keyGot)
      if g.2 = 0 then rearm (keyServed g.1) d else keyHeld g.1 d (4 - g.2) := by
  have none : ¬ (s.plots.any fun x => x.2.st != .absent) = true := by simpa using gone
  rw [runRearm, if_neg (by rw [latched]; decide), if_neg none]
  rfl

theorem runRearm_live (live : s.kpr.live ≠ 0) : runRearm s d = admFail s d stPolicy 0x52 := by
  rw [runRearm_noPlots latched gone, if_pos live]

variable (quiet : s.kpr.live = 0)
include quiet

theorem runRearm_decommissioned (decom : s.lcs.state = 4) : runRearm s d = admFail s d stPolicy 0x53 := by
  rw [runRearm_noPlots latched gone, if_neg (not_not.mpr quiet), if_pos decom]

theorem runRearm_served (state : s.lcs.state ≠ 4) (served : (keyGens s 0 (4 - s.rng.keyGot)).2 = 0) :
    runRearm s d = rearm (keyServed (keyGens s 0 (4 - s.rng.keyGot)).1) d := by
  rw [runRearm_noPlots latched gone, if_neg (not_not.mpr quiet), if_neg state]
  exact if_pos served

theorem runRearm_waits (state : s.lcs.state ≠ 4) (unserved : (keyGens s 0 (4 - s.rng.keyGot)).2 ≠ 0) :
    runRearm s d = keyHeld (keyGens s 0 (4 - s.rng.keyGot)).1 d (4 - (keyGens s 0 (4 - s.rng.keyGot)).2) := by
  rw [runRearm_noPlots latched gone, if_neg (not_not.mpr quiet), if_neg state]
  exact if_neg unserved

end
end

/-! ### The cabinet after TMP_REARM (R425, R440) -/

/-- The check word that a write to the cabinet leaves verifies: it covers every byte but its own (R425). -/
theorem setCab_verifies (s : State) (f : Cabinet → Cabinet) : (s.setCab f).kpr.cab.verifies = true :=
  beq_self_eq_true _

theorem resealRegistries_kpr (s : State) : (resealRegistries s).kpr = s.kpr := rfl

/-- Sealing reads the registries in use and the cabinet, so that it changes nothing when it is done again. -/
theorem resealRegistries_idem (s : State) : resealRegistries (resealRegistries s) = resealRegistries s := rfl

/-- Waits that nobody has any more end in the conditioner's part of the state, and the waiting command stays as it was. -/
theorem settleWaits_only (s : State) : ∃ x, settleWaits s = { s with rng := x } ∧ x.keyWait = s.rng.keyWait := by
  unfold settleWaits
  refine List.foldlRecOn (motive := fun t => ∃ x, t = { s with rng := x } ∧ x.keyWait = s.rng.keyWait) [0, 1, 2, 3] _
    ⟨s.rng, rfl, rfl⟩ fun t kept k _ => ?_
  obtain ⟨x, rfl, wait⟩ := kept
  split
  · exact ⟨x, rfl, wait⟩
  · exact ⟨_, rfl, wait⟩

theorem keyServed_cust (s : State) : (keyServed s).cust = s.cust := by
  obtain ⟨x, only, _⟩ := settleWaits_only { s with rng := { s.rng with keyWait := none, keyGot := 0 } }
  rw [keyServed, only]

theorem keyServed_keyWait (s : State) : (keyServed s).rng.keyWait = none := by
  obtain ⟨x, only, wait⟩ := settleWaits_only { s with rng := { s.rng with keyWait := none, keyGot := 0 } }
  rw [keyServed, only]
  exact wait

/-- The state that TMP_REARM leaves under its record: new cabinet secrets, the registries sealed under them, no vault record, the latch
clear (R440 steps 2 to 5). -/
def rearmed (s : State) : State :=
  let cleared : State := { drawn s 225 with
    kpr := { s.kpr with cause := 0, tampered := false, startfail := 0 },
    vlt := { s.vlt with recs := [] },
    pwr := { s.pwr with modOk := s.pwr.modOk || s.lcs.phase == Phase.full } }
  let k := s.free + 1
  resealRegistries (cleared.setCab fun c =>
    { c with crk := k, vaultKey := k + 32, tagKey := k + 96, vaultSeed := k + 128, domain := k + 160 })

theorem rearm_eq (s : State) (d : Adm) : rearm s d = admOk (event (rearmed s) 0x3003 modScope []) d := rfl

theorem rearmed_tampered (s : State) : (rearmed s).kpr.tampered = false := rfl
theorem rearmed_cause (s : State) : (rearmed s).kpr.cause = 0 := rfl
theorem rearmed_startfail (s : State) : (rearmed s).kpr.startfail = 0 := rfl
theorem rearmed_vault (s : State) : (rearmed s).vlt.recs = [] := rfl
theorem rearmed_cust (s : State) : (rearmed s).cust = s.cust := rfl
theorem rearmed_rng (s : State) : (rearmed s).rng = s.rng := rfl

theorem rearmed_verifies (s : State) : (rearmed s).kpr.cab.verifies = true := by
  rw [rearmed, resealRegistries_kpr]
  exact setCab_verifies _ _

theorem rearmed_resealed (s : State) : resealRegistries (rearmed s) = rearmed s := by
  rw [rearmed, resealRegistries_idem]

/-! ### The obligation on the SMBus target and the keeper's commands -/

/-- Settles O36, register by register and condition by condition. The PEC's polynomial is presumed (log 121). That TMP_REARM waits for
its four key generations is the model's reading (log 32), and so is it that a disabled loop's TMP_LIVE bit clears (log 82). -/
theorem keeperCommandsAndSmbus : Obligations.KeeperCommandsAndSmbus := by
  unfold Obligations.KeeperCommandsAndSmbus
  refine ⟨fun s vio on serves => ?target, fun s d rest plain => ?commands⟩
  case target =>
    intro a reads
    have answers : ∀ code b, smbRead code b s = reads code b := smbRead_answers vio on serves
    exact ⟨answers 0 _, answers 1 _, answers 2 _, answers 3 _, answers 4 _, answers 5 _, answers 6 _, answers 7 _, answers 8 _,
      answers 9 _, fun i => answers (0x10 + i.val) _, smbusWrite_nacks vio on serves⟩
  case commands =>
    intro u m
    refine ⟨fun serves code inlen mask officer => tmpLoopSet_runs plain serves code inlen mask officer,
      fun serves code inlen officer => ?rearms⟩
    rw [tmpRearm_runs plain serves code inlen officer]
    refine ⟨fun clear => congrArg _ (runRearm_untampered (s := u) clear),
      fun latched left => congrArg _ (runRearm_plotsLeft (s := u) latched left),
      fun latched gone => ⟨fun live => congrArg _ (runRearm_live (s := u) latched gone live),
        fun quiet decom => congrArg _ (runRearm_decommissioned (s := u) latched gone quiet decom), fun quiet state => ?keys⟩⟩
    intro g
    refine ⟨fun served => ⟨rearmed (keyServed g.1), ?done, ?left⟩, fun unserved => ?waits⟩
    case done => exact congrArg _ ((runRearm_served (s := u) latched gone quiet state served).trans (rearm_eq _ d))
    case left => exact ⟨rearmed_tampered _, rearmed_cause _, rearmed_startfail _, rearmed_verifies _, rearmed_vault _,
      congrArg (·.flash.regs) (rearmed_resealed _).symm, by rw [rearmed_cust, keyServed_cust],
      by rw [rearmed_rng, keyServed_keyWait]⟩
    case waits => exact congrArg _ (runRearm_waits (s := u) latched gone quiet state unserved)

end Sys2Proof.Machine
end

/-! SUPPORT. The life-cycle, firmware and recorder commands: which gates let each one run, and each outcome of its run (R484 to R489,
R499, R505 to R510, R519, R522, R523). -/

section
namespace Sys2Proof.Machine

variable {s : State} {d : Adm} {rest : List Adm}

/-! ### LCS_ADVANCE and its tests, in their order (R484, R485, R489) -/

theorem runAdvance_wrongState (wrong : byteAt d.inl 4 ≠ s.lcs.state.toNat + 1 ∨ decodeFuses s.lcs.fuses ≠ s.lcs.state.toNat) :
    runAdvance s d = admFail s d stPolicy 0x70 := by
  rw [runAdvance, if_pos (by simpa using wrong)]

theorem not_unsupplied (battery : 2400 ≤ s.kpr.kvbat) (charged : s.pwr.charged = true) :
    ¬ (s.kpr.kvbat < 2400 ∨ s.pwr.charged = false) := by
  simp [charged, battery]

section
variable (next : byteAt d.inl 4 = s.lcs.state.toNat + 1) (fused : decodeFuses s.lcs.fuses = s.lcs.state.toNat)
include next fused

/-- With the target the state after the fuses', the supplies and for SCRAPPED the exports decide. -/
theorem runAdvance_next : runAdvance s d =
    if s.kpr.kvbat < 2400 ∨ s.pwr.charged = false then admFail s d stPolicy 0x71
    else if byteAt d.inl 4 = 5 ∧ allExported s = false then admFail s d stAudit 0x20
    else admOk (event { s with lcs := { s.lcs with fuses := blow s.lcs.fuses s.lcs.state.toNat } } 0x3020 modScope
      (le 1 s.lcs.state.toNat ++ le 1 (s.lcs.state.toNat + 1))) d := by
  rw [runAdvance, if_neg (by simp [next, fused]), next]
  simp only [Bool.or_eq_true, Bool.and_eq_true, decide_eq_true_eq, Bool.not_eq_true']

theorem runAdvance_unsupplied (low : s.kpr.kvbat < 2400 ∨ s.pwr.charged = false) :
    runAdvance s d = admFail s d stPolicy 0x71 := by
  rw [runAdvance_next next fused, if_pos low]

variable (battery : 2400 ≤ s.kpr.kvbat) (charged : s.pwr.charged = true)
include battery charged

theorem runAdvance_unexported (scrap : byteAt d.inl 4 = 5) (kept : allExported s = false) :
    runAdvance s d = admFail s d stAudit 0x20 := by
  rw [runAdvance_next next fused, if_neg (not_unsupplied battery charged), if_pos ⟨scrap, kept⟩]

theorem runAdvance_burns (exports : byteAt d.inl 4 = 5 → allExported s = true) :
    runAdvance s d = admOk (event { s with lcs := { s.lcs with fuses := blow s.lcs.fuses s.lcs.state.toNat } } 0x3020 modScope
      (le 1 s.lcs.state.toNat ++ le 1 (s.lcs.state.toNat + 1))) d := by
  rw [runAdvance_next next fused, if_neg (not_unsupplied battery charged), if_neg]
  rintro ⟨scrap, kept⟩
  rw [exports scrap] at kept
  cases kept

end

/-! ### FW_LOAD: a chunk that has its place (R507) -/

/-- A chunk of `n` bytes at `ofs` goes into the bank: it begins an image, or continues the one that is being written, within 96 MiB. -/
def ChunkPlaced (k : Bank) (ofs n : Nat) : Prop :=
  (ofs = 0 ∨ (k.valid = false ∧ ofs = k.data.length)) ∧ ofs + n ≤ 96 * 2 ^ 20

/-- The state in which the external data of an admin command have been read, if there are any. -/
def chunkRead (s : State) (d : Adm) : State := if d.extLen = 0 then s else emit s (.read d.extAddr d.extLen)

/-- The image in the bank with the chunk `b` at `ofs`. -/
def withChunk (k : Bank) (ofs : Nat) (b : Bytes) : Bytes := (if ofs = 0 then [] else k.data) ++ b

theorem fit_zero (b : Bytes) : fit 0 b = [] := List.take_zero

/-- The read of external data that comes, or that there are none of. -/
theorem admRead_chunk (out : d.extLen = 0 ∨ heldFor s .pf0 = false) (b : Bytes) (run : State → Bytes → State) :
    admRead s d d.extLen (.data b) run = run (chunkRead s d) (fit d.extLen b) := by
  by_cases none : d.extLen = 0
  · rw [chunkRead, if_pos none, none, fit_zero]; rfl
  · rw [chunkRead, if_neg none, admRead_data (out.resolve_left none) none]

theorem runFwLoad_placed (placed : ChunkPlaced (s.bank !s.lcs.bank) (fld d.inl 4 4) d.extLen)
    (out : d.extLen = 0 ∨ heldFor s .pf0 = false) (b : Bytes) :
    let image := withChunk (s.bank !s.lcs.bank) (fld d.inl 4 4) (fit d.extLen b)
    runFwLoad (.data b) s d =
      if bit (byteAt d.inl 8) 0 then fwVerify (chunkRead s d) d (!s.lcs.bank) image
      else admOk ((chunkRead s d).setBank (!s.lcs.bank) { s.bank !s.lcs.bank with valid := false, data := image }) d := by
  obtain ⟨ordered, fits⟩ := placed
  have taken : ¬ (fld d.inl 4 4 ≠ 0 ∧
      ((s.bank !s.lcs.bank).valid = true ∨ fld d.inl 4 4 ≠ (s.bank !s.lcs.bank).data.length) ∨
      96 * 2 ^ 20 < fld d.inl 4 4 + d.extLen) := by
    rintro (⟨nonzero, misplaced⟩ | long)
    · obtain ⟨invalid, follows⟩ := ordered.resolve_left nonzero
      rcases misplaced with valid | gap
      · rw [invalid] at valid; cases valid
      · exact gap follows
    · exact absurd fits (Nat.not_le.mpr long)
  intro image
  have all : image = if fld d.inl 4 4 = 0 then fit d.extLen b else (s.bank !s.lcs.bank).data ++ fit d.extLen b := by
    show withChunk _ _ _ = _
    unfold withChunk
    split <;> rfl
  rw [all, runFwLoad, if_neg taken, admRead_chunk out]

/-! ### FW_LOAD: the verification of the last chunk (R499, R506, R507) -/

/-- A bank with a whole image, valid where its header is well formed and its signatures hold. -/
def verifiedBank (image : Bytes) : Bank :=
  { valid := fwHeaderOk image && fwSigned image, svn := BitVec.ofNat 16 (fld image 12 2),
    version := BitVec.ofNat 32 (fld image 8 4), data := image }

/-- The state in which the image stands in bank `b` with its record written. -/
def fwRecorded (s : State) (b : Bool) (image : Bytes) : State :=
  let k := verifiedBank image
  event (s.setBank b k) 0x0043 modScope (le 1 (flag b 0) ++ le 4 k.version.toNat ++ le 2 k.svn.toNat ++ le 1 (flag k.valid 0))

section
variable {b : Bool} {image : Bytes}

theorem fwVerify_accepts (valid : (verifiedBank image).valid = true) : fwVerify s d b image = admOk (fwRecorded s b image) d :=
  if_pos valid

theorem fwVerify_refuses (invalid : (verifiedBank image).valid = false) :
    fwVerify s d b image = admFail (fwRecorded s b image) d stPolicy (if fwHeaderOk image then 0x73 else 0x72) :=
  if_neg (ne_true_of_eq_false invalid)

theorem fwVerify_badHeader (bad : fwHeaderOk image = false) :
    fwVerify s d b image = admFail (fwRecorded s b image) d stPolicy 0x72 := by
  rw [fwVerify_refuses (by rw [verifiedBank, bad, Bool.false_and]), if_neg (ne_true_of_eq_false bad)]

theorem fwVerify_badSignature (good : fwHeaderOk image = true) (forged : fwSigned image = false) :
    fwVerify s d b image = admFail (fwRecorded s b image) d stPolicy 0x73 := by
  rw [fwVerify_refuses (by rw [verifiedBank, forged, Bool.and_false]), if_pos good]

end

/-! ### FW_ACTIVATE (R508, R510) -/

theorem runActivate_valid (valid : (s.bank (decide (byteAt d.inl 4 = 1))).valid = true) :
    runActivate s d = beginChange (event s 0x3025 modScope (le 1 (flag (decide (byteAt d.inl 4 = 1)) 0) ++
      le 4 (s.bank (decide (byteAt d.inl 4 = 1))).version.toNat)) (.activate d (decide (byteAt d.inl 4 = 1))) :=
  if_neg (by rw [valid]; decide)

theorem runActivate_invalid (invalid : (s.bank (decide (byteAt d.inl 4 = 1))).valid = false) :
    runActivate s d = admFail s d stPolicy 0x74 :=
  if_pos (by rw [invalid]; rfl)

/-! ### EVR_EXPORT and EVR_ACK (R519, R522, R523) -/

/-- The first SEQ that the command exports. -/
def exportFirst (s : State) (d : Adm) : W32 := exportFrom s.evr (BitVec.ofNat 32 (fld d.inl 4 4))

/-- The records that fit into its buffer behind the seal. -/
def exportRecs (s : State) (d : Adm) : List EvRec := recordsFrom s.evr ((d.resLen - 224) / 64) (exportFirst s d)

/-- The SEQ of the last one. -/
def exportLast (s : State) (d : Adm) : W32 := exportFirst s d + BitVec.ofNat 32 ((exportRecs s d).length - 1)

/-- What it writes: the signed seal and the records. -/
def exportBytes (s : State) (d : Adm) : Bytes :=
  let head := sealHead s.evr (exportFirst s d) (exportRecs s d)
  head ++ fit 96 (Config.attestSign head s.free) ++ (exportRecs s d).flatMap EvRec.bytes

/-- It copies records past EVR_READ. -/
def ExportsFurther (s : State) (d : Adm) : Prop :=
  exportRecs s d ≠ [] ∧ (s.evr.anyRead = true → 2 ^ 31 ≤ (s.evr.read - exportLast s d).toNat)

theorem exportsFurther_iff : ExportsFurther s d ↔
    ¬ ((exportRecs s d).isEmpty || (s.evr.anyRead && decide ((s.evr.read - exportLast s d).toNat < 2 ^ 31))) = true := by
  simp [ExportsFurther]

theorem runExport_repeats (again : ¬ ExportsFurther s d) : runExport s d = admResult (drawn s 1) d (exportBytes s d) := by
  have stays := not_not.mp (mt exportsFurther_iff.mpr again)
  exact congrArg (admResult · d (exportBytes s d)) (if_pos stays)

theorem runExport_further (further : ExportsFurther s d) :
    runExport s d = admResult { drawn s 1 with evr := { s.evr with read := exportLast s d, anyRead := true } } d
      (exportBytes s d) :=
  congrArg (admResult · d (exportBytes s d)) (if_neg (exportsFurther_iff.mp further))

section
variable {q : W32} (named : q = BitVec.ofNat 32 (fld d.inl 4 4))
include named

theorem runAck_exported (any : s.evr.anyRead = true) (covered : (q - s.evr.acked).toNat ≤ (s.evr.read - s.evr.acked).toNat) :
    runAck s d = admOk (event { s with evr := { s.evr with acked := q, anyAck := true } } 0x3024 modScope (le 4 q.toNat)) d := by
  subst named
  exact if_neg (by simpa [any] using covered)

theorem runAck_unexported (beyond : s.evr.anyRead = false ∨ (s.evr.read - s.evr.acked).toNat < (q - s.evr.acked).toNat) :
    runAck s d = admFail s d stPolicy 0x80 := by
  subst named
  exact if_pos (by simpa using beyond)

end

/-! ### The gates of each command (R438, R488, R503, R510, R523, R554) -/

theorem not_changing (settled : s.lcs.change = .none) : ¬ changing s = true := by
  simp [changing, settled]

section
variable (plain : noPlot d = true)
include plain

theorem lcsArgs_of {n : Nat} (u : State) (inlen : d.inlen = n) : lcsArgs n u d = true := by
  simp [lcsArgs, inlen, plain]

theorem lcsAdvance_runs (serves : Serves s d rest (standby := true) (lim := 5)) (code : d.code = 0x180) (inlen : d.inlen = 5)
    (target : byteAt d.inl 4 ≤ 5) (officer : s.lcs.state = 0 ∨ sessionLive (popAdm s rest) modScope 0 = true) :
    exec .lcsAdvance s = .next (runAdvance (popAdm s rest) d) := by
  rw [exec_lcsAdvance, execLcsAdvance, admin_run serves code rfl (by simp [lcsArgs_of plain _ inlen, target]) rfl
    (officer_passes (s := popAdm s rest) d officer)]

theorem lcsStatus_runs (serves : Serves s d rest true true true 5) (code : d.code = 0x181) (inlen : d.inlen = 4)
    (buffer : 64 ≤ d.resLen) : exec .lcsStatus s = .next (admResult (popAdm s rest) d (statusBytes (popAdm s rest))) := by
  rw [exec_lcsStatus, execLcsStatus, admin_run serves code rfl (by simp [lcsArgs_of plain _ inlen, buffer]) rfl rfl]

theorem fwLoad_runs (r : HostRead) (serves : Serves s d rest true true true) (code : d.code = 0x182) (inlen : d.inlen = 12)
    (aligned : fld d.inl 4 4 % 65536 = 0) (last : byteAt d.inl 8 ≤ 1) (reserved : zeros d.inl 9 3 = true) :
    exec (.fwLoad r) s = .next (runFwLoad r (popAdm s rest) d) := by
  rw [exec_fwLoad, execFwLoad, admin_run serves code (notDecom_run serves)
    (by simp [lcsArgs_of plain _ inlen, aligned, last, reserved]) rfl rfl]

section
variable (settled : s.lcs.change = .none)
include settled

theorem fwActivate_runs (serves : Serves s d rest (standby := true)) (code : d.code = 0x183) (inlen : d.inlen = 5)
    (bank : byteAt d.inl 4 ≤ 1) : exec .fwActivate s = .next (runActivate (popAdm s rest) d) := by
  rw [exec_fwActivate, execFwActivate, if_neg (not_changing settled),
    admin_run serves code (notDecom_run serves) (by simp [lcsArgs_of plain _ inlen, bank]) rfl rfl]

theorem modReconfig_runs (serves : Serves s d rest (standby := true)) (code : d.code = 0x186) (inlen : d.inlen = 5)
    (mask : byteAt d.inl 4 < 8) : exec .modReconfig s = .next (runReconfig (popAdm s rest) d) := by
  rw [exec_modReconfig, execModReconfig, if_neg (not_changing settled),
    admin_run serves code (notDecom_run serves) (by simp [lcsArgs_of plain _ inlen, mask]) rfl rfl]

end

theorem startCntReset_restarts (serves : Serves s d rest (fallow := true) (standby := true)) (code : d.code = 0x184)
    (inlen : d.inlen = 4) (officer : sessionLive (popAdm s rest) modScope 0 = true) :
    let e := event (popAdm s rest) 0x3026 modScope (le 1 s.kpr.startfail.toNat)
    exec .startCntReset s = .next (restart { e with kpr := { e.kpr with startfail := 0, fallowReq := false } } 4 true 7) := by
  rw [exec_startCntReset, execStartCntReset,
    admin_run serves code (notDecom_run serves) (lcsArgs_of plain _ inlen) rfl officer]
  rfl

theorem fallowRequest_restarts (serves : Serves s d rest (standby := true)) (code : d.code = 0x185) (inlen : d.inlen = 4)
    (officer : sessionLive (popAdm s rest) modScope 0 = true) :
    let e := event (popAdm s rest) 0x3027 modScope []
    exec .fallowRequest s = .next (restart { e with kpr := { e.kpr with fallowReq := true } } 4 true 7) := by
  rw [exec_fallowRequest, execFallowRequest,
    admin_run serves code (notDecom_run serves) (lcsArgs_of plain _ inlen) rfl officer]

theorem evrExport_runs (serves : Serves s d rest true true true 5) (code : d.code = 0x190) (inlen : d.inlen = 8)
    (low : 288 ≤ d.resLen) (high : d.resLen ≤ 65536) : exec .evrExport s = .next (runExport (popAdm s rest) d) := by
  rw [exec_evrExport, execEvrExport, admin_run serves code rfl (by simp [plain, inlen, low, high]) rfl rfl]

theorem evrAck_runs (serves : Serves s d rest true true true 5) (code : d.code = 0x191) (inlen : d.inlen = 8)
    (auditor : holdsCard (popAdm s rest) modScope 4 = true → sessionLive (popAdm s rest) modScope 4 = true) :
    exec .evrAck s = .next (runAck (popAdm s rest) d) := by
  rw [exec_evrAck, execEvrAck, admin_run serves code rfl (by simp [plain, inlen]) rfl (cardQuorum_passes auditor)]

end

/-! ### The obligation -/

/-- Settles O29, command by command. It is the model's reading that a chunk follows the last one and that an image with a bad header
is recorded too (log 87), and what EVR_EXPORT gives where it copies no record (log 90). -/
theorem lifeCycleCommands : Obligations.LifeCycleCommands := by
  unfold Obligations.LifeCycleCommands
  intro s d rest plain u st officer
  refine ⟨fun serves code inlen target allowed => ?advance, fun serves code inlen => lcsStatus_runs plain serves code inlen,
    fun b serves code inlen aligned last reserved => ?load, fun serves code inlen bank settled => ?activate,
    startCntReset_restarts plain, fallowRequest_restarts plain,
    fun serves code inlen mask settled => modReconfig_runs plain settled serves code inlen mask,
    fun serves code inlen low high => ?exports, fun serves code inlen auditor => ?ack⟩
  case advance =>
    rw [lcsAdvance_runs plain serves code inlen target allowed]
    exact ⟨fun next fused =>
        ⟨fun battery charged exports => congrArg _ (runAdvance_burns (s := u) next fused battery charged exports),
          fun low => congrArg _ (runAdvance_unsupplied (s := u) next fused low),
          fun battery charged scrap kept => congrArg _ (runAdvance_unexported (s := u) next fused battery charged scrap kept)⟩,
      fun wrong => congrArg _ (runAdvance_wrongState (s := u) wrong)⟩
  case load =>
    intro k ofs put placed t img out fits
    rw [fwLoad_runs plain _ serves code inlen aligned last reserved, runFwLoad_placed (s := u) fits out b]
    refine ⟨fun more => ?chunk, fun final => ?image⟩
    case chunk => rw [more]; rfl
    case image =>
      rw [final]
      intro bank e
      exact ⟨fun valid => congrArg _ (fwVerify_accepts valid), fun bad => congrArg _ (fwVerify_badHeader bad),
        fun good forged => congrArg _ (fwVerify_badSignature good forged)⟩
  case activate =>
    rw [fwActivate_runs plain settled serves code inlen bank]
    exact ⟨fun valid => congrArg _ (runActivate_valid (s := u) valid),
      fun invalid => congrArg _ (runActivate_invalid (s := u) invalid)⟩
  case exports =>
    rw [evrExport_runs plain serves code inlen low high]
    exact ⟨fun again => congrArg _ (runExport_repeats (s := u) again),
      fun further => congrArg _ (runExport_further (s := u) further)⟩
  case ack =>
    rw [evrAck_runs plain serves code inlen auditor]
    exact ⟨fun any covered => congrArg _ (runAck_exported (s := u) rfl any covered),
      fun beyond => congrArg _ (runAck_unexported (s := u) rfl beyond)⟩

end Sys2Proof.Machine
end

/-! SUPPORT. What never goes back, and what a step runs (R483, R490; logs 2 to 4). -/

section
namespace Sys2Proof.Machine

/-- Settles O59: every command keeps the fuses, the clock, the free numbers and the output, and a step without a command moves
only the clock, forward. -/
theorem oneWayState : Obligations.OneWayState := by
  unfold Obligations.OneWayState
  intro s t run
  obtain ⟨_, _, fuses, onward⟩ := step_keeps run
  exact ⟨fuses, onward⟩

/-- Settles O28. That an empty queue lets a microsecond pass is the model's choice (log 2). -/
theorem stepRunsTheFront : Obligations.StepRunsTheFront := by
  unfold Obligations.StepRunsTheFront
  exact ⟨fun s c rest front => step_cons front, fun s waits => step_empty waits⟩

end Sys2Proof.Machine
end

/-! SUPPORT. The hedgerow and the debug port: which region decides a byte, what a check leaves, holds and region writes, what the
TAP answers under which rights, the challenge, the token and the consent (R450 to R469). -/

section
namespace Sys2Proof.Machine

variable {s : State}

/-! ### The decision and the check (R454 to R456) -/

/-- The entries before one that is found in a rising list from its end are no higher, and the rest do not satisfy the test. -/
theorem find?_reverse_greatest {l : List Nat} {test : Nat → Bool} (rises : l.Pairwise (· < ·)) {r : Nat}
    (found : l.reverse.find? test = some r) : ∀ q ∈ l, test q = true → q ≤ r := by
  intro q listed holds
  obtain ⟨_, before, after, split, fails⟩ := List.find?_eq_some_iff_append.mp found
  have falls : (before ++ r :: after).Pairwise fun a b => b < a := split ▸ List.pairwise_reverse.mpr rises
  have place : q ∈ before ++ r :: after := split ▸ List.mem_reverse.mpr listed
  rcases List.mem_append.mp place with early | late
  · exact absurd holds (by simpa using fails q early)
  · rcases List.mem_cons.mp late with rfl | later
    · exact Nat.le_refl q
    · exact Nat.le_of_lt ((List.pairwise_cons.mp (List.pairwise_append.mp falls).2.1).1 q later)

theorem decider_greatest {h : Hedge} {a r : Nat} (canonical : twf 0 h.cfg = true) (decides : decider h a = some r) :
    regionHas h r a = true ∧ ∀ q, regionHas h q a = true → q ≤ r :=
  ⟨List.find?_some (p := fun r => regionHas h r a) decides, fun q has =>
    find?_reverse_greatest (keys_rise h.cfg 0 canonical).1 decides q (regionHas_listed has) has⟩

theorem decider_none {h : Hedge} {a : Nat} (decides : decider h a = none) (q : Nat) : regionHas h q a = false := by
  by_contra has
  rw [Bool.not_eq_false] at has
  exact absurd has (List.find?_eq_none.mp decides q (List.mem_reverse.mpr (regionHas_listed has)))

theorem hedgeCheck_passes {cls ty a n : Nat} (permitted : firstForbidden s.hdg cls ty a n = none) :
    hedgeCheck s cls ty a n = (s, true) := by
  rw [hedgeCheck, permitted]

theorem hedgeCheck_refuses {cls ty a n b : Nat} (forbidden : firstForbidden s.hdg cls ty a n = some b) :
    hedgeCheck s cls ty a n = (hedgeFault s cls ty b, false) := by
  rw [hedgeCheck, forbidden]

/-- Settles O37: the listed regions rise, and they are searched from the highest; a check stops at the first forbidden byte. -/
theorem hedgerowDecision : Obligations.HedgerowDecision := by
  unfold Obligations.HedgerowDecision
  refine ⟨fun h a canonical => ⟨fun r => decider_greatest canonical, decider_none⟩, fun s cls ty a n b forbidden => ?_⟩
  exact ⟨hedgeCheck_refuses forbidden, firstForbidden_spec s.hdg cls ty n a b forbidden⟩

/-! ### Holds (R458, R460) -/

theorem holdSet_holds (free : s.hdg.hold = false) :
    exec .holdSet s = .next { s with hdg := { s.hdg with hold := true, since := s.now } } :=
  congrArg Host.Outcome.next (if_neg (by rw [free]; decide))

section
variable (lasts : s.hdg.hold = true)
include lasts

theorem holdSet_again : exec .holdSet s = .next s := congrArg Host.Outcome.next (if_pos lasts)

theorem held_noted : exec .held s = .next { s with hdg := { s.hdg with held := true } } :=
  congrArg Host.Outcome.next (if_pos lasts)

theorem holdLong_noted : exec .holdLong s = .next { s with
    now := max s.now (s.hdg.since + 20), hdg := { s.hdg with long := true, eventCnt := bumpAt s.hdg.eventCnt 2 } } :=
  congrArg Host.Outcome.next (if_pos lasts)

end

/-! ### Region writes (R450 to R452, R457) -/

section
variable {r : Fin 256}

theorem hdgRegionWrite_locked (locked : hdgLock (tget 0 s.hdg.cfg r.val) = true) (g : HdgReg) (v : W32) :
    exec (.hdgRegionWrite r g v) s = .next (hdgCfgErr s) :=
  congrArg Host.Outcome.next (if_pos locked)

section
variable (isOpen : hdgLock (tget 0 s.hdg.cfg r.val) = false) (v : W32)
include isOpen

theorem hdgRegionWrite_base : exec (.hdgRegionWrite r .base v) s =
    .next { s with hdg := { s.hdg with base := tset 0 r.val (v &&& 0xFFFFF000#32) s.hdg.base } } :=
  congrArg Host.Outcome.next (if_neg (by rw [isOpen]; decide))

theorem hdgRegionWrite_permLo : exec (.hdgRegionWrite r .permLo v) s =
    .next { s with hdg := { s.hdg with perm := tset 0 r.val ((v &&& 0x07FFFFFF#32).setWidth 64) s.hdg.perm } } :=
  congrArg Host.Outcome.next (if_neg (by rw [isOpen]; decide))

theorem hdgRegionWrite_permHi : exec (.hdgRegionWrite r .permHi v) s = .next s :=
  congrArg Host.Outcome.next (if_neg (by rw [isOpen]; decide))

theorem hdgRegionWrite_cfg : exec (.hdgRegionWrite r .cfg v) s = .next (writeCfg s r.val v) :=
  congrArg Host.Outcome.next (if_neg (by rw [isOpen]; decide))

end

/-- Masking a written HDG_CFG to the bits that exist keeps EN and SIZE. -/
theorem hdgEn_mask (v : W32) : hdgEn (v &&& 0x80FF013F#32) = hdgEn v := by
  unfold hdgEn
  rw [BitVec.getLsbD_and, show (0x80FF013F#32).getLsbD 8 = true by decide, Bool.and_true]
theorem hdgSize_mask (v : W32) : hdgSize (v &&& 0x80FF013F#32) = hdgSize v := by
  unfold hdgSize
  rw [BitVec.extractLsb'_and, show (0x80FF013F#32).extractLsb' 0 6 = BitVec.allOnes 6 by decide, BitVec.and_allOnes]

theorem writeCfg_takes {v : W32} (good : hdgEn v = false ∨ (15 ≤ hdgSize v ∧ hdgSize v ≤ 32)) :
    writeCfg s r.val v = { s with hdg := { s.hdg with cfg := tset 0 r.val (v &&& 0x80FF013F#32) s.hdg.cfg } } := by
  have fits : (hdgEn v && (decide (hdgSize v < 15) || decide (32 < hdgSize v))) = false := by
    rcases good with off | ⟨low, high⟩
    · rw [off]; rfl
    · rw [decide_eq_false (by omega), decide_eq_false (by omega), Bool.or_false, Bool.and_false]
  simp only [writeCfg, hdgEn_mask, hdgSize_mask, fits, Bool.false_eq_true, if_false]

theorem writeCfg_badSize {v : W32} (on : hdgEn v = true) (bad : hdgSize v < 15 ∨ 32 < hdgSize v) :
    writeCfg s r.val v = { s with hdg := { s.hdg with
      cfg := tset 0 r.val (v &&& 0x80FF003F#32) s.hdg.cfg, cfgErr := true, eventCnt := bumpAt s.hdg.eventCnt 3 } } := by
  have misfits : (hdgEn v && (decide (hdgSize v < 15) || decide (32 < hdgSize v))) = true := by
    rw [on, Bool.true_and, Bool.or_eq_true, decide_eq_true_eq, decide_eq_true_eq]
    exact bad
  have noEn : v &&& 0x80FF013F#32 &&& ~~~(0x100#32) = v &&& 0x80FF003F#32 := by
    rw [BitVec.and_assoc]; rfl
  simp only [writeCfg, hdgEn_mask, hdgSize_mask, misfits, if_true, noEn]
  rfl

end

/-- Settles O38, write by write. -/
theorem holdsAndRegions : Obligations.HoldsAndRegions := by
  unfold Obligations.HoldsAndRegions
  intro s
  refine ⟨holdSet_holds, fun lasts => ⟨holdSet_again lasts, held_noted lasts, holdLong_noted lasts⟩, rfl,
    fun r g v locked => hdgRegionWrite_locked locked g v, fun r v isOpen => ?_⟩
  refine ⟨hdgRegionWrite_base isOpen v, hdgRegionWrite_permLo isOpen v, hdgRegionWrite_permHi isOpen v, fun good => ?takes,
    fun on bad => ?refuses⟩
  case takes => rw [hdgRegionWrite_cfg isOpen, writeCfg_takes good]
  case refuses => rw [hdgRegionWrite_cfg isOpen, writeCfg_badSize on bad]

/-! ### The TAP (R462, R469, Table 12.2) -/

theorem tapFull_of (vio : s.pwr.vio = true) (power : s.pwr.good = true) (state : s.lcs.state.toNat ≤ 4)
    (serves : s.lcs.phase ≠ .inert) : tapFull s = true := by
  simp [tapFull, tapUp, vio, power, state, serves]

section
variable (vio : s.pwr.vio = true) (power : s.pwr.good = true)
include vio power

theorem bypass_answers : exec .bypass s = .next (emit s (.jtag [0])) :=
  congrArg Host.Outcome.next (if_pos (by rw [tapUp, vio, power]; rfl))
theorem idcode_answers : exec .idcode s = .next (emit s (.jtag (le 4 Config.idcode.toNat))) :=
  congrArg Host.Outcome.next (if_pos (by rw [tapUp, vio, power]; rfl))

end

/-! ### Accesses of a debugger (R455, R457, R458) -/

section
variable {a : W32} {n : Nat} {b : Bytes}

theorem debugAccess_read_passes (permitted : firstForbidden s.hdg 7 0 a.toNat n = none) :
    debugAccess s a (.read n) = emit s (.debug (mread s.stw.mem a.toNat n)) := by
  simp only [debugAccess, hedgeCheck_passes permitted]
theorem debugAccess_exec_passes (permitted : firstForbidden s.hdg 7 2 a.toNat n = none) :
    debugAccess s a (.exec n) = emit s (.debug (mread s.stw.mem a.toNat n)) := by
  simp only [debugAccess, hedgeCheck_passes permitted]
theorem debugAccess_write_passes (permitted : firstForbidden s.hdg 7 1 a.toNat b.length = none) :
    debugAccess s a (.write b) = { s with stw := { s.stw with mem := mwrite s.stw.mem a.toNat b } } := by
  simp only [debugAccess, hedgeCheck_passes permitted]

variable {k : Nat}

theorem debugAccess_read_refused (forbidden : firstForbidden s.hdg 7 0 a.toNat n = some k) :
    debugAccess s a (.read n) = emit (hedgeFault s 7 0 k) (.debug (List.replicate n 0)) := by
  simp only [debugAccess, hedgeCheck_refuses forbidden]
theorem debugAccess_exec_refused (forbidden : firstForbidden s.hdg 7 2 a.toNat n = some k) :
    debugAccess s a (.exec n) = emit (hedgeFault s 7 2 k) (.debug (List.replicate n 0)) := by
  simp only [debugAccess, hedgeCheck_refuses forbidden]
theorem debugAccess_write_refused (forbidden : firstForbidden s.hdg 7 1 a.toNat b.length = some k) :
    debugAccess s a (.write b) = hedgeFault s 7 1 k := by
  simp only [debugAccess, hedgeCheck_refuses forbidden]

end

/-! ### What a token's check says of it (R464) -/

/-- An accepted token asks for no right but the four that exist. -/
theorem tokenOk_rights {t : Bytes} (accepted : tokenOk s t = true) : byteAt t 36 < 16 := by
  unfold tokenOk at accepted
  split at accepted
  · cases accepted
  · simp only [Bool.and_eq_true, decide_eq_true_eq] at accepted
    tauto

/-- The rights of an accepted token, written into the record as they stand in it. -/
theorem tokenOk_rights_toNat {t : Bytes} (accepted : tokenOk s t = true) :
    (BitVec.ofNat 4 (byteAt t 36)).toNat = byteAt t 36 :=
  Nat.mod_eq_of_lt (tokenOk_rights accepted)

/-- The state in which a token has consumed the challenge and its consent (R465). -/
def challengeTaken (s : State) : State := { s with dbg := { s.dbg with challenge := none, consent := none } }

section
variable {t : Bytes}

theorem takeToken_accepted (accepted : tokenOk s t = true) :
    takeToken s t = grantRights (challengeTaken s) (BitVec.ofNat 4 (byteAt t 36)) := if_pos accepted

theorem takeToken_refused (refused : tokenOk s t = false) : takeToken s t = event { s with dbg := { s.dbg with
      challenge := none, consent := none, failCnt := bump s.dbg.failCnt } } 0x3011 modScope
    (le 1 (byteAt t 36) ++ le 1 (flag s.dbg.zeroised 0)) :=
  if_neg (by rw [refused]; decide)

theorem grantRights_operational (state : s.lcs.state = 3) (r : BitVec 4) :
    let z := zeroPlotKeys s
    grantRights s r = grantOn { z with dbg := { z.dbg with grant := some (r ||| z.dbg.grant.getD 0), got := 0 } } := if_pos state

theorem grantRights_decommissioned (state : s.lcs.state = 4) (r : BitVec 4) :
    let z := zeroKeyPlane (zeroCabinet s)
    grantRights s r = grantNow { z with dbg := { z.dbg with zeroised := true } } r := by
  rw [grantRights, if_neg (by rw [state]; decide), if_pos state]

/-- A grant after the cabinet has been zeroised is recorded with ZEROISED (R467, Table 14.3). -/
theorem grantNow_zeroised (z : State) (r : BitVec 4) : grantNow { z with dbg := { z.dbg with zeroised := true } } r =
    event { z with dbg := { z.dbg with zeroised := true, granted := true, rights := z.dbg.rights ||| r } } 0x3012 modScope
      (le 1 r.toNat ++ le 1 1) := rfl

theorem grantRights_other (notOperational : s.lcs.state ≠ 3) (notDecommissioned : s.lcs.state ≠ 4) (r : BitVec 4) :
    grantRights s r = grantNow s r := by
  rw [grantRights, if_neg notOperational, if_neg notDecommissioned]

end

/-! ### The TAP in the states that answer more than BYPASS and IDCODE -/

section
variable (full : tapFull s = true)
include full

theorem sample_answers : exec .sample s = .next (emit (drawn s 1) (.jtag (Config.boundary s.free))) :=
  congrArg Host.Outcome.next (if_pos full)

theorem extest_answers (early : s.lcs.state.toNat ≤ 1) :
    exec .extest s = .next (emit (drawn s 1) (.jtag (Config.boundary s.free))) :=
  congrArg Host.Outcome.next (if_pos (by rw [full, decide_eq_true early]; rfl))

theorem debugMemAccess_waits (right : (rights s).getLsbD 2 = true) (lasts : s.hdg.hold = true) (a : W32) (d : DbgAccess) :
    exec (.debugMemAccess a d) s = .next { s with hdg := { s.hdg with waiting := s.hdg.waiting ++ [(a, d)] } } := by
  rw [exec_debugMemAccess, execDebugMemAccess, if_neg (by rw [full, right]; decide), if_pos lasts]

theorem debugMemAccess_goes (right : (rights s).getLsbD 2 = true) (free : s.hdg.hold = false) (a : W32) (d : DbgAccess) :
    exec (.debugMemAccess a d) s = .next (debugAccess s a d) := by
  rw [exec_debugMemAccess, execDebugMemAccess, if_neg (by rw [full, right]; decide), if_neg (by rw [free]; decide)]

theorem debugHalt_sets (c : CoreId) : exec (.debugHalt c) s = .next (setHalted s c true) :=
  congrArg Host.Outcome.next (if_pos full)
theorem debugResume_sets (c : CoreId) : exec (.debugResume c) s = .next (setHalted s c false) :=
  congrArg Host.Outcome.next (if_pos full)

theorem dbgChallenge_answers (ready : privReady s 1 = true) (r : BitVec 4) :
    let c := challengeRec s (freeBytes s.free 32) r
    let u := drawn (privGen s 1) 32
    exec (.dbgChallenge r) s = .next (emit { u with dbg := { u.dbg with
      challenge := some (c, r), consent := none } } (.jtag c)) :=
  congrArg Host.Outcome.next (if_neg (by rw [full, ready]; decide))

theorem dbgToken_takes {t : Bytes} (len : t.length = 160) : exec (.dbgToken t) s = .next (takeToken s t) := by
  rw [exec_dbgToken, execDbgToken, if_neg (not_not.mpr len), if_pos full]

end

theorem extest_silent (late : 1 < s.lcs.state.toNat) : exec .extest s = .next s :=
  congrArg Host.Outcome.next (if_neg (by rw [decide_eq_false (by omega)]; simp))

theorem debugMemAccess_noRight (right : (rights s).getLsbD 2 = false) (a : W32) (d : DbgAccess) :
    exec (.debugMemAccess a d) s = .next s :=
  congrArg Host.Outcome.next (if_pos (by rw [right]; simp))

theorem dbgChallenge_silent (unready : privReady s 1 = false) (r : BitVec 4) : exec (.dbgChallenge r) s = .next s :=
  congrArg Host.Outcome.next (if_pos (by rw [unready]; simp))

theorem setHalted_steward (right : (rights s).getLsbD 0 = true) (h : Bool) :
    setHalted s .steward h = { s with stw := { s.stw with halted := h } } := if_pos right
theorem setHalted_tiller (right : (rights s).getLsbD 1 = true) (y : YokeId) (h : Bool) :
    setHalted s (.tiller y) h = s.modYoke y fun k => { k with halted := h } := if_pos right

/-! ### The consent (R466, R481) -/

theorem dbgConsent_recorded {d : Adm} {rest : List Adm} (serves : Serves s d rest) (code : d.code = 0x178)
    (state : s.lcs.state = 3) (inlen : d.inlen = 40) (scope : d.pid = modScope) (named : zeros d.inl 2 2 = true)
    (rights : byteAt d.inl 36 < 16) (reserved : zeros d.inl 37 3 = true) (officer : sessionLive (popAdm s rest) modScope 0 = true)
    (room : auditRoom (popAdm s rest) = true) :
    let h := cut d.inl 4 32
    let r := reserve (popAdm s rest)
    exec .dbgConsent s = .next (admOk (writeReserved { r with dbg := { s.dbg with
      consent := some (h, BitVec.ofNat 4 (byteAt d.inl 36)) } } 0x2008 modScope h) d) := by
  have inScope : scopeNamed d = true := by
    rw [scopeNamed, scope, named]; decide
  rw [exec_dbgConsent, execDbgConsent,
    admin_run serves code (by rw [show (popAdm s rest).lcs.state = 3 from state]; rfl)
      (by simp [inlen, inScope, rights, reserved]) rfl officer,
    runConsent, if_neg (not_not.mpr scope), if_neg (by rw [room]; decide)]
  rfl

/-- Settles O39, part by part. That there is no answer to a challenge while P1 has no output is the model's choice (log 44),
and that the rights of several tokens add up is its reading (log 95). -/
theorem debugPort : Obligations.DebugPort := by
  unfold Obligations.DebugPort
  refine ⟨fun s vio power => ⟨bypass_answers vio power, idcode_answers vio power, fun state serves => ?full⟩, fun s => rfl,
    fun s d rest serves code state inlen scope named rights reserved officer room =>
      dbgConsent_recorded serves code state inlen scope named rights reserved officer room⟩
  have full := tapFull_of vio power state serves
  refine ⟨sample_answers full, extest_answers full, extest_silent, fun right => ?memory, debugMemAccess_noRight,
    fun right => ?steward, fun right y => ?tiller, dbgChallenge_answers full, dbgChallenge_silent, fun t len => ?token⟩
  case memory =>
    have goes := fun free a d => debugMemAccess_goes full right free a d
    refine ⟨fun a d lasts => debugMemAccess_waits full right lasts a d, fun a b free permitted => ?write,
      fun a n free permitted => ?read, fun a n free permitted => ?fetch, fun a b k free forbidden => ?writeRefused,
      fun a n k free forbidden => ?readRefused, fun a n k free forbidden => ?fetchRefused⟩
    case write => rw [goes free, debugAccess_write_passes permitted]
    case read => rw [goes free, debugAccess_read_passes permitted]
    case fetch => rw [goes free, debugAccess_exec_passes permitted]
    case writeRefused => rw [goes free, debugAccess_write_refused forbidden]
    case readRefused => rw [goes free, debugAccess_read_refused forbidden]
    case fetchRefused => rw [goes free, debugAccess_exec_refused forbidden]
  case steward =>
    exact ⟨(debugHalt_sets full _).trans (congrArg _ (setHalted_steward right true)),
      (debugResume_sets full _).trans (congrArg _ (setHalted_steward right false))⟩
  case tiller =>
    exact ⟨(debugHalt_sets full _).trans (congrArg _ (setHalted_tiller right y true)),
      (debugResume_sets full _).trans (congrArg _ (setHalted_tiller right y false))⟩
  case token =>
    rw [dbgToken_takes full len]
    refine ⟨fun accepted notOperational notDecommissioned => ?granted, ⟨fun accepted operational => ?zeroised,
      fun accepted decommissioned => ?cabinet⟩, fun refused => congrArg _ (takeToken_refused refused)⟩
    case granted =>
      rw [takeToken_accepted accepted, grantRights_other (s := challengeTaken s) notOperational notDecommissioned,
        grantNow, dbgPayload, tokenOk_rights_toNat accepted]
      rfl
    case zeroised => rw [takeToken_accepted accepted, grantRights_operational (s := challengeTaken s) operational]; rfl
    case cabinet =>
      rw [takeToken_accepted accepted, grantRights_decommissioned (s := challengeTaken s) decommissioned,
        grantNow_zeroised, tokenOk_rights_toNat accepted]
      rfl

end Sys2Proof.Machine
end

/-! SUPPORT. The custodian commands past their gates (R470 to R474, R476 to R481): the gates that let each one run, and what
its run comes to where its own checks pass. -/

section
namespace Sys2Proof.Machine

variable {s : State} {d : Adm}

/-! ### The checks of the commands' own (R472, R473, R476, R478) -/

/-- The scope that a command names is there: the manager's, or a plot's that is not ABSENT. -/
theorem scopeThere_of (there : d.pid = modScope ∨ (s.plot d.pid).st ≠ .absent) : scopeThere s d = true := by
  rcases there with manager | plot
  · rw [scopeThere, isManager, manager, beq_self_eq_true, Bool.true_or]
  · rw [scopeThere, decide_eq_true plot, Bool.or_true]

theorem roleOk_of (role : roleOf d ≤ 4) (there : scopeThere s d = true) : roleOk s d = true := by
  rw [roleOk, decide_eq_true role, there]
  rfl

/-- A PED is enrolled where its key is kept. -/
theorem isEmpty_of_ne_nil {b : Bytes} (h : b ≠ []) : b.isEmpty = false := List.isEmpty_eq_false_iff.mpr h

theorem endInteraction_ends (busy : s.cust.op ≠ .idle) (last : BitVec 4) :
    endInteraction s last = idleAfter (unreserve s) last := if_neg busy

/-! ### What the commands do past their gates -/

section
variable (idle : s.cust.op = .idle) (role : roleOf d ≤ 4) (there : scopeThere s d = true) (ped : s.cust.ped ≠ [])
  (room : auditRoom s = true)
include idle role there ped room

/-- An enrolment begins with its reserved record. -/
theorem runEnrol_begins (slot : slotFree s = true) (few : roleCards (s.registry d.pid) (roleOf d) < 16) :
    runEnrol s d = admOk (beginOp s d .enrol 1) d := by
  rw [runEnrol, if_neg (by rw [idle, slot]; decide), if_neg (by rw [roleOk_of role there]; decide),
    if_neg (Nat.not_le.mpr few), if_neg (by rw [isEmpty_of_ne_nil ped]; decide), if_neg (by rw [room]; decide)]

/-- An assembly begins with its reserved record where a session can be live beside the one there is. -/
theorem runSessionOpen_begins (dead : sessionLive s d.pid (roleOf d) = false)
    (place : s.session 0 = none ∨ s.session 1 = none) :
    runSessionOpen s d = admOk (beginOp s d .assembly (roleM (s.registry d.pid) (roleOf d))) d := by
  have free : ((s.session 0).isSome && (s.session 1).isSome) = false := by
    rcases place with none | none
    · rw [none]; rfl
    · rw [none]; exact Bool.and_false _
  rw [runSessionOpen, if_neg (not_not_intro idle), if_neg (by rw [roleOk_of role there]; decide),
    if_neg (by rw [dead, free]; decide), if_neg (by rw [isEmpty_of_ne_nil ped]; decide), if_neg (by rw [room]; decide)]

end

theorem runRevoke_revokes {c : Card} (room : auditRoom s = true)
    (listed : ((s.registry d.pid).cards.find? fun x => x.hash == cut d.inl 4 32) = some c)
    (left : roleM (s.registry d.pid) c.role < roleCards (s.registry d.pid) c.role) :
    let h := cut d.inl 4 32
    let r := s.registry d.pid
    runRevoke s d = admOk (writeReserved ((endAnchored (reserve s) d.pid h).setRegistry d.pid
      { r with cards := r.cards.filter fun x => x.hash != h }) 0x2002 d.pid (cardPayload c.role c.ix h)) d := by
  simp only [runRevoke, listed, Nat.not_le.mpr left, room, if_false, Bool.not_true, Bool.false_eq_true]

theorem runSetM_sets (role : roleOf d ≤ 4) (there : scopeThere s d = true) (room : auditRoom s = true)
    (low : 2 ≤ byteAt d.inl 5) (high : byteAt d.inl 5 ≤ 8) (held : byteAt d.inl 5 ≤ roleCards (s.registry d.pid) (roleOf d)) :
    let r := s.registry d.pid
    let m := byteAt d.inl 5
    runSetM s d = admOk (writeReserved ((reserve s).setRegistry d.pid { r with m := tset 2 (roleOf d) m r.m }) 0x2003 d.pid
      (le 1 (roleOf d) ++ le 1 m)) d := by
  have fits : ¬ (byteAt d.inl 5 < 2 ∨ 8 < byteAt d.inl 5 ∨ roleCards (s.registry d.pid) (roleOf d) < byteAt d.inl 5) := by omega
  rw [runSetM, if_neg (by rw [roleOk_of role there]; decide), if_neg (by simpa [or_assoc] using fits),
    if_neg (by rw [room]; decide)]

section
variable {x : Session} (room : auditRoom s = true) (scope : x.scope = d.pid) (role : x.role = roleOf d)
include room scope role

theorem runSessionEnd_first (live : s.session 0 = some x) : runSessionEnd s d = admOk (endSession s 0 3) d := by
  simp only [runSessionEnd, List.find?_cons, live, scope, role, beq_self_eq_true, Bool.and_self, room, Bool.not_true,
    Bool.false_eq_true, if_false]

theorem runSessionEnd_second (first : s.session 0 = none) (live : s.session 1 = some x) :
    runSessionEnd s d = admOk (endSession s 1 3) d := by
  simp only [runSessionEnd, List.find?_cons, first, live, scope, role, beq_self_eq_true, Bool.and_self, room, Bool.not_true,
    Bool.false_eq_true, if_false]

end

theorem runCeremony_begins (idle : s.cust.op = .idle) (slot : slotFree s = true) (plot : d.pid ≠ modScope)
    (st : (s.plot d.pid).st ∈ createdToStopped) (ped : s.cust.ped ≠ []) (ok : cerOk d = true) (room : auditRoom s = true) :
    let b := beginOp s d .ceremony (cerK d)
    runCeremony s d = admOk (bindCeremony { b with cust := { b.cust with cer := d, ctx := none } }) d := by
  have ofPlot : isManager d = false := beq_false_of_ne plot
  have state : createdToStopped.contains (s.plot d.pid).st = true := List.contains_iff_mem.mpr st
  rw [runCeremony, if_neg (by rw [idle, slot]; decide), if_neg (by rw [ofPlot, state]; decide),
    if_neg (by rw [isEmpty_of_ne_nil ped]; decide), if_neg (by rw [ok]; decide), if_neg (by rw [room]; decide)]

theorem runCancel_ends (busy : s.cust.op ≠ .idle) (scope : s.cust.scope = d.pid) :
    runCancel s d = admOk (idleAfter (unreserve s) 7) d := by
  rw [runCancel, if_neg (by simp [busy, scope]), endInteraction_ends busy]

theorem runPedEnrol_enrols {b : Bytes} (manager : d.pid = modScope) (out : heldFor s .pf0 = false)
    (point : byteAt (fit 65 b) 0 = 4) (room : auditRoom s = true) :
    let e := reserve (emit s (.read d.extAddr 65))
    runPedEnrol (.data b) s d = admOk (writeReserved { e with cust := { s.cust with
      ped := fit 65 b, conSeq := 0, conBad := 0 } } 0x2007 modScope (keyHash (fit 65 b))) d := by
  rw [runPedEnrol, if_neg (by rw [isManager, manager]; decide), admRead_data out (by decide), if_neg (not_not_intro point),
    auditRoom_emit, if_neg (by rw [room]; decide)]
  rfl

/-! ### The commands -/

section
variable {rest : List Adm}
  (serves : Serves s d rest (isManager d) (isManager d) true (if isManager d then 5 else 4)) (named : scopeNamed d = true)
  (there : scopeThere (popAdm s rest) d = true)
include serves named there

theorem custEnrol_runs (code : d.code = 0x170) (inlen : d.inlen = 6) (reserved : zeros d.inl 5 1 = true)
    (quorum : sessionLive (popAdm s rest) d.pid 0 = true ∨
      (roleOf d = 0 ∧ holdsCard (popAdm s rest) d.pid 0 = false ∧ firstCards (popAdm s rest) d = true)) :
    exec .custEnrol s = .next (runEnrol (popAdm s rest) d) :=
  custCmd_run serves code named (by rw [inlen, reserved]; rfl) there (by
    rcases quorum with officer | ⟨officerRole, noCard, first⟩
    · rw [scopeSO, officer, Bool.true_or]
    · rw [officerRole, noCard, first]; exact Bool.or_true _)

theorem custRevoke_runs (code : d.code = 0x171) (inlen : d.inlen = 36) (officer : sessionLive (popAdm s rest) d.pid 0 = true) :
    exec .custRevoke s = .next (runRevoke (popAdm s rest) d) :=
  custCmd_run serves code named (by rw [inlen]; rfl) there officer

theorem custSetM_runs (code : d.code = 0x172) (inlen : d.inlen = 6) (officer : sessionLive (popAdm s rest) d.pid 0 = true) :
    exec .custSetM s = .next (runSetM (popAdm s rest) d) :=
  custCmd_run serves code named (by rw [inlen]; rfl) there officer

theorem custSessionOpen_runs (code : d.code = 0x173) (inlen : d.inlen = 6) (reserved : zeros d.inl 5 1 = true) :
    exec .custSessionOpen s = .next (runSessionOpen (popAdm s rest) d) :=
  custCmd_run serves code named (by rw [inlen, reserved]; rfl) there rfl

theorem custSessionEnd_runs (code : d.code = 0x174) (inlen : d.inlen = 6) (reserved : zeros d.inl 5 1 = true) :
    exec .custSessionEnd s = .next (runSessionEnd (popAdm s rest) d) :=
  custCmd_run serves code named (by rw [inlen, reserved]; rfl) there rfl

theorem custCancel_runs (code : d.code = 0x176) (inlen : d.inlen = 4) :
    exec .custCancel s = .next (runCancel (popAdm s rest) d) :=
  custCmd_run serves code named (by rw [inlen]; rfl) there rfl

/-- A ceremony is a plot's, and no standby serves it (R554). -/
theorem keyCeremony_runs (active : mirrors s = false) (plot : d.pid ≠ modScope) (code : d.code = 0x175) (inlen : d.inlen = 24)
    (reserved : zeros d.inl 21 3 = true) (officer : sessionLive (popAdm s rest) d.pid 0 = true) :
    exec .keyCeremony s = .next (runCeremony (popAdm s rest) d) := by
  have ofPlot : isManager d = false := beq_false_of_ne plot
  rw [ofPlot] at serves
  obtain ⟨front, valid, free, fallow, tampered, state, _⟩ := serves
  have alone : Serves s d rest := ⟨front, valid, free, fallow, tampered, state, fun copy => by rw [active] at copy; exact copy⟩
  rw [exec_keyCeremony, execKeyCeremony,
    admin_run alone code (notDecom_run alone) (by rw [named, inlen, reserved]; rfl) there officer, notStandby_run alone]

theorem pedEnrol_runs (r : HostRead) (code : d.code = 0x177) (inlen : d.inlen = 4) (len : d.extLen = 65)
    (quorum : sessionLive (popAdm s rest) d.pid 0 = true ∨ (s.cust.ped = [] ∧ firstCards (popAdm s rest) d = true)) :
    exec (.pedEnrol r) s = .next (runPedEnrol r (popAdm s rest) d) :=
  custCmd_run serves code named (by rw [inlen, len]; rfl) there (by
    rcases quorum with officer | ⟨noPed, first⟩
    · rw [scopeSO, officer, Bool.true_or]
    · rw [show (popAdm s rest).cust.ped = [] from noPed, first, Bool.or_true]; exact Bool.or_true _)

end

/-- A ceremony begins for the component custodians, whose role its own choice of groups gives (R479). -/
theorem beginOp_ceremony (s : State) (d : Adm) (need : Nat) :
    beginOp s d .ceremony need = { reserve s with cust := { (reserve s).cust with
        op := .ceremony, need := need, scope := d.pid, role := 0, counted := [], step := .card, part := [], xored := [],
        groups := 0 } } := rfl

/-- Settles O40, command by command. The number 3 of the cause with which CUST_SESSION_END ends a session is the model's choice
(log 24); that a ceremony binds its lane context as it begins, where one is free, is its reading (log 92). -/
theorem custodianCommands : Obligations.CustodianCommands := by
  unfold Obligations.CustodianCommands
  intro s d rest serves named scope u role r begun officer free
  have there : scopeThere u d = true := scopeThere_of scope
  refine ⟨fun code inlen reserved quorum ⟨idle, valid, ped, room⟩ slot few => ?enrols,
    fun c code inlen live room listed left => ?revokes, fun code inlen live valid room low high held => ?sets,
    fun code inlen reserved ⟨idle, valid, ped, room⟩ dead place => ?opens,
    fun code inlen reserved room => ⟨fun x live scope role => ?endsFirst, fun x first live scope role => ?endsSecond⟩,
    fun code active inlen reserved live idle slot plot st ped ok room => ?begins, fun code inlen busy scope => ?cancels,
    fun b code inlen len manager out quorum point room => ?ped⟩
  case enrols =>
    rw [custEnrol_runs serves named there code inlen reserved quorum, runEnrol_begins (s := u) idle valid there ped room slot few,
      beginOp_eq u d .enrol 1 (by decide)]
  case revokes =>
    rw [custRevoke_runs serves named there code inlen live]
    exact congrArg _ (runRevoke_revokes (s := u) room listed left)
  case sets =>
    rw [custSetM_runs serves named there code inlen live]
    exact congrArg _ (runSetM_sets (s := u) valid there room low high held)
  case opens =>
    rw [custSessionOpen_runs serves named there code inlen reserved,
      runSessionOpen_begins (s := u) idle valid there ped room dead place, beginOp_eq u d .assembly _ (by decide)]
    rfl
  case endsFirst =>
    rw [custSessionEnd_runs serves named there code inlen reserved, runSessionEnd_first (s := u) room scope role live]
  case endsSecond =>
    rw [custSessionEnd_runs serves named there code inlen reserved, runSessionEnd_second (s := u) room scope role first live]
  case begins =>
    rw [keyCeremony_runs serves named there active plot code inlen reserved live,
      runCeremony_begins (s := u) idle slot plot st ped ok room, beginOp_ceremony]
    rfl
  case cancels =>
    rw [custCancel_runs serves named there code inlen, runCancel_ends (s := u) busy scope]
  case ped =>
    rw [pedEnrol_runs serves named there _ code inlen len quorum]
    exact congrArg _ (runPedEnrol_enrols (s := u) manager out point room)

end Sys2Proof.Machine
end

/-! SUPPORT. A custodian interaction step by step (R474 to R480, R586): the card, the console and the card's answers, withdrawals,
overcurrents and times, the opening of a session and its end. -/

section
namespace Sys2Proof.Machine

variable {s : State}

/-! ### Records leave the custodians alone -/

theorem event_cust (s : State) (code : BitVec 16) (scope : Nat) (p : Bytes) (flags : Byte) :
    (event s code scope p flags).cust = s.cust := by
  obtain ⟨_, _, _, only⟩ := event_only s code scope p flags
  rw [only]

/-! ### Sessions (R476, R477) -/

section
variable (none0 : s.session 0 = none) (canonical : twf none s.cust.sess = true)

theorem session_setSession_same {k : Nat} (canonical : twf none s.cust.sess = true) (x : Option Session) :
    (s.setSession k x).session k = x := tget_tset_same canonical

theorem session_setSession_ne {j k : Nat} (other : j ≠ k) (x : Option Session) :
    (s.setSession k x).session j = s.session j := tget_tset_ne other _

/-- A session of place 0 is live for its scope and role. -/
theorem sessionLive_first {x : Session} (live : s.session 0 = some x) : sessionLive s x.scope x.role = true := by
  have there : tget none s.cust.sess 0 = some x := live
  simp [sessionLive, there]

include none0 in
/-- The session takes the lower of the two places where that is free. -/
theorem sessionOpens_first (h : Bytes) :
    let x : Session := {
      scope := s.cust.scope, role := s.cust.role, slot := s.cust.slot, anchor := h, ends := s.now + 900000000 }
    sessionOpens s h = idleAfter (writeReserved (s.setSession 0 (some x)) 0x2004 s.cust.scope (le 1 s.cust.role ++
      le 1 (cardIx (s.registry s.cust.scope) h))) 1 := by
  simp only [sessionOpens, none0, Option.isNone_none, if_true]

end

/-- Unless a ceremony is under way, the end of a session is its record and the place it leaves. -/
theorem endSession_noCeremony {k : Nat} {x : Session} (live : s.session k = some x) (calm : s.cust.op ≠ .ceremony)
    (cause : Nat) : endSession s k cause = event (s.setSession k none) 0x2005 x.scope
      (le 1 x.role ++ le 1 (cardIx (s.registry x.scope) x.anchor) ++ le 1 cause) := by
  simp only [endSession, live]
  refine if_neg ?_
  rw [event_cust]
  simp [State.setSession, calm]

theorem endSession_session_ne {j k : Nat} {x : Session} (live : s.session k = some x) (calm : s.cust.op ≠ .ceremony)
    (cause : Nat) (other : j ≠ k) : (endSession s k cause).session j = s.session j := by
  rw [endSession_noCeremony live calm, State.session, event_cust]
  exact session_setSession_ne other none

/-! ### A card is inserted (R475 steps 1 to 3) -/

/-- The state in which a card's key has been read from a slot. -/
def cardRead (s : State) (slot : Nat) (key : Bytes) : State :=
  { s with cust := { s.cust with cards := tset [] slot key s.cust.cards } }

/-- The card that the scope of the interaction knows by its key. -/
def knownCard (s : State) (key : Bytes) : Option Card :=
  (s.registry s.cust.scope).cards.find? fun c => c.hash == keyHash key

/-- The state in which the PED shows the operation and the card's challenge is drawn (R475 step 3). -/
def askedOf (s : State) (slot role ix op : Nat) : State :=
  let g := drawn (privGen s 1) 32
  emit { g with cust := { g.cust with step := .pin, slot := slot, role := role, chal := s.free } } (.ped (le 1 ix ++ le 1 op))

theorem challenge_asks (ready : privReady s 1 = true) (slot role ix : Nat) :
    challenge s slot role ix = askedOf s slot role ix s.cust.op.code := if_neg (by rw [ready]; decide)

section
variable {slot : Nat} {key : Bytes}

theorem beginAuth_enrol (op : s.cust.op = .enrol) (new : knownCard s key = none) :
    beginAuth s slot key = challenge s slot s.cust.role 0 := by
  have unknown : ((s.registry s.cust.scope).cards.find? fun c => c.hash == keyHash key) = none := new
  simp only [beginAuth, op, unknown, Option.isSome_none, Bool.false_eq_true, if_false]

theorem beginAuth_assembly {c : Card} (op : s.cust.op = .assembly) (known : knownCard s key = some c)
    (role : c.role = s.cust.role) : beginAuth s slot key = challenge s slot c.role c.ix := by
  have listed : ((s.registry s.cust.scope).cards.find? fun c => c.hash == keyHash key) = some c := known
  simp only [beginAuth, op, listed, role, if_true]

theorem beginAuth_assembly_unknown (op : s.cust.op = .assembly) (new : knownCard s key = none) :
    beginAuth s slot key = authFail s 4 := by
  have unknown : ((s.registry s.cust.scope).cards.find? fun c => c.hash == keyHash key) = none := new
  simp only [beginAuth, op, unknown]

theorem beginAuth_ceremony {c : Card} (op : s.cust.op = .ceremony) (known : knownCard s key = some c) (low : 1 ≤ c.role)
    (high : c.role ≤ 3) (group : bit (byteAt s.cust.cer.inl 14) (c.role - 1) = true) :
    beginAuth s slot key = challenge s slot c.role c.ix := by
  have listed : ((s.registry s.cust.scope).cards.find? fun c => c.hash == keyHash key) = some c := known
  simp only [beginAuth, op, listed, low, high, group, and_self, if_true]

end

section
variable {slot : Fin 2} (power : s.pwr.good = true) (cool : s.pwr.shutdown = false) (free : cardIn s slot.val = [])
include power cool free

theorem cardInsert_reads (key : Bytes) : exec (.cardInsert slot key) s =
    .next (let r := cardRead s slot.val key
      if r.cust.op ≠ .idle ∧ r.cust.step = .card ∧ !anchored r slot.val then beginAuth r slot.val key else r) :=
  congrArg Host.Outcome.next (if_neg (by rw [power, cool, free]; decide))

/-- A card for which no interaction waits, or whose slot an anchor holds, is only read. -/
theorem cardInsert_kept (unasked : s.cust.op = .idle ∨ s.cust.step ≠ .card ∨ anchored s slot.val = true) (key : Bytes) :
    exec (.cardInsert slot key) s = .next (cardRead s slot.val key) := by
  rw [cardInsert_reads power cool free]
  refine congrArg _ (if_neg fun ⟨busy, step, loose⟩ => ?_)
  rcases unasked with idle | other | anchor
  · exact busy idle
  · exact other step
  · have held : anchored (cardRead s slot.val key) slot.val = true := anchor
    rw [held] at loose
    cases loose

theorem cardInsert_begins (busy : s.cust.op ≠ .idle) (step : s.cust.step = .card) (loose : anchored s slot.val = false)
    (key : Bytes) : exec (.cardInsert slot key) s = .next (beginAuth (cardRead s slot.val key) slot.val key) := by
  rw [cardInsert_reads power cool free]
  exact congrArg _ (if_pos ⟨busy, step, by rw [show anchored (cardRead s slot.val key) slot.val = false from loose]; rfl⟩)

end

/-! ### The card's answers (R475 steps 4 to 6) -/

theorem authenticated_enrol (new : keyHash (cardIn s s.cust.slot) ∉ s.cust.counted) (op : s.cust.op = .enrol) :
    authenticated s = enrolled s (keyHash (cardIn s s.cust.slot)) := by
  simp only [authenticated, List.contains_iff_mem, new, if_false, op]

theorem authenticated_assembly (new : keyHash (cardIn s s.cust.slot) ∉ s.cust.counted) (op : s.cust.op = .assembly) :
    let h := keyHash (cardIn s s.cust.slot)
    let counted : State := { s with cust := { s.cust with counted := s.cust.counted ++ [h], step := .card } }
    authenticated s = if s.cust.need ≤ s.cust.counted.length + 1 then sessionOpens counted h else counted := by
  simp only [authenticated, List.contains_iff_mem, new, if_false, op, List.length_append, List.length_singleton]

theorem authenticated_ceremony (new : keyHash (cardIn s s.cust.slot) ∉ s.cust.counted) (op : s.cust.op = .ceremony) :
    authenticated s = { s with cust := { s.cust with step := .digits } } := by
  simp only [authenticated, List.contains_iff_mem, new, if_false, op]

section
variable {slot : Fin 2} (busy : s.cust.op ≠ .idle) (here : s.cust.slot = slot.val)
include busy here

theorem cardResponse_pinOk (step : s.cust.step = .cardPin) : exec (.cardResponse slot .pinOk) s =
    .next (emit { s with cust := { s.cust with step := .sign } } (.card slot.val (freeBytes s.cust.chal 32))) := by
  rw [exec_cardResponse, execCardResponse.eq_def, if_neg (by simp [busy, here]), step]

theorem cardResponse_pinRefused (step : s.cust.step = .cardPin) :
    exec (.cardResponse slot .pinRefused) s = .next (authFail s 5) := by
  rw [exec_cardResponse, execCardResponse.eq_def, if_neg (by simp [busy, here]), step]

section
variable {b : Bytes} (step : s.cust.step = .sign)
include step

theorem cardResponse_signed (good : Config.sigVerify 3 (cardIn s slot.val) (signed s) b = true) :
    exec (.cardResponse slot (.signature b)) s = .next (authenticated s) := by
  rw [exec_cardResponse, execCardResponse.eq_def, if_neg (by simp [busy, here]), step]
  exact congrArg _ (if_pos good)

theorem cardResponse_forged (bad : Config.sigVerify 3 (cardIn s slot.val) (signed s) b = false) :
    exec (.cardResponse slot (.signature b)) s = .next (authFail s 3) := by
  rw [exec_cardResponse, execCardResponse.eq_def, if_neg (by simp [busy, here]), step]
  exact congrArg _ (if_neg (by rw [bad]; decide))

end
end

/-! ### The console's frames (R474, R479) -/

/-- The state in which a frame's sequence number has been used (R474). -/
def frameRead (s : State) (q : W32) : State := { s with cust := { s.cust with conSeq := q + 1, conBad := 0 } }

section
variable (power : s.pwr.good = true) (ped : s.cust.ped ≠ [])
include power ped

/-- A frame of the enrolled PED with a fresh sequence number goes on with the interaction. -/
theorem consoleFrame_fresh {q : W32} (fresh : s.cust.conSeq.toNat ≤ q.toNat) (m : ConsoleMsg) : exec (.consoleFrame q true m) s =
    .next (consoleMsg (frameRead s q) m) := by
  rw [exec_consoleFrame, execConsoleFrame, if_neg (by rw [power, isEmpty_of_ne_nil ped]; decide),
    if_neg (by simpa using fresh)]
  rfl

theorem consoleFrame_dropped {q : W32} {ok : Bool} (bad : ok = false ∨ q.toNat < s.cust.conSeq.toNat) (m : ConsoleMsg) :
    exec (.consoleFrame q ok m) s =
      .next (if 2 ≤ s.cust.conBad then { s with cust := { s.cust with conSeq := 0, conBad := 0 } }
        else { s with cust := { s.cust with conBad := s.cust.conBad + 1 } }) := by
  rw [exec_consoleFrame, execConsoleFrame, if_neg (by rw [power, isEmpty_of_ne_nil ped]; decide),
    if_pos (by simpa using bad)]

end

theorem consoleMsg_idle (idle : s.cust.op = .idle) (m : ConsoleMsg) : consoleMsg s m = s := if_pos idle

section
variable (busy : s.cust.op ≠ .idle)
include busy

theorem consoleMsg_pin (step : s.cust.step = .pin) :
    consoleMsg s .pin = emit { s with cust := { s.cust with step := .cardPin } } (.card s.cust.slot []) := by
  simp only [consoleMsg, busy, if_false, step]

theorem consoleMsg_digits {hex : List (BitVec 4)} (step : s.cust.step = .digits)
    (len : hex.length = 2 * algLen (cerAlg s.cust.cer) 0) :
    let part := ofNibbles (hex.map (·.toNat))
    consoleMsg s (.digits hex) = emit { s with cust := { s.cust with part := part, step := .confirm } }
      (.ped (kcvSym (cerAlg s.cust.cer) part)) := by
  simp only [consoleMsg, busy, if_false, step, len, if_true]

theorem consoleMsg_confirm (step : s.cust.step = .confirm) : consoleMsg s .confirm = component s := by
  simp only [consoleMsg, busy, if_false, step]

end

/-! ### Withdrawals, overcurrents and times (R475 to R477, R480, R586) -/

theorem authStepTimeout_fails (busy : s.cust.op ≠ .idle) : exec .authStepTimeout s = .next (authFail s 2) :=
  congrArg Host.Outcome.next (if_neg busy)

theorem assemblyTimeout_ends (op : s.cust.op = .assembly) : exec .assemblyTimeout s = .next (idleAfter (unreserve s) 2) :=
  congrArg Host.Outcome.next ((if_pos op).trans (endInteraction_ends (by rw [op]; decide) 2))

theorem sessionExpiry_ends {k : Fin 2} {x : Session} (live : s.session k.val = some x) :
    exec (.sessionExpiry k) s = .next (endSession { s with now := max s.now x.ends } k.val 1) := by
  rw [exec_sessionExpiry, execSessionExpiry, live]
  rfl

section
variable {slot : Nat} (step : s.cust.step ≠ .card) (here : s.cust.slot = slot)
include step here

theorem cardGone_ceremony (op : s.cust.op = .ceremony) : cardGone s slot = idleAfter (unreserve s) 7 := by
  have busy : s.cust.op ≠ .idle := by rw [op]; decide
  rw [cardGone, if_neg (by simp [busy, step, here]), if_pos op, endInteraction_ends busy]

theorem cardGone_authentication (op : s.cust.op = .enrol ∨ s.cust.op = .assembly) : cardGone s slot = authFail s 7 := by
  have busy : s.cust.op ≠ .idle := by rcases op with op | op <;> rw [op] <;> decide
  have other : s.cust.op ≠ .ceremony := by rcases op with op | op <;> rw [op] <;> decide
  rw [cardGone, if_neg (by simp [busy, step, here]), if_neg other]

end

section
variable (idle : s.cust.op = .idle)
include idle

theorem cardGone_idle (slot : Nat) : cardGone s slot = s := if_pos (by rw [idle]; rfl)

theorem cardWithdraw_noSession (slot : Fin 2) (first : s.session 0 = none) (second : s.session 1 = none) :
    exec (.cardWithdraw slot) s = .next { s with cust := { s.cust with cards := tset [] slot.val [] s.cust.cards } } := by
  simp only [exec_cardWithdraw, execCardWithdraw, cardGone_idle idle, List.foldl_cons, List.foldl_nil, first, second]

theorem cardWithdraw_anchor {slot : Fin 2} {x : Session} (live : s.session 0 = some x) (anchor : x.slot = slot.val)
    (second : s.session 1 = none) :
    let e := endSession s 0 2
    exec (.cardWithdraw slot) s = .next { e with cust := { e.cust with cards := tset [] slot.val [] e.cust.cards } } := by
  have calm : s.cust.op ≠ .ceremony := by rw [idle]; decide
  have other : (endSession s 0 2).session 1 = none := (endSession_session_ne live calm 2 (by decide)).trans second
  simp only [exec_cardWithdraw, execCardWithdraw, cardGone_idle idle, List.foldl_cons, List.foldl_nil, live, anchor, other,
    if_true]

end

/-! ### The obligation, part by part -/

theorem custodianInteractions_insert {slot : Fin 2} (key : Bytes) (power : s.pwr.good = true) (cool : s.pwr.shutdown = false)
    (free : cardIn s slot.val = []) (step : s.cust.step = .card) (loose : anchored s slot.val = false)
    (ready : privReady s 1 = true) :
    let asked := askedOf (cardRead s slot.val key) slot.val
    (s.cust.op = .enrol → knownCard s key = none → exec (.cardInsert slot key) s = .next (asked s.cust.role 0 1)) ∧
    (∀ c, s.cust.op = .assembly → knownCard s key = some c → c.role = s.cust.role →
      exec (.cardInsert slot key) s = .next (asked c.role c.ix 2)) ∧
    (∀ c, s.cust.op = .ceremony → knownCard s key = some c → 1 ≤ c.role → c.role ≤ 3 →
      bit (byteAt s.cust.cer.inl 14) (c.role - 1) = true → exec (.cardInsert slot key) s = .next (asked c.role c.ix 3)) := by
  have begins := fun busy => cardInsert_begins power cool free busy step loose key
  have asks := fun role ix => challenge_asks (s := cardRead s slot.val key) ready slot.val role ix
  have code : (cardRead s slot.val key).cust.op = s.cust.op := rfl
  refine ⟨fun op new => ?enrol, fun c op known role => ?assembly, fun c op known low high group => ?ceremony⟩
  case enrol => rw [begins (by rw [op]; decide), beginAuth_enrol (s := cardRead s slot.val key) op new, asks, code, op]; rfl
  case assembly =>
    rw [begins (by rw [op]; decide), beginAuth_assembly (s := cardRead s slot.val key) op known role, asks, code, op]
    rfl
  case ceremony =>
    rw [begins (by rw [op]; decide), beginAuth_ceremony (s := cardRead s slot.val key) op known low high group, asks, code, op]
    rfl

/-- Settles O41, step by step and end by end. The cause numbers of record 0x2005 are the model's choice (log 24); that the
console's session restarts with sequence number 0 is its reading (log 93). -/
theorem custodianInteractions : Obligations.CustodianInteractions := by
  unfold Obligations.CustodianInteractions
  refine ⟨⟨fun s slot key power cool free => ?inserts, fun s slot busy here => ?answers, fun s q m power ped => ?console,
    fun s => ?times⟩, fun s h none0 canonical => ?opens, fun s k cause x live calm => endSession_noCeremony live calm cause⟩
  case inserts =>
    refine ⟨fun unasked => cardInsert_kept power cool free unasked key,
      fun step loose ready => custodianInteractions_insert key power cool free step loose ready,
      fun step loose op new => ?unknown⟩
    case unknown =>
      rw [cardInsert_begins power cool free (by rw [op]; decide) step loose key]
      exact congrArg _ (beginAuth_assembly_unknown (s := cardRead s slot.val key) op new)
  case answers =>
    refine ⟨fun step => ⟨cardResponse_pinOk busy here step, cardResponse_pinRefused busy here step⟩,
      fun b step => ⟨fun good new => ?signed, cardResponse_forged busy here step⟩⟩
    case signed =>
      rw [cardResponse_signed busy here step good]
      rw [← here] at new ⊢
      refine ⟨fun op => ?enrolled, fun op enough => ?reached, fun op short => ?counts, fun op => ?component⟩
      case enrolled => rw [authenticated_enrol new op]
      case reached => rw [authenticated_assembly new op]; exact congrArg _ (if_pos enough)
      case counts => rw [authenticated_assembly new op]; exact congrArg _ (if_neg (Nat.not_le.mpr short))
      case component => rw [authenticated_ceremony new op]
  case console =>
    refine ⟨fun fresh => ?fresh, fun ok bad => ?dropped⟩
    case fresh =>
      have goes := consoleFrame_fresh power ped fresh
      refine ⟨fun idle => ?unasked, fun busy => ⟨fun step => ?pin, fun hex step len => ?entered, fun step => ?confirm⟩⟩
      case unasked => rw [goes]; exact congrArg _ (consoleMsg_idle (s := frameRead s q) idle m)
      case pin => rw [goes]; exact congrArg _ (consoleMsg_pin (s := frameRead s q) busy step)
      case entered => rw [goes]; exact congrArg _ (consoleMsg_digits (s := frameRead s q) busy step len)
      case confirm => rw [goes]; exact congrArg _ (consoleMsg_confirm (s := frameRead s q) busy step)
    case dropped =>
      rw [consoleFrame_dropped power ped bad]
      exact ⟨fun few => congrArg _ (if_neg (by omega)), fun third => congrArg _ (if_pos third)⟩
  case times =>
    refine ⟨authStepTimeout_fails, assemblyTimeout_ends, fun k x live => sessionExpiry_ends live, fun k step here => ?overcurrent,
      fun k idle => ⟨congrArg Host.Outcome.next (cardGone_idle idle k.val), cardWithdraw_noSession idle k,
        fun x live anchor second _ => cardWithdraw_anchor idle live anchor second⟩⟩
    case overcurrent =>
      exact ⟨fun op => congrArg Host.Outcome.next (cardGone_ceremony step here op),
        fun op => congrArg Host.Outcome.next (cardGone_authentication step here op)⟩
  case opens =>
    intro x t
    have live : t.session 0 = some x := session_setSession_same canonical (some x)
    exact ⟨sessionOpens_first none0 h, live, sessionLive_first live, session_setSession_ne (by decide) (some x)⟩

end Sys2Proof.Machine
end

/-! SUPPORT. The Reile link: frames of a session and their resends, the handshake and the rekey, bindings, shared keys and shared
claims (R528 to R551, R567). -/

section
namespace Sys2Proof.Machine

variable {s : State} {h : Hdr}

/-! ### Frames and resends (R531, R532, R534, R536, R567) -/

section
variable {peer : BitVec 12} {seq : W64} {m : Msg} {n : Nat} (up : (s.sess peer.toNat).hs = .up)
  (waits : ((s.sess peer.toNat).unacked.find? fun u => u.1 == seq) = some (seq, m, n))
include up waits

theorem resendTimer_givesUp (many : 32 ≤ n) : exec (.resendTimer peer seq) s = .next (sessDown s peer.toNat) := by
  simp only [exec_resendTimer, execResendTimer, waits, up, many, ne_eq, not_true_eq_false, if_false, if_true]

theorem resendTimer_resends (few : n < 32) :
    let p := peer.toNat
    let x := s.sess p
    let k := otherPort s p x.port
    exec (.resendTimer peer seq) s = .next ((emit s (.frame k p (frameHead s k p (msgType m) x.ver x.kph (msgAck m))
      (x.txSeq + 1) m)).setSess p { x with
        txSeq := x.txSeq + 1, port := k,
        unacked := (x.unacked.filter fun v => v.1 != seq) ++ [(x.txSeq + 1, m, n + 1)] }) := by
  simp only [exec_resendTimer, execResendTimer, waits, up, Nat.not_le.mpr few, ne_eq, not_true_eq_false, if_false]
  rfl

end

/-- Settles O42: an ACK shows what becomes of each frame, and the resend timer what becomes of a message. -/
theorem framesAndResend : Obligations.FramesAndResend := by
  unfold Obligations.FramesAndResend
  refine ⟨fun s h l => ⟨fun accepted => congrArg Host.Outcome.next (receive_in accepted (gotAck l)),
      fun mine up bad => congrArg Host.Outcome.next (receive_badTag mine up bad (gotAck l)),
      fun mine up good phase seen => congrArg Host.Outcome.next (receive_seen mine up good phase seen (gotAck l)),
      fun out => congrArg Host.Outcome.next (receive_out out (gotAck l))⟩,
    fun s peer seq m n up waits => ⟨resendTimer_givesUp up waits, resendTimer_resends up waits⟩⟩

/-! ### What FEC's counts leave alone (R567) -/

theorem fecNote_only (s : State) (h : Hdr) :
    ∃ c u, fecNote s h = { s with clu := { s.clu with fecCorr := c, fecUnc := u } } := by
  unfold fecNote
  split
  · exact ⟨_, _, rfl⟩
  · exact ⟨_, _, rfl⟩

theorem fecNote_node (s : State) (h : Hdr) : (fecNote s h).clu.node = s.clu.node := by
  obtain ⟨_, _, only⟩ := fecNote_only s h
  rw [only]
theorem fecNote_joined (s : State) (h : Hdr) : (fecNote s h).clu.joined = s.clu.joined := by
  obtain ⟨_, _, only⟩ := fecNote_only s h
  rw [only]
theorem fecNote_domain (s : State) (h : Hdr) : (fecNote s h).clu.domain = s.clu.domain := by
  obtain ⟨_, _, only⟩ := fecNote_only s h
  rw [only]
theorem fecNote_cert (s : State) (h : Hdr) : (fecNote s h).clu.cert = s.clu.cert := by
  obtain ⟨_, _, only⟩ := fecNote_only s h
  rw [only]
theorem fecNote_helloOk (s : State) (h g : Hdr) (dom : W32) (chain cert : Bytes) :
    helloOk (fecNote s h) g dom chain cert = helloOk s g dom chain cert := by
  obtain ⟨_, _, only⟩ := fecNote_only s h
  rw [only]
  rfl

/-- Who initiates is a matter of the node IDs alone (R535). -/
theorem initiator_setSess (s : State) (p q : Nat) (x : Sess) : initiator (s.setSess p x) q = initiator s q := rfl
theorem initiator_fecNote (s : State) (h : Hdr) (p : Nat) : initiator (fecNote s h) p = decide (s.clu.node < p) := by
  rw [initiator, fecNote_node]

/-! ### Ports (R528, Table 1.3) -/

theorem portLinkChange_flags (power : s.pwr.good = true) {k : PortId} {up : Bool} (moves : tget false s.clu.link k.val = !up) :
    let c : State := { s with clu := { s.clu with link := tset false k.val up s.clu.link } }
    let f := cluFlag { c with pwr := { c.pwr with pll := reilePll c } } 0
    exec (.portLinkChange k up) s = .next (if up then startAll f else f) :=
  congrArg Host.Outcome.next (if_neg (by rw [power, moves]; cases up <;> decide))

/-! ### HELLO (R535, Table 15.3 step 1) -/

/-- A session that is not up is not taken down. -/
theorem sessDown_notUp {p : Nat} (down : (s.sess p).hs ≠ .up) : sessDown s p = s := if_pos (bne_iff_ne.mpr down)

section
variable (joined : s.clu.joined = true) (dst : h.dst.toNat = s.clu.node) (other : h.src.toNat ≠ s.clu.node)
include joined dst other

/-- A HELLO for this member from another node meets the checks of its certificates. -/
theorem gotHello_gate : ¬ (!(fecNote s h).clu.joined || decide (h.dst.toNat ≠ (fecNote s h).clu.node) ||
    decide (h.src.toNat = (fecNote s h).clu.node)) = true := by
  rw [fecNote_joined, fecNote_node]
  simp [joined, dst, other]

theorem hello_fails {dom : W32} {chain cert : Bytes} (bad : helloOk s h dom chain cert = false) :
    exec (.hello h dom chain cert) s = .next (hsFail (fecNote s h) h.src.toNat) := by
  refine congrArg Host.Outcome.next ((if_neg (gotHello_gate joined dst other)).trans (if_pos ?_))
  rw [fecNote_helloOk, bad]
  rfl

theorem hello_heard {dom : W32} {chain cert : Bytes} (good : helloOk s h dom chain cert = true)
    (sent : (s.sess h.src.toNat).hs = .helloSent) :
    let p := h.src.toNat
    let f := fecNote s h
    let mine := helloBytes 2 s.clu.node s.clu.domain Config.identityChain s.clu.cert
    let theirs := helloBytes h.ver.toNat p dom chain cert
    let got : Sess := { s.sess p with
      chain := chain, peerVer := if h.ver.toNat < 2 then 1 else 2, heard := true, port := h.port.val,
      script := if s.clu.node < p then mine ++ theirs else theirs ++ mine }
    exec (.hello h dom chain cert) s = .next (if s.clu.node < p then wantKey (f.setSess p got) p else f.setSess p got) := by
  have stays : sessDown (fecNote s h) h.src.toNat = fecNote s h := sessDown_notUp (by rw [fecNote_sess, sent]; decide)
  refine congrArg Host.Outcome.next ((if_neg (gotHello_gate joined dst other)).trans
    ((if_neg (by rw [fecNote_helloOk, good]; decide)).trans ?_))
  simp only [stays, fecNote_sess, sent, reduceCtorEq, if_false, ne_eq, not_true_eq_false, initiator_setSess, initiator_fecNote,
    fecNote_node, fecNote_domain, fecNote_cert, decide_eq_true_eq]

end

/-! ### KEX, KEX_REPLY, FINISH (R535, Table 15.3 steps 2 to 5) -/

/-- A handshake frame in the step that expects it has its effect. -/
theorem hsFrame_expected {st : Hs} (mine : addressed s h = true) (heard : (s.sess h.src.toNat).heard = true)
    (step : (s.sess h.src.toNat).hs = st) (run : State → Nat → Sess → State) :
    hsFrame s h st run = run (fecNote s h) h.src.toNat (s.sess h.src.toNat) := by
  simp [hsFrame, mine, heard, step]

section
variable (mine : addressed s h = true) (heard : (s.sess h.src.toNat).heard = true)
include mine heard

theorem kex_answered {a b : Bytes} (step : (s.sess h.src.toNat).hs = .helloSent) (responds : h.src.toNat < s.clu.node) :
    let p := h.src.toNat
    let x := s.sess p
    exec (.kex h a b) s = .next (wantKey ((fecNote s h).setSess p { x with
      hs := .kexGot, kex := (a, b), script := x.script ++ a ++ b }) p) := by
  refine congrArg Host.Outcome.next ((hsFrame_expected mine heard step _).trans (if_neg ?_))
  rw [initiator_fecNote, decide_eq_true_eq]
  exact Nat.lt_asymm responds

theorem kexReply_signed {a b sig : Bytes} (step : (s.sess h.src.toNat).hs = .kexSent)
    (good : peerSigned (s.sess h.src.toNat) (a ++ b) sig = true) : exec (.kexReply h a b sig) s =
      .next (sessUp (sendFinish (fecNote s h) h.src.toNat a b sig) h.src.toNat) :=
  congrArg Host.Outcome.next ((hsFrame_expected mine heard step _).trans (if_pos good))

theorem kexReply_forged {a b sig : Bytes} (step : (s.sess h.src.toNat).hs = .kexSent)
    (bad : peerSigned (s.sess h.src.toNat) (a ++ b) sig = false) :
    exec (.kexReply h a b sig) s = .next (hsFail (fecNote s h) h.src.toNat) :=
  congrArg Host.Outcome.next ((hsFrame_expected mine heard step _).trans (if_neg (by rw [bad]; decide)))

/-- A FINISH outside a session meets the handshake. -/
theorem finish_handshake {sig : Bytes} (step : (s.sess h.src.toNat).hs = .replySent) : exec (.finish h sig) s =
    .next (if peerSigned (s.sess h.src.toNat) [] sig then sessUp (fecNote s h) h.src.toNat
      else hsFail (fecNote s h) h.src.toNat) :=
  congrArg Host.Outcome.next ((if_neg (by rw [step]; decide)).trans (hsFrame_expected mine heard step _))

end

/-! ### Rekeys (R536) -/

theorem rekeyThreshold_begins {q : BitVec 12} (up : (s.sess q.toNat).hs = .up) (idle : (s.sess q.toNat).rk = .idle) :
    exec (.rekeyThreshold q) s =
      .next (wantKey (s.setSess q.toNat { s.sess q.toNat with rk := .helloSent }) q.toNat) :=
  congrArg Host.Outcome.next (if_pos ⟨up, idle⟩)

section
variable (accepted : FrameIn s h)
include accepted

/-- The frames of a rekey are accepted as a session's frames are, and ask for no acknowledgement. -/
theorem receive_rekey (run : State → Nat → State) :
    receive s { h with ackReq := false } run = run (frameTaken s h false) h.src.toNat := by
  have plain : FrameIn s { h with ackReq := false } := accepted
  exact receive_in plain run

theorem rekey_answered {a b : Bytes} (goes : ((frameTaken s h false).sess h.src.toNat).rk = .idle ∨
    h.src.toNat < (frameTaken s h false).clu.node) :
    let p := h.src.toNat
    let t := frameTaken s h false
    exec (.rekey h a b) s = .next (wantKey (t.setSess p { t.sess p with
      rk := .kexGot, kex := (a, b), script := a ++ b, got := 0 }) p) :=
  congrArg Host.Outcome.next ((receive_rekey accepted _).trans (if_pos goes))

/-- Of two rekeys that meet, the one of the lower node goes on (log 62). -/
theorem rekey_yields {a b : Bytes} (busy : ((frameTaken s h false).sess h.src.toNat).rk ≠ .idle)
    (lower : (frameTaken s h false).clu.node ≤ h.src.toNat) : exec (.rekey h a b) s = .next (frameTaken s h false) :=
  congrArg Host.Outcome.next ((receive_rekey accepted _).trans (if_neg (not_or_intro busy (Nat.not_lt.mpr lower))))

theorem rekeyReply_meets {a b sig : Bytes} (sent : ((frameTaken s h false).sess h.src.toNat).rk = .kexSent) :
    let p := h.src.toNat
    let t := frameTaken s h false
    exec (.rekeyReply h a b sig) s = .next (if peerSigned (t.sess p) (a ++ b) sig then toggle (sendFinish t p a b sig) p
      else hsFail t p) :=
  congrArg Host.Outcome.next ((receive_rekey accepted _).trans (if_neg (not_not_intro sent)))

theorem finish_rekey {sig : Bytes} (sent : ((frameTaken s h false).sess h.src.toNat).rk = .replySent) :
    let p := h.src.toNat
    let t := frameTaken s h false
    exec (.finish h sig) s = .next (if peerSigned (t.sess p) [] sig then toggle t p else hsFail t p) := by
  have up : (s.sess h.src.toNat).hs = .up := accepted.2.1
  exact congrArg Host.Outcome.next ((if_pos up).trans ((receive_rekey accepted _).trans (if_neg (not_not_intro sent))))

end

/-- Settles O43, frame by frame. What the transcript holds is the model's choice (log 61), and that the lower node's rekey goes
on where two meet is its reading (log 62). -/
theorem linkHandshake : Obligations.LinkHandshake := by
  unfold Obligations.LinkHandshake
  refine ⟨fun s k => ⟨rfl, fun power up moves => portLinkChange_flags power moves⟩,
    fun s h dom chain cert joined dst other => ⟨hello_fails joined dst other, hello_heard joined dst other⟩,
    fun s h a b sig mine heard => ?handshake, fun s q => rekeyThreshold_begins, fun s h a b sig accepted => ?rekey,
    fun s q => rfl⟩
  case handshake =>
    refine ⟨kex_answered mine heard, kexReply_signed mine heard, kexReply_forged mine heard, fun step good => ?ends,
      fun step bad => ?fails⟩
    case ends => rw [finish_handshake mine heard step, if_pos good]
    case fails => rw [finish_handshake mine heard step, if_neg (by rw [bad]; decide)]
  case rekey =>
    exact ⟨rekey_answered accepted, rekey_yields accepted, rekeyReply_meets accepted, finish_rekey accepted⟩

end Sys2Proof.Machine
end

/-! SUPPORT. Bindings, shared keys and shared claims as their messages arrive in a session (R540, R542 to R551, Table 15.5). -/

section
namespace Sys2Proof.Machine

variable {s : State} {p q : Nat}

/-! ### Bindings (R540, R547) -/

/-- The state in which a peer's bindings are known and its tenants rehomed. -/
def boundTo (s : State) (p : Nat) (l : List W32) : State :=
  rehomeAll s (s.setSess p { s.sess p with binds := l, synced := true })

theorem gotBind_synced (synced : (s.sess p).synced = true) (l : List W32) : gotBind l s p = boundTo s p l := if_pos synced

theorem gotBind_first (first : (s.sess p).synced = false) (l : List W32) : gotBind l s p =
    ((ownDtids (boundTo s p l)).filter fun d => l.contains d).foldl (fun s d => sendShared s p d) (boundTo s p l) :=
  if_neg (by rw [first]; decide)

/-! ### Updates of shared keys (R542, R544, R545, Table 15.5) -/

/-- The state in which a newer update stamp has been seen (R543). -/
def stamped (s : State) (stamp : BitVec 48) : State :=
  if s.clu.stamp.toNat < stamp.toNat then { s with clu := { s.clu with stamp := stamp } } else s

theorem stamped_plot (s : State) (stamp : BitVec 48) (p : Nat) : (stamped s stamp).plot p = s.plot p := by
  unfold stamped
  split <;> rfl

theorem stamped_boundPlot (s : State) (stamp : BitVec 48) (d : W32) : boundPlot (stamped s stamp) d = boundPlot s d := by
  unfold stamped
  split <;> rfl

section
variable {l : Learn}

theorem shareIn_refused (bad : ¬ (weakSlot l.slot = false ∧
    policyAdmits (s.plot l.plot).active l.slot.alg.toNat (derives l.slot.attr) 0 = true)) : shareIn s p l = cluFlag s 3 := by
  refine if_pos ?_
  cases weak : weakSlot l.slot with
  | true => rfl
  | false =>
    cases policy : policyAdmits (s.plot l.plot).active l.slot.alg.toNat (derives l.slot.attr) 0 with
    | true => exact absurd ⟨weak, policy⟩ bad
    | false => rfl

variable (good : weakSlot l.slot = false ∧ policyAdmits (s.plot l.plot).active l.slot.alg.toNat (derives l.slot.attr) 0 = true)
include good

theorem shareIn_ended {st : BitVec 16} (ended : (learnFor s l (.share p)).2 = some st) :
    shareIn s p l = shareDone (learnFor s l (.share p)).1 st := by
  obtain ⟨strong, policy⟩ := good
  rw [shareIn, if_neg (by rw [strong, policy]; decide)]
  generalize learnFor s l (.share p) = g at ended ⊢
  obtain ⟨t, r⟩ := g
  cases ended
  rfl

theorem shareIn_waits (waits : (learnFor s l (.share p)).2 = none) : shareIn s p l = (learnFor s l (.share p)).1 := by
  obtain ⟨strong, policy⟩ := good
  rw [shareIn, if_neg (by rw [strong, policy]; decide)]
  generalize learnFor s l (.share p) = g at waits ⊢
  obtain ⟨t, r⟩ := g
  cases waits
  rfl

end

theorem shareDone_learned {st : BitVec 16} (ok : st = stOK ∨ st = stExisting) : shareDone s st = s := if_pos ok
theorem shareDone_refused {st : BitVec 16} (bad : st ≠ stOK) (new : st ≠ stExisting) : shareDone s st = cluFlag s 3 :=
  if_neg (not_or_intro bad new)

section
variable {u : ShareUpd} (bound : boundPlot s u.dtid = some q)
include bound

theorem gotShare_new (absent : kitFind (stamped s u.stamp) q u.name false = none) :
    gotShare u s p = shareIn (stamped s u.stamp) p (updLearn q u) := by
  unfold stamped at absent ⊢
  simp only [gotShare, bound, absent]

section
variable {i : Nat} (held : kitFind (stamped s u.stamp) q u.name false = some i)
  (shared : (kitAt (stamped s u.stamp).kp i).shared = true)
include held shared

/-- An update of a shared key that is held: contents and pairs decide (Table 15.5). -/
theorem gotShare_held :
    let c := stamped s u.stamp
    let x := c.slot (kitAt c.kp i).slot
    let lower := pairLt (u.stamp, u.origin.toNat) (pairOfEntry c q u.name)
    gotShare u s p =
      if x.material = u.material ∧ x.alg = u.alg ∧ x.attr = u.attr then
        if lower then { c with kp := { c.kp with
          pairs := dropPair c.kp.pairs q u.name ++ [(q, u.name, u.stamp, u.origin.toNat)] } }
        else c
      else if lower then shareIn (cluFlag (dropEntry c i) 2) p (updLearn q u)
      else cluFlag c 2 := by
  unfold stamped at held shared ⊢
  simp only [gotShare, bound, held, shared, Bool.not_true, Bool.false_eq_true, if_false, Bool.and_eq_true, beq_iff_eq, and_assoc]

end
end

section
variable {d : W32} {n : W64} {st : BitVec 48} {o : BitVec 12} {i : Nat} (bound : boundPlot s d = some q)
  (held : kitFind (stamped s st) q n false = some i)
include bound held

theorem gotForget_held : gotForget d n st o s =
    if (kitAt (stamped s st).kp i).shared = true ∧ pairOfEntry (stamped s st) q n = (st, o.toNat) then
      dropEntry (stamped s st) i
    else stamped s st := by
  have there : boundPlot (stamped s st) d = some q := (stamped_boundPlot s st d).trans bound
  unfold stamped at held there ⊢
  simp only [gotForget, there, held]

end

/-! ### Version 2 sessions (R547, Table 15.4) -/

theorem inV2_runs (v2 : 2 ≤ (s.sess p).ver.toNat) (run : State → Nat → State) : inV2 run s p = run s p :=
  if_neg (Nat.not_lt.mpr v2)
theorem inV2_drops (v1 : (s.sess p).ver.toNat < 2) (run : State → Nat → State) : inV2 run s p = s := if_pos v1

/-! ### Shared claims (R539, R549, R551) -/

theorem gotClaim_served {d : W32} (accepts : homeHolds s d = false) (fp : BitVec 96) :
    gotClaim d fp s p = serveClaim s p d fp := if_neg (by rw [accepts]; decide)

theorem gotClaim_held {d : W32} (holds : homeHolds s d = true) (fp : BitVec 96) : gotClaim d fp s p =
    { s with clu := { s.clu with heldClaims := s.clu.heldClaims ++ [(p, d, fp)] } } := if_pos holds

theorem gotRehome_bound {d : W32} (bound : boundPlot s d = some q) (l : List (BitVec 96)) (last : Bool) :
    let r := l.foldl (fun s fp => (rplRecord s q fp true false).1) s
    gotRehome d l last s p = if last then rehomeDone r d p else r := by
  simp only [gotRehome, bound]

/-! ### The obligation -/

/-- Settles O44, message by message. That a weak key is refused with REPL_REJ is the model's reading (log 125), and so is it that
a claim waits at its home through a rehoming (log 66). -/
theorem sharedKeysAndClaims : Obligations.SharedKeysAndClaims := by
  unfold Obligations.SharedKeysAndClaims
  intro s h accepted p t
  have takes : ∀ run : State → Nat → State, receive s h run = run t p := receive_in accepted
  refine ⟨fun l => ?bind, fun u q bound => ?learn, fun d n st o q i bound => ?forget,
    fun d v2 => congrArg Host.Outcome.next ((takes _).trans (inV2_runs v2 _)),
    fun d v1 => congrArg Host.Outcome.next ((takes _).trans (inV2_drops v1 _)),
    fun d fp serves => congrArg Host.Outcome.next ((takes _).trans (gotClaim_served serves fp)),
    fun d fp holds => congrArg Host.Outcome.next ((takes _).trans (gotClaim_held holds fp)),
    fun d fp a => congrArg Host.Outcome.next (takes _), fun d l q bound => ?rehome⟩
  case bind =>
    exact ⟨fun synced => congrArg Host.Outcome.next ((takes _).trans (gotBind_synced synced l)),
      fun first => congrArg Host.Outcome.next ((takes _).trans (gotBind_first first l))⟩
  case learn =>
    intro c l admitted g
    have runs : exec (.shareLearn h u) s = .next (gotShare u t p) := congrArg Host.Outcome.next (takes _)
    have policy : (c.plot l.plot).active = (t.plot q).active := congrArg Plot.active (stamped_plot t u.stamp q)
    have gate : admitted ↔ weakSlot l.slot = false ∧
        policyAdmits (c.plot l.plot).active l.slot.alg.toNat (derives l.slot.attr) 0 = true := by rw [policy]; rfl
    refine ⟨fun absent => ?new, fun i held shared => ?held⟩
    case new =>
      rw [runs, gotShare_new bound absent]
      refine ⟨fun bad => congrArg _ (shareIn_refused (gate.not.mp bad)), fun good =>
        ⟨fun st ended ok => ?learned, fun st ended bad new => ?refused,
          fun waits => congrArg _ (shareIn_waits (gate.mp good) waits)⟩⟩
      case learned => exact congrArg _ ((shareIn_ended (gate.mp good) ended).trans (shareDone_learned ok))
      case refused => exact congrArg _ ((shareIn_ended (gate.mp good) ended).trans (shareDone_refused bad new))
    case held =>
      intro x same lower
      rw [runs, gotShare_held bound held shared]
      exact ⟨fun eq low => congrArg _ ((if_pos eq).trans (if_pos low)),
        fun eq high => congrArg _ ((if_pos eq).trans (if_neg high)),
        fun ne low => congrArg _ ((if_neg ne).trans (if_pos low)),
        fun ne high => congrArg _ ((if_neg ne).trans (if_neg high))⟩
  case forget =>
    intro c held shared
    have runs : exec (.shareForget h d n st o) s = .next (gotForget d n st o t) := congrArg Host.Outcome.next (takes _)
    rw [runs, gotForget_held bound held]
    exact ⟨fun pair => congrArg _ (if_pos ⟨shared, pair⟩), fun other => congrArg _ (if_neg fun both => other both.2)⟩
  case rehome =>
    exact ⟨congrArg Host.Outcome.next ((takes _).trans (gotRehome_bound bound l false)),
      congrArg Host.Outcome.next ((takes _).trans (gotRehome_bound bound l true))⟩

end Sys2Proof.Machine
end

/-! SUPPORT. The cluster commands past their gates (R538 to R540, R546, R547, R552, R560, R563, R565, R566): what each one's run
comes to, and the gates that let it run in OPERATIONAL. -/

section
namespace Sys2Proof.Machine

variable {s : State} {d : Adm}

/-! ### CLU_JOIN (R538, R539) -/

/-- What CLU_JOIN asks of P0: a founder's key generation (R404, R539). -/
def joinKey (s : State) (d : Adm) : State × Bool := if byteAt d.inl 6 = 1 then keyGen s 0 else (s, true)

/-- The founder's bit is all that a valid byte 6 can set. -/
theorem joinFounder_iff (valid : byteAt d.inl 6 ≤ 1) : joinFounder d = true ↔ byteAt d.inl 6 = 1 := by
  rcases Nat.le_one_iff_eq_zero_or_eq_one.mp valid with zero | one
  · simp [joinFounder, zero, bit]
  · simp [joinFounder, one, bit]

theorem keyServed_link (s : State) : (keyServed s).link = s.link := by
  obtain ⟨_, only, _⟩ := settleWaits_only { s with rng := { s.rng with keyWait := none, keyGot := 0 } }
  rw [keyServed, only]

/-- The request to P0 has no part in what reaches the host. -/
theorem heldFor_joinKey (s : State) (d : Adm) (f : Fn) : heldFor (keyServed (joinKey s d).1) f = heldFor s f := by
  have link : (keyServed (joinKey s d).1).link = s.link := by
    rw [keyServed_link, joinKey]
    split
    · obtain ⟨_, _, _, only⟩ := keyGen_only s 0
      rw [only]
    · rfl
  unfold heldFor
  rw [link]

/-- The checks of a joining node's key and certificate (R538). -/
def JoinValid (d : Adm) (x : Bytes) : Prop :=
  joinNode d ≤ 4095 ∧ byteAt (cut x 0 97) 0 = 4 ∧
    Config.certOk (cut x 0 97) (joinDomain d) (joinNode d) Config.identityChain (x.drop 97) = true

/-- The state in which the module is a member of its new domain. -/
def memberOfDomain (s : State) (d : Adm) (x : Bytes) : State :=
  let l := leaveDomain s
  { l with clu := { l.clu with
    joined := true, node := joinNode d, domain := joinDomain d, caKey := cut x 0 97, cert := x.drop 97 } }

theorem joinWith_refused {x : Bytes} (bad : ¬ JoinValid d x) : joinWith s d x = admFail s d stPolicy 0x90 := by
  refine if_pos ?_
  by_contra good
  simp only [not_or, not_not, Nat.not_lt, Bool.not_eq_false] at good
  exact bad good

section
variable {x : Bytes} (valid : JoinValid d x)
include valid

theorem joinValid_passes : ¬ (4095 < joinNode d ∨ byteAt (cut x 0 97) 0 ≠ 4 ∨
    Config.certOk (cut x 0 97) (joinDomain d) (joinNode d) Config.identityChain (x.drop 97) = false) := by
  obtain ⟨node, point, cert⟩ := valid
  rw [cert]
  simp [node, point]

theorem joinWith_member (plain : ¬ joinFounder d = true) : joinWith s d x = admOk (memberOfDomain s d x) d :=
  (if_neg (joinValid_passes valid)).trans (congrArg (admOk · d) (if_neg plain))

/-- A founder draws the domain seed (R539). -/
theorem joinWith_founder (founder : joinFounder d = true) :
    let n := newSecret (memberOfDomain s d x) 32
    let f := n.1.setCab fun c => { c with domain := n.2 }
    joinWith s d x = admOk { f with clu := { f.clu with hasSd := true } } d :=
  (if_neg (joinValid_passes valid)).trans (congrArg (admOk · d) (if_pos founder))

end

section
variable (valid : byteAt d.inl 6 ≤ 1)
include valid

theorem runJoin_eq (r : HostRead) : runJoin r s d =
    if (joinKey s d).2 then admRead (keyServed (joinKey s d).1) d d.extLen r fun s b => joinWith s d b
    else keyHeld (joinKey s d).1 d 0 := by
  have key : (if joinFounder d then keyGen s 0 else (s, true)) = joinKey s d := if_congr (joinFounder_iff valid) rfl rfl
  simp only [runJoin, key]

theorem runJoin_waits (unserved : (joinKey s d).2 = false) (r : HostRead) : runJoin r s d = keyHeld (joinKey s d).1 d 0 := by
  rw [runJoin_eq valid, if_neg (by rw [unserved]; decide)]

theorem runJoin_reads (served : (joinKey s d).2 = true) (out : heldFor s .pf0 = false) (len : 98 ≤ d.extLen) (b : Bytes) :
    runJoin (.data b) s d = joinWith (emit (keyServed (joinKey s d).1) (.read d.extAddr d.extLen)) d (fit d.extLen b) := by
  rw [runJoin_eq valid, if_pos served, admRead_data ((heldFor_joinKey s d .pf0).trans out) (by omega)]

end

/-! ### Membership and bindings (R537, R538, R540, R546, R547) -/

theorem runMembers_taken {b : Bytes} (joined : s.clu.joined = true) (out : heldFor s .pf0 = false) (nonzero : d.extLen ≠ 0)
    (formed : (tableEntries (fit d.extLen b)).all memberOk = true)
    (mine : ∃ m ∈ (tableEntries (fit d.extLen b)).map memberOf, m.node = s.clu.node)
    (distinct : (((tableEntries (fit d.extLen b)).map memberOf).map (·.node)).eraseDups.length =
      ((tableEntries (fit d.extLen b)).map memberOf).length) :
    runMembers (.data b) s d =
      admOk (takeMembers (emit s (.read d.extAddr d.extLen)) ((tableEntries (fit d.extLen b)).map memberOf)) d := by
  have listed : (((tableEntries (fit d.extLen b)).map memberOf).any fun m => m.node == s.clu.node) = true := by
    rw [List.any_eq_true]
    simpa only [beq_iff_eq] using mine
  rw [runMembers, if_neg (by rw [joined]; decide), admRead_data out nonzero]
  refine if_pos ?_
  rw [formed, show (emit s _).clu.node = s.clu.node from rfl, listed, decide_eq_true distinct]
  rfl

theorem runLeave_leaves (joined : s.clu.joined = true) : runLeave s d = admOk (leaveDomain s) d :=
  if_neg (by rw [joined]; decide)
theorem runLeave_noMember (outside : s.clu.joined = false) : runLeave s d = admFail s d stPolicy 0x93 :=
  if_pos (by rw [outside]; rfl)

/-- A DTID that no other plot has is bound, with a resynchronisation where the command asks for one (R540, R547). -/
theorem runBind_binds (joined : s.clu.joined = true) (st : (s.plot d.pid).st ∈ createdToStopped) (flags : byteAt d.inl 8 ≤ 1)
    (free : BitVec.ofNat 32 (fld d.inl 4 4) = 0 ∨ ∀ x ∈ s.plots, x.1 ≠ d.pid → x.2.st ≠ .absent →
      x.2.dtid ≠ BitVec.ofNat 32 (fld d.inl 4 4)) :
    let dt : W32 := BitVec.ofNat 32 (fld d.inl 4 4)
    let bound := announce s (saveRecord (s.modPlot d.pid fun pl => { pl with dtid := dt }) d.pid)
    runBind s d = forwardAdmin (admOk (if byteAt d.inl 8 = 1 then resync bound dt else bound) d) d := by
  have state : createdToStopped.contains (s.plot d.pid).st = true := List.contains_iff_mem.mpr st
  have untaken : (BitVec.ofNat 32 (fld d.inl 4 4) != 0 && s.plots.any fun x =>
      x.1 != d.pid && x.2.dtid == BitVec.ofNat 32 (fld d.inl 4 4) && x.2.st != .absent) = false := by
    rcases free with unbound | alone
    · rw [unbound]; rfl
    · rw [Bool.and_eq_false_iff, List.any_eq_false]
      refine .inr fun x listed => ?_
      have := alone x listed
      simp only [Bool.and_eq_true, bne_iff_ne, beq_iff_eq, not_and]
      exact fun ⟨other, same⟩ live => this other live same
  have again : bit (byteAt d.inl 8) 0 = true ↔ byteAt d.inl 8 = 1 := by
    rcases Nat.le_one_iff_eq_zero_or_eq_one.mp flags with zero | one
    · simp [zero, bit]
    · simp [one, bit]
  simp only [runBind, joined, state, untaken, again, Bool.not_true, Bool.false_eq_true, Bool.or_false, if_false, bindPlot]

/-! ### Pairs (R552, R560, R563, R565) -/

theorem pairOk_joined {n : Nat} (ok : pairOk s n = true) : s.clu.joined = true := by
  simp only [pairOk, Bool.and_eq_true] at ok
  tauto

section
variable (joined : s.clu.joined = true)
include joined

theorem runPair_unfit (unfit : pairOk s (fld d.inl 4 2) = false) : runPair s d = admFail s d stPolicy 0x94 := by
  rw [runPair, if_neg (by rw [joined]; decide), if_pos (by rw [unfit]; rfl)]

variable (fits : pairOk s (fld d.inl 4 2) = true)
include fits

theorem runPair_standby (role : byteAt d.inl 6 = 1) : runPair s d =
    if allAbsent s then admOk { s with clu := { s.clu with willing := true, peer := fld d.inl 4 2 } } d
    else admFail s d stPolicy 0x94 := by
  rw [runPair, if_neg (by rw [joined]; decide), if_neg (by rw [fits]; decide), if_pos role]

/-- The active sends what its pair is to copy, and the command waits (Table 15.6 step 1). -/
theorem runPair_active (role : byteAt d.inl 6 = 0) :
    let n := fld d.inl 4 2
    let w : State := { s with clu := { s.clu with peer := n, syncing := true, willing := false, pairAdm := some d } }
    runPair s d = sendMsg w n (.pairState (pairInfo s 1
      ((s.plots.filter fun x => x.2.st != .absent).map fun x => plotCopy s x.1 x.2))) := by
  rw [runPair, if_neg (by rw [joined]; decide), if_neg (by rw [fits]; decide), if_neg (by rw [role]; decide)]

end

theorem runUnpair_unpairs (paired : s.clu.role ≠ 0) :
    runUnpair s d = admOk (leavePair (sendMsg s s.clu.peer (.pairState (pairInfo s 0 [])))) d := if_neg paired

section
variable (active : s.clu.role = 1)
include active

theorem runSwap_stops (trusted : s.clu.suspect = false) (buffer : s.clu.peerSwap = true) :
    runSwap s d = beginChange s (.swap d) := by
  rw [runSwap, if_neg (not_not_intro active), if_neg (by rw [trusted, buffer]; decide)]

theorem runSwap_suspect (suspect : s.clu.suspect = true) : runSwap s d = admFail s d stPolicy 0x97 := by
  rw [runSwap, if_neg (not_not_intro active), if_pos (by rw [suspect]; rfl)]

end

theorem runPromote_held (held : s.clu.role = 3) : runPromote s d = admOk (leavePair s) d := if_neg (not_not_intro held)
theorem runPromote_other (other : s.clu.role ≠ 3) : runPromote s d = admFail s d stPolicy 0x95 := if_pos other

/-! ### The commands in OPERATIONAL (R566) -/

section
variable {rest : List Adm} (serves : Serves s d rest) (state : s.lcs.state = 3) (plain : noPlot d = true)
include serves state

theorem cluPlotBind_runs (code : d.code = 0x1A3) (named : plotNamed d = true) (inlen : d.inlen = 9) (flags : byteAt d.inl 8 ≤ 1)
    (st : (s.plot d.pid).st ∈ createdToStopped) : exec .cluPlotBind s = .next (runBind (popAdm s rest) d) := by
  have there : ((popAdm s rest).plot d.pid).st ≠ .absent := fun absent => by
    rw [show (s.plot d.pid).st = .absent from absent] at st
    exact absurd st (by decide)
  rw [exec_cluPlotBind, execCluPlotBind,
    admin_run serves code (by rw [show (popAdm s rest).lcs.state = 3 from state]; rfl) (by simp [inlen, named, flags])
      (decide_eq_true there) rfl, notStandby_run serves]

include plain

theorem cluJoin_runs (code : d.code = 0x1A0) (inlen : d.inlen = 12) (role : byteAt d.inl 6 ≤ 1) (reserved : byteAt d.inl 7 = 0)
    (low : 98 ≤ d.extLen) (high : d.extLen ≤ 2145) (officer : sessionLive (popAdm s rest) modScope 0 = true) (r : HostRead) :
    exec (.cluJoin r) s = .next (runJoin r (popAdm s rest) d) :=
  cluCmd_run serves state code (by simp [cluArgs, plain, inlen, role, reserved, low, high]) officer

theorem cluMembers_runs (code : d.code = 0x1A1) (inlen : d.inlen = 4) (low : 16 ≤ d.extLen) (whole : d.extLen % 16 = 0)
    (r : HostRead) : exec (.cluMembers r) s = .next (runMembers r (popAdm s rest) d) :=
  cluCmd_run serves state code (by simp [cluArgs, plain, inlen, low, whole]) rfl

theorem cluLeave_runs (code : d.code = 0x1A2) (inlen : d.inlen = 4) (officer : sessionLive (popAdm s rest) modScope 0 = true) :
    exec .cluLeave s = .next (runLeave (popAdm s rest) d) :=
  cluCmd_run serves state code (by simp [cluArgs, plain, inlen]) officer

theorem cluPair_runs (code : d.code = 0x1A4) (inlen : d.inlen = 8) (role : byteAt d.inl 6 ≤ 1) (reserved : byteAt d.inl 7 = 0)
    (officer : sessionLive (popAdm s rest) modScope 0 = true) : exec .cluPair s = .next (runPair (popAdm s rest) d) :=
  cluCmd_run serves state code (by simp [cluArgs, plain, inlen, role, reserved]) officer

theorem cluUnpair_runs (code : d.code = 0x1A5) (inlen : d.inlen = 4) :
    exec .cluUnpair s = .next (runUnpair (popAdm s rest) d) :=
  cluCmd_run serves state code (by simp [cluArgs, plain, inlen]) rfl

theorem cluSwap_runs (code : d.code = 0x1A6) (inlen : d.inlen = 4) (officer : sessionLive (popAdm s rest) modScope 0 = true)
    (settled : s.lcs.change = .none) : exec .cluSwap s = .next (runSwap (popAdm s rest) d) := by
  have still : ¬ changing s = true := by rw [changing, settled]; decide
  exact (if_neg still).trans (cluCmd_run serves state code (by simp [cluArgs, plain, inlen]) officer)

end

/-- CLU_PROMOTE is a command that a standby serves. -/
theorem cluPromote_runs {rest : List Adm} (serves : Serves s d rest (standby := true)) (state : s.lcs.state = 3)
    (plain : noPlot d = true) (code : d.code = 0x1A7) (inlen : d.inlen = 4)
    (officer : sessionLive (popAdm s rest) modScope 0 = true) : exec .cluPromote s = .next (runPromote (popAdm s rest) d) := by
  rw [exec_cluPromote, execCluPromote, cluCmd,
    admin_run serves code (by rw [show (popAdm s rest).lcs.state = 3 from state]; rfl) (by simp [cluArgs, plain, inlen])
      rfl officer]

/-! ### The obligation -/

/-- Settles O45, command by command. That a node above 4,095 ends CLU_PAIR with detail 0x94 is the model's choice (log 113); that
CLU_PAIR waits for the standby's PAIR_STATE (log 68) and who has the domain seed (log 63) are its readings. -/
theorem clusterCommands : Obligations.ClusterCommands := by
  unfold Obligations.ClusterCommands
  refine ⟨fun s d rest serves state => ?operational, fun s d rest front valid free code fallow calm state plain inlen officer =>
    ?promote⟩
  case promote =>
    have serves : Serves s d rest (standby := true) := ⟨front, valid, free, fun on => absurd on (by rw [fallow]; decide),
      fun on => absurd on (by rw [calm]; decide), by rw [state]; decide, fun _ => rfl⟩
    rw [cluPromote_runs serves state plain code inlen officer]
    exact ⟨fun held => congrArg _ (runPromote_held (s := popAdm s rest) held),
      fun other => congrArg _ (runPromote_other (s := popAdm s rest) other)⟩
  case operational =>
    intro u officer node
    refine ⟨fun b code plain inlen role reserved low high live => ?joins,
      fun b out code plain inlen low whole joined formed mine distinct => ?members, fun code plain inlen live => ?leaves,
      fun code named inlen flags joined st => ?binds, fun code plain inlen reserved live joined => ?pairs,
      fun code plain inlen paired => ?unpairs, fun code plain inlen live settled active => ?swaps⟩
    case joins =>
      intro g e x valid l m n f
      rw [cluJoin_runs serves state plain code inlen role reserved low high live]
      refine ⟨fun unserved => congrArg _ (runJoin_waits (s := u) role unserved _), fun served out => ?served⟩
      case served =>
        have reads : runJoin (.data b) u d = joinWith e d x := runJoin_reads (s := u) role served out low b
        clear_value e x
        rw [reads]
        exact ⟨fun ok other => congrArg _ (joinWith_member ok (by rw [joinFounder_iff role, other]; decide)),
          fun ok founder => congrArg _ (joinWith_founder ok ((joinFounder_iff role).mpr founder)),
          fun bad => congrArg _ (joinWith_refused bad)⟩
    case members =>
      rw [cluMembers_runs serves state plain code inlen low whole]
      exact congrArg _ (runMembers_taken (s := u) joined out (by omega) formed mine distinct)
    case leaves =>
      rw [cluLeave_runs serves state plain code inlen live]
      exact ⟨fun joined => congrArg _ (runLeave_leaves (s := u) joined),
        fun outside => congrArg _ (runLeave_noMember (s := u) outside)⟩
    case binds =>
      intro dt bound free
      rw [cluPlotBind_runs serves state code named inlen flags st]
      exact congrArg _ (runBind_binds (s := u) joined st flags free)
    case pairs =>
      have runs := fun role => cluPair_runs serves state plain code inlen role reserved live
      refine ⟨fun unfit role => ?unfit, fun fits role absent => ?standby, fun fits role present => ?occupied,
        fun fits role => ?active⟩
      case unfit => rw [runs role, runPair_unfit (s := u) joined unfit]
      case standby => rw [runs (by omega), runPair_standby (s := u) joined fits role, if_pos absent]
      case occupied => rw [runs (by omega), runPair_standby (s := u) joined fits role, if_neg (by rw [present]; decide)]
      case active => rw [runs (by omega)]; exact congrArg _ (runPair_active (s := u) joined fits role)
    case unpairs =>
      rw [cluUnpair_runs serves state plain code inlen]
      exact congrArg _ (runUnpair_unpairs (s := u) paired)
    case swaps =>
      rw [cluSwap_runs serves state plain code inlen live settled]
      exact ⟨fun trusted buffer => congrArg _ (runSwap_stops (s := u) active trusted buffer),
        fun suspect => congrArg _ (runSwap_suspect (s := u) active suspect)⟩

end Sys2Proof.Machine
end

/-! SUPPORT. Yoked pairs: what the messages of a pair do on the side that expects them, and what its times bring (R533, R552 to
R565, Tables 15.6 to 15.8). -/

section
namespace Sys2Proof.Machine

variable {s : State} {p : Nat}

/-! ### Who a message is for (R560) -/

theorem fromActive_standby (role : s.clu.role = 2) (peer : s.clu.peer = p) (run : State → State) :
    fromActive run s p = run s := if_pos ⟨role, peer⟩

theorem gotHeartbeat_paired (paired : s.clu.role ≠ 0) (peer : s.clu.peer = p) :
    gotHeartbeat s p = { s with clu := { s.clu with lastHb := s.now } } := if_pos ⟨paired, peer⟩

/-! ### PAIR_STATE (R552, R563, R565) -/

section
variable {i : PairInfo}

theorem gotPairState_asks (role : i.role = 1) : gotPairState i s p = joinPair s p i := if_pos role

section
variable (peer : s.clu.peer = p)
include peer

/-- ROLE 0 refuses a pair that is being formed, or ends the one there is. -/
theorem gotPairState_zero (role : i.role = 0) : gotPairState i s p =
    if s.clu.pairAdm.isSome then pairFail s else if s.clu.role ≠ 0 then leavePair s else s := by
  rw [gotPairState, if_neg (by rw [role]; decide), if_neg (not_not_intro peer), if_neg (by rw [role]; decide), if_pos role]

/-- ROLE 2 agrees to a pair that is being formed, or reports CLU_SWAP_BUF. -/
theorem gotPairState_two (role : i.role = 2) : gotPairState i s p =
    if s.clu.pairAdm.isSome then
      if pairAlike s i then { s with clu := { s.clu with willing := true, peerSwap := i.swapBuf } } else pairFail s
    else { s with clu := { s.clu with peerSwap := i.swapBuf } } := by
  rw [gotPairState, if_neg (by rw [role]; decide), if_neg (not_not_intro peer), if_pos role]

section
variable {d : Adm} (waits : s.clu.pairAdm = some d)
include waits

theorem gotPairState_refuses (role : i.role = 0) : gotPairState i s p = pairFail s := by
  rw [gotPairState_zero peer role, if_pos (by rw [waits]; rfl)]

theorem gotPairState_agrees (role : i.role = 2) : gotPairState i s p =
    if pairAlike s i then { s with clu := { s.clu with willing := true, peerSwap := i.swapBuf } } else pairFail s := by
  rw [gotPairState_two peer role, if_pos (by rw [waits]; rfl)]

end

section
variable (settled : s.clu.pairAdm = none)
include settled

theorem gotPairState_ends (role : i.role = 0) (paired : s.clu.role ≠ 0) : gotPairState i s p = leavePair s := by
  rw [gotPairState_zero peer role, if_neg (by rw [settled]; decide), if_pos paired]

theorem gotPairState_reports (role : i.role = 2) :
    gotPairState i s p = { s with clu := { s.clu with peerSwap := i.swapBuf } } := by
  rw [gotPairState_two peer role, if_neg (by rw [settled]; decide)]

end
end
end

/-! ### The stream and the digests on a standby (R554, R556 to R558) -/

section
variable (role : s.clu.role = 2) (peer : s.clu.peer = p)
include role peer

theorem gotStream_dispatch {d : PairDispatch} (dispatch : d.desc ≠ []) :
    gotStream d s p = { s with clu := { s.clu with stream := s.clu.stream ++ [.pairStream d] } } :=
  (fromActive_standby role peer _).trans (if_neg dispatch)

theorem gotAdmin_applies (empty : s.clu.stream = []) (o : PairOutcome) : gotAdmin o s p = applyAdmin s o :=
  (fromActive_standby role peer _).trans (if_pos (by rw [empty]; rfl))

theorem gotAdmin_queues (behind : s.clu.stream ≠ []) (o : PairOutcome) :
    gotAdmin o s p = { s with clu := { s.clu with stream := s.clu.stream ++ [.pairAdmin o] } } :=
  (fromActive_standby role peer _).trans (if_neg (by rw [List.isEmpty_eq_false_iff.mpr behind]; decide))

theorem gotAbort_early {q n : W64} (unstarted : fwdYoke s q = none) (waits : s.clu.stream.any (isDispatch q) = true) :
    gotAbort q n s p = { s with clu := { s.clu with aborts := s.clu.aborts ++ [(q, n)] } } := by
  simp only [gotAbort, fromActive_standby role peer, unstarted, waits, if_true]

theorem gotDigest_standby (f : W64) (n : Nat) (d : Bytes) :
    gotDigest f n d s p = digestCheck { s with clu := { s.clu with heldDig := s.clu.heldDig ++ [(f, n, d)] } } := by
  have mirror : standby s = true := by rw [standby, role]; rfl
  rw [gotDigest, if_neg (not_not_intro peer), if_pos mirror]

/-- The new active tests its host side (Table 15.8). -/
theorem gotSwap_tests :
    let c := cluFlag (drawn (swapTest s).1 1) 5
    gotSwap s p = if Config.freeBool (s.free + 4096) then openAll { c with clu := { c.clu with
        role := 1, swapTest := 1, seq := 0, batch := 0, digests := [], closed := [], sent := [], lastHb := c.now } }
      else { c with clu := { c.clu with swapTest := 2 } } :=
  fromActive_standby role peer _

end

/-! ### Digests and acknowledgements on the active (R557 to R559) -/

theorem gotPairAck_suspect (suspect : s.clu.suspect = true) (f : W64) (n : Nat) : gotPairAck f n s p = s :=
  if_pos (.inr (.inr (.inl suspect)))

section
variable (role : s.clu.role = 1) (peer : s.clu.peer = p) {f : W64} {n : Nat}
include role peer

theorem gotDigest_active (d : Bytes) : gotDigest f n d s p = if batchDigest s f n ≠ some d then diverge s f else s := by
  have real : ¬ standby s = true := by rw [standby, role]; decide
  rw [gotDigest, if_neg (not_not_intro peer), if_neg real]
  simp only [role, true_and]

theorem gotPairAck_covers (trusted : s.clu.suspect = false) (sent : (f, n) ∈ s.clu.sent) :
    let w := forgetBatch { s with clu := { s.clu with sent := s.clu.sent.filter (· != (f, n)), acked := f } } f n
    gotPairAck f n s p =
      { w with plots := tmap Plot.zero (fun p pl => { pl with covered := coveredOf w p pl }) w.plots } :=
  if_neg (by simp [role, peer, trusted, sent])

end

/-! ### Packed frames (R533) -/

theorem packed_unpacks {h : Hdr} (accepted : FrameIn s h) {l : List Msg}
    (v2 : 2 ≤ ((frameTaken s h h.ackReq).sess h.src.toNat).ver.toNat) (few : l.length ≤ 16) :
    exec (.packed h l) s = .next (l.foldl (fun s m => gotMsg s h.src.toNat m) (frameTaken s h h.ackReq)) :=
  congrArg Host.Outcome.next ((receive_in accepted _).trans ((inV2_runs v2 _).trans (if_pos few)))

theorem packed_drops {h : Hdr} (accepted : FrameIn s h) {l : List Msg}
    (v1 : ((frameTaken s h h.ackReq).sess h.src.toNat).ver.toNat < 2) :
    exec (.packed h l) s = .next (frameTaken s h h.ackReq) :=
  congrArg Host.Outcome.next ((receive_in accepted _).trans (inV2_drops v1 _))

/-! ### The times of a pair (R557, R560, R561, Table 15.7) -/

theorem heartbeatSend_sends {k : PortId} (paired : s.clu.role ≠ 0) (up : (s.sess s.clu.peer).hs = .up)
    (live : portUp s k.val = true) :
    let x := s.sess s.clu.peer
    exec (.heartbeatSend k) s = .next ((emit s (.frame k.val s.clu.peer (frameHead s k.val s.clu.peer 0x10 x.ver x.kph false)
      (x.txSeq + 1) (.heartbeat (s.clu.seq - 1) s.clu.acked))).setSess s.clu.peer { x with txSeq := x.txSeq + 1 }) :=
  congrArg Host.Outcome.next (if_neg (not_or_intro paired (not_or_intro (not_not_intro up) (by rw [live]; decide))))

theorem batchClose_closes (active : s.clu.role = 1) (filled : s.clu.seq ≠ s.clu.batch) :
    exec .batchClose s = .next (sendDigests { s with clu := { s.clu with
      closed := s.clu.closed ++ [(s.clu.batch, (s.clu.seq - s.clu.batch).toNat)], batch := s.clu.seq } }) := by
  have holds : (s.clu.seq - s.clu.batch).toNat ≠ 0 := fun none => filled (by bv_omega)
  exact congrArg Host.Outcome.next ((if_pos active).trans (if_neg holds))

theorem standbyTakeover_decides (role : s.clu.role = 2) : exec .standbyTakeover s =
    .next (if s.clu.suspect || s.clu.hold then
        cluFlag { silence500 s with clu := { (silence500 s).clu with role := 3 } } 5
      else leavePair (silence500 s)) :=
  congrArg Host.Outcome.next (if_neg (not_not_intro role))

theorem activeUnpair_leaves (active : s.clu.role = 1) : exec .activeUnpair s = .next (leavePair (silence500 s)) :=
  congrArg Host.Outcome.next (if_pos active)

/-! ### The end of the copy (R553, Table 15.6) -/

section
variable (syncing : s.clu.syncing = true)
include syncing

theorem pairCopyDone_active {d : Adm} (admin : s.clu.pairAdm = some d) (willing : s.clu.willing = true) (c : PairCopy) :
    exec (.pairCopyDone c) s = .next (admOk (coverAll (beginPair s 1)) d) := by
  simp [exec_pairCopyDone, execPairCopyDone, syncing, admin, willing]

theorem pairCopyDone_standby (none : s.clu.pairAdm = none) (c : PairCopy) :
    exec (.pairCopyDone c) s = .next (beginPair (takeCopy s c) 2) := by
  simp [exec_pairCopyDone, execPairCopyDone, syncing, none]

end

/-! ### The planned swap (Table 15.8) -/

section
variable {d : Adm} (swap : s.lcs.change = .swap d)
include swap

theorem swapPlotsStopped_back (unfit : s.clu.role ≠ 1 ∨ s.clu.suspect = true) (b : Bool) :
    exec (.swapPlotsStopped b) s = .next (swapBack s d) := by
  rw [exec_swapPlotsStopped, execSwapPlotsStopped, swap]
  exact congrArg _ (if_pos (by simpa using unfit))

variable (active : s.clu.role = 1) (trusted : s.clu.suspect = false)
include active trusted

theorem swapPlotsStopped_stops (running : allStopped s = false) (b : Bool) :
    exec (.swapPlotsStopped b) s = .next (beginChange s (.swap d)) := by
  simp [exec_swapPlotsStopped, execSwapPlotsStopped, swap, active, trusted, running]

variable (stopped : allStopped s = true)
include stopped

theorem swapPlotsStopped_closes (unacked : allAcked s = false) (b : Bool) :
    exec (.swapPlotsStopped b) s = .next (closeBatch s) := by
  simp [exec_swapPlotsStopped, execSwapPlotsStopped, swap, active, trusted, stopped, unacked]

theorem swapPlotsStopped_tests (acked : allAcked s = true) (b : Bool) :
    let w := sendMsg s s.clu.peer .pairSwap
    exec (.swapPlotsStopped b) s =
      .next (if b then admOk (becomeStandby { w with lcs := { w.lcs with change := .none } }) d
        else swapBack { w with clu := { w.clu with swapTest := 2 } } d) := by
  simp [exec_swapPlotsStopped, execSwapPlotsStopped, swap, active, trusted, stopped, acked]

end

/-! ### The obligation -/

/-- Settles O46, message by message and time by time. That the active learns of a mismatch from the standby's own digest is
the model's choice (log 70); that the sequence restarts at a swap and that its test's outcome is free are its readings
(log 73), as are the forwarded outcomes' course (log 74). -/
theorem yokedPairs : Obligations.YokedPairs := by
  unfold Obligations.YokedPairs
  refine ⟨fun s h accepted => ?messages, fun s => ?times⟩
  case messages =>
    intro p t standbyOf
    have meets : ∀ {run : State → Nat → State} {u : State}, run t p = u →
        Host.Outcome.next (receive s h run) = (.next u : Res) := fun e => congrArg _ ((receive_in accepted _).trans e)
    refine ⟨fun a b paired peer => meets (gotHeartbeat_paired paired peer),
      fun i role peer settled paired => meets (gotPairState_ends peer settled role paired),
      fun i role => meets (gotPairState_asks role), fun i d role peer waits => meets (gotPairState_refuses peer waits role),
      fun i d role peer waits => ?agrees, fun i role peer settled => meets (gotPairState_reports peer settled role),
      fun d ⟨role, peer⟩ dispatch => meets (gotStream_dispatch role peer dispatch),
      fun o ⟨role, peer⟩ empty => meets (gotAdmin_applies role peer empty o),
      fun o ⟨role, peer⟩ behind => meets (gotAdmin_queues role peer behind o),
      fun q n ⟨role, peer⟩ unstarted waits => meets (gotAbort_early role peer unstarted waits),
      fun f n d ⟨role, peer⟩ => meets (gotDigest_standby role peer f n d), fun f n d role peer => ?digest,
      fun f n role peer suspect => meets (gotPairAck_suspect suspect f n),
      fun f n role peer trusted sent => meets (gotPairAck_covers role peer trusted sent), fun ⟨role, peer⟩ => ?swap,
      fun l v2 few => packed_unpacks accepted v2 few, fun l v1 => packed_drops accepted v1⟩
    case agrees =>
      have decides := gotPairState_agrees peer waits role
      exact ⟨fun alike => meets (decides.trans (if_pos alike)),
        fun unlike => meets (decides.trans (if_neg (by rw [unlike]; decide)))⟩
    case digest =>
      have decides := gotDigest_active role peer (f := f) (n := n) d
      exact ⟨fun same => meets (decides.trans (if_neg (not_not_intro same))), fun other => meets (decides.trans (if_pos other))⟩
    case swap =>
      have decides := gotSwap_tests role peer
      exact ⟨fun passes => meets (decides.trans (if_pos passes)),
        fun fails => meets (decides.trans (if_neg (by rw [fails]; decide)))⟩
  case times =>
    intro late x
    refine ⟨fun k paired up live => heartbeatSend_sends paired up live, fun active filled => batchClose_closes active filled,
      fun role => ?takeover, fun active => activeUnpair_leaves active,
      fun c d syncing admin willing => pairCopyDone_active syncing admin willing c,
      fun c syncing none => pairCopyDone_standby syncing none c, fun d swap unfit b => swapPlotsStopped_back swap unfit b,
      fun d swap active trusted => ⟨swapPlotsStopped_stops swap active trusted,
        fun stopped unacked => swapPlotsStopped_closes swap active trusted stopped unacked⟩,
      fun d swap active trusted stopped acked => ?tests⟩
    case takeover =>
      rw [standbyTakeover_decides role]
      exact ⟨fun held => congrArg _ (if_pos (by simpa using held)),
        fun trusted free => congrArg _ (if_neg (by rw [trusted, free]; decide))⟩
    case tests =>
      have decides := swapPlotsStopped_tests swap active trusted stopped acked
      exact ⟨decides true, decides false⟩

end Sys2Proof.Machine
end
